-- ==== Sys2Proof/Word.lean ====
section
/-! DEFINITION. The word types of the SX4 model and the sparse map by which it holds large memories as plain data. -/

namespace Sys2Proof

abbrev Byte := BitVec 8
abbrev Word32 := BitVec 32
abbrev Word64 := BitVec 64

/-- A command packet: 64 bytes, byte 0 in bits [7:0] (R13, R413). -/
abbrev PacketBits := BitVec 512

/-- A mask over the 256 requests of a batch, bit `i` for request `i` (R125). -/
abbrev Mask := BitVec 256

/-- A sparse map as plain data: rising keys, no entry equal to what an unlisted key reads as. -/
abbrev SMap (α : Type) := List (Nat × α)

end Sys2Proof
end

