-- ==== Sys2Proof/Machine/Types.lean ====
section
/-! DEFINITION. Types that both the commands and the state use: what a core instruction is, what a command or an event carries. -/

namespace Sys2Proof

/-- A core as its context sees it: context 1-255, main or sketch run, LCORE of that run (R139, R233). -/
structure CoreRef where
  ctx : Nat
  sketch : Bool
  lcore : Nat
deriving DecidableEq, Repr

/-- Scalar functions 0x10-0x1C (Table 4-7). -/
inductive AluOp | add | sub | and | or | xor | shl | shr | sra | mul | min | max | slt | sltu
deriving DecidableEq, Repr

/-- Scalar immediate functions 0x20-0x26, 0x28-0x2A (Table 4-7); LI stands alone. -/
inductive AluIOp | addi | andi | ori | xori | shli | shri | srai | lui | slti | sltui
deriving DecidableEq, Repr

/-- Compare-and-branch functions 0x30-0x35 (Table 4-9). -/
inductive BrOp | beq | bne | blt | bge | bltu | bgeu
deriving DecidableEq, Repr

/-- Element-wise functions 0x70-0x76 (Table 4-16). -/
inductive EwOp | add | sub | mul | max | min | scale | cvt
deriving DecidableEq, Repr

/-- Fields of MMA and MMA.ACC (Table 4-15); `m1`, `k1`, `n1`, `cnt1` hold the value less one. -/
structure MmaF where
  pair : BitVec 3
  ga : BitVec 2
  gb : BitVec 2
  stepG : Bool
  m1 : BitVec 8
  k1 : BitVec 10
  n1 : BitVec 8
  bank : BitVec 2
  cnt1 : BitVec 2
  af8 : Bool
  bf8 : Bool
deriving DecidableEq, Repr

/-- Fields of an element-wise instruction (Table 4-16). -/
structure EwF where
  s1k : BitVec 2
  s1 : BitVec 2
  s2k : BitVec 2
  s2 : BitVec 2
  kreg : BitVec 5
  tin : BitVec 3
  tout : BitVec 3
  dk : BitVec 2
  d : BitVec 2
  itype : Bool
  len1 : BitVec 16
  pal : BitVec 8
  srnd : Bool
  stepG : Bool
deriving DecidableEq, Repr

/-- Fields of CHAIN (Table 4-17). -/
structure ChainF where
  chain : BitVec 8
  bank : BitVec 2
  cnt1 : BitVec 2
  go : BitVec 2
  gx1 : BitVec 2
  gx2 : BitVec 2
  gxo : BitVec 2
  stepG : Bool
  layout : Bool
  m1 : BitVec 8
  n1 : BitVec 8
  first : Bool
  last : Bool
  ppair : BitVec 3
deriving DecidableEq, Repr

/-- Fields of LDMA (Table 4-11). -/
structure LdmaF where
  dir : BitVec 2
  sg : BitVec 2
  dg : BitVec 2
  bank : BitVec 2
  stepG : Bool
  lines1 : BitVec 12
deriving DecidableEq, Repr

/-- One decoded instruction word of an MX core (classes 0x0-0x9, Table 4-3). -/
inductive CoreInstr
  | nop | halt
  | yield (untilFrame : Bool)
  | atom (n1 : BitVec 5)
  | alu (op : AluOp) (rd rs1 rs2 : BitVec 5)
  | mfs (rd : BitVec 5) (n : BitVec 3)
  | mfa (rd : BitVec 5) (g : BitVec 2)
  | alui (op : AluIOp) (rd rs1 : BitVec 5) (imm : Word32)
  | li (rd : BitVec 5) (imm : Word32)
  | br (op : BrOp) (rs1 rs2 : BitVec 5) (tgt : Word32)
  | dbnz (rs1 : BitVec 5) (tgt : Word32)
  | jmp (tgt : Word32)
  | call (tgt : Word32)
  | jr (rs1 : BitVec 5)
  | ret
  | ldl (q : BitVec 3) (g : BitVec 2) (stepG : Bool)
  | stl (q : BitVec 3) (g : BitVec 2) (stepG : Bool)
  | seta (rs : BitVec 5) (g : BitVec 2) (field : BitVec 3)
  | ldma (f : LdmaF)
  | cdma (q : BitVec 3) (t : BitVec 2)
  | waitd (rd : BitVec 5) (t : BitVec 2)
  | preq (rs : BitVec 5) (q : BitVec 3)
  | mma (acc : Bool) (f : MmaF)
  | ew (op : EwOp) (f : EwF)
  | chain (f : ChainF)
  | fence
  | bar (id : BitVec 3)
  | xbar (id : BitVec 2)
  | fset (flag : BitVec 5)
  | fclr (flag : BitVec 5)
  | fwait (flag : BitVec 5)
deriving DecidableEq, Repr

/-- What start-up finds on the part (R493): the outside's answer to the tests the sequence runs. -/
structure StartReport where
  mediaBad : Bool                 -- a package fails R245
  mediaUnit : Nat                 -- its channel * 3 + package, for the error log
  hbmBad : Bool                   -- a stack fails training
  variantBad : Bool               -- VARIANT disagrees with the parts found (R494)
  failRows : List (Nat × Nat)     -- cores (cluster * 100 + core) whose self-test finds a failing row (R95)
deriving DecidableEq, Repr

/-- A memory of Table 10-1 as its reader names it. `hbm` is a stack where no object's copy lies; `idle` the memories of a cluster that
no resident context holds. -/
inductive CodeMemory
  | t0 (core : CoreRef) | istore (core : CoreRef) | banks (core : CoreRef)
  | t1 (ctx lcluster : Nat)
  | t2 (obj : Nat)
  | hbm (stack : Nat)
  | idle (cluster : Nat)
  | staging (tag : Nat)
  | control
  | embedded (otp : Bool)
deriving DecidableEq, Repr

/-- What a code-word read finds (R304, R308). -/
inductive CodeState | good | correctable | uncorrectable
deriving DecidableEq, Repr

/-- A raw error in a stored code word (Table 10-1): wrong bits, wrong bytes, a failed ×8 lane of HBM, a wrong line address. -/
inductive RawError
  | bits (n : Nat)
  | bytes (n : Nat)
  | lane
  | lineAddress
  | known                          -- uncorrectable, and entered in the error log
deriving DecidableEq, Repr

/-- An upset: a code word that comes to hold a raw error; `word` counts code words of the memory (log entry 97). -/
structure Upset where
  mem : CodeMemory
  word : Nat
  err : RawError
deriving DecidableEq, Repr

/-- What the meters report at a frame tick (R478, R480, R500, R504). -/
structure TickSample where
  avgW : Nat
  peakW : Nat
  computeW : Nat
  idleW : Nat
  dutySum : Nat                   -- integral of the duty over the frame, in duty times `elapsed`
  elapsed : Nat                   -- length of the frame in the same unit
  temps : List Byte               -- bytes 64-115 of the TEMPERATURE page, the hottest die sensor first
  energyMj : Nat
  arithOps : List Nat             -- operations by row of Table 1-5 (log entry 23)
  hbmBytes : Nat
  flashBytes : Nat
  ringBytes : Nat
  hostBytes : Nat
  scanBytes : Nat
  lockErr : BitVec 16             -- last measured tick error, ns (R37)
  upsets : List Upset := []       -- raw errors that memories have suffered since the last tick (log entry 97)
deriving DecidableEq, Repr

/-- A field of the configuration header or of a standard capability that a configuration write can change (R392-R395). -/
inductive ConfigField
  | command (v : BitVec 16)
  | powerState (v : BitVec 2)
  | interruptLine (v : Byte)
  | bar0 (v : Word64)
  | deviceControl (v : BitVec 16)
  | tenBitTag (v : Bool)
  | aerUncor (w1c : Word32)
  | aerCor (w1c : Word32)
deriving DecidableEq, Repr

/-- One identity memory of a chain as read on the bus: its 64 bytes (Table 12-2), or none where no memory answers. -/
abbrev IdRecord := Option (List Byte)

/-- A flit (Table 12-4): its header fields and its 248 bytes of payload. -/
structure Flit where
  typ : Nat                       -- 0 IDLE, 1 DATA, 2 TICK, 3 CONTROL
  vc : Nat := 0
  poison : Bool := false
  first : Bool := false
  last : Bool := false
  seq : Byte := 0
  ack : Byte := 0
  nak : Bool := false
  cvc : Nat := 0
  cred : Nat := 0
  payload : List Byte := []
deriving DecidableEq, Repr

/-- A message of the CONTROL exchange of streams (R362): what it asks, answers or ends. The layout of its bytes is the model's (log entry
25). -/
inductive ConnectMsg
  | ask (fromCtx fromStream ctx stream : Nat)   -- the peer's SEND stream asks for this RECEIVE stream
  | accept (ctx stream window : Nat)            -- this SEND stream is joined to a landing window of that many bytes
  | refuse (ctx stream : Nat)
  | broken (ctx stream : Nat)                   -- the peer's end of this stream has gone
deriving DecidableEq, Repr

/-- The payload of a TICK flit (Table 12-5). -/
structure TickPayload where
  frame : Word64
  periodUs : Nat
  nextUs : Nat
  ring : Nat
  hops : Nat
  masterUid : Word64
  accDelayNs : Nat
  viaDn : Bool                    -- the port the copy arrived on
  errNs : Int                     -- local tick error against the corrected master tick, ns (R359)
deriving DecidableEq, Repr

/-- What a die read delivers (R246, Table 8-9): nothing wrong, 4 KiB codewords that needed soft decoding, or uncorrectable ones. -/
inductive ReadResult
  | clean
  | soft (codewords : List Nat)
  | uncorrectable (codewords : List Nat)
deriving DecidableEq, Repr


/-- An access of a supervisor processor to its address space (R428, Table 16-1). -/
inductive SpAccess
  | load (addr len : Nat)
  | store (addr : Nat) (data : List Byte)
  | fetch (addr : Nat)
deriving DecidableEq, Repr

/-- Duties a firmware exception can strike (Table 10-3, R310, R340). -/
inductive Duty
  | restartable
  | context (ctx : Nat)
  | flashMap
  | module
deriving DecidableEq, Repr

/-- A firmware exception: the duty it strikes and, where a processor's access raises it, that access (R306, R310, R428). -/
structure SpEvent where
  duty : Duty
  access : Option SpAccess := none
deriving DecidableEq, Repr

/-- What suspends an erase of the embedded flash: the command SUSPEND, or a processor's access to a word of the array (R437). -/
inductive Suspender
  | command (sp : Nat)
  | fetch (sp : Nat) (word : BitVec 20)
deriving DecidableEq, Repr

/-- The end of map recovery: how long it took, and the wordlines, by channel, die, superblock and position, that the full scan could not
read (R277). -/
structure MapReport where
  ms : Nat
  unreadable : List (Nat × Nat × Nat × Nat) := []
deriving DecidableEq, Repr

/-- What the LDPC engine found in a granule read for a query: codewords it declared uncorrectable, data 0-15 and metadata 16-19, and those
that needed soft decoding (R269, R297). -/
structure PageRead where
  bad : List Nat := []
  soft : List Nat := []
deriving DecidableEq, Repr

/-- A flit as it arrives: its 256 bytes after the FEC, the wrong symbols of its codeword, and the time in ms (R345, R349, R354). -/
structure FlitArrival where
  image : List Byte
  symbols : Nat := 0
  ms : Nat := 0
deriving DecidableEq, Repr

/-- A NAK as it arrives: the last good SEQ and the time in ms (R349, R357). -/
structure NakArrival where
  ack : Byte
  ms : Nat := 0
deriving DecidableEq, Repr

/-- Stream data with the module that sent it (R362). -/
structure StreamData where
  src : Word64
  bytes : List Byte
deriving DecidableEq, Repr

/-- An import request's sender, by position, and its number there (R355, R364). -/
structure ImportId where
  src : Nat
  index : Nat
deriving DecidableEq, Repr

end Sys2Proof
end

