-- ==== Sys2Proof/Syntax.lean ====
section
/-! DEFINITION. The commands of the block: one constructor per row of the opcode table.
A host opcode takes the device tag of the accepted command whose packet holds its operands; an MX core instruction takes its core
and its fields; an event takes what the outside of the module reports with it (log entry 1). -/

namespace Sys2Proof

/-- The 226 rows of the opcode table. -/
inductive Instr
  /-- R473: Standby power is applied: D0 starts, the frame counter is 0 and the reset cause is POWER_ON. -/
  | powerOn
  /-- R473: Loss of standby power removes every domain at once; the next start is a power-on. -/
  | standbyLoss
  /-- R474: PG_IN is deasserted or the main rail leaves its limits while D1 is powered; the module resets with cause MAIN_LOSS. -/
  | mainLoss
  /-- R511: MATE# is deasserted with D1 powered; the module closes every easel, turns off D1–D29 within 100 µs and treats the event as a main loss. -/
  | mateDeasserted
  /-- R511: MATE# has been asserted continuously for 100 ms, so the main rail may now feed domains. -/
  | mateHeld
  /-- R490: PERST# asserted outside S3 resets the module; deasserted in S3 it is an S3 exit. -/
  | perst (asserted : Bool)
  /-- R490: A PCIe hot reset resets the module through the start-up sequence. -/
  | hotReset
  /-- R490: A PCIe link-down event resets the module. -/
  | linkDown
  /-- R493: At the start trigger the mask ROM runs, chooses and verifies the image, powers the domains, runs the self-test and trains the flash and HBM. -/
  | startUp (r : StartReport)
  /-- R472: Every SRAM and every HBM byte has been zeroed, and DEV_STATE leaves GESSO for REBUILDING. -/
  | gessoPassComplete
  /-- R277: The flash map has been rebuilt from the checkpoint or by the full scan, and DEV_STATE becomes READY. -/
  | mapRecoveryComplete (r : MapReport)
  /-- R466: Every programmed superblock has been erased after key destruction, and the map, objects and contexts start empty. -/
  | sanitisingEraseComplete
  /-- R394: A PCIe configuration write changes Memory Space Enable, Bus Master Enable, the power state or other header fields. -/
  | configWrite (f : ConfigField)
  /-- R395: A completion timeout, UR or CA completion on host DMA ends its command with HOST_DMA_ERROR. -/
  | hostDmaError (tag offset : Nat)
  /-- R309: Data that arrives with the EP bit set is stored poisoned, and its command completes with MEDIA_ERROR. -/
  | poisonedTlpReceived (tag : Nat)
  /-- R398: A write of GO copies TASK_PKT, sets STATE BUSY and advances GO_SEQ, or is ignored while BUSY. -/
  | go (value : Word32)
  /-- R400: The copied packet is rejected with a REASON or accepted with the next device tag. -/
  | packetAcceptance
  /-- R47: A read of FRAME_LO captures all 64 bits of the frame counter for a following FRAME_HI read. -/
  | frameLoRead
  /-- R396: An 8-byte read at 0x0000_0204 captures the counter and returns both halves of the capture. -/
  | frameWideRead
  /-- R403: A write that sets ENABLE from 0 to 1 resets TAIL, HEAD and PHASE, unless LOG2_SIZE is out of range. -/
  | statusRingEnable (value : Word32)
  /-- R407: A change of HB_ENABLE from 0 to 1 starts a fresh heartbeat interval. -/
  | hbEnableWrite (value : Word32)
  /-- R16: A host write to any other BAR0 register field acts by its access code. -/
  | bar0RegisterWrite (offset size : Nat) (value : Word64)
  /-- R410: At a release opportunity the arbiter releases the waiting commands to their units in URGENT-then-weighted order. -/
  | commandRelease
  /-- R419: Writes the 4,096-byte IDENTIFY data to the host buffer. -/
  | identify (tag : Nat)
  /-- R495: Writes part of one log page, from one snapshot, to the host buffer. -/
  | getLog (tag : Nat)
  /-- R40: Sets the frame period and the deadline percentage, to take effect two frames later. -/
  | setFeatureFrame (tag : Nat)
  /-- R178: Writes palette entries of a context at the next update point. -/
  | setFeaturePalette (tag : Nat)
  /-- R248: Sets the size of the logical-block space, trimming beyond a reduced end. -/
  | setFeatureBlockSpace (tag : Nat)
  /-- R366: Writes ENABLE and MASTER_PRI of one port pair. -/
  | setFeatureRing (tag : Nat)
  /-- R411: Sets the arbitration weights of HIGH, MEDIUM and LOW. -/
  | setFeatureArbitration (tag : Nat)
  /-- R483: Sets CAP_W and THROTTLE_C from the next tick. -/
  | setFeaturePowerCap (tag : Nat)
  /-- R506: Sets the efficiency basis, or clears the accumulated block at the next tick. -/
  | setFeatureEfficiencyBasis (tag : Nat)
  /-- R177: Writes the data of one feature, such as the palette records or a scrub group, to the host buffer. -/
  | getFeature (tag : Nat)
  /-- R445: Programs one chunk of a firmware image into the inactive slot, revoking and erasing the slot at offset 0. -/
  | fwDownload (tag : Nat)
  /-- R446: Verifies the downloaded image and programs SEQ, LENGTH and COMMIT. -/
  | fwCommit (tag : Nat)
  /-- R420: Commits the image, ends all other commands, writes the records and the checkpoint, and resets the module. -/
  | fwCommitReset (tag : Nat)
  /-- R421: Ends the one command whose device tag is TARGET_TAG. -/
  | abortOne (tag : Nat)
  /-- R421: Ends every outstanding command of the packet's context. -/
  | abortContext (tag : Nat)
  /-- R421: Ends every outstanding command of the module. -/
  | abortAll (tag : Nat)
  /-- R470: Checks an authorisation record and performs a lifecycle or read-out protection transition, ending in a reset. -/
  | lifecycle (tag : Nat)
  /-- R461: Writes a signed measurement record to the host buffer. -/
  | attest (tag : Nat)
  /-- R365: Refuses new transfers on a pair, stops sending, waits for messages in flight, then closes the easel. -/
  | portControlDisable (tag : Nat)
  /-- R365: Messages in flight have finished, or 100 µs have passed, and the easel of the disabled pair closes. -/
  | portDrainEnd (pair : Nat)
  /-- R365: Enables a pair and starts its identity checks. -/
  | portControlEnable (tag : Nat)
  /-- R486: SLEEP LEVEL 0 leaves S1 or S2, or completes at once in S0. -/
  | sleepS0 (tag : Nat)
  /-- R485: Requests entry to S1 at the first tick with no run and no other released command. -/
  | sleepS1 (tag : Nat)
  /-- R487: Requests entry to S2, saving contexts and putting HBM in self-refresh. -/
  | sleepS2 (tag : Nat)
  /-- R489: Ends other commands, writes the checkpoint, closes easels and powers off D1–D29. -/
  | sleepS3 (tag : Nat)
  /-- R485: At the first tick that meets its conditions, the module enters the requested sleep state and the SLEEP completes. -/
  | sleepEntry
  /-- R489: The S3 checkpoint is written, the easels are closed, D1–D29 are off and PG_OUT is deasserted. -/
  | s3Reached
  /-- R488: A ring message addressed to the module in S2 is dropped and starts the exit from S2. -/
  | s2Wake (vc : Nat)
  /-- R342: Stops planning slices on a domain, ends its runs by the second tick, swaps its contexts out and powers it off. -/
  | domainControlOff (tag : Nat)
  /-- R476: Powers a compute domain on and zeroes its T0 and T1. -/
  | domainControlOn (tag : Nat)
  /-- R476: The domain is in regulation and zeroed, and DOMAIN_CONTROL completes at the next tick. -/
  | domainPowerUpComplete (dom : Nat)
  /-- R319: Defines a context with its parameters, initial quotas, reset palette and PARITY 0. -/
  | ctxCreate (tag : Nat)
  /-- R342: Ends a context's commands, wipes its state and deletes its objects. -/
  | ctxDestroy (tag : Nat)
  /-- R217: Sets a context's quotas in the tiers named by MASK. -/
  | ctxQuota (tag : Nat)
  /-- R109: Checks a program image and loads it into every allocated core. -/
  | progLoad (tag : Nat)
  /-- R231: Declares or clears a context's sketch path. -/
  | ctxFallback (tag : Nat)
  /-- R203: Creates a PERSISTENT, SCRATCH or IMPORT object. -/
  | objCreate (tag : Nat)
  /-- R213: Sets whether an object has a T2 copy and sets or removes its T1 binding. -/
  | objPlace (tag : Nat)
  /-- R207: Writes host data to an object's home and copy at the next update point. -/
  | objWrite (tag : Nat)
  /-- R208: Returns an object's T2 copy, or its home, to the host. -/
  | objRead (tag : Nat)
  /-- R220: Sets the pin level of an object's copies. -/
  | objPin (tag : Nat)
  /-- R209: Evicts copies of an object, writing a DIRTY copy back when asked. -/
  | objEvict (tag : Nat)
  /-- R205: Deletes an object at the next update point, with a tombstone for PERSISTENT and IMPORT objects. -/
  | objDelete (tag : Nat)
  /-- R424: Copies the input and runs a fixed batch, completing when its runs halt. -/
  | batchSubmit (tag : Nat)
  /-- R425: Runs a pipelined batch that waits for an answer-line token from a later run. -/
  | batchSubmitPipe (tag : Nat)
  /-- R381: Starts a training-step run, fixes its bucket set and writes the step line. -/
  | stepRun (tag : Nat)
  /-- R384: Voids a running step or revokes the last committed step. -/
  | stepVoid (tag : Nat)
  /-- R247: Reads logical blocks to the host. -/
  | blkRead (tag : Nat)
  /-- R256: Writes logical blocks through the SLC buffer. -/
  | blkWrite (tag : Nat)
  /-- R255: Trims logical-block granules by writing tombstones. -/
  | blkTrim (tag : Nat)
  /-- R256: Completes once every earlier write has completed. -/
  | blkFlush (tag : Nat)
  /-- R300: Filters and projects an object's records through the scan units and returns them. -/
  | scan (tag : Nat)
  /-- R291: Scores records against queries and returns the top K entries per query. -/
  | vsearch (tag : Nat)
  /-- R301: Passes the passing records in batches to runs of the context's program. -/
  | embed (tag : Nat)
  /-- R370: Opens reduction buckets from a bucket list. -/
  | redOpen (tag : Nat)
  /-- R387: Frees a range of tags, failing any that are open. -/
  | redClose (tag : Nat)
  /-- R388: Writes a status record per tag to the host buffer. -/
  | redStatus (tag : Nat)
  /-- R317: Sets ENABLE and PERIOD_S of a scrub group at the next tick. -/
  | scrubSet (tag : Nat)
  /-- R272: Reads one raw flash page to the host. -/
  | rawRead (tag : Nat)
  /-- R49: A frame tick advances the counter, updates palettes and the power cap, starts runs and swaps, and opens the status-write window. -/
  | frameTick (x : TickSample)
  /-- R405: The read-back of the last record completes and TAIL advances. -/
  | statusReadbackComplete
  /-- R407: HB_INTERVAL frames have passed, and a HEARTBEAT record is due. -/
  | heartbeatDue
  /-- R329: The plan of the next frame closes, and the scheduler chooses victims and issues swaps. -/
  | framePlanClose
  /-- R51: The deadline monitor takes the residency snapshot and marks requests for the sketch path. -/
  | deadlineSnapshot
  /-- R55: At a 2,500 µs report point, the records of a finished ABORT are written. -/
  | reportPoint
  /-- R359: A TICK flit arrives, is forwarded, and locks or slews the module's tick. -/
  | tickReceived (pair : Nat) (p : TickPayload)
  /-- R45: Three expected tick markers have not arrived; the module holds over and reselects its source. -/
  | tickLoss
  /-- R332: A planned slice begins, switching the core state of the incoming context. -/
  | sliceStart (ctx : Nat)
  /-- R130: A slice ends; the sequencer stops at a preemption point, withdraws queued array work and pauses transfers. -/
  | sliceEnd (ctx overrunNs : Nat)
  /-- R326: A swap-in or swap-out of one domain finishes, and the next queued swap starts. -/
  | swapDomainComplete (saveError : Bool)
  /-- R339: A run has not halted after RUN_FRAMES ticks, and its context faults. -/
  | runTimeout (ctx : Nat)
  /-- R425: A waiting PIPE batch not answered within RUN_FRAMES completes with RUN_TIMEOUT. -/
  | pipeBatchTimeout (tag : Nat)
  /-- R340: The save area has been zeroed, and the context may be made resident again. -/
  | teardownComplete (ctx : Nat)
  /-- R481: A 100 µs window whose average exceeds CAP_W lowers the duty by one. -/
  | powerWindowEnd (avgW : Nat)
  /-- R481: A 1 µs sample above 4,000 W sets the duty to 0, and a sample below CAP_W restores it. -/
  | powerSample (watts : Nat)
  /-- R484: An over-temperature held for 10 ms puts the module into FAULT. -/
  | thermalFault
  /-- R484: A rail or converter fault puts the module into FAULT. -/
  | powerFault
  /-- R310: A supervisor exception restarts its duty, faults a context or sets DEV_STATE FAULT. -/
  | firmwareException (sp : Nat) (x : SpEvent)
  /-- R448: A processor writes KEY 0xA5, and the counter reloads when all eight have kicked. -/
  | wdtKick (sp : Nat) (key : Byte)
  /-- R448: At half the period, processors that have not kicked are recorded in LATE. -/
  | wdtHalfPeriod
  /-- R449: The watchdog reaches 0 and resets the module with cause WATCHDOG. -/
  | wdtExpiry
  /-- R441: A processor takes or frees the embedded-flash controller by writing OWNER. -/
  | efcLock (sp : Nat) (owner : BitVec 4)
  /-- R434: Programs one embedded-flash word, refusing any bit rise. -/
  | efProgram (sp : Nat) (word : BitVec 20) (otp : Bool) (data : Word64)
  /-- R437: Starts a sector erase of the embedded flash. -/
  | efErase (sp : Nat) (word : BitVec 20) (otp : Bool)
  /-- R437: Suspends the active erase. -/
  | efSuspend (x : Suspender)
  /-- R438: Resumes the suspended erase. -/
  | efResume (sp : Nat)
  /-- R436: Programs every remaining 1 of an uncorrectable word to 0. -/
  | efPoison (sp : Nat) (word : BitVec 20) (otp : Bool)
  /-- R441: An embedded-flash program or erase completes and sets DONE or PROG_FAIL. -/
  | efOperationDone (verifyFail : Bool)
  /-- R113: Does nothing. -/
  | nop (c : CoreRef)
  /-- R111: Stops the core for the rest of the run; when all cores have halted, the run ends and the answer line is read. -/
  | halt (c : CoreRef)
  /-- R130: Ends the core's part of the slice until its next slice or frame. -/
  | yield (c : CoreRef) (untilFrame : Bool)
  /-- R131: Makes the next N instructions one atomic run. -/
  | atom (c : CoreRef) (n1 : BitVec 5)
  /-- R115: Writes RS1 + RS2 modulo 2^64 to RD. -/
  | add (c : CoreRef) (rd rs1 rs2 : BitVec 5)
  /-- R115: Writes RS1 − RS2 to RD. -/
  | sub (c : CoreRef) (rd rs1 rs2 : BitVec 5)
  /-- R115: Writes RS1 AND RS2 to RD. -/
  | and (c : CoreRef) (rd rs1 rs2 : BitVec 5)
  /-- R115: Writes RS1 OR RS2 to RD. -/
  | or (c : CoreRef) (rd rs1 rs2 : BitVec 5)
  /-- R115: Writes RS1 XOR RS2 to RD. -/
  | xor (c : CoreRef) (rd rs1 rs2 : BitVec 5)
  /-- R115: Shifts RS1 left by RS2[5:0]. -/
  | shl (c : CoreRef) (rd rs1 rs2 : BitVec 5)
  /-- R115: Shifts RS1 logically right by RS2[5:0]. -/
  | shr (c : CoreRef) (rd rs1 rs2 : BitVec 5)
  /-- R115: Shifts RS1 arithmetically right by RS2[5:0]. -/
  | sra (c : CoreRef) (rd rs1 rs2 : BitVec 5)
  /-- R115: Writes the low 64 bits of RS1 × RS2. -/
  | mul (c : CoreRef) (rd rs1 rs2 : BitVec 5)
  /-- R115: Writes the signed minimum of RS1 and RS2. -/
  | min (c : CoreRef) (rd rs1 rs2 : BitVec 5)
  /-- R115: Writes the signed maximum of RS1 and RS2. -/
  | max (c : CoreRef) (rd rs1 rs2 : BitVec 5)
  /-- R115: Writes 1 if RS1 < RS2, signed. -/
  | slt (c : CoreRef) (rd rs1 rs2 : BitVec 5)
  /-- R115: Writes 1 if RS1 < RS2, unsigned. -/
  | sltu (c : CoreRef) (rd rs1 rs2 : BitVec 5)
  /-- R139: Reads a special register into RD. -/
  | mfs (c : CoreRef) (rd : BitVec 5) (n : BitVec 3)
  /-- R117: Reads a generator's ADDR into RD. -/
  | mfa (c : CoreRef) (rd : BitVec 5) (g : BitVec 2)
  /-- R115: Writes RS1 + IMM. -/
  | addi (c : CoreRef) (rd rs1 : BitVec 5) (imm : Word32)
  /-- R115: Writes RS1 AND IMM. -/
  | andi (c : CoreRef) (rd rs1 : BitVec 5) (imm : Word32)
  /-- R115: Writes RS1 OR IMM. -/
  | ori (c : CoreRef) (rd rs1 : BitVec 5) (imm : Word32)
  /-- R115: Writes RS1 XOR IMM. -/
  | xori (c : CoreRef) (rd rs1 : BitVec 5) (imm : Word32)
  /-- R115: Shifts RS1 left by IMM. -/
  | shli (c : CoreRef) (rd rs1 : BitVec 5) (imm : Word32)
  /-- R115: Shifts RS1 logically right by IMM. -/
  | shri (c : CoreRef) (rd rs1 : BitVec 5) (imm : Word32)
  /-- R115: Shifts RS1 arithmetically right by IMM. -/
  | srai (c : CoreRef) (rd rs1 : BitVec 5) (imm : Word32)
  /-- R115: Loads the sign-extended IMM. -/
  | li (c : CoreRef) (rd : BitVec 5) (imm : Word32)
  /-- R115: Places IMM in the upper half over RS1's lower half. -/
  | lui (c : CoreRef) (rd rs1 : BitVec 5) (imm : Word32)
  /-- R115: Writes 1 if RS1 < IMM, signed. -/
  | slti (c : CoreRef) (rd rs1 : BitVec 5) (imm : Word32)
  /-- R115: Writes 1 if RS1 < IMM, unsigned. -/
  | sltui (c : CoreRef) (rd rs1 : BitVec 5) (imm : Word32)
  /-- R116: Branches if RS1 equals RS2. -/
  | beq (c : CoreRef) (rs1 rs2 : BitVec 5) (tgt : Word32)
  /-- R116: Branches if RS1 differs from RS2. -/
  | bne (c : CoreRef) (rs1 rs2 : BitVec 5) (tgt : Word32)
  /-- R116: Branches if RS1 < RS2, signed. -/
  | blt (c : CoreRef) (rs1 rs2 : BitVec 5) (tgt : Word32)
  /-- R116: Branches if RS1 ≥ RS2, signed. -/
  | bge (c : CoreRef) (rs1 rs2 : BitVec 5) (tgt : Word32)
  /-- R116: Branches if RS1 < RS2, unsigned. -/
  | bltu (c : CoreRef) (rs1 rs2 : BitVec 5) (tgt : Word32)
  /-- R116: Branches if RS1 ≥ RS2, unsigned. -/
  | bgeu (c : CoreRef) (rs1 rs2 : BitVec 5) (tgt : Word32)
  /-- R116: Decrements RS1 and branches if it is not zero. -/
  | dbnz (c : CoreRef) (rs1 : BitVec 5) (tgt : Word32)
  /-- R116: Jumps to an absolute instruction index. -/
  | jmp (c : CoreRef) (tgt : Word32)
  /-- R116: Pushes PC + 1 and jumps, or faults STACK when the stack is full. -/
  | call (c : CoreRef) (tgt : Word32)
  /-- R116: Jumps to RS1[10:0], or faults PC_RANGE. -/
  | jr (c : CoreRef) (rs1 : BitVec 5)
  /-- R116: Pops the return stack and jumps, or faults STACK when it is empty. -/
  | ret (c : CoreRef)
  /-- R118: Loads a 32-byte T0 line into a quad. -/
  | ldl (c : CoreRef) (q : BitVec 3) (g : BitVec 2) (stepG : Bool)
  /-- R136: Stores a quad to a T0 line, waiting while an array operand region is in use. -/
  | stl (c : CoreRef) (q : BitVec 3) (g : BitVec 2) (stepG : Bool)
  /-- R117: Writes a generator field and resets its counters. -/
  | seta (c : CoreRef) (rs : BitVec 5) (g : BitVec 2) (field : BitVec 3)
  /-- R119: Moves lines between T0 and the accumulator banks. -/
  | ldma (c : CoreRef) (f : LdmaF)
  /-- R122: Checks a cluster DMA descriptor and starts the transfer under a ticket. -/
  | cdma (c : CoreRef) (q : BitVec 3) (t : BitVec 2)
  /-- R124: A cluster DMA transfer completes DONE, ABSENT or CANCELLED, and its ticket becomes idle. -/
  | dmaTransferComplete (c : CoreRef) (t : BitVec 2)
  /-- R114: Waits until a ticket is idle and returns its result. -/
  | waitd (c : CoreRef) (rd : BitVec 5) (t : BitVec 2)
  /-- R125: Posts an object to the prefetch engine for the requests in a mask. -/
  | preq (c : CoreRef) (rs : BitVec 5) (q : BitVec 3)
  /-- R78: Multiplies a tile into the accumulator banks in overwrite mode. -/
  | mma (c : CoreRef) (f : MmaF)
  /-- R79: Multiplies a tile and accumulates it into the banks. -/
  | mmaAcc (c : CoreRef) (f : MmaF)
  /-- R81: The last result of an array instruction lands in the banks or T0, releasing the scoreboard. -/
  | arrayResultLanded (c : CoreRef) (residueFail : Bool)
  /-- R127: Adds two operands element by element in diagonal mode. -/
  | elementwiseAdd (c : CoreRef) (f : EwF)
  /-- R127: Subtracts element by element. -/
  | elementwiseSub (c : CoreRef) (f : EwF)
  /-- R127: Multiplies element by element. -/
  | elementwiseMul (c : CoreRef) (f : EwF)
  /-- R99: Takes the maximum element by element. -/
  | elementwiseMax (c : CoreRef) (f : EwF)
  /-- R99: Takes the minimum element by element. -/
  | elementwiseMin (c : CoreRef) (f : EwF)
  /-- R196: Computes a × 2^(b + p) element by element. -/
  | scale (c : CoreRef) (f : EwF)
  /-- R197: Converts elements between formats. -/
  | cvt (c : CoreRef) (f : EwF)
  /-- R140: Drains a tile through a fused chain of stages into T0. -/
  | chain (c : CoreRef) (f : ChainF)
  /-- R129: Waits until every ticket is idle and every post has been accepted. -/
  | fence (c : CoreRef)
  /-- R130: Arrives at a cluster barrier and waits for every participant. -/
  | bar (c : CoreRef) (id : BitVec 3)
  /-- R130: Arrives at a context-wide barrier and waits for every participant. -/
  | xbar (c : CoreRef) (id : BitVec 2)
  /-- R129: Sets a cluster flag, releasing cores waiting on it. -/
  | fset (c : CoreRef) (flag : BitVec 5)
  /-- R129: Clears a cluster flag. -/
  | fclr (c : CoreRef) (flag : BitVec 5)
  /-- R114: Waits until a cluster flag is set. -/
  | fwait (c : CoreRef) (flag : BitVec 5)
  /-- R224: The prefetch engine accepts a post, adds its mask to the need sets, holds the object and issues reads. -/
  | postAccepted (ctx lcluster : Nat)
  /-- R223: A fill waiting for room is retried when the context's use falls. -/
  | fillRetry (ctx : Nat)
  /-- R59: A die read completes, and its decoded data is delivered or its codeword is poisoned. -/
  | flashReadComplete (id : Nat) (r : ReadResult)
  /-- R256: A flash program passes or fails status; the map moves, or the block is retired. -/
  | flashProgramComplete (id die : Nat) (pass : Bool)
  /-- R261: A superblock erase completes, or fails and retires its block. -/
  | flashEraseComplete (ch die super : Nat) (pass : Bool)
  /-- R258: SLC granules are copied into a QLC superblock, oldest PSEQ first. -/
  | fold (ch die : Nat)
  /-- R252: A granule and its overlay units are merged into one new granule. -/
  | overlayMerge (lga : Nat)
  /-- R263: Valid granules of a victim superblock are relocated, and the source is erased. -/
  | garbageCollection (ch die : Nat)
  /-- R267: The least-worn closed superblock is relocated into the most-worn free one. -/
  | wearLevelling (ch die : Nat)
  /-- R268: A superblock is refreshed by relocation after reads, errors or soft decoding. -/
  | refresh (ch die super cause : Nat)
  /-- R268: One wordline of each programmed superblock is read every 24 hours. -/
  | patrolRead (ch die super : Nat) (errorsHigh soft : Bool)
  /-- R313: A scrub engine reads a code word and writes it back corrected, or poisons it. -/
  | scrubAccess (group unit : Nat) (lies : Option (CodeMemory × Nat)) (overtaken : Bool) (ms : Nat)
  /-- R311: A poisoned granule of a CLEAN copy is read again from its home. -/
  | granuleRepair (obj granule : Nat)
  /-- R297: A scan unit filters, projects or scores the records of a decoded page, or marks it bad. -/
  | pageScanned (slot ch : Nat) (r : PageRead)
  /-- R294: The merge cluster finishes merging candidates, and the answer is written. -/
  | queryMergeComplete (slot : Nat)
  /-- R348: A connector's presence signal changes, and the identity checks are repeated. -/
  | connectorPresenceChange (connector : Nat)
  /-- R348: Every 10 s, a REFUSED pair, or a dark port, reads its chain again. -/
  | identityRetry (pair : Nat)
  /-- R348: The chain reads finish, and the easel opens or the pair is REFUSED. -/
  | identityCheckComplete (pair : Nat) (dn up : List IdRecord)
  /-- R351: The easel reaches OPEN, and the ports train. -/
  | easelOpen (pair : Nat)
  /-- R351: Both ports of a pair are trained and measured, and discovery runs. -/
  | linkUp (pair hopDn hopUp : Nat)
  /-- R517: A port leaves UP, and its chain is re-read before it trains again. -/
  | linkLeavesUp (port : Nat)
  /-- R357: A flit arrives, is checked, and is delivered, forwarded, or dropped with a NAK. -/
  | flitReceived (port : Nat) (f : FlitArrival)
  /-- R357: A NAK makes the sender replay every flit after ACK. -/
  | nakReceived (port : Nat) (n : NakArrival)
  /-- R357: A resend fails or overruns 1.5 µs; the ports retrain, and a third fault stops the pair. -/
  | linkFault (pair ms : Nat)
  /-- R353: A DISCOVER flit is received and forwarded, and member lists are compared. -/
  | discover (port : Nat) (uid : Word64) (pri : Nat)
  /-- R360: All members agree on the list; positions are assigned and the frame master is elected. -/
  | discoveryComplete (pair : Nat) (members : List (Word64 × Nat)) (closed : Bool)
  /-- R362: A CONTROL exchange connects a SEND stream to its peer RECEIVE stream. -/
  | streamConnect (pair : Nat) (src : Word64) (m : ConnectMsg)
  /-- R362: Stream data lands in the landing object, and a completion message is returned. -/
  | streamDataReceived (ctx stream offset : Nat) (data : StreamData) (poison last : Bool) (mark : Mask) (seed : Word64)
  /-- R363: A completion message completes the sender's ticket DONE with its MARK and seed. -/
  | streamCompletionReceived (c : CoreRef) (t : BitVec 2)
  /-- R362: No completion arrives 500 µs after the last flit, and the transfer completes CANCELLED. -/
  | streamTimeout (c : CoreRef) (t : BitVec 2)
  /-- R364: A peer serves an import request from its T2 copy or its home. -/
  | importRequestReceived (port ctx name granule : Nat) (req : ImportId)
  /-- R364: Import data lands in the local T2 copy. -/
  | importDataReceived (obj granule : Nat) (data : List Byte) (poison error : Bool)
  /-- R364: An unanswered import request is resent, or the fill completes UNIT_UNAVAILABLE. -/
  | importTimeout (obj granule : Nat)
  /-- R371: A READY message is matched, and the bucket may become ARMED or fail. -/
  | ready (pair : Nat) (src : Word64) (tag gen : Nat) (pcrc : Word32)
  /-- R374: The engine accepts a contributed chunk, thins it and updates the NEXT residual. -/
  | chunkThin (c : CoreRef) (t : BitVec 2)
  /-- R377: An owner adds a contribution to its chunk and sends the RESULT when all are in. -/
  | contrib (pair : Nat) (src : Word64) (tag gen chunk : Nat) (entries : List (Nat × BitVec 16)) (poison : Bool)
  /-- R378: A participant copies, writes and forwards a chunk's RESULT. -/
  | result (pair : Nat) (src : Word64) (tag gen chunk : Nat) (entries : List (Nat × Word32)) (poison : Bool)
  /-- R389: An ABANDON fails a bucket that is not DONE. -/
  | abandon (tag gen cause : Nat)
  /-- R383: The reduction deadline passes before every bucket is DONE, and the step is void. -/
  | redDeadline (ctx : Nat)
  /-- R382: The step is REDUCED and its run has halted; SEL and PARITY flip and STEP_RUN completes. -/
  | stepCommit (ctx : Nat)
  /-- R346: A closing easel reaches CLOSED within 100 µs of losing its drive, and a PORT_CONTROL disable then completes. -/
  | easelClosed (pair : Nat)
  /-- R59: A flash die suspends its program or erase, up to 50 µs after a read is queued and no sooner than 60 µs after the last resume, and the queued reads start. -/
  | programEraseSuspend (ch die : Nat)
  /-- R423: A host DMA transfer of a command's buffer finishes: the read completions have all landed in T2 staging, or the last outbound write has been issued. -/
  | hostDmaComplete (tag : Nat) (data : List Byte)
  /-- R212: A fill from T2 into the T1 binding, through the HBM gather engine, lands on every cluster, so the object is resident in T1 and an OBJ_PLACE or OBJ_PIN may complete. -/
  | gatherFillComplete (obj : Nat)
  /-- R486: The exit from S2 ends: HBM is out of self-refresh, domains are up and retained contexts are restored, and READY follows at the next tick. -/
  | sleepExitComplete
  /-- R244: After a temperature change of 20 °C, the flash controllers rerun ZQ calibration, DCC and read/write training. -/
  | onfiRetraining
  /-- R500: At the end of each 15-minute interval, the maxima of that interval enter history slot 0 of the TEMPERATURE page, and the older slots move down. -/
  | temperatureHistoryInterval
  /-- R499: Every hour, the flash-health and lifetime temperature counts are saved to the configuration records. -/
  | healthCountSave
  /-- R303: A scan unit is disabled for service, or stopped by a fault, cancelling the queries on its channel, and is later enabled again. -/
  | scanUnitDisabledForService (ch mode : Nat)
deriving DecidableEq, Repr

end Sys2Proof
end

