-- ==== Sys2Proof/Decode.lean ====
section
/-! DEFINITION. The opcode table gives no bits to any row of this block (its commands are packets, events and register writes),
so no word spells a command. MX core instruction words are decoded in Machine/CoreWord.lean. -/

namespace Sys2Proof

/-- No row of the table has bits: a word spells no command. -/
def decodeTableWord (_nbits _w : Nat) : Option Instr := none

end Sys2Proof
end

