-- ==== Sys2Proof/Config.lean ====
section
/-! DEFINITION. What the spec leaves open (free values) and what it names but does not give (the algorithms of outside
standards). Every one is opaque: nothing in Lean can evaluate it, so a claim holds whatever its value is. -/

namespace Sys2Proof.Config

/-- A value the spec leaves open; the step applies it to the counter `State.nonce` (log entry 2). UNVERIFIED. -/
opaque free64 : Nat → BitVec 64

/-- A choice the spec leaves open, such as the old or the new line of R134 (log entry 2). UNVERIFIED. -/
opaque freeBool : Nat → Bool

/-- Random numbers of D1: the lifecycle challenge (R468) and the media keys (R463) (log entry 2). UNVERIFIED. -/
opaque random : Nat → Nat → Byte

/-- SHAKE256 output of the given length (R455, log entry 10). UNVERIFIED: the spec names the function only. -/
opaque shake256 : Nat → List Byte → List Byte

/-- Falcon-1024 verification of a signature over a digest under a public key (R455, log entry 10). UNVERIFIED. -/
opaque falconVerify : List Byte → List Byte → List Byte → Bool

/-- Falcon-1024 signature of a digest by the key pair of a seed (R459, R461, log entry 10). UNVERIFIED. -/
opaque falconSign : List Byte → List Byte → List Byte

/-- The identity public key generated from a seed (R459, log entry 10). UNVERIFIED. -/
opaque falconPublic : List Byte → List Byte

/-- AES-256-XTS of one 4 KiB unit: media key generation, granule address, unit, plain bytes (R462, log entry 10). UNVERIFIED. -/
opaque xts : Nat → Nat → Nat → List Byte → List Byte

/-- Raw bytes of a flash page as sensed, before decoding (RAW_READ undecoded, log entry 10). UNVERIFIED. -/
opaque rawPage : Nat → Nat → List Byte → List Byte

/-- Word of the media keys of a generation under RFC 3394 key wrap (R463, log entry 10). UNVERIFIED. -/
opaque wrappedKey : Nat → Nat → BitVec 64

/-- Check byte of an embedded-flash word's data (R431 names the code only; log entry 10). UNVERIFIED. -/
opaque checkByte : BitVec 64 → BitVec 8

/-- Approved link parts beside those the spec names, by their eight PART bytes (R348, log entry 122). UNVERIFIED. -/
opaque approvedPart : Nat → Bool

/-- Payload bits of a binary32 NaN that an operation gives, by its sign (R142 says only that NaN propagates; log entry 12). UNVERIFIED. -/
opaque nanPayload : Bool → BitVec 32

/-- Sign of a NaN that an operation makes from operands that are no NaN (log entry 12). UNVERIFIED. -/
opaque nanSign : Bool

/-- Functions of Table 5-5 at an infinity where their expression is a product of 0 and an infinity: MODE, derivative, sign
(log entry 13). UNVERIFIED. -/
opaque actAtInf : Nat → Bool → Bool → BitVec 32

end Sys2Proof.Config
end

