-- ==== Sys2Proof/Machine/State.lean ====
section
/-! DEFINITION. The state of one SX4 module: every register, memory, queue, mode and counter the spec gives it, as plain
data. INVENTORY.md lists each field with its rule and its reset value. -/

namespace Sys2Proof.Machine

/-- Why the model stops. Raised by every meaning whose command names a unit that no part of the family has (a core, port
pair, channel, domain or context number outside its numbering). SAFE: the hardware has no such command (log entry 1). -/
inductive Fault
  | noSuchUnit
deriving DecidableEq, Repr

/-- Why the model gives no meaning. -/
inductive Refusal
  /-- Raised by an arm of `exec` whose command has no meaning yet. SAFE: nothing is claimed of it. -/
  | notModelled (mnemonic : String)
deriving DecidableEq, Repr

/-- Bytes of a memory, its poisoned code words, and the code words that hold a raw error nothing has read or rewritten yet (R304,
R305, R308). Unlisted bytes read 0 (R471, R203). -/
structure Store where
  cells : List Host.Cell := []
  poison : List Nat := []
  raw : List (Nat × RawError) := []
deriving DecidableEq, Repr

/-! ### MX cores (Table 4-1) -/

/-- An address generator (R117). -/
structure Gen where
  base : Word32 := 0
  inc0 : Word32 := 0
  cnt0 : BitVec 16 := 0
  inc1 : Word32 := 0
  cnt1 : BitVec 16 := 0
  addr : Word32 := 0
  i0 : Nat := 0
  i1 : Nat := 0
deriving DecidableEq, Repr

/-- A cluster DMA descriptor (Table 4-12). -/
structure Desc where
  w0 : Word64
  w1 : Word64
  w2 : Word64
  w3 : Word64
deriving DecidableEq, Repr

/-- A DMA ticket: its outstanding transfer, the result of the last one (0 DONE, 1 ABSENT, 2 CANCELLED), the lines of the
destination it has written or handed to the ring (R132) and, for a contribution (R373), the chunks the engine has accepted with the
bytes of the next one that were handed over before a pause. -/
structure Ticket where
  out : Option Desc := none
  result : Nat := 0
  lines : Nat := 0
  chunks : Nat := 0
  part : List Byte := []
deriving DecidableEq, Repr

/-- An array instruction in the array queue with the generator addresses and the constant it read at issue (R89, R126), and the
tickets that were outstanding then: later transfers write none of its operand lines before it has streamed (R90). -/
structure ArrayOp where
  ins : CoreInstr
  a : Nat := 0
  b : Nat := 0
  x1 : Nat := 0
  x2 : Nat := 0
  konst : Word32 := 0
  before : List Nat := []
deriving DecidableEq, Repr

inductive CorePhase | idle | running | yielded (nextFrame : Bool) | halted
deriving DecidableEq, Repr

/-- A PREQ post: object and request mask (R125). -/
structure Post where
  obj : Nat
  mask : Mask
  core : CoreRef
deriving DecidableEq, Repr

/-- The program-visible state of one MX core (Table 4-1) with its array queue, generator of R185 and atomic run. -/
structure Core where
  pc : Nat := 0
  regs : SMap Word64 := []
  gens : SMap Gen := []
  stack : List Nat := []
  t0 : Store := {}
  banks : SMap Word32 := []
  fpTags : List Nat := []          -- banks tagged FP32; the others are tagged INT32 (R85)
  tickets : SMap Ticket := []
  rng : Word64 := 1
  phase : CorePhase := .idle
  arrived : Option (Bool × Nat) := none   -- barrier use already arrived at: cross-cluster?, identifier (R130)
  atom : Nat := 0
  streaming : Option ArrayOp := none
  queuedOp : Option ArrayOp := none
  postsOut : Nat := 0
  cycles : Nat := 0                -- CYCLES as last read in this run (Table 4-23)
  bankRaw : List (Nat × RawError) := []   -- bank words with a raw error; they have no poison state (R305)
  codeRaw : List (Nat × RawError) := []   -- instructions of its store with a raw error
deriving DecidableEq, Repr

/-- One cluster of a context: flags, barrier arrivals, T1 area, post queue (R105, R125, R219). -/
structure Cluster where
  flags : Word32 := 0
  bars : SMap (List Nat) := []     -- arrivals (LCORE) at the current use of each barrier
  t1 : Store := {}
  posts : List Post := []
deriving DecidableEq, Repr

/-! ### Program images (Tables 4-2, 5-1 to 5-3, 12-6) -/

structure StreamDesc where         -- Table 5-2
  shape : Nat := 0
  fmt : Nat := 0
  pal : Nat := 0
  stride : Nat := 0
deriving DecidableEq, Repr

structure Stage where              -- Table 5-3
  typ : Nat
  mode : Nat
  target : Nat
  opnd : Nat
  srnd : Bool
  ifmt : Nat
  pal : Nat
  k : Word32
deriving DecidableEq, Repr

structure Chain where              -- Table 5-1
  source : Nat
  rowN : Nat
  holdRows : Nat
  holdAddr : Nat
  holdLen : Nat
  x1 : StreamDesc
  x2 : StreamDesc
  xo : StreamDesc
  stages : List Stage
deriving DecidableEq, Repr

structure StreamEntry where        -- Table 12-6
  receive : Bool
  ring : Nat
  route : Nat
  peerStream : Nat
  peerContext : Nat
  peerUid : Word64
  slot : Nat
  window : Nat
deriving DecidableEq, Repr

structure Program where            -- Table 4-2
  code : List Word64
  entry : Nat
  clusters : Nat
  cores : Nat
  slots : List Nat                 -- object identifiers
  chains : List Chain
  streams : List StreamEntry
  reduction : Bool
  data : List Byte
  dataAddr : Nat
deriving DecidableEq, Repr

/-! ### Contexts -/

inductive CtxState | free | out | swappingIn | runnable | blocked | swappingOut | teardown | destroying
deriving DecidableEq, Repr

/-- A palette entry with its history (Tables 6-3, 6-4) and pending record (R188). Magnitudes are exact: a binary32 code. -/
structure PalEntry where
  word : Word32 := 0
  satCount : Nat := 0
  slots : List (Word32 × Word32) := []     -- newest first: AMAX or MAX, and MIN
  pending : Option (Word32 × Word32) := none
deriving DecidableEq, Repr

inductive RunKind | batch | pipe | step | embed | stream
deriving DecidableEq, Repr

/-- A run in progress (R111, R338, R363). -/
structure Run where
  kind : RunKind
  tag : Nat := 0
  startFrame : Nat := 0
  ticks : Nat := 0
  seed : Word64 := 0
  arg0 : Word64 := 0
  arg1 : Word64 := 0
  nreq : Nat := 0
  mark : Mask := 0                 -- MARK it started with
  masks : Mask := 0                -- OR of the decision masks written during the run
  missed : Mask := 0               -- requests marked with no sketch path
  sketch : Bool := false           -- its sketch run is in progress
deriving DecidableEq, Repr

inductive StepOutcome | pending | reduced | void
deriving DecidableEq, Repr

/-- The training step of a STEP_RUN (R381-R383). -/
structure Step where
  step : Nat
  tag : Nat := 0                   -- its STEP_RUN
  start : Nat := 0                 -- frame in which its run started
  halted : Bool := false           -- its run has halted
  outcome : StepOutcome := .pending
  redFrames : Nat := 0
  tags : List Nat := []            -- its bucket set, fixed at the start
  doneTags : List Nat := []        -- buckets of the set that have become DONE
  resids : List Nat := []          -- their RESID objects
  nFailed : Nat := 0
  failedTag : Nat := 0xFFFF
  cause : Nat := 0
deriving DecidableEq, Repr

/-- Input that has arrived on receive streams since the last run started (R363). -/
structure StreamInput where
  streams : Nat := 0
  bytes : Nat := 0
  mark : Mask := 0
  seed : Word64 := 0
  frame : Nat := 0
deriving DecidableEq, Repr

structure SketchDecl where
  prog : Program
  cores : Nat
deriving DecidableEq, Repr

/-- Per-context totals of Table 19-5. -/
structure CtxStats where
  sketch : Nat := 0
  missed : Nat := 0
  evictions : Nat := 0
  dropped : Nat := 0
  saturated : Nat := 0
  nanQuant : Nat := 0
  constCh : Nat := 0
deriving DecidableEq, Repr

structure Context where
  state : CtxState := .free
  cls : Nat := 0
  domains : Nat := 0
  slicePct : Nat := 0
  waitFrames : Nat := 0
  runFrames : Nat := 0
  quotaT1 : Nat := 0
  lowerT1 : Option Nat := none     -- a lowered T1 quota, from the next swap-in (R217)
  quotaT2 : Nat := 0
  quotaT3 : Nat := 0
  quotaT4 : Nat := 0
  palette : SMap PalEntry := []
  prog : Option Program := none
  sketch : Option SketchDecl := none
  alloc : List Nat := []           -- domains held, ascending
  place : List Nat := []           -- domains a plan gave it, until the swap engine reaches its swap-in (R323, R329)
  evacuating : Bool := false       -- DOMAIN_CONTROL swaps it out (Table 11-6)
  inSlice : Bool := false
  cut : Bool := false              -- the tick cut its slice while an instruction still ran (R62)
  saved : Bool := false            -- its save area holds core state (R216)
  blockedAt : Nat := 0
  wiping : Bool := false           -- its save area waits to be zeroed (R340 step 7)
  charges : SMap Int := []         -- per domain, ns owed (negative) or credited (R61)
  credits : SMap Int := []         -- credits of the frame, for the slice after the displaced one (R61)
  run : Option Run := none
  cores : SMap Core := []          -- main run, by LCORE
  sketchCores : SMap Core := []
  clusters : SMap Cluster := []    -- by LCLUSTER
  xbars : SMap (List Nat) := []
  sketchBars : SMap (List Nat) := []  -- barriers of the sketch run: lcluster*8+id, or 100000+id for XBAR
  needs : List (Nat × Mask) := []  -- object and requests that need it this frame (R229)
  decisionDue : Option (Mask × Nat) := none  -- decided while not resident (R235): mask, frame
  streamIn : Option StreamInput := none
  streamPart : SMap Nat := []      -- by receive stream: bytes of a transfer that is not complete
  parity : Bool := false
  steps : List Step := []          -- started and not complete, oldest first (R381-R383)
  lastStep : Option (Nat × List Nat) := none  -- last committed step and its RESID objects (R384)
  stats : CtxStats := {}
  linked : List Nat := []          -- connected SEND streams, with their peer windows beside (R362)
  joined : List Nat := []          -- RECEIVE streams that a peer's SEND stream is connected to
  windows : SMap Nat := []
deriving DecidableEq, Repr

/-! ### Objects (R202-R214) -/

inductive ObjKind | persistent | scratch | import_
deriving DecidableEq, Repr

/-- A T2 copy: its bytes, the granules not yet filled, and whether it is DIRTY (R206). -/
structure T2Copy where
  data : Store := {}
  missing : List Nat := []
  dirty : Bool := false
deriving DecidableEq, Repr

/-- A T1 binding (R211). -/
structure Binding where
  off : Nat
  len : Nat
  t1Addr : Nat
  first : Nat
  count : Nat
  stripe : Bool
  elem : Nat
  rows : Nat
  rowBytes : Nat
  filled : Bool := false
deriving DecidableEq, Repr

structure Obj where
  kind : ObjKind
  size : Nat
  objNo : Nat := 0
  exported : Bool := false
  ring : Nat := 0
  peerContext : Nat := 0
  peerName : Nat := 0
  peerUid : Word64 := 0
  copy : Option T2Copy := none
  wantT2 : Bool := false
  binding : Option Binding := none
  pin : Nat := 0
  lastUse : Nat := 0
  held : Bool := false             -- held by a post accepted in this frame (R221)
  posted : Bool := false           -- named by a post accepted in this frame (Table 10-3)
  posts : Nat := 0                 -- posts accepted in this frame that name it (R227)
  waiting : Bool := false          -- a fill waits for T2 room (R223)
  deleting : Option Nat := none    -- tag of the OBJ_DELETE accepted (R205, R417)
  evict : Option (Nat × Nat) := none  -- tag and flags of the OBJ_EVICT waiting (R205)
  dropBinding : Bool := false      -- the binding leaves at the next update point (R213)
  dropCopy : Bool := false
  fillTags : List Nat := []        -- OBJ_PLACE and OBJ_PIN commands waiting for residency (R213, R220)
  started : Bool := false          -- a read for the frame's posts has started, or none was needed (R227)
  redTags : List Nat := []         -- reduction tags not FREE that use it (Table 13-9)
deriving DecidableEq, Repr

/-! ### Flash (chapter 8) -/

/-- A physical granule position. -/
structure Loc where
  ch : Nat
  die : Nat
  super : Nat
  pos : Nat
deriving DecidableEq, Repr

inductive VerKind | granule | overlay | tombstone | objRecord | checkpoint | cleanMarker
deriving DecidableEq, Repr

/-- One metadata slot (Table 8-6): logical granule address, unit or covered count, write sequence. -/
structure Slot where
  lga : Nat
  unit : Nat := 0
  count : Nat := 0
  seq : Nat
deriving DecidableEq, Repr

/-- What a programmed granule position holds: its metadata and its data (decrypted form), with poisoned 4 KiB codewords. `source` is
the place a copy was made from (R265); `metaBad` are the pages whose metadata codeword is uncorrectable (R254). -/
structure Version where
  kind : VerKind
  slots : List Slot
  pseq : Nat := 0
  copied : Bool := false           -- COPY
  data : Store := {}
  source : Option Loc := none
  metaBad : List Nat := []
deriving DecidableEq, Repr

inductive SuperState | erased | open_ | closed | erasing | retired
deriving DecidableEq, Repr

/-- Why a superblock is emptied: garbage collection, refresh or a failed block, wear levelling (R262, R267, R268, R270). -/
inductive RelocWhy | collect | refresh | level
deriving DecidableEq, Repr

/-- What a superblock takes: new writes and folds, relocated granules (R262), or the superblock that wear levelling moves (R267). -/
inductive SuperUse | data | reloc | level
deriving DecidableEq, Repr

structure Super where
  state : SuperState := .erased
  slc : Bool := false
  wear : Nat := 0
  reads : Nat := 0
  next : Nat := 0
  vers : SMap Version := []
  use : SuperUse := .data
  wanted : Option RelocWhy := none -- being emptied
  due : List Nat := []             -- causes of a refresh that have been found: 1 patrol, 2 soft decoding (R268)
  blocks : SMap Nat := []          -- by plane: the block that stands in for block `n` of superblock `n` (R241, R270)
  spares : SMap Nat := []          -- by plane: the spare that joins it at its next erase
deriving DecidableEq, Repr

/-- A program or an erase on a die. -/
inductive DieWork | program (id : Nat) | erase (super : Nat)
deriving DecidableEq, Repr

/-- A die (R59, R243): its program or erase, whether that is suspended, and the superblock that wear levelling empties. -/
structure Die where
  work : Option DieWork := none
  suspended : Bool := false
  level : Option Nat := none
deriving DecidableEq, Repr

inductive ProgKind
  | write                          -- host write or writeback of a whole granule
  | units                          -- overlay units
  | record                         -- object record, tombstone
  | merge
  | fold
  | relocate (why : RelocWhy)
deriving DecidableEq, Repr

/-- A granule of a QLC program: the place it is copied from, what is programmed, and whether overlay units were merged into it. -/
structure Copy where
  src : Loc
  ver : Version
  merged : Bool := false
deriving DecidableEq, Repr

/-- A program waiting for or running on a die: one version in SLC mode, up to four copies in QLC mode (R242, R258). -/
structure ProgOp where
  id : Nat
  tag : Nat                        -- command it belongs to, 0 for internal work
  ctx : Nat := 0
  obj : Nat := 0                   -- object, for a writeback
  kind : ProgKind
  ch : Nat
  ver : Version := { kind := .granule, slots := [] }
  copies : List Copy := []
  die : Option Nat := none         -- the die a relocation stays on (R262)
  avoid : Option Nat := none       -- the die on which it has failed (R270)
  on : Option (Nat × Nat) := none  -- die and superblock of the program in progress
deriving DecidableEq, Repr

inductive ReadFor
  | fill (obj granule : Nat) (post : Bool)
  | host (tag granule : Nat)
  | serveImport (port req granule : Nat)
  | verify (src dst : Loc) (merged : Bool)   -- read-back of a folded granule (R258)
  | query (tag granule : Nat)
deriving DecidableEq, Repr

/-- A die read, queued or on its dies, with the granule as it stood when the read began (R257, R281). -/
structure ReadOp where
  id : Nat
  lga : Nat
  why : ReadFor
  started : Bool := false
  dies : List Nat := []
  snap : Store := {}
deriving DecidableEq, Repr

/-- A checkpoint with its clean marker (R276): the map, the overlay map, the object table, the superblock and wear tables with the
write positions, and where the marker stands. -/
structure Ckpt where
  map : SMap Loc
  overlay : SMap (Loc × Nat)
  objs : SMap Obj
  supers : SMap Super
  marker : Loc
  pseq : Nat
deriving DecidableEq, Repr

structure Flash where
  map : SMap Loc := []             -- by logical granule address (Table 8-4)
  overlay : SMap (Loc × Nat) := [] -- by lga * 16 + unit: page position and its slot
  supers : SMap Super := []        -- by (ch * 48 + die) * 1242 + super
  dies : SMap Die := []            -- by ch * 48 + die
  seq : Nat := 1
  blockGranules : Nat := 0
  slcCapacity : Nat := 0
  readOnly : Bool := false
  badBlocks : List Nat := []
  progQ : List ProgOp := []
  readQ : List ReadOp := []
  nextId : Nat := 1
  ckpt : Option Ckpt := none
  credit : SMap Nat := []          -- by channel: relocation transfers due for write transfers (Table 8-8)
  objNos : List Nat := []          -- object numbers in use
  trained : Bool := false
  programFails : Nat := 0
  eraseFails : Nat := 0
  mediaErrors : Nat := 0
  softDecodes : Nat := 0
  chMedia : SMap Nat := []         -- media errors by channel
  chSoft : SMap Nat := []          -- soft decodes by channel
  refreshes : Nat × Nat × Nat := (0, 0, 0)
  bytesHost : Nat := 0
  bytesFlash : Nat := 0
  lastStart : Nat := 0
  lastStartMs : Nat := 0
deriving DecidableEq, Repr

/-! ### Scan units and queries (chapter 9) -/

inductive UnitState | enabled | service | stopped
deriving DecidableEq, Repr

/-- A field, step and projection entry of a scan descriptor (Tables 9-1 to 9-3). -/
structure ScanField where
  off : Nat
  typ : Nat
  len : Nat
deriving DecidableEq, Repr

structure ScanStep where
  op : Nat
  neg : Bool
  newTerm : Bool
  field : Nat
  a : Word64
  b : Word64
deriving DecidableEq, Repr

structure ScanDesc where
  rlen : Nat
  fields : List ScanField
  steps : List ScanStep
  proj : List (Nat × Nat)
  metric : Nat
  vfmt : Nat
  nq : Nat
  vdim : Nat
  voff : Nat
  vexp : Int
  qexp : Int
  wide : Bool
  keyOff : Nat
  kch : Nat
  k : Nat
  pace : Nat
  firstRec : Nat
  nrec : Nat
  landOff : Nat
  queries : List (List Byte)
deriving DecidableEq, Repr

/-- A candidate: score (binary32), record number, key bytes. -/
structure Cand where
  score : Word32
  recno : Nat
  key : Word64
deriving DecidableEq, Repr

inductive QueryKind | scan | vsearch | embed
deriving DecidableEq, Repr

/-- A query in one of the four slots (R299). -/
structure Query where
  tag : Nat
  ctx : Nat
  obj : Nat
  kind : QueryKind
  desc : ScanDesc
  resOff : Nat
  resLen : Nat
  next : SMap Nat := []            -- per channel: granules of the channel already done
  paced : SMap Nat := []           -- per channel: granules read in this frame
  cands : SMap (List Cand) := []   -- per channel * 16 + query
  scanned : Nat := 0
  passed : Nat := 0
  nanScores : Nat := 0
  badPages : Nat := 0
  badList : List Word64 := []
  outBytes : Nat := 0
  outFull : Bool := false
  out : List (List Byte) := []     -- output records, in landing order
  batches : List (List (List Byte)) := []  -- EMBED: batches waiting for their runs
  runs : Nat := 0                  -- EMBED: batch runs not yet halted
  started : Nat := 0               -- EMBED: batch runs started
  arg : Word64 := 0
  seed : Word64 := 0
deriving DecidableEq, Repr

structure Scan where
  units : SMap UnitState := []     -- default enabled
  slots : SMap Query := []         -- by slot 0-3
  turn : SMap Nat := []            -- by channel: the slot served last (R299)
deriving DecidableEq, Repr

/-! ### Rings (chapter 12) -/

inductive Easel | closed | opening | opened | closing
deriving DecidableEq, Repr

inductive PairState | down | identifying | training | up | refused | fault
deriving DecidableEq, Repr

/-- One port: link layer state (R354-R357). -/
structure Port where
  up : Bool := false
  dark : Bool := false             -- dark until its chain passes again (R517)
  txSeq : Nat := 0
  rxSeq : Nat := 255               -- last sequence number received in order
  nakOut : Bool := false
  ackDue : Bool := false           -- an ACK, a NAK, and per VC credits that the next flit takes along (R356)
  nakDue : Bool := false
  credDue : List Nat := [0, 0, 0, 0]
  replay : List Flit := []
  credits : List Nat := [32, 64, 32, 32]
  resends : Nat := 0               -- resends of the oldest flit
  wait : List (Flit × Bool) := []  -- flits that wait for a credit, oldest first; true for one that is forwarded
  open_ : List Nat := []           -- VCs on which a forwarded message is part way through
  later : List Flit := []          -- flits of own messages that wait for its end
  route : SMap Nat := []           -- by VC: destination of the message that is coming in
  out : List Flit := []            -- flits sent, oldest first
deriving DecidableEq, Repr

structure Pair where
  enable : Bool := true
  masterPri : Nat := 8
  easel : Easel := .closed
  state : PairState := .down
  refuse : Nat := 0
  position : Nat := 0
  members : List (Word64 × Nat) := []
  memberList : Bool := false       -- a discovery has completed since the last change
  closed : Bool := false
  line : List Word64 := []         -- on a line: its members from the UP end to the DN end (R352)
  oversize : Bool := false
  masterUid : Word64 := 0
  hopDn : Nat := 0
  hopUp : Nat := 0
  crcErrors : Nat := 0
  resends : Nat := 0
  linkFaults : Nat := 0
  fecSymbols : Nat := 0
  faultMs : List Nat := []
  draining : Option Nat := none    -- tag of the PORT_CONTROL disable (0 for the RING feature)
  drained : Bool := false
  enabling : List Nat := []        -- tags of PORT_CONTROL enables that wait
  reading : Bool := false          -- the chain of a dark port is read (R517)
  recheck : Bool := false          -- a presence change has repeated the checks (R348)
  dn : Port := {}
  up : Port := {}
deriving DecidableEq, Repr

/-- An import fill, or an OBJ_READ of an import without a copy, waiting for one granule (R364). -/
structure ImportReq where
  obj : Nat
  granule : Nat
  sent : Nat := 0                  -- 0: the request waits at the prefetch engine (R225)
  dn : Bool := true                -- direction of the first sendings
  otherWay : Nat := 0
  post : Bool := false
  tag : Nat := 0                   -- OBJ_READ it serves; 0 for a fill
deriving DecidableEq, Repr

/-- A message handed to a ring port (R355): pair and direction, TYPE and VC of its flits, message header, body. -/
structure RingMsg where
  pair : Nat := 0
  dn : Bool := true
  typ : Nat := 1
  vc : Nat := 0
  kind : Nat
  dest : Nat := 0                  -- positions
  src : Nat := 0
  index : Nat := 0
  offset : Nat := 0
  body : List Byte
  poison : Bool := false
deriving DecidableEq, Repr

structure Ring where
  pairs : SMap Pair := []
  imports : List ImportReq := []
  out : List RingMsg := []         -- messages sent, oldest first
deriving DecidableEq, Repr

/-! ### Reduction engine (chapter 13) -/

inductive TagState | free | open_ | armed | done | failed
deriving DecidableEq, Repr

structure RedTag where
  state : TagState := .free
  gen : Nat := 0
  lastGen : Option Nat := none
  ctx : Nat := 0
  fmt : Nat := 0
  pal : Nat := 0
  nelem : Nat := 0
  k : Nat := 0
  noresid : Bool := false
  sum : Nat := 0
  resid : Nat := 0
  ring : Nat := 0
  parts : List Word64 := []
  pcrc : Word32 := 0
  step : Nat := 0
  ready : List Nat := []           -- participants whose READY has matched
  sent : List Nat := []            -- chunks this module has contributed
  added : SMap (List Nat) := []    -- owned chunks: participants added
  seen : SMap (List Nat) := []     -- owned chunks: indices any participant sent
  final : List Nat := []           -- chunks final here
  rejected : Nat := 0
  cause : Nat := 0
deriving DecidableEq, Repr

structure Red where
  available : Bool := false        -- D2 is powered and no fault has stopped the engine
  tags : SMap RedTag := []
deriving DecidableEq, Repr

/-! ### Attachment and host interface (chapter 14) -/

structure Pcie where
  mse : Bool := false
  bme : Bool := false
  d3hot : Bool := false
  relaxed : Bool := false
  extTag : Bool := false
  tenBitTag : Bool := false
  intLine : Byte := 0
  bar0 : Word64 := 4               -- 64-bit, non-prefetchable
  devCtl : BitVec 16 := 0
  linkRate : Nat := 320            -- GT/s in tenths
  linkWidth : Nat := 8
  aerUncor : Word32 := 0
  aerCor : Word32 := 0
deriving DecidableEq, Repr

inductive TaskState | idle | busy | accepted | rejected
deriving DecidableEq, Repr

inductive DevState | booting | gesso | rebuilding | ready | sleep | fault
deriving DecidableEq, Repr

/-- How far an accepted command has come. -/
inductive CmdPhase | waiting | released | ready | running | finishing
deriving DecidableEq, Repr

/-- A status (class, code), result words and qualifiers (Table 15-2). -/
structure Status where
  cls : Nat
  code : Nat
  r0 : Nat := 0
  r1 : Nat := 0
  r2 : Nat := 0
  qual : Nat := 0
deriving DecidableEq, Repr

/-- An accepted command that is not complete. -/
structure Cmd where
  tag : Nat
  pkt : PacketBits
  frame : Nat                      -- frame of acceptance
  plan : Nat := 0                  -- first frame whose plan it joins (R50)
  phase : CmdPhase := .waiting
  staged : Option (List Byte) := none   -- input bytes in T2 staging (R210)
  left : Nat := 0                  -- programs, reads or fills still to end
  moved : Nat := 0                 -- bytes moved so far
  result : Option Status := none   -- status to complete with when its last transfer ends
  undo : Option (Bool × Option Binding × Nat) := none  -- placement and pin to restore on ABORT
  home : Store := {}               -- T2 staging of the answer (R210); OBJ_EVICT: the copy it writes back
  challenge : List Byte := []      -- LIFECYCLE: the challenge in force at its acceptance (R468)
  head : List Byte := []           -- a batch's outcome bytes while a peer is read for its answer (R312)
  extra : Nat := 0
deriving DecidableEq, Repr

/-- A status record (Table 14-7) with its result bytes to write ahead of it (R426). -/
structure Record where
  kind : Nat := 0
  hostId : Nat := 0
  opcode : Nat := 0
  tag : Nat := 0
  status : Status
  frame : Nat
  ctx : Nat := 0
  result : List (Nat × List Byte) := []
  deferred : Bool := false
deriving DecidableEq, Repr

/-- One outbound host DMA write. -/
structure HostWrite where
  addr : Nat
  data : List Byte
deriving DecidableEq, Repr

structure HostIf where
  taskPkt : PacketBits := 0
  goCopy : PacketBits := 0
  taskState : TaskState := .idle
  goSeq : Byte := 0
  devTag : Nat := 0
  nextTag : Nat := 1
  reason : Nat := 0
  baseLo : BitVec 20 := 0
  baseHi : Word32 := 0
  log2Size : Nat := 11
  tail : Nat := 0
  head : Nat := 0
  enable : Bool := false
  overflow : Bool := false
  hbEnable : Bool := true
  phase : Bool := true
  hbInterval : Nat := 1000
  hbCount : Nat := 0
  devState : DevState := .booting
  sleepLevel : Nat := 0
  faultCause : Nat := 0
  progress : Nat := 0
  cmds : List Cmd := []
  done : List Record := []
  heldRecs : List Record := []
  written : Nat := 0
  winRecs : Nat := 0               -- records written in the window in progress
  winBytes : Nat := 0              -- bytes written in it, results included
  hostOut : List HostWrite := []
  readData : Word64 := 0
deriving DecidableEq, Repr

structure Arb where
  wHigh : Nat := 8
  wMedium : Nat := 4
  wLow : Nat := 1
  cHigh : Nat := 8
  cMedium : Nat := 4
  cLow : Nat := 1
deriving DecidableEq, Repr

structure FrameUnit where
  counter : Word64 := 0
  capture : Word64 := 0
  period : Nat := 1000
  pct : Nat := 70
  effPeriod : Nat := 1000
  effPct : Nat := 70
  own : Nat := 1000                -- own period in force (R40); `period` is the value written
  locked : Bool := false
  sourceRing : Nat := 0
  sourceValid : Bool := false
  slewing : Bool := false
  lockErr : BitVec 16 := 0
  masterRings : BitVec 16 := 0
  missed : Nat := 0
  sourceNext : Option Nat := none
  planClosed : Bool := false
  snapDone : Bool := false
  everLocked : Bool := false
  wasReady : Bool := false         -- DEV_STATE has been READY since the last reset (R44, R46)
  announced : Nat := 1000          -- NEXT of the last tick of the source (R40)
  known : List (Nat × Nat) := []   -- periods of coming frames, by own frame number, as the source has announced them (R39, R40)
  sourceOff : Word64 := 0          -- own frame number less the source's, since the lock (log entry 106)
  lastTick : Option (Word64 × Nat × Bool) := none  -- frame, HOPS and DN arrival of the copy in use (R359)
  lockedAll : Bool := true
  slewAny : Bool := false
  plan : List Nat := []            -- contexts planned for the next frame, in slice order (R331)
  slices : List Nat := []          -- slices of this frame that have not started
deriving DecidableEq, Repr

/-! ### Power (chapter 18) -/

inductive DomState | off | on | retained
deriving DecidableEq, Repr

structure Power where
  standby : Bool := true
  pgIn : Bool := false
  perst : Bool := true             -- PERST# asserted
  mateHeld : Bool := false
  pgOut : Bool := false
  d1 : Bool := false
  d2 : Bool := false
  d3 : Bool := false
  d4 : Bool := false
  compute : SMap DomState := []    -- by domain 5-29, default off
  domOn : List (Nat × Nat × Bool) := []    -- DOMAIN_CONTROL on: domain, tag, zeroed (R476)
  domOff : List (Nat × Nat × Nat) := []    -- DOMAIN_CONTROL off: domain, tag, ticks since acceptance
  sleepReq : Option (Nat × Nat × Word32) := none  -- tag, level, RETAIN
  waking : Bool := false           -- exit from S2 in progress (R486)
  wakeTag : Nat := 0
  sleepOn : List Nat := []         -- domains that S2 powered off and its exit powers again
  woken : Bool := false            -- exit ended; READY follows at the next tick
  s3 : Bool := false
  s3Flush : Bool := false
  capW : Nat := 3600
  throttleC : Nat := 95
  duty : Nat := 16
  lastDuty : Nat := 16
  limited : Bool := false
  overCap : Bool := false
  frameAvgW : Nat := 0
  peakW : Nat := 0
  computeW : Nat := 0
  idleW : Nat := 0
  limitedFrames : Nat := 0
  trips : Nat := 0
  dieTemp : Byte := 0
  hbmTemp : Byte := 0
  dutyMin : Nat := 16
  resetCause : Nat := 0
  resets : Nat := 0
  temps : List Byte := []          -- bytes 64-115 of the TEMPERATURE page; empty: no reading yet
  tempMax : List Byte := []        -- maxima of the running interval: die, HBM, flash, coolant outlet
  history : List (List Byte) := []
  lifeMax : List Byte := [0, 0, 0, 0]
  lastKnown : List Byte := []      -- what D0 last saw of the values that D1 puts into the management map (R518); empty: nothing yet
  throttleUs : Nat := 0
  thermalFaults : Nat := 0
  afterWindow : Option Nat := none -- reset or power-down after the next window (R420): 6, 7 or 8
deriving DecidableEq, Repr

/-! ### Security and lifecycle (chapter 17) -/

inductive Lifecycle | blank | provisioned | deployed | service | retired
deriving DecidableEq, Repr

inductive Rdp | open_ | sealed | fixed
deriving DecidableEq, Repr

/-- The transition an accepted LIFECYCLE asked for, performed after its status-write window (R470): the new state, level and owner
digest, whether the media keys are destroyed, whether a sanitising erase follows, and whether the next boot erases the main array
(R454). -/
structure Intent where
  target : Lifecycle
  rdp : Rdp
  destroy : Bool
  sanitise : Bool
  owner : Option (List Byte)
  wipeArray : Bool
deriving DecidableEq, Repr

structure Sec where
  lifecycle : Lifecycle := .blank
  rdp : Rdp := .open_
  owner : Option (List Byte) := none
  challenge : List Byte := []
  kgen : Nat := 0
  keyHeld : Bool := false
  sanitise : Bool := false
  intent : Option Intent := none
  wipeArray : Bool := false        -- the next boot erases the main array (R454)
  identity : Bool := false
  otpSeq : Nat := 0                -- SEQ of the image whose requests were applied last (R458)
deriving DecidableEq, Repr

/-! ### Embedded flash, OTP row, watchdog (chapter 16) -/

structure Ef where
  words : SMap Word64 := []        -- by word address; unlisted reads erased (all ones)
  poisoned : List Nat := []
  otp : SMap Word64 := []
  raw : List (Nat × RawError) := []     -- words of the main array with a raw error
  otpRaw : List (Nat × RawError) := []  -- words of the OTP row with one; they are never poisoned (R436)
  owner : Nat := 15
  word : BitVec 20 := 0
  otpSel : Bool := false
  data : Word64 := 0
  busy : Bool := false
  activeOp : Nat := 0
  actWord : Nat := 0               -- word, row and data of the program in progress
  actOtp : Bool := false
  actData : Word64 := 0
  eraseSec : Nat := 0              -- sector of the erase that is active or suspended
  poisonDue : List Nat := []       -- words whose POISON waits for the array to be idle (R436)
  suspended : Bool := false
  suspSector : Nat := 0
  done : Bool := false
  refused : Bool := false
  cause : Nat := 0
  guarded : Bool := false
  progFail : Bool := false
  autoSuspend : Bool := true
  stallGuard : Bool := true
  protect : BitVec 7 := 0
  corrected : Nat := 0
  uncorrectable : Nat := 0
  errWord : Nat := 0
  errOtp : Bool := false
  errUncorr : Bool := false
  dlNext : Option Nat := none      -- next OFFSET of the download in progress (R445)
  dlLen : Nat := 0
  activeSlot : Option Nat := none  -- 0 A, 1 B; none in the recovery window
  wdtEnable : Bool := false
  wdtLock : Bool := false
  periodMs : Nat := 2000
  kicked : Byte := 0
  late : Byte := 0
  remainingMs : Nat := 0
  expired : Bool := false
  missing : Byte := 0
  efOp : Bool := false
deriving DecidableEq, Repr

/-! ### Scrub engines and logs (chapters 10 and 19) -/

structure ScrubGroup where
  enable : Bool := true
  period : Nat := 0                -- 0 stands for the default of Table 10-4
  engines : SMap (Nat × Nat) := [] -- by unit: next code word of its pass, passes completed (R313)
  corrected : Nat := 0
  poisoned : Nat := 0
  lastMs : Nat := 0
deriving DecidableEq, Repr

/-- An error log entry (Table 19-2). -/
structure LogEntry where
  seq : Nat
  frame : Nat
  resets : Nat
  source : Nat
  sp : Nat := 0xFF
  severity : Nat
  count : Nat := 1
  code : Nat
  ctx : Nat := 0
  inst : Nat := 0
  addr : Nat := 0
  detail0 : Nat := 0
  detail1 : Nat := 0
  persistent : Bool := false
deriving DecidableEq, Repr

/-- Counts of one frame (Table 19-5 record). -/
structure FrameRec where
  frame : Nat := 0
  sketch : Nat := 0
  missed : Nat := 0
  evictions : Nat := 0
  dropped : Nat := 0
  saturated : Nat := 0
  nanQuant : Nat := 0
  constCh : Nat := 0
  requests : Nat := 0
  commands : Nat := 0
  held : Nat := 0
  overrun : Nat := 0
  dutyMin : Nat := 16
  flags : Nat := 0
deriving DecidableEq, Repr

/-- One block of the EFFICIENCY page (R504): delivered amounts. -/
structure EffBlock where
  frames : Nat := 0
  elapsedUs : Nat := 0
  arith : List Nat := []           -- operations by row of Table 1-5 (log entry 23)
  hbm : Nat := 0
  flash : Nat := 0
  ring : Nat := 0
  host : Nat := 0
  scan : Nat := 0
  energy : Nat := 0
deriving DecidableEq, Repr

structure Logs where
  errors : List LogEntry := []     -- oldest first
  nextSeq : Nat := 1
  lost : Nat := 0
  cur : FrameRec := {}
  recs : List FrameRec := []       -- newest first, at most 256
  totals : FrameRec := {}
  frames : Nat := 0
  basisRef : Bool := false
  lastFrame : EffBlock := {}
  accum : EffBlock := {}
  gens : SMap Nat := []            -- GENERATION per log
  snaps : SMap (List Byte) := []   -- last snapshot per log, to see whether it changed
  savedHealth : List Nat := []     -- counts saved to the configuration records (R499)
deriving DecidableEq, Repr

/-- One entry of the swap queue (R326): context, domain, in or out, or the zeroing of a save area (R340 step 7). -/
structure SwapOp where
  ctx : Nat
  domain : Nat
  swapIn : Bool
  wipe : Bool := false
deriving DecidableEq, Repr

/-- A physical core: the row its spare replaces, and whether it is offline (R92-R96). -/
structure PhysCore where
  spare : Option Nat := none
  offline : Bool := false
deriving DecidableEq, Repr

inductive Part | f192 | i192 | q96
deriving DecidableEq, Repr

/-- The whole module. `pending` is the queue of commands that wait, first in, first out; `nonce` picks the next free value. -/
structure State where
  pending : List Instr := []
  nonce : Nat := 0
  part : Part := .f192
  uid : Word64 := 0
  pcie : Pcie := {}
  host : HostIf := {}
  arb : Arb := {}
  frame : FrameUnit := {}
  power : Power := {}
  sec : Sec := {}
  ctxs : SMap Context := []
  swaps : List SwapOp := []
  phys : SMap PhysCore := []       -- by cluster * 100 + core
  objs : SMap Obj := []            -- by object identifier (Table 7-2)
  inFlight : List Nat := []        -- objects in flight at the prefetch engine (R224)
  flash : Flash := {}
  scan : Scan := {}
  ring : Ring := {}
  red : Red := {}
  ef : Ef := {}
  ctrl : Store := {}               -- control SRAM (Table 16-1)
  scrub : SMap ScrubGroup := []
  hbmRest : SMap Store := []       -- by stack: raw errors and poison where no object's copy lies (R304)
  idle : SMap Store := []          -- by cluster: the same in its memories while no resident context holds it
  logs : Logs := {}
deriving DecidableEq, Repr

/-- The module when standby power is first applied: D0 runs, DEV_STATE is BOOTING, everything else at its reset value
(R16, R46, R473, Table 18-7). The OTP row holds the MODULE_UID and the VARIANT of the part, as manufacture left them (R451, log entry 5). -/
def State.reset : State := { ef := { otp := [(0, 0), (2, 0x07FFFFFFFFFFFFFF)] } }

end Sys2Proof.Machine
end

