-- ==== Sys2Proof/Machine/Store.lean ====
section
/-! DEFINITION. Named operations on the sparse maps, the memories and the little-endian fields (R13) that every other file uses. -/

namespace Sys2Proof.Machine

variable {α : Type}

/-! ### Sparse maps -/

/-- The entry listed under `k`. -/
def mapFind (k : Nat) : SMap α → Option α
  | [] => none
  | (j, v) :: m => if j = k then some v else mapFind k m

/-- The entry under `k`, or what an unlisted key reads as. -/
def mapGet (d : α) (m : SMap α) (k : Nat) : α := (mapFind k m).getD d

/-- `m` with `v` under `k`, keys rising. -/
def mapPut (k : Nat) (v : α) : SMap α → SMap α
  | [] => [(k, v)]
  | (j, w) :: m =>
    if k < j then (k, v) :: (j, w) :: m
    else if k = j then (k, v) :: m
    else (j, w) :: mapPut k v m

/-- `m` without the entry under `k`. -/
def mapDel (k : Nat) (m : SMap α) : SMap α := m.filter (fun p => p.1 != k)

/-- Store `v` under `k`, keeping no entry equal to the default. -/
def mapSet [DecidableEq α] (d : α) (k : Nat) (v : α) (m : SMap α) : SMap α :=
  if v = d then mapDel k m else mapPut k v m

/-- Apply `f` to every listed value. -/
def mapVals {β : Type} (f : α → β) (m : SMap α) : SMap β := m.map (fun p => (p.1, f p.2))

/-! ### Sets of numbers -/

/-- Insert into a rising list without repeats. -/
def setAdd (k : Nat) : List Nat → List Nat
  | [] => [k]
  | j :: l => if k < j then k :: j :: l else if k = j then j :: l else j :: setAdd k l

def setDel (k : Nat) (l : List Nat) : List Nat := l.filter (· != k)

/-! ### Bytes, little-endian (R13) -/

/-- A flag at its bit of a word. -/
def bit (b : Bool) (n : Nat) : Nat := if b then 2 ^ n else 0

/-- Bytes of an ASCII text, space-padded. -/
def asciiPad (n : Nat) (t : String) : List Byte :=
  ((t.toList.map (fun c => BitVec.ofNat 8 c.toNat)) ++ List.replicate n (32 : Byte)).take n

/-- The `n` low bytes of `v`, byte 0 first. -/
def leBytes : Nat → Nat → List Byte
  | 0, _ => []
  | n + 1, v => BitVec.ofNat 8 v :: leBytes n (v / 256)

/-- The number whose bytes these are, byte 0 first. -/
def leNat : List Byte → Nat
  | [] => 0
  | b :: bs => b.toNat + 256 * leNat bs

/-- Field of `n` bytes at byte offset `off`. -/
def byteField (bs : List Byte) (off n : Nat) : Nat := leNat ((bs.drop off).take n)

/-- Bits [hi:lo] of `v` (R12). -/
def bitsOf (v hi lo : Nat) : Nat := v / 2 ^ lo % 2 ^ (hi + 1 - lo)

/-- Bit `n` of `v`. -/
def bitOf (v n : Nat) : Bool := v / 2 ^ n % 2 = 1

/-- `n` zero bytes. -/
def zeros (n : Nat) : List Byte := List.replicate n 0

/-- Pad with zero bytes to `n`. -/
def padTo (n : Nat) (bs : List Byte) : List Byte := bs ++ zeros (n - bs.length)

/-- A signed number from the low `w` bits of `v`. -/
def signOf (w v : Nat) : Int := if v < 2 ^ (w - 1) then (v : Int) else (v : Int) - 2 ^ w

/-- `n` rounded up to a multiple of `m`. -/
def roundUp (n m : Nat) : Nat := (n + m - 1) / m * m

/-- ⌈a / b⌉. -/
def ceilDiv (a b : Nat) : Nat := (a + b - 1) / b

/-! ### Cells: sparse bytes with default 0 -/

/-- The cells of bytes laid out from `a`; a zero byte needs none. -/
def cellsOf (a : Nat) : List Byte → List Host.Cell
  | [] => []
  | b :: bs => if b = 0 then cellsOf (a + 1) bs else (a, b) :: cellsOf (a + 1) bs

/-- Write bytes from `a`. -/
def cellsWrite (cs : List Host.Cell) (a : Nat) (bs : List Byte) : List Host.Cell :=
  cs.filter (fun c => c.1 < a) ++ cellsOf a bs ++ cs.filter (fun c => a + bs.length ≤ c.1)

/-- The byte at `a`. -/
def cellAt (a : Nat) : List Host.Cell → Byte
  | [] => 0
  | (j, b) :: cs => if j = a then b else cellAt a cs

/-- Walk `n` bytes from `a` through cells that all lie at or after `a`. -/
def cellsWalk : List Host.Cell → Nat → Nat → List Byte
  | _, _, 0 => []
  | [], _, n + 1 => zeros (n + 1)
  | (j, b) :: cs, a, n + 1 => if j = a then b :: cellsWalk cs (a + 1) n else 0 :: cellsWalk ((j, b) :: cs) (a + 1) n

/-- The `n` bytes from `a`. -/
def cellsRead (cs : List Host.Cell) (a n : Nat) : List Byte :=
  cellsWalk (cs.filter (fun c => a ≤ c.1 && c.1 < a + n)) a n

/-! ### Memories: bytes and poisoned code words of `w` bytes (R305) -/

def storeByte (m : Store) (a : Nat) : Byte := cellAt a m.cells

def storeRead (m : Store) (a n : Nat) : List Byte := cellsRead m.cells a n

/-- Write whole code words: a written word leaves the poisoned state and holds no raw error (R305). -/
def storeWrite (w : Nat) (m : Store) (a : Nat) (bs : List Byte) : Store :=
  { cells := cellsWrite m.cells a bs
    poison := m.poison.filter (fun p => !(a ≤ p * w && p * w + w ≤ a + bs.length))
    raw := m.raw.filter (fun p => !(a ≤ p.1 * w && p.1 * w + w ≤ a + bs.length)) }

/-- Mark the code words that meet a range as poisoned. -/
def storePoison (w : Nat) (m : Store) (a n : Nat) : Store :=
  { m with poison := (List.range (ceilDiv (a + n) w - a / w)).foldl (fun l i => setAdd (a / w + i) l) m.poison }

/-- A code word that meets the range is poisoned. -/
def storeHit (w : Nat) (m : Store) (a n : Nat) : Bool :=
  m.poison.any (fun p => p * w < a + n && a < p * w + w)

/-- Address of the first poisoned code word that meets the range. -/
def hitAt (w : Nat) (m : Store) (a n : Nat) : Nat := ((m.poison.filter (fun p => p * w < a + n && a < p * w + w)).headD 0) * w

/-- What the code of memory `kind` (Table 10-1, in list order from 1) makes of a raw error; an error beyond what it detects counts as
detected (log entry 97). -/
def codeFinds (kind : Nat) (e : RawError) : CodeState :=
  let strong := if kind = 4 then 2 else if kind = 5 then 4 else 1
  match e with
  | .bits n => if n = 0 then .good else if n ≤ strong then .correctable else .uncorrectable
  | .bytes n => if n = 0 then .good else if kind = 5 && n ≤ 4 then .correctable else .uncorrectable
  | .lane => if kind = 5 then .correctable else .uncorrectable
  | .known => .uncorrectable
  | .lineAddress => if kind = 1 || kind = 4 then .uncorrectable else .good

/-- Code words of a list that a read of words `lo` to `hi` − 1 finds uncorrectable. -/
def rawWords (kind : Nat) (raw : List (Nat × RawError)) (lo hi : Nat) : List Nat :=
  (raw.filter (fun p => lo ≤ p.1 && p.1 < hi && codeFinds kind p.2 = .uncorrectable)).map (·.1)

/-- The raw errors after these words have been entered in the log: the ones whose memory has no poison state stay (R305). -/
def rawKnown (ws : List Nat) (raw : List (Nat × RawError)) : List (Nat × RawError) :=
  raw.map (fun p => if ws.contains p.1 then (p.1, .known) else p)

/-- Of the words found uncorrectable, the ones not yet entered in the log. -/
def rawNew (ws : List Nat) (raw : List (Nat × RawError)) : List Nat := ws.filter (fun w => !raw.contains (w, .known))

/-- A code word suffers a raw error; it takes the place of an earlier one. -/
def rawPut (w : Nat) (e : RawError) (raw : List (Nat × RawError)) : List (Nat × RawError) := raw.filter (fun p => p.1 != w) ++ [(w, e)]

/-- Code words of `w` bytes that a read of the `n` bytes from `a` finds uncorrectable. -/
def rawBad (kind w : Nat) (m : Store) (a n : Nat) : List Nat := if n = 0 then [] else rawWords kind m.raw (a / w) (ceilDiv (a + n) w)

/-- The memory after that read: the words found take the poison state (R308). -/
def storeMeet (bad : List Nat) (m : Store) : Store :=
  { m with poison := bad.foldl (fun l i => setAdd i l) m.poison, raw := m.raw.filter (fun p => !bad.contains p.1) }

/-- A code word suffers a raw error; it takes the place of an earlier one. -/
def storeUpset (w : Nat) (e : RawError) (m : Store) : Store := { m with raw := rawPut w e m.raw }

/-- The `n` bytes from `a` as a memory of their own, with their poison; `a` is a multiple of `w`. -/
def storeSub (w : Nat) (m : Store) (a n : Nat) : Store :=
  { cells := (m.cells.filter (fun c => a ≤ c.1 && c.1 < a + n)).map (fun c => (c.1 - a, c.2))
    poison := (m.poison.filter (fun p => a ≤ p * w && p * w < a + n)).map (fun p => p - a / w) }

/-- Write the `n` bytes of `src` at `a`, its poison with them (R309); `a` and `n` are multiples of `w`. -/
def storePaste (w : Nat) (m : Store) (a n : Nat) (src : Store) : Store :=
  { cells := m.cells.filter (fun c => c.1 < a) ++ ((src.cells.filter (fun c => c.1 < n)).map (fun c => (c.1 + a, c.2))) ++
      m.cells.filter (fun c => a + n ≤ c.1)
    poison := (src.poison.filter (fun p => p * w < n)).foldl (fun l p => setAdd (p + a / w) l)
      (m.poison.filter (fun p => !(a ≤ p * w && p * w < a + n)))
    raw := m.raw.filter (fun p => !(a ≤ p.1 * w && p.1 * w < a + n)) }

/-- The canonical form: addresses strictly rising and no zero byte listed. -/
def cellsWf : List Host.Cell → Bool
  | [] => true
  | [c] => c.2 != 0
  | c :: d :: cs => c.2 != 0 && c.1 < d.1 && cellsWf (d :: cs)

abbrev Memory.wf (m : Store) : Prop := cellsWf m.cells = true

/-- Rising keys. -/
def mapWf : SMap α → Bool
  | [] => true
  | [_] => true
  | p :: q :: m => p.1 < q.1 && mapWf (q :: m)

/-! ### CRC-32C (log entry 14) -/

def crcBits : Nat → Nat → Nat
  | 0, c => c
  | n + 1, c => crcBits n (if c % 2 = 1 then c / 2 ^^^ 0x82F63B78 else c / 2)

/-- CRC-32C (reflected polynomial 0x82F63B78, initial value and final exclusive-or all ones). PRESUMED: the name's standard. -/
def crc32c (bs : List Byte) : Nat :=
  bs.foldl (fun c b => crcBits 8 (c ^^^ b.toNat)) 0xFFFFFFFF ^^^ 0xFFFFFFFF

end Sys2Proof.Machine
end

