-- ==== Sys2Proof/Machine/Floats.lean ====
section
/-! DEFINITION. Exact values and their rounding: binary32 arithmetic (R71, R142), and the correctly rounded functions of
Table 5-5 and Table 5-6. -/

namespace Sys2Proof.Machine

/-- A value of a floating-point format: NaN, infinity, or ± m × 2^e exactly. -/
inductive FVal
  | nan (neg : Bool)
  | inf (neg : Bool)
  | fin (neg : Bool) (m : Nat) (e : Int)
deriving DecidableEq, Repr

/-- Number of significant bits. -/
def bitLen (m : Nat) : Nat := if m = 0 then 0 else Nat.log2 m + 1

/-- A binary format: precision, exponent of the least subnormal, first code that is not finite, and its NaN code. -/
structure FloatFmt where
  p : Nat
  emin : Int
  infCode : Nat
  width : Nat

def fmt32 : FloatFmt := ⟨24, -149, 0x7F800000, 32⟩
def fmtBf16 : FloatFmt := ⟨8, -133, 0x7F80, 16⟩
def fmtE4m3 : FloatFmt := ⟨4, -9, 0x7F, 8⟩
def fmtE5m2 : FloatFmt := ⟨3, -16, 0x7C, 8⟩

/-- Decode a code of format `f`: every code from `infCode` up is special. -/
def decodeFin (f : FloatFmt) (c : Nat) : FVal :=
  let neg := bitOf c (f.width - 1)
  let mag := c % 2 ^ (f.width - 1)
  let be := mag / 2 ^ (f.p - 1)
  let fr := mag % 2 ^ (f.p - 1)
  if be = 0 then .fin neg fr f.emin else .fin neg (2 ^ (f.p - 1) + fr) (f.emin + be - 1)

/-- Decode a code of a format with infinities (binary32, BF16, E5M2; Table 6-1, Table 6-2). -/
def decodeIeee (f : FloatFmt) (c : Nat) : FVal :=
  let neg := bitOf c (f.width - 1)
  let mag := c % 2 ^ (f.width - 1)
  if mag < f.infCode then decodeFin f c
  else if mag = f.infCode then .inf neg
  else .nan neg

def dec32 (w : Word32) : FVal := decodeIeee fmt32 w.toNat

/-- E4M3 has no infinities; only 0x7F and 0xFF are NaN (R171). -/
def decE4m3 (c : Nat) : FVal := if c % 128 = 127 then .nan (bitOf c 7) else decodeFin fmtE4m3 c

/-- Exponent of the quantum of `f` at a magnitude m × 2^e. -/
def quantum (f : FloatFmt) (m : Nat) (e : Int) : Int := max f.emin (e + bitLen m - f.p)

/-- Nearest, ties to even: the multiple of 2^q nearest to m × 2^e. -/
def roundNearest (m : Nat) (e q : Int) : Nat :=
  if q ≤ e then m * 2 ^ (e - q).toNat
  else
    let s := (q - e).toNat
    let k := m / 2 ^ s
    let r := m % 2 ^ s
    if r > 2 ^ (s - 1) then k + 1
    else if r < 2 ^ (s - 1) then k
    else k + k % 2

/-- Stochastic rounding of R184 with the draw `r`. -/
def roundStochastic (draw : Nat) (m : Nat) (e q : Int) : Nat :=
  if q ≤ e then m * 2 ^ (e - q).toNat
  else
    let s := (q - e).toNat
    let k := m / 2 ^ s
    let t := m % 2 ^ s * 65536 / 2 ^ s
    if draw < t then k + 1 else k

/-- Rounding chosen by SRND: the draw of R185, or none for nearest. -/
def roundBy (draw : Option Nat) (m : Nat) (e q : Int) : Nat :=
  match draw with
  | none => roundNearest m e q
  | some r => roundStochastic r m e q

/-- Code of k × 2^q in `f`, without its sign; a carry moves the exponent by itself. -/
def encodeMag (f : FloatFmt) (k : Nat) (q : Int) : Nat := (q - f.emin).toNat * 2 ^ (f.p - 1) + k

def signBit (f : FloatFmt) (neg : Bool) : Nat := if neg then 2 ^ (f.width - 1) else 0

/-- The magnitude code of ± m × 2^e rounded into `f`. -/
def roundMag (f : FloatFmt) (draw : Option Nat) (m : Nat) (e : Int) : Nat :=
  if m = 0 then 0 else
    let q := quantum f m e
    encodeMag f (roundBy draw m e q) q

/-- Rounding into binary32: beyond the range an infinity of its sign (R71, R142). -/
def enc32 (v : FVal) : Word32 :=
  match v with
  | .nan neg => BitVec.ofNat 32 (signBit fmt32 neg + 0x7FC00000) ||| (Config.nanPayload neg &&& 0x003FFFFF)
  | .inf neg => BitVec.ofNat 32 (signBit fmt32 neg + fmt32.infCode)
  | .fin neg m e => BitVec.ofNat 32 (signBit fmt32 neg + min (roundMag fmt32 none m e) fmt32.infCode)

/-- Rounding into BF16 (Table 6-6). -/
def encBf16 (draw : Option Nat) (v : FVal) : Nat :=
  match v with
  | .nan neg => signBit fmtBf16 neg + 0x7FC0
  | .inf neg => signBit fmtBf16 neg + fmtBf16.infCode
  | .fin neg m e => signBit fmtBf16 neg + min (roundMag fmtBf16 draw m e) fmtBf16.infCode

/-- Exact value of an integer. -/
def valInt (i : Int) : FVal := .fin (i < 0) i.natAbs 0

/-- The exact value as a signed integer numerator over 2^-e. -/
def signedMag (neg : Bool) (m : Nat) : Int := if neg then -(m : Int) else m

/-- A finite value from a signed integer; an exact zero takes the sign `z`. -/
def valOf (i : Int) (e : Int) (z : Bool) : FVal := if i = 0 then .fin z 0 0 else .fin (i < 0) i.natAbs e

def isNan : FVal → Bool
  | .nan _ => true
  | _ => false

def negV : FVal → FVal
  | .nan n => .nan n
  | .inf n => .inf !n
  | .fin n m e => .fin (!n) m e

def absV : FVal → FVal
  | .nan n => .nan n
  | .inf _ => .inf false
  | .fin _ m e => .fin false m e

/-- Exact sum. A NaN operand gives a NaN of its own sign, the first one's where both are (log entry 114). -/
def addV : FVal → FVal → FVal
  | .nan n, _ => .nan n
  | _, .nan n => .nan n
  | .inf a, .inf b => if a = b then .inf a else .nan Config.nanSign
  | .inf a, _ => .inf a
  | _, .inf b => .inf b
  | .fin na ma ea, .fin nb mb eb =>
    let e := min ea eb
    let s := signedMag na ma * 2 ^ (ea - e).toNat + signedMag nb mb * 2 ^ (eb - e).toNat
    valOf s e (na && nb)

def subV (a b : FVal) : FVal := addV a (negV b)

/-- Exact product; a NaN operand gives a NaN of its own sign (log entry 114). -/
def mulV : FVal → FVal → FVal
  | .nan n, _ => .nan n
  | _, .nan n => .nan n
  | .inf a, .inf b => .inf (a != b)
  | .inf a, .fin b m _ => if m = 0 then .nan Config.nanSign else .inf (a != b)
  | .fin a m _, .inf b => if m = 0 then .nan Config.nanSign else .inf (a != b)
  | .fin na ma ea, .fin nb mb eb => .fin (na != nb) (ma * mb) (ea + eb)

/-- Multiply by 2^k. -/
def scaleV (k : Int) : FVal → FVal
  | .fin n m e => .fin n m (e + k)
  | v => v

/-- Quotient of two magnitudes to at least 64 bits, with a sticky last bit. -/
def divMag (m1 : Nat) (e1 : Int) (m2 : Nat) (e2 : Int) : Nat × Int :=
  let k := 64 + bitLen m2
  let n := m1 * 2 ^ k
  (2 * (n / m2) + (if n % m2 = 0 then 0 else 1), e1 - e2 - k - 1)

/-- Quotient, to more bits than any rounding here needs. -/
def divV : FVal → FVal → FVal
  | .nan n, _ => .nan n
  | _, .nan n => .nan n
  | .inf _, .inf _ => .nan Config.nanSign
  | .inf a, .fin b _ _ => .inf (a != b)
  | .fin a _ _, .inf b => .fin (a != b) 0 0
  | .fin na ma ea, .fin nb mb eb =>
    if mb = 0 then (if ma = 0 then .nan Config.nanSign else .inf (na != nb))
    else
      let r := divMag ma ea mb eb
      .fin (na != nb) r.1 r.2

/-- Integer square root by bits, from bit `n` down. -/
def sqrtBits (v : Nat) : Nat → Nat → Nat
  | 0, r => r
  | n + 1, r => if (r + 2 ^ n) * (r + 2 ^ n) ≤ v then sqrtBits v n (r + 2 ^ n) else sqrtBits v n r

def isqrt (v : Nat) : Nat := sqrtBits v (bitLen v / 2 + 1) 0

/-- 1 / √v, to more bits than any rounding here needs, with a sticky last bit. -/
def rsqrtV : FVal → FVal
  | .nan n => .nan n
  | .inf false => .fin false 0 0
  | .inf true => .nan Config.nanSign
  | .fin neg m e =>
    if m = 0 then .inf neg
    else if neg then .nan Config.nanSign
    else
      let m' := if e % 2 = 0 then m else 2 * m
      let e' := if e % 2 = 0 then e else e - 1
      let k := 64 + bitLen m'
      let s := isqrt (2 ^ (2 * k) / m')
      .fin false (2 * s + (if s * s * m' = 2 ^ (2 * k) then 0 else 1)) (-(e' / 2) - k - 1)

/-- Order of two values that are no NaN: a < b, with −0 equal to +0. -/
def ltV : FVal → FVal → Bool
  | .nan _, _ => false
  | _, .nan _ => false
  | .inf a, .inf b => a && !b
  | .inf a, _ => a
  | _, .inf b => !b
  | .fin na ma ea, .fin nb mb eb =>
    let e := min ea eb
    signedMag na ma * 2 ^ (ea - e).toNat < signedMag nb mb * 2 ^ (eb - e).toNat

/-- Equality of two values, −0 equal to +0, false with a NaN. -/
def eqV (a b : FVal) : Bool := !isNan a && !isNan b && !ltV a b && !ltV b a

def isNegV : FVal → Bool
  | .nan n => n
  | .inf n => n
  | .fin n _ _ => n

/-- MAX in binary32: −0 below +0, a NaN operand gives NaN (R99). -/
def maxV (a b : FVal) : FVal :=
  if isNan a then a else if isNan b then b
  else if ltV a b then b else if ltV b a then a
  else if isNegV a then b else a

/-- MIN in binary32 (R99). -/
def minV (a b : FVal) : FVal :=
  if isNan a then a else if isNan b then b
  else if ltV a b then a else if ltV b a then b
  else if isNegV a then a else b

/-- Rounding an exact value to binary32 and back. -/
def r32 (v : FVal) : FVal := dec32 (enc32 v)

def fAdd (a b : Word32) : Word32 := enc32 (addV (dec32 a) (dec32 b))
def fSub (a b : Word32) : Word32 := enc32 (subV (dec32 a) (dec32 b))
def fMul (a b : Word32) : Word32 := enc32 (mulV (dec32 a) (dec32 b))

/-- A value rounded to an integer, nearest, ties to even (for FP32 → INT32, Table 6-6). -/
def roundInt (draw : Option Nat) (neg : Bool) (m : Nat) (e : Int) : Int := signedMag neg (roundBy draw m e 0)

/-! ### Fixed point with 640 fraction bits, for the functions of Table 5-5 (log entry 15) -/

def fxBits : Nat := 640
def fxOne : Nat := 2 ^ fxBits

/-- Σ over `n` terms of the Taylor series of exp at r < 1, each term r / i times the one before. -/
def expSeries (r : Nat) : Nat → Nat → Nat → Nat → Nat
  | 0, _, _, acc => acc
  | n + 1, i, term, acc =>
    let t := term * r / fxOne / i
    expSeries r n (i + 1) t (acc + t)

def squareTimes : Nat → Nat → Nat
  | 0, v => v
  | n + 1, v => squareTimes n (v * v / fxOne)

/-- Σ 1 / (k 2^k), the series of ln 2. -/
def ln2Series : Nat → Nat → Nat
  | 0, acc => acc
  | n + 1, acc => ln2Series n (acc + fxOne / ((n + 1) * 2 ^ (n + 1)))

def fxLn2 : Nat := ln2Series 660 0

/-- exp of a fixed-point r in [0, ln 2): halved nine times, summed, squared nine times. -/
def expSmall (r : Nat) : Nat := squareTimes 9 (expSeries (r / 512) 60 1 fxOne fxOne)

/-- exp of x = X / 2^640: mantissa and exponent of the result, sticky last bit. -/
def expFx (x : Int) : Nat × Int :=
  let k := x / (fxLn2 : Int)
  let r := (x - k * fxLn2).toNat
  (2 * expSmall r + 1, k - fxBits - 1)

/-- ± m × 2^e as a fixed-point integer (the fraction below 2^-640 is cut). -/
def toFx (neg : Bool) (m : Nat) (e : Int) : Int :=
  let v := if 0 ≤ e + fxBits then m * 2 ^ (e + fxBits).toNat else m / 2 ^ (-(e + fxBits)).toNat
  signedMag neg v

/-- exp(−|x|) in fixed point, at least one unit. -/
def expNegFx (x : Int) : Nat :=
  let a : Int := -(x.natAbs : Int)
  let r := expFx a
  max 1 (if 0 ≤ r.2 + fxBits then r.1 * 2 ^ (r.2 + fxBits).toNat else r.1 / 2 ^ (-(r.2 + fxBits)).toNat)

/-- arctan(1/n) by its alternating series. -/
def atanInv (n : Nat) : Nat → Nat → Nat → Int → Int
  | 0, _, _, acc => acc
  | f + 1, i, pw, acc =>
    let t : Int := (pw / (2 * i + 1) : Nat)
    atanInv n f (i + 1) (pw / (n * n)) (if i % 2 = 0 then acc + t else acc - t)

/-- π by Machin's formula. -/
def fxPi : Nat := (4 * (4 * atanInv 5 150 0 (fxOne / 5) 0 - atanInv 239 60 0 (fxOne / 239) 0)).toNat

/-- √(2π). -/
def fxSqrt2Pi : Nat := isqrt (2 * fxPi * fxOne)

/-- Σ x^(2n+1) / (1·3·…·(2n+1)). -/
def phiSeries (x2 : Nat) : Nat → Nat → Nat → Nat → Nat
  | 0, _, _, acc => acc
  | f + 1, i, term, acc =>
    let t := term * x2 / fxOne / (2 * i + 1)
    phiSeries x2 f (i + 1) t (acc + t)

/-- φ(x) and Φ(−|x|) in fixed point, for |x| ≤ 16. -/
def normalFx (x : Int) : Nat × Nat :=
  let a := x.natAbs
  let x2 := a * a / fxOne
  let d := expNegFx (x2 / 2 : Nat) * fxOne / fxSqrt2Pi
  let s := phiSeries x2 700 1 a a
  (d, fxOne / 2 - min (fxOne / 2) (d * s / fxOne))

/-- A fixed-point result as a value, with a sticky last bit. -/
def fxVal (neg : Bool) (v : Nat) : FVal := .fin neg (2 * v + 1) (-(fxBits : Int) - 1)

/-- Quotient of fixed-point numbers as a value. -/
def fxDiv (neg : Bool) (a b : Nat) : FVal :=
  let r := divMag a 0 b 0
  .fin neg (2 * r.1 + 1) (r.2 - 1)

/-- Magnitudes this large are past every threshold of the functions below. -/
def isBig (m : Nat) (e : Int) : Bool := 10 < e + bitLen m

/-- e^x (MODE 7; also LSE and SOFTMAX). -/
def expV : FVal → FVal
  | .nan n => .nan n
  | .inf true => .fin false 0 0
  | .inf false => .inf false
  | .fin neg m e =>
    if m = 0 then .fin false 1 0
    else if isBig m e then (if neg then fxVal false 0 else .inf false)
    else
      let r := expFx (toFx neg m e)
      .fin false r.1 r.2

/-- σ(x) = 1 / (1 + e^−x) (MODE 5). -/
def sigmoidV : FVal → FVal
  | .nan n => .nan n
  | .inf neg => if neg then .fin false 0 0 else .fin false 1 0
  | .fin neg m e =>
    let y := if isBig m e then 1 else expNegFx (toFx neg m e)
    if m = 0 then .fin false 1 (-1)
    else if neg then fxDiv false y (fxOne + y) else fxDiv false fxOne (fxOne + y)

/-- σ′ = y / (1 + y)² with y = e^−|x|. -/
def sigmoidD : FVal → FVal
  | .nan n => .nan n
  | .inf _ => .fin false 0 0
  | .fin neg m e =>
    if m = 0 then .fin false 1 (-2)
    else
      let y := if isBig m e then 1 else expNegFx (toFx neg m e)
      fxDiv false (y * fxOne) ((fxOne + y) * (fxOne + y))

/-- tanh x = ± (1 − z) / (1 + z) with z = e^−2|x| (MODE 6). -/
def tanhV : FVal → FVal
  | .nan n => .nan n
  | .inf neg => .fin neg 1 0
  | .fin neg m e =>
    if m = 0 then .fin neg 0 0
    else
      let z := if isBig m e then 1 else expNegFx (toFx neg m (e + 1))
      fxDiv neg (fxOne - z) (fxOne + z)

/-- 1 − tanh² = 4z / (1 + z)². -/
def tanhD : FVal → FVal
  | .nan n => .nan n
  | .inf _ => .fin false 0 0
  | .fin neg m e =>
    if m = 0 then .fin false 1 0
    else
      let z := if isBig m e then 1 else expNegFx (toFx neg m (e + 1))
      fxDiv false (4 * z * fxOne) ((fxOne + z) * (fxOne + z))

/-- x σ(x) (MODE 4). -/
def siluV : FVal → FVal
  | .nan n => .nan n
  | .inf false => .inf false
  | .inf true => dec32 (Config.actAtInf 4 false true)
  | .fin neg m e => if m = 0 then .fin neg 0 0 else mulV (.fin neg m e) (sigmoidV (.fin neg m e))

/-- A signed quotient of fixed-point integers. -/
def fxDivInt (a : Int) (b : Nat) : FVal := fxDiv (a < 0) a.natAbs b

/-- σ(x)(1 + x(1 − σ(x))). -/
def siluD : FVal → FVal
  | .nan n => .nan n
  | .inf neg => dec32 (Config.actAtInf 4 true neg)
  | .fin neg m e =>
    if m = 0 then .fin false 1 (-1)
    else if isBig m e then (if neg then fxVal true 0 else .fin false 1 0)
    else
      let x := toFx neg m e
      let y := expNegFx x
      let q := (fxOne + y) * (fxOne + y)
      if neg then fxDivInt ((y : Int) * ((fxOne : Int) + y + x)) q
      else fxDivInt (((fxOne : Int) + y) * fxOne + x * y) q

/-- Magnitudes beyond 16. -/
def past16 (m : Nat) (e : Int) : Bool := 4 < e + bitLen m

/-- x Φ(x) (MODE 3). -/
def geluV : FVal → FVal
  | .nan n => .nan n
  | .inf false => .inf false
  | .inf true => dec32 (Config.actAtInf 3 false true)
  | .fin neg m e =>
    if m = 0 then .fin neg 0 0
    else if past16 m e then (if neg then fxVal true 0 else .fin false m e)
    else
      let t := (normalFx (toFx neg m e)).2
      mulV (.fin neg m e) (fxVal false (if neg then t else fxOne - t))

/-- Φ(x) + x φ(x). -/
def geluD : FVal → FVal
  | .nan n => .nan n
  | .inf neg => dec32 (Config.actAtInf 3 true neg)
  | .fin neg m e =>
    if m = 0 then .fin false 1 (-1)
    else if past16 m e then (if neg then fxVal true 0 else .fin false 1 0)
    else
      let x := toFx neg m e
      let n := normalFx x
      let c : Nat := if neg then n.2 else fxOne - n.2
      let v : Int := (c : Int) * fxOne + x * n.1
      .fin (v < 0) (2 * v.natAbs + 1) (-(2 * fxBits : Int) - 1)

end Sys2Proof.Machine
end

