-- ==== Sys2Proof/Machine/Formats.lean ====
section
/-! DEFINITION. The element formats, their rounding and saturation, the stochastic rounding generator and the palette with
its histories (chapter 6). -/

namespace Sys2Proof.Machine

/-! ### Formats (Table 6-1): 0 INT8, 1 UINT8, 2 INT4, 3 E4M3, 4 E5M2, 5 BF16, 6 INT32, 7 FP32 -/

def isNarrow (f : Nat) : Bool := f < 5
def isFloat8 (f : Nat) : Bool := f = 3 || f = 4

/-- Bits of an element. -/
def fmtBits (f : Nat) : Nat :=
  match f with
  | 2 => 4
  | 5 => 16
  | 6 => 32
  | 7 => 32
  | _ => 8

/-- Bytes of `n` elements in a row: INT4 packs two in a byte (R170). -/
def fmtBytes (f n : Nat) : Nat := ceilDiv (n * fmtBits f) 8

/-- The integer of a code of INT8, UINT8 or INT4, without its zero point. -/
def codeInt (f c : Nat) : Int :=
  match f with
  | 0 => signOf 8 c
  | 2 => signOf 4 c
  | _ => c

/-- The unscaled value of a narrow code: an integer, or the 8-bit float of Table 6-2. -/
def rawValue (f c : Nat) : FVal :=
  match f with
  | 3 => decE4m3 c
  | 4 => decodeIeee fmtE5m2 c
  | _ => valInt (codeInt f c)

/-- (code − z) × 2^e, exactly (Table 6-6). -/
def narrowValue (f c : Nat) (e : Int) (z : Nat) : FVal :=
  match f with
  | 1 => scaleV e (valInt ((c : Int) - z))
  | _ => scaleV e (rawValue f c)

/-- Value of a wide code: BF16, INT32 or FP32. -/
def wideValue (f c : Nat) : FVal :=
  match f with
  | 5 => decodeIeee fmtBf16 c
  | 6 => valInt (signOf 32 c)
  | _ => decodeIeee fmt32 c

/-! ### The stochastic rounding generator (R185) -/

/-- One step: the next state and the output bit. -/
def rngStep (g : Word64) : Word64 × Nat :=
  (if g &&& 1 = 1 then (g >>> 1) ^^^ 0xD800000000000000 else g >>> 1, (g &&& 1).toNat)

/-- `n` output bits after `r`, first bit highest. -/
def rngBits : Nat → Word64 → Nat → Word64 × Nat
  | 0, g, r => (g, r)
  | n + 1, g, r => rngBits n (rngStep g).1 (2 * r + (rngStep g).2)

/-- One draw of 16 bits. -/
def rngDraw (g : Word64) : Word64 × Nat := rngBits 16 g 0

/-- The draw of one rounding: none when SRND is 0, and then the generator stands still (R198). -/
def drawIf (srnd : Bool) (g : Word64) : Word64 × Option Nat :=
  if srnd then ((rngDraw g).1, some (rngDraw g).2) else (g, none)

/-- The generator at the start of a run from the seed and LCORE. -/
def rngSeed (s : Word64) (lcore : Nat) : Word64 :=
  let x := s + BitVec.ofNat 64 (lcore + 1) * 0x9E3779B97F4A7C15
  let x := (x ^^^ (x >>> 30)) * 0xBF58476D1CE4E5B9
  let x := (x ^^^ (x >>> 27)) * 0x94D049BB133111EB
  let x := x ^^^ (x >>> 31)
  if x = 0 then 1 else x

/-! ### Rounding into a narrow format (R181, R182) -/

/-- A code with what Table 6-5 counts for it. -/
structure Quant where
  code : Nat
  sat : Bool := false
  nan : Bool := false
deriving DecidableEq, Repr

/-- Least and greatest integer a code of INT8, UINT8 (less z) or INT4 holds. -/
def intRange (f z : Nat) : Int × Int :=
  match f with
  | 0 => (-128, 127)
  | 1 => (-(z : Int), 255 - z)
  | _ => (-8, 7)

/-- The code of an integer in range. -/
def intCode (f z : Nat) (k : Int) : Nat :=
  match f with
  | 0 => (k % 256).toNat
  | 1 => (k + z).toNat
  | _ => (k % 16).toNat

/-- Saturate an integer into an integer format. -/
def satInt (f z : Nat) (k : Int) : Quant :=
  let r := intRange f z
  if k < r.1 then { code := intCode f z r.1, sat := true }
  else if r.2 < k then { code := intCode f z r.2, sat := true }
  else { code := intCode f z k }

/-- Magnitude code of the largest finite value: 448 or 57,344. -/
def float8Max (f : Nat) : Nat := if f = 3 then 0x7E else 0x7B

def float8Fmt (f : Nat) : FloatFmt := if f = 3 then fmtE4m3 else fmtE5m2

/-- Round `v` × 2^-e into format `f` with zero point `z` and saturate (Table 6-5). -/
def quantise (f : Nat) (e : Int) (z : Nat) (draw : Option Nat) (v : FVal) : Quant :=
  if isFloat8 f then
    match v with
    | .nan n => { code := signBit fmtE5m2 n + 0x7F, nan := true }
    | .inf n => { code := signBit fmtE5m2 n + float8Max f, sat := true }
    | .fin n m x =>
      let c := roundMag (float8Fmt f) draw m (x - e)
      if float8Max f < c then { code := signBit fmtE5m2 n + float8Max f, sat := true }
      else { code := signBit fmtE5m2 n + c }
  else
    match v with
    | .nan _ => { code := intCode f z 0, nan := true }
    | .inf n => { code := intCode f z (if n then (intRange f z).1 else (intRange f z).2), sat := true }
    | .fin n m x => satInt f z (signedMag n (roundBy draw m (x - e) 0))

/-- FP32 → INT32 (Table 6-6). -/
def quantInt32 (v : FVal) : Quant :=
  match v with
  | .nan _ => { code := 0, nan := true }
  | .inf n => { code := if n then 0x80000000 else 0x7FFFFFFF, sat := true }
  | .fin n m x =>
    let k := signedMag n (roundNearest m x 0)
    if k < -2147483648 then { code := 0x80000000, sat := true }
    else if 2147483647 < k then { code := 0x7FFFFFFF, sat := true }
    else { code := (k % 4294967296).toNat }

/-! ### Palette entries (Table 6-3) -/

/-- EXP as every calculation uses it: the sentinel −128 stands for −64 (R176). -/
def palExp (p : PalEntry) : Int :=
  let e := signOf 8 (bitsOf p.word.toNat 7 0)
  if e = -128 then -64 else e

def palZp (p : PalEntry) : Nat := bitsOf p.word.toNat 15 8
def palFmt (p : PalEntry) : Nat := bitsOf p.word.toNat 18 16
def palFixed (p : PalEntry) : Bool := bitOf p.word.toNat 19
def palHlen (p : PalEntry) : Nat := bitsOf p.word.toNat 23 20 + 1
def palMargin (p : PalEntry) : Nat := bitsOf p.word.toNat 25 24

/-- The word with EXP, ZP and CONST replaced. -/
def palSelect (w : Word32) (e : Int) (z : Nat) (const : Bool) : Word32 :=
  (w &&& 0x03FF0000) ||| BitVec.ofNat 32 ((e % 256).toNat + z * 256) ||| (if const then 0x04000000 else 0)

/-- Least e from −64 to 63 with a ≤ q × 2^e, or 63 (R190). -/
def leastExp (a : FVal) (q : Nat) : Int :=
  match (List.range 128).find? (fun i => !ltV (.fin false q ((i : Int) - 64)) a) with
  | some i => (i : Int) - 64
  | none => 63

/-- Qmax of R190. -/
def qMax (f : Nat) : Nat :=
  match f with
  | 2 => 7
  | 3 => 448
  | 4 => 57344
  | _ => 127

/-- EXP and CONST of R190 from the largest magnitude. -/
def selectSym (f : Nat) (margin : Nat) (a : FVal) : Int × Bool :=
  if eqV a (valInt 0) then (-128, true) else (min (leastExp a (qMax f) + margin) 63, false)

/-- EXP, ZP and CONST of R191 and R193 from the least and the greatest value. -/
def selectAsym (margin : Nat) (lo hi : FVal) : Int × Nat × Bool :=
  if eqV lo hi then
    (if eqV lo (valInt 0) then -128 else leastExp (absV lo) 127, 128, true)
  else
    let lo' := minV lo (valInt 0)
    let hi' := maxV hi (valInt 0)
    let e := min (leastExp (subV hi' lo') 254 + margin) 63
    let z := match negV lo' with
      | .fin n m x => if n then 0 else min (roundNearest m (x - e) 0) 255
      | _ => 255
    (e, z, false)

def maxOf (l : List FVal) : FVal := l.foldl (fun a b => if ltV a b then b else a) (l.headD (valInt 0))
def minOf (l : List FVal) : FVal := l.foldl (fun a b => if ltV b a then b else a) (l.headD (valInt 0))

/-- The selection rule of R190-R193 over the history. -/
def palReselect (p : PalEntry) : PalEntry :=
  let hi := maxOf (p.slots.map (fun s => dec32 s.1))
  if palFmt p = 1 then
    let r := selectAsym (palMargin p) (minOf (p.slots.map (fun s => dec32 s.2))) hi
    { p with word := palSelect p.word r.1 r.2.1 r.2.2 }
  else
    let r := selectSym (palFmt p) (palMargin p) hi
    { p with word := palSelect p.word r.1 0 r.2 }

def palConst (p : PalEntry) : Bool := bitOf p.word.toNat 26

/-- The update point of one entry (R189), with whether its selection set CONST to 1 (R194). -/
def palUpdate (p : PalEntry) : PalEntry × Bool :=
  match p.pending with
  | none => (p, false)
  | some v =>
    let q := { p with slots := (v :: p.slots).take (palHlen p), pending := none }
    if palFixed q then (q, false) else (palReselect q, palConst (palReselect q))

/-- A value rounded through an entry joins its pending record (R188): NaN contributes nothing. -/
def palContribute (p : PalEntry) (v : FVal) : PalEntry :=
  if isNan v then p
  else
    let hi := if palFmt p = 1 then v else absV v
    let w := enc32 hi
    match p.pending with
    | none => { p with pending := some (w, if palFmt p = 1 then w else 0) }
    | some (a, b) =>
      { p with pending := some (if ltV (dec32 a) hi then w else a, if palFmt p = 1 && ltV hi (dec32 b) then w else b) }

/-- The 144-byte record of Table 6-4. -/
def palRecord (p : PalEntry) : List Byte :=
  leBytes 4 p.word.toNat ++ leBytes 4 p.satCount ++ leBytes 1 p.slots.length ++ zeros 7 ++
  padTo 128 (p.slots.flatMap (fun s => leBytes 4 s.1.toNat ++ leBytes 4 s.2.toNat))

/-! ### What the rounding of a run gathers -/

/-- Generator, palette and statistics as an instruction leaves them. -/
structure QAcc where
  rng : Word64
  pal : SMap PalEntry
  sat : Nat := 0
  nan : Nat := 0
  const : Nat := 0

def accPal (a : QAcc) (n : Nat) : PalEntry := mapGet {} a.pal n

/-- Sticky 32-bit count. -/
def stick32 (n : Nat) : Nat := min n 0xFFFFFFFF

/-- Count a conversion into the frame statistics. -/
def accCount (a : QAcc) (q : Quant) : QAcc :=
  { a with sat := a.sat + (if q.sat then 1 else 0), nan := a.nan + (if q.nan then 1 else 0) }

/-- One rounding through a palette entry: its contribution, its draw, its code and its counts (R141, R181-R188). -/
def roundThrough (a : QAcc) (f pal : Nat) (srnd : Bool) (v : FVal) : QAcc × Nat :=
  let d := drawIf srnd a.rng
  let p := accPal a pal
  let q := quantise f (palExp p) (palZp p) d.2 v
  let p' := palContribute { p with satCount := stick32 (p.satCount + if q.sat || q.nan then 1 else 0) } v
  (accCount { a with rng := d.1, pal := mapSet {} pal p' a.pal } q, q.code)

/-- One rounding into BF16 (Table 6-6). -/
def roundBf16 (a : QAcc) (srnd : Bool) (v : FVal) : QAcc × Nat :=
  let d := drawIf srnd a.rng
  ({ a with rng := d.1 }, encBf16 d.2 v)

end Sys2Proof.Machine
end

