-- ==== Sys2Proof/Machine/CoreWord.lean ====
section
/-! DEFINITION. The instruction word of an MX core: its decoding, the reserved fields and the static limits that PROG_LOAD
checks in it (R109, R112). An error is the byte offset, in the word, of an offending field (R19). -/

namespace Sys2Proof.Machine

/-- Offsets of the reserved ranges that hold a 1. -/
def resvErr (w : Nat) (l : List (Nat × Nat)) : List Nat :=
  (l.filter (fun r => bitsOf w r.1 r.2 != 0)).map (fun r => r.2 / 8)

def errIf (b : Bool) (off : Nat) : List Nat := if b then [off] else []

/-! ### MMA shapes (Table 3-1) -/

/-- Pass K, pass N, plane bytes and W of an operand pair. -/
def pairShape (pair : Nat) : Nat × Nat × Nat × Nat :=
  match pair with
  | 2 => (16, 16, 128, 4)
  | 3 => (16, 16, 128, 4)
  | 4 => (32, 16, 256, 8)
  | 6 => (8, 8, 128, 4)
  | _ => (16, 16, 256, 8)

/-- Cycles an MMA streams: P × max(M, W) (R78). -/
def mmaCycles (pair m k n : Nat) : Nat :=
  let s := pairShape pair
  ceilDiv k s.1 * ceilDiv n s.2.1 * max m s.2.2.2

/-- The formats that B may have in a pair (Table 3-1). -/
def pairBFmts (pair : Nat) : List Nat :=
  match pair with
  | 0 => [0]
  | 1 => [0]
  | 2 => [2]
  | 3 => [2]
  | 4 => [2]
  | 5 => [3, 4]
  | 6 => [5]
  | _ => []

/-! ### Fields -/

def mmaOf (w : Nat) : MmaF :=
  { pair := BitVec.ofNat 3 (bitsOf w 10 8), ga := BitVec.ofNat 2 (bitsOf w 12 11), gb := BitVec.ofNat 2 (bitsOf w 14 13)
    stepG := bitOf w 15, m1 := BitVec.ofNat 8 (bitsOf w 23 16), k1 := BitVec.ofNat 10 (bitsOf w 33 24)
    n1 := BitVec.ofNat 8 (bitsOf w 41 34), bank := BitVec.ofNat 2 (bitsOf w 43 42), cnt1 := BitVec.ofNat 2 (bitsOf w 45 44)
    af8 := bitOf w 46, bf8 := bitOf w 47 }

def ewOf (w : Nat) : EwF :=
  { s1k := BitVec.ofNat 2 (bitsOf w 9 8), s1 := BitVec.ofNat 2 (bitsOf w 11 10), s2k := BitVec.ofNat 2 (bitsOf w 13 12)
    s2 := BitVec.ofNat 2 (bitsOf w 15 14), kreg := BitVec.ofNat 5 (bitsOf w 20 16), tin := BitVec.ofNat 3 (bitsOf w 23 21)
    tout := BitVec.ofNat 3 (bitsOf w 26 24), dk := BitVec.ofNat 2 (bitsOf w 28 27), d := BitVec.ofNat 2 (bitsOf w 30 29)
    itype := bitOf w 31, len1 := BitVec.ofNat 16 (bitsOf w 47 32), pal := BitVec.ofNat 8 (bitsOf w 55 48)
    srnd := bitOf w 56, stepG := bitOf w 57 }

def chainOf (w : Nat) : ChainF :=
  { chain := BitVec.ofNat 8 (bitsOf w 15 8), bank := BitVec.ofNat 2 (bitsOf w 17 16), cnt1 := BitVec.ofNat 2 (bitsOf w 19 18)
    go := BitVec.ofNat 2 (bitsOf w 21 20), gx1 := BitVec.ofNat 2 (bitsOf w 23 22), gx2 := BitVec.ofNat 2 (bitsOf w 25 24)
    gxo := BitVec.ofNat 2 (bitsOf w 27 26), stepG := bitOf w 28, layout := bitOf w 29, m1 := BitVec.ofNat 8 (bitsOf w 37 30)
    n1 := BitVec.ofNat 8 (bitsOf w 45 38), first := bitOf w 46, last := bitOf w 47, ppair := BitVec.ofNat 3 (bitsOf w 50 48) }

def ldmaOf (w : Nat) : LdmaF :=
  { dir := BitVec.ofNat 2 (bitsOf w 9 8), sg := BitVec.ofNat 2 (bitsOf w 11 10), dg := BitVec.ofNat 2 (bitsOf w 13 12)
    bank := BitVec.ofNat 2 (bitsOf w 15 14), stepG := bitOf w 16, lines1 := BitVec.ofNat 12 (bitsOf w 28 17) }

/-! ### Static limits -/

/-- R73, R74 and the reserved values of Table 4-15. -/
def mmaErr (f : MmaF) : List Nat :=
  let m := f.m1.toNat + 1
  let k := f.k1.toNat + 1
  let n := f.n1.toNat + 1
  let c := f.cnt1.toNat + 1
  errIf (f.pair.toNat = 7) 1 ++ errIf (f.pair.toNat != 5 && (f.af8 || f.bf8)) 5 ++ errIf (4 < f.bank.toNat + c) 5 ++
  errIf (1024 * c < m * n) 2 ++ errIf (f.pair.toNat != 7 && 65536 < mmaCycles f.pair.toNat m k n) 1

/-- R119 and R112. -/
def ldmaErr (f : LdmaF) : List Nat :=
  errIf (f.dir = 0 && f.bank != 0) 1 ++ errIf (f.dir = 1 && f.sg != 0) 1 ++ errIf (2 ≤ f.dir.toNat && f.dg != 0) 1 ++
  errIf (f.dir != 0 && 4096 < f.bank.toNat * 1024 + (f.lines1.toNat + 1) * 8) 1

/-- An operand of an element-wise instruction comes from T0. -/
def ewFromT0 (f : EwF) : Bool := f.s1k = 0 || f.s2k = 0

/-- The result of an element-wise instruction goes to T0. -/
def ewToT0 (f : EwF) : Bool := f.dk = 0

/-- R127, R195-R197: the operand kinds, the reserved combinations and the unused fields. STEP of an instruction that uses no generator is no
unused field here (log entry 115). -/
def ewErr (op : EwOp) (f : EwF) : List Nat :=
  let isScale := op = .scale
  let tin := f.tin.toNat
  let tout := f.tout.toNat
  let narrowIn := ewFromT0 f && isNarrow tin
  let narrowOut := ewToT0 f && isNarrow tout
  let palUsed := if f.itype then narrowIn || narrowOut
    else (ewFromT0 f && tin = 1) || (ewToT0 f && tout = 1)
  let p := signOf 8 f.pal.toNat
  let len := f.len1.toNat + 1
  errIf (f.s1k = 3 || (f.s1k = 2 && !isScale)) 1 ++
  errIf ((f.s2k = 3) != (op = .cvt)) 1 ++
  errIf (f.s1k = 2 && 2 ≤ f.s2k.toNat) 1 ++
  errIf (f.s1k = 2 && f.s1 != 0) 1 ++
  errIf (2 ≤ f.s2k.toNat && f.s2 != 0) 1 ++
  errIf (f.s1k != 2 && f.s2k != 2 && f.kreg != 0) 2 ++
  errIf (!ewFromT0 f && tin != 0) 2 ++
  errIf (!ewToT0 f && tout != 0) 3 ++
  errIf (2 ≤ f.dk.toNat) 3 ++
  errIf (ewFromT0 f && !f.itype && (isFloat8 tin || tin = 5 || tin = 7)) 2 ++
  errIf (ewToT0 f && !f.itype && isFloat8 tout) 3 ++
  errIf (isScale && narrowOut) 3 ++
  errIf (isScale && (p < -64 || 63 < p)) 6 ++
  errIf (!isScale && !palUsed && f.pal != 0) 6 ++
  errIf (f.srnd && !(ewToT0 f && (isNarrow tout || tout = 5))) 7 ++
  errIf (f.s1k = 1 && 4096 < f.s1.toNat * 1024 + len) 1 ++
  errIf (f.s2k = 1 && 4096 < f.s2.toNat * 1024 + len) 1 ++
  errIf (f.dk = 1 && 4096 < f.d.toNat * 1024 + len) 3

/-- Byte offsets, in the word, of the fields that break R109, or R234 for F31, without regard to the image. -/
def coreWordErr (w : Nat) : List Nat :=
  let f := bitsOf w 3 0
  match bitsOf w 7 4 with
  | 0 =>
    match f with
    | 0 => resvErr w [(63, 8)]
    | 1 => resvErr w [(63, 8)]
    | 2 => resvErr w [(63, 9)]
    | 3 => resvErr w [(63, 13)]
    | _ => [0]
  | 1 =>
    match f with
    | 13 => [0]
    | 14 => resvErr w [(17, 13), (63, 21)]
    | 15 => resvErr w [(17, 13), (63, 20)]
    | _ => resvErr w [(63, 23)]
  | 2 =>
    if f = 7 then resvErr w [(17, 13), (31, 18)]
    else if f ≤ 10 then resvErr w [(31, 18)] else [0]
  | 3 =>
    if f ≤ 5 then resvErr w [(31, 18)]
    else match f with
      | 6 => resvErr w [(17, 13), (31, 18)] ++ errIf (bitsOf w 12 8 = 0) 1
      | 7 => resvErr w [(12, 8), (17, 13), (31, 18)]
      | 8 => resvErr w [(12, 8), (17, 13), (31, 18)]
      | 9 => resvErr w [(17, 13), (31, 18), (63, 32)]
      | 10 => resvErr w [(12, 8), (17, 13), (31, 18), (63, 32)]
      | _ => [0]
  | 4 =>
    match f with
    | 0 => resvErr w [(63, 14)] ++ errIf (bitsOf w 10 8 = 0) 1
    | 1 => resvErr w [(63, 14)] ++ errIf (bitsOf w 10 8 = 0) 1
    | 2 => resvErr w [(63, 18)] ++ errIf (4 < bitsOf w 17 15) 1
    | 3 => resvErr w [(63, 29)] ++ ldmaErr (ldmaOf w)
    | _ => [0]
  | 5 =>
    match f with
    | 0 => resvErr w [(63, 13)] ++ errIf (bitsOf w 10 8 = 0) 1
    | 1 => resvErr w [(63, 15)]
    | 2 => resvErr w [(63, 16)] ++ errIf (bitsOf w 15 13 = 0) 1
    | _ => [0]
  | 6 => if f ≤ 1 then resvErr w [(63, 48)] ++ mmaErr (mmaOf w) else [0]
  | 7 =>
    match f with
    | 0 => resvErr w [(63, 58)] ++ ewErr .add (ewOf w)
    | 1 => resvErr w [(63, 58)] ++ ewErr .sub (ewOf w)
    | 2 => resvErr w [(63, 58)] ++ ewErr .mul (ewOf w)
    | 3 => resvErr w [(63, 58)] ++ ewErr .max (ewOf w)
    | 4 => resvErr w [(63, 58)] ++ ewErr .min (ewOf w)
    | 5 => resvErr w [(63, 58)] ++ ewErr .scale (ewOf w)
    | 6 => resvErr w [(63, 58)] ++ ewErr .cvt (ewOf w)
    | _ => [0]
  | 8 => if f = 0 then resvErr w [(63, 51)] else [0]
  | 9 =>
    match f with
    | 0 => resvErr w [(63, 8)]
    | 1 => resvErr w [(63, 11)]
    | 2 => resvErr w [(63, 10)]
    | 3 => resvErr w [(63, 13)] ++ errIf (bitsOf w 12 8 = 31) 1
    | 4 => resvErr w [(63, 13)] ++ errIf (bitsOf w 12 8 = 31) 1
    | 5 => resvErr w [(63, 13)]
    | _ => [0]
  | _ => [0]

/-! ### Decoding -/

def decodeAlu (f : Nat) : AluOp :=
  match f with
  | 0 => .add
  | 1 => .sub
  | 2 => .and
  | 3 => .or
  | 4 => .xor
  | 5 => .shl
  | 6 => .shr
  | 7 => .sra
  | 8 => .mul
  | 9 => .min
  | 10 => .max
  | 11 => .slt
  | _ => .sltu

def decodeAluI (f : Nat) : AluIOp :=
  match f with
  | 0 => .addi
  | 1 => .andi
  | 2 => .ori
  | 3 => .xori
  | 4 => .shli
  | 5 => .shri
  | 6 => .srai
  | 8 => .lui
  | 9 => .slti
  | _ => .sltui

def decodeBr (f : Nat) : BrOp :=
  match f with
  | 0 => .beq
  | 1 => .bne
  | 2 => .blt
  | 3 => .bge
  | 4 => .bltu
  | _ => .bgeu

def decodeEw (f : Nat) : EwOp :=
  match f with
  | 0 => .add
  | 1 => .sub
  | 2 => .mul
  | 3 => .max
  | 4 => .min
  | 5 => .scale
  | _ => .cvt

/-- The instruction of a word without errors. -/
def buildCore (w : Nat) : CoreInstr :=
  let f := bitsOf w 3 0
  let r1 : BitVec 5 := BitVec.ofNat 5 (bitsOf w 12 8)
  let r2 : BitVec 5 := BitVec.ofNat 5 (bitsOf w 17 13)
  let r3 : BitVec 5 := BitVec.ofNat 5 (bitsOf w 22 18)
  let imm : Word32 := BitVec.ofNat 32 (bitsOf w 63 32)
  match bitsOf w 7 4 with
  | 0 =>
    match f with
    | 0 => .nop
    | 1 => .halt
    | 2 => .yield (bitOf w 8)
    | _ => .atom r1
  | 1 =>
    match f with
    | 14 => .mfs r1 (BitVec.ofNat 3 (bitsOf w 20 18))
    | 15 => .mfa r1 (BitVec.ofNat 2 (bitsOf w 19 18))
    | _ => .alu (decodeAlu f) r1 r2 r3
  | 2 => if f = 7 then .li r1 imm else .alui (decodeAluI f) r1 r2 imm
  | 3 =>
    if f ≤ 5 then .br (decodeBr f) r1 r2 imm
    else match f with
      | 6 => .dbnz r1 imm
      | 7 => .jmp imm
      | 8 => .call imm
      | 9 => .jr r1
      | _ => .ret
  | 4 =>
    match f with
    | 0 => .ldl (BitVec.ofNat 3 (bitsOf w 10 8)) (BitVec.ofNat 2 (bitsOf w 12 11)) (bitOf w 13)
    | 1 => .stl (BitVec.ofNat 3 (bitsOf w 10 8)) (BitVec.ofNat 2 (bitsOf w 12 11)) (bitOf w 13)
    | 2 => .seta r1 (BitVec.ofNat 2 (bitsOf w 14 13)) (BitVec.ofNat 3 (bitsOf w 17 15))
    | _ => .ldma (ldmaOf w)
  | 5 =>
    match f with
    | 0 => .cdma (BitVec.ofNat 3 (bitsOf w 10 8)) (BitVec.ofNat 2 (bitsOf w 12 11))
    | 1 => .waitd r1 (BitVec.ofNat 2 (bitsOf w 14 13))
    | _ => .preq r1 (BitVec.ofNat 3 (bitsOf w 15 13))
  | 6 => .mma (f = 1) (mmaOf w)
  | 7 => .ew (decodeEw f) (ewOf w)
  | 8 => .chain (chainOf w)
  | _ =>
    match f with
    | 0 => .fence
    | 1 => .bar (BitVec.ofNat 3 (bitsOf w 10 8))
    | 2 => .xbar (BitVec.ofNat 2 (bitsOf w 9 8))
    | 3 => .fset r1
    | 4 => .fclr r1
    | _ => .fwait r1

/-- The instruction that a word holds; none where it carries a reserved class, function, field or value. -/
def decodeCore (w : Word64) : Option CoreInstr :=
  if coreWordErr w.toNat = [] then some (buildCore w.toNat) else none

/-- Array instructions (R88). -/
def isArray : CoreInstr → Bool
  | .mma _ _ => true
  | .ew _ _ => true
  | .chain _ => true
  | _ => false

/-- What an atomic run may not contain (R131). -/
def breaksAtom : CoreInstr → Bool
  | .mma _ _ => true
  | .ew _ _ => true
  | .chain _ => true
  | .ldma _ => true
  | .waitd _ _ => true
  | .fence => true
  | .bar _ => true
  | .xbar _ => true
  | .fwait _ => true
  | .cdma _ _ => true
  | .preq _ _ => true
  | .stl _ _ _ => true
  | .br _ _ _ _ => true
  | .dbnz _ _ => true
  | .jmp _ => true
  | .call _ => true
  | .jr _ => true
  | .ret => true
  | .halt => true
  | .yield _ => true
  | .atom _ => true
  | _ => false

end Sys2Proof.Machine
end

