-- ==== Sys2Proof/Machine/Image.lean ====
section
/-! DEFINITION. Program images: header, code, slot, chain and stream tables, and every check that PROG_LOAD and CTX_FALLBACK
make in them (R108, R109, R131, R144-R165, R361). Errors are byte offsets in the image; the lowest one is reported (R19). -/

namespace Sys2Proof.Machine

/-- The `n`-byte pieces of a byte list, `c` of them. -/
def pieces (n : Nat) : Nat → List Byte → List (List Byte)
  | 0, _ => []
  | c + 1, bs => bs.take n :: pieces n c (bs.drop n)

/-- Errors of numbered pieces of `n` bytes from `base`. -/
def pieceErrs {α : Type} (base n : Nat) (f : Nat → α → List Nat) (l : List α) : List Nat :=
  (l.zipIdx).flatMap (fun p => (f p.2 p.1).map (fun o => base + p.2 * n + o))

/-- Bytes `lo` to `hi` − 1 hold a non-zero byte. -/
def dirty (bs : List Byte) (lo hi : Nat) : Bool := ((bs.drop lo).take (hi - lo)).any (· != 0)

/-! ### Chain descriptors (Tables 5-1 to 5-4) -/

def streamDescOf (b : List Byte) : StreamDesc :=
  { shape := byteField b 0 1, fmt := byteField b 1 1, pal := byteField b 2 1, stride := byteField b 4 4 }

def stageOf (b : List Byte) : Stage :=
  let b0 := byteField b 0 1
  let b1 := byteField b 1 1
  { typ := bitsOf b0 3 0, mode := bitsOf b0 7 4, target := bitsOf b1 1 0, opnd := bitsOf b1 3 2, srnd := bitOf b1 4
    ifmt := byteField b 2 1, pal := byteField b 3 1, k := BitVec.ofNat 32 (byteField b 4 4) }

def chainOfBytes (b : List Byte) : Chain :=
  { source := byteField b 1 1, rowN := byteField b 2 2, holdRows := byteField b 4 2, holdAddr := byteField b 8 4
    holdLen := byteField b 12 4, x1 := streamDescOf (b.drop 32), x2 := streamDescOf (b.drop 40), xo := streamDescOf (b.drop 48)
    stages := (pieces 8 (min (byteField b 0 1) 8) (b.drop 64)).map stageOf }

/-- An input stream of a chain: 1 X1, 2 X2. -/
def chainStream (c : Chain) (x : Nat) : StreamDesc := if x = 1 then c.x1 else c.x2

/-- Position of the HOLD stage. -/
def holdIdx (c : Chain) : Option Nat := c.stages.findIdx? (fun s => s.typ = 7)

/-- A glaze: a stage on the main value other than TAP. -/
def isGlaze (s : Stage) : Bool := s.target = 0 && s.typ != 0xA

/-- IFMT of the main output (R147). -/
def mainFmt (c : Chain) : Nat := ((c.stages.filter isGlaze).getLast?.map (·.ifmt)).getD 7

/-- Cycles of a stage per 16 elements (Tables 5-4 to 5-6). -/
def stageCost (s : Stage) : Nat :=
  if s.typ = 5 || s.typ = 6 then
    (match s.mode with
     | 3 => 4
     | 4 => 4
     | 5 => 3
     | 6 => 3
     | 7 => 3
     | _ => 1)
  else if s.typ = 8 then
    (match s.mode with
     | 1 => 2
     | 3 => 3
     | _ => 1)
  else 1

/-- A stage reads or acts on input stream `x`. -/
def usesStream (x : Nat) (s : Stage) : Bool := s.target = x || (s.target = 0 && s.opnd = x)

/-- Stages of the pre phase, the HOLD included, and of the post phase (R154). -/
def preStages (c : Chain) : List Stage :=
  match holdIdx c with
  | some h => c.stages.take (h + 1)
  | none => c.stages

def postStages (c : Chain) : List Stage :=
  match holdIdx c with
  | some h => c.stages.drop (h + 1)
  | none => []

/-- A CHAIN reads input stream `x`: one declared, in a phase that runs (R150, R154). -/
def streamRuns (c : Chain) (last : Bool) (x : Nat) : Bool :=
  (chainStream c x).shape != 0 && ((preStages c).any (usesStream x) || (x = 1 && c.source = 2) || (last && (postStages c).any (usesStream x)))

/-- Stages that write XO: TAP and QUANT ROW. -/
def writesXo (s : Stage) : Bool := s.typ = 0xA || (s.typ = 9 && s.mode = 1)

def fourByte (f : Nat) : Bool := f = 6 || f = 7

/-- A phase halves its rate (R164): a TILE stream, the hold buffer or the main output has 4-byte elements. -/
def phaseWide (c : Chain) (stages : List Stage) (pre : Bool) : Bool :=
  let tile (x : StreamDesc) (used : Bool) : Bool := used && x.shape = 1 && fourByte x.fmt
  let hold := (c.stages.find? (fun s => s.typ = 7)).map (fun s => fourByte s.ifmt)
  tile c.x1 (stages.any (usesStream 1) || (pre && c.source = 2)) || tile c.x2 (stages.any (usesStream 2)) ||
  tile c.xo (stages.any writesXo) || hold.getD false ||
  ((pre = hold.isNone) && fourByte (mainFmt c))

/-- Cycles of a phase over `n` elements: ⌈n / V⌉ with V = 16 / cost, halved when wide. -/
def phaseCycles (c : Chain) (stages : List Stage) (pre : Bool) (n : Nat) : Nat :=
  let cost := (stages.map stageCost).foldl max 1
  ceilDiv (n * cost * (if phaseWide c stages pre then 2 else 1)) 16

/-- C of R164. -/
def chainCycles (c : Chain) (f : ChainF) : Nat :=
  let m := f.m1.toNat + 1
  let n := f.n1.toNat + 1
  phaseCycles c (preStages c) true (m * n) +
  (if (holdIdx c).isSome && f.last then 32 + phaseCycles c (postStages c) false (m * c.rowN) else 0)

/-- Bytes of a row of `n` elements, rounded up to whole lines. -/
def rowBytes (fmt n : Nat) : Nat := roundUp (fmtBytes fmt n) 32

/-- Header, statistics and data of the hold buffer (R156). -/
def holdNeed (c : Chain) (ifmt : Nat) : Nat := 32 + roundUp (c.holdRows * 8) 32 + c.holdRows * rowBytes ifmt c.rowN

/-- Errors of a stream entry at byte `o` of the chain entry (Table 5-2, R149). -/
def streamDescErr (b : List Byte) (o : Nat) (isXo : Bool) : List Nat :=
  let d := streamDescOf (b.drop o)
  errIf (3 < d.shape) o ++ errIf (7 < d.fmt || (d.shape = 0 && d.fmt != 0)) (o + 1) ++
  errIf (d.pal != 0 && (isXo || !isNarrow d.fmt || d.shape = 0)) (o + 2) ++ errIf (dirty b (o + 3) (o + 4)) (o + 3) ++
  errIf (d.stride != 0 && (d.shape != 1 || d.stride % 32 != 0)) (o + 4)

/-- What a running value, the HOLD and the streams are at a stage. -/
structure StageEnv where
  c : Chain
  idx : Nat
  int : Bool          -- the running value is an INT32 (R146)
  hold : Option Stage -- the HOLD stage before this one

/-- A constant the stage uses. -/
def stageUsesK (s : Stage) : Bool :=
  ((s.typ = 2 || s.typ = 3 || s.typ = 4) && s.opnd = 0) || ((s.typ = 5 || s.typ = 6) && (s.mode = 1 || s.mode = 2)) ||
  (s.typ = 8 && (s.mode = 1 || s.mode = 2))

/-- Greatest MODE of a stage type. -/
def stageModes (t : Nat) : Nat :=
  match t with
  | 5 => 7
  | 6 => 6
  | 7 => 5
  | 8 => 3
  | 9 => 1
  | _ => 0

/-- HOLD modes that collect what a NORM mode needs (Table 5-6). -/
def normNeeds (mode : Nat) : List Nat :=
  match mode with
  | 0 => [0, 2]
  | 1 => [2]
  | 2 => [1, 2]
  | _ => [5]

/-- Errors of one stage, by byte of its entry (Tables 5-3, 5-4; R142, R146, R149-R155, R160, R162, R173). X1 is no operand of a
chain whose SOURCE is 2, which takes it up (log entry 118). -/
def stageErr (v : StageEnv) (s : Stage) (b : List Byte) : List Nat :=
  let t := s.typ
  let onInt := v.int && s.target = 0
  let takesInt := t = 1 || t = 2
  let opStream := chainStream v.c s.opnd
  let isRow := t = 9 && s.mode = 1
  let later := v.c.stages.take v.idx
  errIf (t = 0 || 10 < t) 0 ++
  errIf (stageModes t < s.mode) 0 ++
  errIf (s.target = 3 || s.opnd = 3 || 31 < byteField b 1 1) 1 ++
  -- underpainting (R151)
  errIf (1 ≤ s.target && s.target ≤ 2 && (!(t = 3 || t = 4 || t = 5) || s.opnd != 0 ||
    (chainStream v.c s.target).shape = 0 || (chainStream v.c s.target).fmt = 6 ||
    later.any (fun g => g.target = 0 && (g.opnd = s.target || (v.c.source = 2 && s.target = 1))))) 1 ++
  -- operands (Table 5-4, R149, R152)
  errIf (s.opnd != 0 && !(t = 2 || t = 3 || t = 4 || t = 6)) 1 ++
  errIf (t = 6 && s.opnd = 0) 1 ++
  errIf ((s.opnd = 1 || s.opnd = 2) && s.target = 0 &&
    (opStream.shape = 0 || ((opStream.fmt = 6) != (t = 2)) || (v.c.source = 2 && s.opnd = 1))) 1 ++
  errIf (s.srnd && (s.ifmt = 6 || s.ifmt = 7)) 1 ++
  -- running value (R146)
  errIf (s.target = 0 && onInt && !(takesInt || t = 0xA)) 0 ++
  errIf (s.target = 0 && !v.int && takesInt) 0 ++
  errIf (7 < s.ifmt) 2 ++
  errIf (s.ifmt = 6 && !(t = 2 || (t = 0xA && onInt))) 2 ++
  errIf (t = 2 && s.ifmt != 6) 2 ++
  -- quantisation, hold and normalisation
  errIf (t = 9 && !isNarrow s.ifmt) 2 ++
  errIf (isRow && s.ifmt = 1) 2 ++
  errIf (t = 7 && v.hold.isSome) 0 ++
  errIf (t = 8 && !(v.hold.any (fun h => (normNeeds s.mode).contains h.mode))) 0 ++
  errIf (isRow && !(v.hold.any (fun h => h.mode = 4))) 0 ++
  errIf (writesXo s && later.any writesXo) 0 ++
  errIf (s.pal != 0 && (isRow || (!isNarrow s.ifmt && t != 1))) 3 ++
  errIf (s.k != 0 && !stageUsesK s) 4

/-- Walk the stages: their errors at their places in the entry. -/
def stagesErr (c : Chain) : List (Stage × List Byte) → Nat → Bool → Option Stage → List Nat
  | [], _, _, _ => []
  | (s, b) :: l, i, int, hold =>
    (stageErr { c := c, idx := i, int := int, hold := hold } s b).map (fun o => 64 + 8 * i + o) ++
    stagesErr c l (i + 1) (if s.target = 0 && s.typ = 1 then false else int) (if s.typ = 7 && hold.isNone then some s else hold)

/-- Both phases use stream `x`. -/
def bothPhases (c : Chain) (x : Nat) : Bool :=
  ((preStages c).any (usesStream x) || (x = 1 && c.source = 2)) && (postStages c).any (usesStream x)

/-- Offsets, in the 128-byte entry, of what breaks a rule of chapter 5 checked at load (R144). -/
def chainErr (b : List Byte) : List Nat :=
  let n := byteField b 0 1
  let c := chainOfBytes b
  let hold := c.stages.find? (fun s => s.typ = 7)
  let isHold := hold.isSome
  let last := c.stages.getLast?
  errIf (n = 0 || 8 < n) 0 ++
  errIf (2 < c.source) 1 ++
  errIf ((c.rowN = 0) = isHold) 2 ++
  errIf (if isHold then c.holdRows = 0 || 256 < c.holdRows else c.holdRows != 0) 4 ++
  errIf (dirty b 6 8) 6 ++
  errIf (if isHold then c.holdAddr % 32 != 0 || 131072 < c.holdAddr + c.holdLen else c.holdAddr != 0) 8 ++
  errIf (if isHold then c.holdLen % 32 != 0 || 65536 < c.holdLen else c.holdLen != 0) 12 ++
  errIf (hold.any (fun h => c.holdLen < holdNeed c h.ifmt)) 2 ++
  errIf (dirty b 16 32) 16 ++
  streamDescErr b 32 false ++ streamDescErr b 40 false ++ streamDescErr b 48 true ++
  errIf (c.source = 2 && c.x1.shape != 1) 32 ++
  errIf (c.source = 2 && c.x1.fmt = 6) 33 ++
  errIf (c.x1.shape != 0 && c.source != 2 && !c.stages.any (usesStream 1)) 32 ++
  errIf (c.x2.shape != 0 && !c.stages.any (usesStream 2)) 40 ++
  errIf (bothPhases c 1) 32 ++ errIf (bothPhases c 2) 40 ++
  errIf (c.xo.shape != 0 && !c.stages.any writesXo) 48 ++
  ((c.stages.find? writesXo).map (fun s =>
    if s.typ = 0xA then errIf (c.xo.shape != 1) 48 ++ errIf (c.xo.fmt != s.ifmt) 49
    else errIf (c.xo.shape != 3) 48 ++ errIf (c.xo.fmt != 0) 49)).getD [] ++
  errIf (dirty b 56 64) 56 ++
  stagesErr c (c.stages.zip (pieces 8 c.stages.length (b.drop 64))) 0 (c.source = 0) none ++
  errIf (!c.stages.any isGlaze) 64 ++
  errIf (last.any (fun s => s.typ = 7 || s.typ = 0xA)) (64 + 8 * (c.stages.length - 1)) ++
  errIf (isHold && !(postStages c).any (fun s => s.target = 0)) (64 + 8 * (holdIdx c).getD 0) ++
  ((List.range 64).filter (fun i => 8 * c.stages.length ≤ i && dirty b (64 + i) (65 + i))).map
    (fun i => 64 + i / 8 * 8 + min (i % 8) 4)

/-- Errors of a CHAIN instruction against its descriptor, by byte of the word (Table 4-17, R128, R147, R165). -/
def chainInstrErr (c : Chain) (f : ChainF) : List Nat :=
  let gens := [f.go.toNat] ++ (if c.x1.shape = 0 then [] else [f.gx1.toNat]) ++ (if c.x2.shape = 0 then [] else [f.gx2.toNat]) ++
    (if c.xo.shape = 0 then [] else [f.gxo.toNat])
  let cnt := f.cnt1.toNat + 1
  errIf (c.x1.shape = 0 && f.gx1 != 0) 2 ++ errIf (c.x2.shape = 0 && f.gx2 != 0) 3 ++ errIf (c.xo.shape = 0 && f.gxo != 0) 3 ++
  errIf (!gens.Nodup) 2 ++
  errIf (4 < f.bank.toNat + cnt || 1024 * cnt < (f.m1.toNat + 1) * (f.n1.toNat + 1)) 2 ++
  errIf (!f.layout && f.ppair != 0) 6 ++ errIf (f.layout && f.ppair = 7) 6 ++
  errIf (f.layout && f.ppair != 7 && !(pairBFmts f.ppair.toNat).contains (mainFmt c)) 1 ++
  errIf (65536 < chainCycles c f) 1

/-! ### Stream table (Table 12-6) -/

def streamEntryOf (b : List Byte) : StreamEntry :=
  { receive := byteField b 0 1 = 1, ring := byteField b 1 1, route := byteField b 2 1, peerStream := byteField b 3 1
    peerContext := byteField b 4 2, peerUid := BitVec.ofNat 64 (byteField b 8 8), slot := byteField b 16 2, window := byteField b 24 8 }

/-- Errors of a stream entry on a part with `pairs` port pairs and an image with `slots` slots. -/
def streamEntryErr (pairs slots : Nat) (b : List Byte) : List Nat :=
  let e := streamEntryOf b
  errIf (1 < byteField b 0 1) 0 ++ errIf (pairs ≤ e.ring) 1 ++ errIf (2 < e.route || (e.receive && e.route != 0)) 2 ++
  errIf (15 < e.peerStream) 3 ++ errIf (e.peerContext = 0 || 255 < e.peerContext) 4 ++ errIf (dirty b 6 8) 6 ++
  errIf (if e.receive then slots ≤ e.slot else e.slot != 0) 16 ++ errIf (dirty b 18 24) 18 ++
  errIf (if e.receive then e.window % 64 != 0 else e.window != 0) 24

/-! ### The image -/

/-- The numbers of a header (Table 4-2). -/
structure Header where
  codeLen : Nat
  entry : Nat
  clusters : Nat
  cores : Nat
  streams : Nat
  slots : Nat
  chains : Nat
  flags : Nat
  codeOff : Nat
  slotOff : Nat
  chainOff : Nat
  streamOff : Nat
  dataOff : Nat
  dataLen : Nat
  dataAddr : Nat

def headerOf (b : List Byte) : Header :=
  { codeLen := byteField b 6 2, entry := byteField b 8 2, clusters := byteField b 10 2, cores := byteField b 12 1
    streams := byteField b 13 1, slots := byteField b 14 2, chains := byteField b 16 2, flags := byteField b 18 2
    codeOff := byteField b 20 4, slotOff := byteField b 24 4, chainOff := byteField b 28 4, streamOff := byteField b 32 4
    dataOff := byteField b 36 4, dataLen := byteField b 40 4, dataAddr := byteField b 44 4 }

/-- A table that is read overlaps the header, passes the end, or is misaligned (R109). -/
def tableBad (len off size align : Nat) : Bool := size != 0 && (off < 64 || len < off + size || off % align != 0)

def headerErr (b : List Byte) (len : Nat) : List Nat :=
  let h := headerOf b
  errIf (byteField b 0 4 != 0x50345853) 0 ++ errIf (byteField b 4 2 != 1) 4 ++ errIf (h.codeLen = 0 || 2048 < h.codeLen) 6 ++
  errIf (h.codeLen ≤ h.entry) 8 ++ errIf (h.clusters = 0 || 250 < h.clusters) 10 ++ errIf (h.cores = 0 || 100 < h.cores) 12 ++
  errIf (16 < h.streams) 13 ++ errIf (256 < h.slots) 14 ++ errIf (256 < h.chains) 16 ++ errIf (1 < h.flags) 18 ++
  errIf (tableBad len h.codeOff (8 * h.codeLen) 64) 20 ++ errIf (tableBad len h.slotOff (16 * h.slots) 1) 24 ++
  errIf (tableBad len h.chainOff (128 * h.chains) 32) 28 ++ errIf (tableBad len h.streamOff (32 * h.streams) 32) 32 ++
  errIf (tableBad len h.dataOff h.dataLen 1) 36 ++
  errIf (h.dataLen % 32 != 0 || 131072 < h.dataLen || 131072 < h.dataAddr + h.dataLen) 40 ++ errIf (h.dataAddr % 32 != 0) 44 ++
  errIf (dirty b 48 64) 48

/-- A branch target inside the code. -/
def targetBad (codeLen : Nat) (t : Int) : Bool := t < 0 || (codeLen : Int) ≤ t

/-- Errors of instruction `i` that need the image (R109, R116, R128, R131, R381). -/
def codeErr (h : Header) (code : List Nat) (chains : List (List Byte)) (i w : Nat) : List Nat :=
  match coreWordErr w with
  | e :: es => e :: es
  | [] =>
    match buildCore w with
    | .br _ _ _ t => errIf (targetBad h.codeLen ((i : Int) + t.toInt)) 4
    | .dbnz _ t => errIf (targetBad h.codeLen ((i : Int) + t.toInt)) 4
    | .jmp t => errIf (h.codeLen ≤ t.toNat) 4
    | .fset n => errIf (n = 30 && bitOf h.flags 0) 1
    | .fclr n => errIf (n = 30 && bitOf h.flags 0) 1
    | .call t => errIf (h.codeLen ≤ t.toNat) 4
    | .atom n1 =>
      errIf (h.codeLen ≤ i + n1.toNat + 1 ||
        ((code.drop (i + 1)).take (n1.toNat + 1)).any (fun v => breaksAtom (buildCore v))) 1
    | .chain f =>
      match chains[f.chain.toNat]? with
      | none => [1]
      | some b => if chainErr b = [] then chainInstrErr (chainOfBytes b) f else []
    | _ => []

/-- What the checks of an image take from the module: port pairs, an object of the loading context, and for a sketch image
whether a slot's object is pinned as R232 asks. -/
structure ImageEnv where
  pairs : Nat
  slotOk : Nat → Bool
  sketch : Bool

/-- Every offending byte offset of an image of `len` bytes. -/
def imageErrs (v : ImageEnv) (bs : List Byte) (len : Nat) : List Nat :=
  let h := headerOf bs
  match headerErr bs len with
  | e :: es => e :: es
  | [] =>
    let code := (pieces 8 h.codeLen (bs.drop h.codeOff)).map leNat
    let chains := pieces 128 h.chains (bs.drop h.chainOff)
    pieceErrs h.codeOff 8 (codeErr h code chains) code ++
    (if v.sketch then pieceErrs h.codeOff 8 (fun _ w => errIf (bitsOf w 7 0 = 0x52) 0) code else []) ++
    pieceErrs h.slotOff 16 (fun _ b => errIf (!v.slotOk (byteField b 0 8)) 0 ++ errIf (dirty b 8 16) 8)
      (pieces 16 h.slots (bs.drop h.slotOff)) ++
    pieceErrs h.chainOff 128 (fun _ b => chainErr b) chains ++
    pieceErrs h.streamOff 32 (fun _ b => streamEntryErr v.pairs h.slots b) (pieces 32 h.streams (bs.drop h.streamOff))

/-- The lowest of the offending offsets. -/
def firstErr : List Nat → Option Nat
  | [] => none
  | e :: es => some (es.foldl min e)

/-- The program of an image without errors. -/
def programOf (bs : List Byte) : Program :=
  let h := headerOf bs
  { code := (pieces 8 h.codeLen (bs.drop h.codeOff)).map (fun b => BitVec.ofNat 64 (leNat b))
    entry := h.entry, clusters := h.clusters, cores := h.cores
    slots := (pieces 16 h.slots (bs.drop h.slotOff)).map (fun b => byteField b 0 8)
    chains := (pieces 128 h.chains (bs.drop h.chainOff)).map chainOfBytes
    streams := (pieces 32 h.streams (bs.drop h.streamOff)).map streamEntryOf
    reduction := bitOf h.flags 0
    data := (bs.drop h.dataOff).take h.dataLen
    dataAddr := h.dataAddr }

/-- Cores a program runs on. -/
def progCores (p : Program) : Nat := p.clusters * p.cores

end Sys2Proof.Machine
end

