-- ==== Sys2Proof/Machine/ArrayOps.lean ====
section
/-! DEFINITION. What the matrix array computes: MMA (R69-R79), element-wise instructions (R127, R195-R197) and fused chains
(R140-R167), as functions of T0, the banks, the generator and the palette. -/

namespace Sys2Proof.Machine

/-- Reading view of T0, T0 itself, the banks with their FP32 tags, and what rounding gathers. -/
structure Arr where
  view : Store
  t0 : Store
  banks : SMap Word32
  fpTags : List Nat
  acc : QAcc

def bankWord (a : Arr) (i : Nat) : Word32 := mapGet 0 a.banks i

/-- The code of element `k` of a row that starts at byte `row` (R170: INT4 packs two, the even one low). -/
def elemCode (m : Store) (f row k : Nat) : Nat :=
  match fmtBits f with
  | 4 =>
    let b := (storeByte m (row + k / 2)).toNat
    if k % 2 = 0 then b % 16 else b / 16
  | 8 => (storeByte m (row + k)).toNat
  | n => leNat (storeRead m (row + k * (n / 8)) (n / 8))

/-- Bytes of packed codes. -/
def packCodes (f : Nat) : List Nat → List Byte
  | [] => []
  | c :: cs =>
    if f = 2 then
      (match cs with
       | [] => [BitVec.ofNat 8 (c % 16)]
       | d :: ds => BitVec.ofNat 8 (c % 16 + d % 16 * 16) :: packCodes f ds)
    else leBytes (fmtBits f / 8) c ++ packCodes f cs
termination_by structural l => l

/-- Write a row of bytes as whole lines, the bytes beyond it zero (Table 10-2). -/
def writeLines (m : Store) (a : Nat) (bs : List Byte) : Store := storeWrite 32 m a (padTo (roundUp bs.length 32) bs)

/-- Write bank words from word `i`. -/
def writeBanks (b : SMap Word32) (i : Nat) : List Word32 → SMap Word32
  | [] => b
  | w :: ws => writeBanks (mapSet 0 i w b) (i + 1) ws

/-- Tag banks `lo` to `lo` + `n` − 1 (R85). -/
def tagBanks (fp : Bool) (tags : List Nat) (lo n : Nat) : List Nat :=
  (List.range n).foldl (fun t i => if fp then setAdd (lo + i) t else setDel (lo + i) t) tags

/-! ### MMA -/

/-- Format of A in an operand pair (Table 3-1). -/
def mmaAFmt (f : MmaF) : Nat :=
  match f.pair.toNat with
  | 0 => 0
  | 1 => 1
  | 2 => 0
  | 3 => 1
  | 4 => 2
  | 5 => if f.af8 then 4 else 3
  | _ => 5

def mmaBFmt (f : MmaF) : Nat :=
  match f.pair.toNat with
  | 0 => 0
  | 1 => 0
  | 2 => 2
  | 3 => 2
  | 4 => 2
  | 5 => if f.bf8 then 4 else 3
  | _ => 5

/-- The accumulator type of a pair is FP32. -/
def mmaFp (f : MmaF) : Bool := f.pair.toNat = 5 || f.pair.toNat = 6

/-- Bytes of the whole of A: M rows of S bytes (Table 3-2). -/
def mmaALen (f : MmaF) : Nat := (f.m1.toNat + 1) * rowBytes (mmaAFmt f) (f.k1.toNat + 1)

/-- Bytes of the whole of B: every plane. -/
def mmaBLen (f : MmaF) : Nat :=
  let s := pairShape f.pair.toNat
  ceilDiv (f.k1.toNat + 1) s.1 * ceilDiv (f.n1.toNat + 1) s.2.1 * s.2.2.1

/-- Code of A's element (m, k). -/
def mmaA (v : Store) (f : MmaF) (a m k : Nat) : Nat :=
  elemCode v (mmaAFmt f) (a + m * rowBytes (mmaAFmt f) (f.k1.toNat + 1)) k

/-- Code of B's element (k, n), in its plane. -/
def mmaB (v : Store) (f : MmaF) (b k n : Nat) : Nat :=
  let s := pairShape f.pair.toNat
  let plane := n / s.2.1 * ceilDiv (f.k1.toNat + 1) s.1 + k / s.1
  elemCode v (mmaBFmt f) (b + plane * s.2.2.1) (k % s.1 * s.2.1 + n % s.2.1)

/-- Exact integer sum of element (m, n) over all of K (R70). -/
def mmaIntSum (v : Store) (f : MmaF) (a b m n : Nat) : Int :=
  (List.range (f.k1.toNat + 1)).foldl
    (fun s k => s + codeInt (mmaAFmt f) (mmaA v f a m k) * codeInt (mmaBFmt f) (mmaB v f b k n)) 0

def floatCode (fmt c : Nat) : FVal := if fmt = 5 then wideValue 5 c else rawValue fmt c

/-- One product of a column; indices at or beyond K are masked to zero (R71, R77). -/
def mmaProduct (v : Store) (f : MmaF) (a b m n k : Nat) : Word32 :=
  if f.k1.toNat < k then 0
  else enc32 (mulV (floatCode (mmaAFmt f) (mmaA v f a m k)) (floatCode (mmaBFmt f) (mmaB v f b k n)))

/-- Sum of one pass of a column in logical row order (R71). -/
def mmaColumn (v : Store) (f : MmaF) (a b m n kb : Nat) : Word32 :=
  let kp := (pairShape f.pair.toNat).1
  (List.range (kp - 1)).foldl (fun s i => fAdd s (mmaProduct v f a b m n (kb * kp + i + 1))) (mmaProduct v f a b m n (kb * kp))

/-- Result word of element (m, n) on the old word (R70, R71, R79). -/
def mmaWord (v : Store) (f : MmaF) (a b : Nat) (acc : Bool) (old : Word32) (m n : Nat) : Word32 :=
  if mmaFp f then
    let kp := (pairShape f.pair.toNat).1
    (List.range (ceilDiv (f.k1.toNat + 1) kp)).foldl
      (fun s kb => if kb = 0 && !acc then mmaColumn v f a b m n kb else fAdd s (mmaColumn v f a b m n kb)) old
  else
    let s := mmaIntSum v f a b m n
    (if acc then old else 0) + BitVec.ofInt 32 s

/-- The whole MMA: every word of the tile, and the tags in overwrite mode (R78, R79, R85). -/
def runMma (acc : Bool) (f : MmaF) (a b : Nat) (r : Arr) : Arr :=
  let n := f.n1.toNat + 1
  let base := f.bank.toNat * 1024
  let words := (List.range ((f.m1.toNat + 1) * n)).map
    (fun i => mmaWord r.view f a b acc (bankWord r (base + i)) (i / n) (i % n))
  { r with banks := writeBanks r.banks base words
           fpTags := if acc then r.fpTags else tagBanks (mmaFp f) r.fpTags f.bank.toNat (f.cnt1.toNat + 1) }

/-! ### Element-wise instructions -/

/-- A lane value: INT32 or an exact binary32. -/
inductive Lane
  | int (i : Int)
  | flt (v : FVal)
deriving DecidableEq, Repr

def wrap32 (i : Int) : Int := (BitVec.ofInt 32 i).toInt

def laneVal : Lane → FVal
  | .int i => valInt i
  | .flt v => v

def laneInt : Lane → Int
  | .int i => i
  | .flt _ => 0

/-- A T0 operand code entering a lane (Table 6-7, Table 6-6). -/
def laneIn (isScale itype : Bool) (fmt : Nat) (p : PalEntry) (c : Nat) : Lane :=
  if itype then
    (if isNarrow fmt then .flt (if isScale then rawValue fmt c else narrowValue fmt c (palExp p) (palZp p))
     else .flt (r32 (wideValue fmt c)))
  else if fmt = 6 then .int (signOf 32 c)
  else .int (codeInt fmt c - (if fmt = 1 && !isScale then (palZp p : Int) else 0))

/-- A bank word or a constant in the internal type. -/
def laneWord (itype : Bool) (w : Word32) : Lane := if itype then .flt (dec32 w) else .int w.toInt

/-- An integral value as an integer. -/
def integral : FVal → Option Int
  | .fin n m e =>
    if 0 ≤ e then some (signedMag n (m * 2 ^ (min e.toNat 1000)))
    else if m % 2 ^ (-e).toNat = 0 then some (signedMag n (m / 2 ^ (-e).toNat)) else none
  | _ => none

def clampInt (lo hi i : Int) : Int := max lo (min hi i)

/-- SCALE: a × 2^(b + p) (R196). -/
def scaleLane (p : Int) : Lane → Lane → Lane
  | .flt a, .flt b =>
    match integral b with
    | none => .flt (.nan Config.nanSign)
    | some k => .flt (r32 (scaleV (clampInt (-1000) 1000 (k + p)) a))
  | .int a, .int b =>
    let t := clampInt (-1000) 1000 (b + p)
    if 0 ≤ t then .int (wrap32 (a * 2 ^ t.toNat))
    else .int (roundInt none (a < 0) a.natAbs t)
  | a, _ => a

/-- The lane operation in INT32, modulo 2^32, or binary32, rounded once (R99, R142). -/
def ewLane (op : EwOp) (p : Int) (a b : Lane) : Lane :=
  match op, a, b with
  | .scale, a, b => scaleLane p a b
  | .cvt, a, _ => a
  | .add, .int x, .int y => .int (wrap32 (x + y))
  | .sub, .int x, .int y => .int (wrap32 (x - y))
  | .mul, .int x, .int y => .int (wrap32 (x * y))
  | .max, .int x, .int y => .int (max x y)
  | .min, .int x, .int y => .int (min x y)
  | .add, a, b => .flt (r32 (addV (laneVal a) (laneVal b)))
  | .sub, a, b => .flt (r32 (subV (laneVal a) (laneVal b)))
  | .mul, a, b => .flt (r32 (mulV (laneVal a) (laneVal b)))
  | .max, a, b => .flt (maxV (laneVal a) (laneVal b))
  | .min, a, b => .flt (minV (laneVal a) (laneVal b))

/-- Operand `i` of kind `k` (0 T0, 1 banks, otherwise the constant). -/
def ewOperand (r : Arr) (isScale : Bool) (f : EwF) (k : Nat) (base : Nat) (bank : Nat) (konst : Word32) (i : Nat) : Lane :=
  match k with
  | 0 => laneIn isScale f.itype f.tin.toNat (accPal r.acc f.pal.toNat) (elemCode r.view f.tin.toNat base i)
  | 1 => laneWord f.itype (bankWord r (bank * 1024 + i))
  | _ => laneWord f.itype konst

/-- A lane value leaving for T0 in format `fmt` (Tables 6-6, 6-7). -/
def laneOut (a : QAcc) (itype : Bool) (fmt pal : Nat) (srnd : Bool) (l : Lane) : QAcc × Nat :=
  match fmt with
  | 5 => roundBf16 a srnd (laneVal l)
  | 6 =>
    (match l with
     | .int i => (a, (BitVec.ofInt 32 i).toNat)
     | .flt v => (accCount a (quantInt32 v), (quantInt32 v).code))
  | 7 => (a, (enc32 (laneVal l)).toNat)
  | f =>
    if itype then roundThrough a f pal srnd (laneVal l)
    else
      let d := drawIf srnd a.rng
      let p := accPal a pal
      let q := satInt f (if f = 1 then palZp p else 0) (laneInt l)
      let p' := palContribute { p with satCount := stick32 (p.satCount + if q.sat then 1 else 0) } (laneVal l)
      (accCount { a with rng := d.1, pal := if f = 1 then mapSet {} pal p' a.pal else a.pal } q, q.code)

/-- Convert a list of values one after another, threading what rounding gathers. -/
def outAll (g : QAcc → Lane → QAcc × Nat) : QAcc → List Lane → QAcc × List Nat
  | a, [] => (a, [])
  | a, l :: ls => ((outAll g (g a l).1 ls).1, (g a l).2 :: (outAll g (g a l).1 ls).2)

/-- The word a lane leaves in a bank. -/
def laneBank : Lane → Word32
  | .int i => BitVec.ofInt 32 i
  | .flt v => enc32 v

/-- A whole element-wise instruction: addresses of its first and second T0 operands and of its T0 result, its constant. -/
def runEw (op : EwOp) (f : EwF) (x1 x2 xd : Nat) (konst : Word32) (r : Arr) : Arr :=
  let isScale := op = .scale
  let n := f.len1.toNat + 1
  let lanes := (List.range n).map (fun i =>
    ewLane op (signOf 8 f.pal.toNat)
      (ewOperand r isScale f f.s1k.toNat x1 f.s1.toNat konst i) (ewOperand r isScale f f.s2k.toNat x2 f.s2.toNat konst i))
  if f.dk = 0 then
    let o := outAll (fun a l => laneOut a f.itype f.tout.toNat f.pal.toNat f.srnd l) r.acc lanes
    { r with t0 := writeLines r.t0 xd (packCodes f.tout.toNat o.2), acc := o.1 }
  else
    { r with banks := writeBanks r.banks (f.d.toNat * 1024) (lanes.map laneBank)
             fpTags := tagBanks f.itype r.fpTags f.d.toNat (ceilDiv n 1024) }

/-! ### Fused chains -/

/-- f of Table 5-5. -/
def actF (mode : Nat) (k : FVal) (x : FVal) : FVal :=
  match mode with
  | 0 => maxV (.fin false 0 0) x
  | 1 => if isNan x then x else if ltV x (valInt 0) then r32 (mulV k x) else x
  | 2 => minV (maxV x (negV (absV k))) (absV k)
  | 3 => r32 (geluV x)
  | 4 => r32 (siluV x)
  | 5 => r32 (sigmoidV x)
  | 6 => r32 (tanhV x)
  | _ => r32 (expV x)

/-- f′ of Table 5-5. CLAMP is inside at |x| = |K| (log entry 17). -/
def actD (mode : Nat) (k : FVal) (x : FVal) : FVal :=
  let one := valInt 1
  match mode with
  | 0 => if isNan x then x else if ltV (valInt 0) x then one else valInt 0
  | 1 => if isNan x then x else if ltV x (valInt 0) then k else one
  | 2 => if isNan x then x else if isNan k then k else if ltV (absV k) (absV x) then valInt 0 else one
  | 3 => r32 (geluD x)
  | 4 => r32 (siluD x)
  | 5 => r32 (sigmoidD x)
  | _ => r32 (tanhD x)

/-- Start values of a row statistic: those of Table 5-6, and +0 for S and Q, for which it gives none (log entry 100). -/
def statStart (mode : Nat) : Word32 × Word32 :=
  if mode = 3 || mode = 5 then (0xFF800000, 0) else (0, 0)

/-- One step of a row statistic; the first word holds S, Q alone, m or a, the second Q of MEANVAR or s (log entry 18). -/
def statStep (mode : Nat) (s : Word32 × Word32) (x : FVal) : Word32 × Word32 :=
  match mode with
  | 0 => (enc32 (addV (dec32 s.1) x), s.2)
  | 1 => (enc32 (addV (dec32 s.1) (r32 (mulV x x))), s.2)
  | 2 => (enc32 (addV (dec32 s.1) x), enc32 (addV (dec32 s.2) (r32 (mulV x x))))
  | 3 => (if isNan x then s.1 else enc32 (maxV (dec32 s.1) x), s.2)
  | 4 => (if isNan x then s.1 else enc32 (maxV (dec32 s.1) (absV x)), s.2)
  | _ =>
    let m := dec32 s.1
    let t := dec32 s.2
    if ltV m x then (enc32 x, enc32 (addV (r32 (mulV t (r32 (expV (r32 (subV m x)))))) (valInt 1)))
    else (s.1, enc32 (addV t (r32 (expV (r32 (subV x m))))))

/-- The row values NORM uses, formed once per row (R160): offset and factor. -/
structure RowNorm where
  off : FVal
  fac : FVal

def rowNorm (holdMode mode : Nat) (k : FVal) (n : Nat) (s : Word32 × Word32) : RowNorm :=
  let cnt := valInt n
  let mu := r32 (divV (dec32 s.1) cnt)
  let q := r32 (divV (dec32 (if holdMode = 2 then s.2 else s.1)) cnt)
  match mode with
  | 0 => ⟨mu, valInt 1⟩
  | 1 => ⟨mu, r32 (rsqrtV (r32 (addV (maxV (valInt 0) (r32 (subV q (r32 (mulV mu mu))))) k)))⟩
  | 2 => ⟨valInt 0, r32 (rsqrtV (r32 (addV q k)))⟩
  | _ => ⟨dec32 s.1, r32 (divV (valInt 1) (dec32 s.2))⟩

/-- NORM of one value. -/
def normF (mode : Nat) (r : RowNorm) (x : FVal) : FVal :=
  match mode with
  | 0 => r32 (subV x r.off)
  | 1 => r32 (mulV (r32 (subV x r.off)) r.fac)
  | 2 => r32 (mulV x r.fac)
  | _ => r32 (mulV (r32 (expV (r32 (subV x r.off)))) r.fac)

/-- Exponent of QUANT ROW for a row whose AMAX is `a`, and whether it is a zero row (R162). -/
def rowExp (f : Nat) (a : Word32) : Int × Bool :=
  if eqV (dec32 a) (valInt 0) then (-64, true) else (leastExp (dec32 a) (qMax f), false)

/-- Round into an IFMT (R141): what is gathered, the held value, the code. -/
def roundIfmt (a : QAcc) (fmt pal : Nat) (srnd : Bool) (l : Lane) : QAcc × Lane × Nat :=
  match fmt with
  | 5 => ((roundBf16 a srnd (laneVal l)).1, .flt (wideValue 5 (roundBf16 a srnd (laneVal l)).2), (roundBf16 a srnd (laneVal l)).2)
  | 6 => (a, l, (BitVec.ofInt 32 (laneInt l)).toNat)
  | 7 => (a, .flt (r32 (laneVal l)), (enc32 (laneVal l)).toNat)
  | f =>
    let p := accPal a pal
    let q := roundThrough a f pal srnd (laneVal l)
    (q.1, .flt (narrowValue f q.2 (palExp p) (palZp p)), q.2)

def roundAll (g : QAcc → Lane → QAcc × Lane × Nat) : QAcc → List Lane → QAcc × List Lane × List Nat
  | a, [] => (a, [], [])
  | a, l :: ls =>
    let h := g a l
    let t := roundAll g h.1 ls
    (t.1, h.2.1 :: t.2.1, h.2.2 :: t.2.2)

/-- QUANT ROW of one element with its row exponent: it draws, counts, and passes nothing to a history; in a zero row every code but
NaN's is 0 (R162). -/
def quantRow (a : QAcc) (fmt : Nat) (srnd : Bool) (e : Int × Bool) (l : Lane) : QAcc × Lane × Nat :=
  let d := drawIf srnd a.rng
  let q := if e.2 && !isNan (laneVal l) then { code := 0 } else quantise fmt e.1 0 d.2 (laneVal l)
  (accCount { a with rng := d.1 } q, .flt (narrowValue fmt q.code e.1 0), q.code)

/-- Values that pass through a phase: the running values, the elements of the input streams (R153), codes of the main output and of XO. -/
structure PhaseVal where
  vals : List Lane
  x1 : List Lane
  x2 : List Lane
  main : List Nat := []
  xo : List Nat := []
  acc : QAcc

/-- What a phase knows: its chain, width, row statistics and the HOLD mode. -/
structure PhaseEnv where
  chain : Chain
  width : Nat
  stats : List (Word32 × Word32)
  holdMode : Nat
  rowN : Nat

def zipLanes (f : Lane → Lane → Lane) (a b : List Lane) : List Lane := a.zipWith f b

/-- The elements of a stream, one for each element of a tile of width `w` and `m` rows (Table 5-2). -/
def expandLanes (shape m w : Nat) (l : List Lane) : List Lane :=
  match shape with
  | 1 => l
  | 2 => (List.range m).flatMap (fun _ => l)
  | _ => l.flatMap (List.replicate w)

/-- The operand list of a stage: a stream or the constant for every element. -/
def stageOperand (v : PhaseEnv) (s : Stage) (p : PhaseVal) : List Lane :=
  match s.opnd with
  | 1 => expandLanes v.chain.x1.shape (p.vals.length / v.width) v.width p.x1
  | 2 => expandLanes v.chain.x2.shape (p.vals.length / v.width) v.width p.x2
  | _ => List.replicate p.vals.length (if s.typ = 2 then .int s.k.toInt else .flt (dec32 s.k))

/-- The operation of a stage on its list of values, before rounding into IFMT (Table 5-4). -/
def stageOp (v : PhaseEnv) (s : Stage) (pal : SMap PalEntry) (vals ops : List Lane) : List Lane :=
  let k := dec32 s.k
  match s.typ with
  | 1 => vals.map (fun l => .flt (r32 (scaleV (palExp (mapGet {} pal s.pal)) (laneVal l))))
  | 2 => zipLanes (fun a b => .int (wrap32 (laneInt a + laneInt b))) vals ops
  | 3 => zipLanes (fun a b => .flt (r32 (addV (laneVal a) (laneVal b)))) vals ops
  | 4 => zipLanes (fun a b => .flt (r32 (mulV (laneVal a) (laneVal b)))) vals ops
  | 5 => vals.map (fun l => .flt (actF s.mode k (laneVal l)))
  | 6 => zipLanes (fun a b => .flt (r32 (mulV (laneVal a) (actD s.mode k (laneVal b))))) vals ops
  | 8 =>
    let rows := v.stats.map (rowNorm v.holdMode s.mode k v.rowN)
    (vals.zipIdx).map (fun p => .flt (normF s.mode (rows.getD (p.2 / v.width) ⟨valInt 0, valInt 1⟩) (laneVal p.1)))
  | _ => vals

/-- One stage over all its elements (R141, R151, R161, R162, R167). An underpainting stage runs once on each element of its stream;
with SOURCE 2 the running value is what underpainting leaves of X1 (log entry 93). -/
def runStage (v : PhaseEnv) (s : Stage) (p : PhaseVal) : PhaseVal :=
  if s.target = 0 then
    let out := stageOp v s p.acc.pal p.vals (stageOperand v s p)
    if s.typ = 9 && s.mode = 1 then
      let exps := v.stats.map (fun r => rowExp s.ifmt r.1)
      let rows := (out.zipIdx).map (fun q => (exps.getD (q.2 / v.width) (-64, true), q.1))
      let r := rows.foldl (fun (t : QAcc × List Lane × List Nat) q =>
        let h := quantRow t.1 s.ifmt s.srnd q.1 q.2
        (h.1, h.2.1 :: t.2.1, h.2.2 :: t.2.2)) (p.acc, [], [])
      { p with vals := r.2.1.reverse, main := r.2.2.reverse
               xo := exps.map (fun e => (e.1 % 256).toNat)
               acc := { r.1 with const := r.1.const + (exps.filter (·.2)).length } }
    else
      let r := roundAll (fun a l => roundIfmt a s.ifmt s.pal s.srnd l) p.acc out
      if s.typ = 0xA then { p with xo := r.2.2, acc := r.1 }
      else { p with vals := r.2.1, main := r.2.2, acc := r.1 }
  else
    let src := if s.target = 1 then p.x1 else p.x2
    let out := stageOp v s p.acc.pal src (List.replicate src.length (.flt (dec32 s.k)))
    let r := roundAll (fun a l => roundIfmt a s.ifmt s.pal s.srnd l) p.acc out
    if s.target = 1 then { p with x1 := r.2.1, vals := if v.chain.source = 2 then r.2.1 else p.vals, acc := r.1 } else { p with x2 := r.2.1, acc := r.1 }

def runStages (v : PhaseEnv) (stages : List Stage) (p : PhaseVal) : PhaseVal := stages.foldl (fun q s => runStage v s q) p

/-- Bytes between the rows of a stream of width `w` (Table 5-2). -/
def streamStride (d : StreamDesc) (w : Nat) : Nat := if d.stride = 0 then rowBytes d.fmt w else d.stride

/-- Elements and rows of a stream as laid out, and its whole extent in bytes. -/
def streamLen (d : StreamDesc) (m w : Nat) : Nat :=
  match d.shape with
  | 1 => (m - 1) * streamStride d w + rowBytes d.fmt w
  | 2 => rowBytes d.fmt w
  | 3 => rowBytes d.fmt m
  | _ => 0

/-- The elements of an input stream, converted: m × w of a TILE, w of COLS, m of ROWS (R152, R153). -/
def streamLanes (v : Store) (pal : SMap PalEntry) (d : StreamDesc) (base m w : Nat) : List Lane :=
  let p := mapGet {} pal d.pal
  let conv (c : Nat) : Lane :=
    if d.fmt = 6 then .int (signOf 32 c)
    else if isNarrow d.fmt then .flt (narrowValue d.fmt c (palExp p) (palZp p)) else .flt (wideValue d.fmt c)
  match d.shape with
  | 1 => (List.range (m * w)).map (fun i => conv (elemCode v d.fmt (base + i / w * streamStride d w) (i % w)))
  | 2 => (List.range w).map (fun i => conv (elemCode v d.fmt base i))
  | _ => (List.range m).map (fun i => conv (elemCode v d.fmt base i))

/-- Rows of `w` codes. -/
def rowsOf (w : Nat) : Nat → List Nat → List (List Nat)
  | 0, _ => []
  | n + 1, cs => cs.take w :: rowsOf w n (cs.drop w)

/-- Write rows at a stride, in whole lines. -/
def writeRows (m : Store) (fmt a stride : Nat) : List (List Nat) → Store
  | [] => m
  | r :: rs => writeRows (writeLines m a (packCodes fmt r)) fmt (a + stride) stride rs

/-- Write an output stream. -/
def writeStream (m : Store) (d : StreamDesc) (base rows w : Nat) (codes : List Nat) : Store :=
  if d.shape = 1 then writeRows m d.fmt base (streamStride d w) (rowsOf w rows codes)
  else writeLines m base (packCodes d.fmt codes)

/-- Plane layout of an m × w result for operand pair `pair` (Table 3-2): rows are B's inner index. -/
def planeCodes (pair m w : Nat) (codes : List Nat) : List Nat :=
  let s := pairShape pair
  let kbs := ceilDiv m s.1
  (List.range (kbs * ceilDiv w s.2.1 * (s.1 * s.2.1))).map (fun i =>
    let plane := i / (s.1 * s.2.1)
    let k := plane % kbs * s.1 + i % (s.1 * s.2.1) / s.2.1
    let n := plane / kbs * s.2.1 + i % s.2.1
    if k < m && n < w then codes.getD (k * w + n) 0 else 0)

/-- Bytes of the main output (Table 3-2). -/
def mainLen (layout : Bool) (pair fmt m w : Nat) : Nat :=
  if layout then
    let s := pairShape pair
    ceilDiv m s.1 * ceilDiv w s.2.1 * s.2.2.1
  else m * rowBytes fmt w

def writeMain (t0 : Store) (layout : Bool) (pair fmt base m w : Nat) (codes : List Nat) : Store :=
  if layout then writeLines t0 base (packCodes fmt (planeCodes pair m w codes))
  else writeRows t0 fmt base (rowBytes fmt w) (rowsOf w m codes)

/-! #### The hold buffer (Table 5-7, R156) -/

structure HoldHead where
  isOpen : Bool
  chain : Nat
  m1 : Nat
  col : Nat

/-- The header line as read; an OPEN byte other than 1, which only a write into the buffer can leave, counts as not open (log entry
101). -/
def holdHead (v : Store) (c : Chain) : HoldHead :=
  let b := storeRead v c.holdAddr 8
  { isOpen := byteField b 0 1 = 1, chain := byteField b 1 1, m1 := byteField b 2 1, col := byteField b 4 2 }

def holdHeadBytes (h : HoldHead) : List Byte :=
  leBytes 1 (if h.isOpen then 1 else 0) ++ leBytes 1 h.chain ++ leBytes 1 h.m1 ++ leBytes 1 0 ++ leBytes 2 h.col

/-- Address of row `m`'s statistics, and of its data. -/
def holdStat (c : Chain) (m : Nat) : Nat := c.holdAddr + 32 + 8 * m
def holdData (c : Chain) (ifmt m : Nat) : Nat := c.holdAddr + 32 + roundUp (c.holdRows * 8) 32 + m * rowBytes ifmt c.rowN

/-- Store bytes inside lines, the other bytes of the lines kept: a line is read, changed and written (R307). -/
def patchBytes (m : Store) (a : Nat) (bs : List Byte) : Store :=
  let lo := a / 32 * 32
  let hi := roundUp (a + bs.length) 32
  let old := storeRead m lo (hi - lo)
  storeWrite 32 m lo (old.take (a - lo) ++ bs ++ old.drop (a - lo + bs.length))

/-- Put codes into row `m` of the data area from column `col`, in whole lines; bytes beyond the row's last element are written as
zero (Table 10-2). -/
def patchCodes (t0 : Store) (c : Chain) (ifmt m col : Nat) (codes : List Nat) : Store :=
  let base := holdData c ifmt m
  let old := (List.range c.rowN).map (elemCode t0 ifmt base)
  let row := packCodes ifmt (old.take col ++ codes ++ old.drop (col + codes.length))
  let lo := col * fmtBits ifmt / 8 / 32 * 32
  let hi := rowBytes ifmt (col + codes.length)
  storeWrite 32 t0 (base + lo) (((padTo (rowBytes ifmt c.rowN) row).take hi).drop lo)

def readStats (v : Store) (c : Chain) (m : Nat) : List (Word32 × Word32) :=
  (List.range m).map (fun i =>
    let b := storeRead v (holdStat c i) 8
    (BitVec.ofNat 32 (byteField b 0 4), BitVec.ofNat 32 (byteField b 4 4)))

def writeStats (t0 : Store) (c : Chain) (stats : List (Word32 × Word32)) : Store :=
  patchBytes t0 (holdStat c 0) (stats.flatMap (fun s => leBytes 4 s.1.toNat ++ leBytes 4 s.2.toNat))

/-- The codes of a row set of m rows in the hold buffer. -/
def heldCodes (v : Store) (c : Chain) (h : Stage) (m : Nat) : List Nat :=
  (List.range (m * c.rowN)).map (fun i => elemCode v h.ifmt (holdData c h.ifmt (i / c.rowN)) (i % c.rowN))

/-- Held codes as values, as the post phase reads them back. -/
def heldLanes (pal : SMap PalEntry) (h : Stage) (codes : List Nat) : List Lane :=
  let p := mapGet {} pal h.pal
  codes.map (fun code => .flt (if isNarrow h.ifmt then narrowValue h.ifmt code (palExp p) (palZp p) else wideValue h.ifmt code))

/-- The T0 addresses a CHAIN read at issue. -/
structure ChainAddr where
  go : Nat
  x1 : Nat
  x2 : Nat
  xo : Nat

/-- Streams of one phase: read only where a stage of the phase uses them. -/
def phaseIn (v : Store) (pal : SMap PalEntry) (c : Chain) (stages : List Stage) (ad : ChainAddr) (m w : Nat) : List Lane × List Lane :=
  (if c.x1.shape != 0 && stages.any (usesStream 1) then streamLanes v pal c.x1 ad.x1 m w else [],
   if c.x2.shape != 0 && stages.any (usesStream 2) then streamLanes v pal c.x2 ad.x2 m w else [])

/-- Apply held values to the row statistics, in ascending column order (R155, R160). -/
def holdStats (mode w : Nat) (stats : List (Word32 × Word32)) (held : List Lane) : List (Word32 × Word32) :=
  (stats.zipIdx).map (fun p => ((held.drop (p.2 * w)).take w).foldl (fun s l => statStep mode s (laneVal l)) p.1)

/-- Codes of XO go to T0 in the phase that writes it. -/
def writeXo (t0 : Store) (c : Chain) (stages : List Stage) (ad : ChainAddr) (m w : Nat) (codes : List Nat) : Store :=
  if stages.any writesXo then writeStream t0 c.xo ad.xo m w codes else t0

/-- A whole CHAIN (R140-R167). `idx` is its chain table index. -/
def runChain (c : Chain) (idx : Nat) (f : ChainF) (ad : ChainAddr) (r : Arr) : Arr :=
  let m := f.m1.toNat + 1
  let n := f.n1.toNat + 1
  let pre := preStages c
  let pal := r.acc.pal
  let start : List Lane := match c.source with
    | 2 => streamLanes r.view pal c.x1 ad.x1 m n
    | s => (List.range (m * n)).map (fun i => laneWord (s = 1) (bankWord r (f.bank.toNat * 1024 + i)))
  let ins := phaseIn r.view pal c pre ad m n
  let v : PhaseEnv := { chain := c, width := n, stats := [], holdMode := 0, rowN := c.rowN }
  let p := runStages v pre { vals := start, x1 := ins.1, x2 := ins.2, acc := r.acc }
  let t1 := writeXo r.t0 c pre ad m n p.xo
  match holdIdx c, c.stages.find? (fun s => s.typ = 7) with
  | some _, some h =>
    let hd := holdHead r.view c
    let col := if f.first then 0 else hd.col
    let old := if f.first then List.replicate m (statStart h.mode) else readStats r.view c m
    let stats := holdStats h.mode n old p.vals
    let rows := rowsOf n m p.main
    let hold (t : Store) : Store := writeStats ((rows.zipIdx).foldl (fun t q => patchCodes t c h.ifmt q.2 col q.1) t) c stats
    let t3 := hold t1
    if f.last then
      let post := postStages c
      let codes := heldCodes (hold r.view) c h m
      let insP := phaseIn r.view pal c post ad m c.rowN
      let vP : PhaseEnv := { chain := c, width := c.rowN, stats := stats, holdMode := h.mode, rowN := c.rowN }
      let q := runStages vP post { vals := heldLanes p.acc.pal h codes, x1 := insP.1, x2 := insP.2, main := codes, acc := p.acc }
      let t4 := writeXo t3 c post ad m c.rowN q.xo
      let t5 := writeMain t4 f.layout f.ppair.toNat (mainFmt c) ad.go m c.rowN q.main
      { r with t0 := writeLines t5 c.holdAddr [0], acc := q.acc }
    else
      let hd' : HoldHead := { isOpen := true, chain := if f.first then idx else hd.chain
                              m1 := if f.first then f.m1.toNat else hd.m1, col := col + n }
      { r with t0 := writeLines t3 c.holdAddr (holdHeadBytes hd'), acc := p.acc }
  | _, _ =>
    { r with t0 := writeMain t1 f.layout f.ppair.toNat (mainFmt c) ad.go m n p.main, acc := p.acc }

end Sys2Proof.Machine
end

