-- ==== Sys2Proof/Machine/Flags.lean ====
section
/-! DEFINITION. Status codes and completion records (R404, R418), the error log (R497, R498) and the frame statistics (R501). -/

namespace Sys2Proof.Machine

/-! ### Status codes (Table 15-2) -/

def stSuccess (r0 r1 r2 : Nat) : Status := { cls := 0, code := 0, r0 := r0, r1 := r1, r2 := r2 }
def stInvalidOpcode : Status := { cls := 1, code := 1 }
/-- INVALID_FIELD: offset, and where it counts: 0 packet, 1 buffer, 2 entry list. -/
def stInvalidField (off place : Nat) : Status := { cls := 1, code := 2, r0 := off, r1 := place }
def stUnsupported : Status := { cls := 1, code := 3 }
def stQuota : Status := { cls := 2, code := 1 }
def stQueueFull : Status := { cls := 2, code := 2 }
def stPinned : Status := { cls := 2, code := 3 }
def stUnitUnavailable : Status := { cls := 2, code := 5 }
def stNoAllocation : Status := { cls := 2, code := 6 }
def stResultFull (n : Nat) : Status := { cls := 2, code := 7, r0 := n }
def stObjectLimit : Status := { cls := 2, code := 8 }
def stMediaError (r0 r1 : Nat) : Status := { cls := 3, code := 1, r0 := r0, r1 := r1 }
def stBusyErase : Status := { cls := 3, code := 2 }
def stProgramFail : Status := { cls := 3, code := 3 }
def stHostDma (off : Nat) : Status := { cls := 3, code := 4, r0 := off }
def stContextFault (cause r1 : Nat) : Status := { cls := 4, code := 1, r0 := cause, r1 := r1 }
/-- ABORTED: 1 by ABORT, 2 by CTX_DESTROY, 3 by disabling a unit; the tag; the bytes moved. -/
def stAborted (by_ tag moved : Nat) : Status := { cls := 5, code := 1, r0 := by_, r1 := tag, r2 := moved }
def stStepVoid (cause tag : Nat) : Status := { cls := 6, code := 1, r0 := cause, r1 := tag }
def stTagGeneration (tag : Nat) : Status := { cls := 6, code := 2, r0 := tag }
def stSignature : Status := { cls := 7, code := 1 }
def stRollback : Status := { cls := 7, code := 2 }
def stLifecycle : Status := { cls := 7, code := 3 }
def stTransition : Status := { cls := 7, code := 4 }

/-! ### Packets (Table 15-1) -/

/-- `n` bytes of a packet at byte `off`. -/
def pktField (p : PacketBits) (off n : Nat) : Nat := bitsOf p.toNat (8 * (off + n) - 1) (8 * off)

def pktOpcode (p : PacketBits) : Nat := pktField p 0 1
def pktClass (p : PacketBits) : Nat := bitsOf (pktField p 1 1) 1 0
def pktFlags (p : PacketBits) : Nat := bitsOf (pktField p 1 1) 7 2
def pktCtx (p : PacketBits) : Nat := pktField p 2 2
def pktHostId (p : PacketBits) : Nat := pktField p 4 2
def pktBufLen (p : PacketBits) : Nat := pktField p 56 4
def pktBufAddr (p : PacketBits) : Nat := pktField p 48 8
def pktBufKind (p : PacketBits) : Nat := pktField p 60 1
def pktNent (p : PacketBits) : Nat := pktField p 62 2

/-! ### Commands and their records -/

def cmdOf (s : State) (tag : Nat) : Option Cmd := s.host.cmds.find? (fun c => c.tag = tag)

/-- Change the command with this tag. -/
def updCmd (tag : Nat) (f : Cmd → Cmd) (s : State) : State :=
  { s with host := { s.host with cmds := s.host.cmds.map (fun c => if c.tag = tag then f c else c) } }

/-- The completion record of a command (R404): HOST_ID, OPCODE and CONTEXT come from its packet. -/
def recordOf (s : State) (c : Cmd) (st : Status) (result : List (Nat × List Byte)) : Record :=
  { hostId := pktHostId c.pkt, opcode := pktOpcode c.pkt, tag := c.tag, status := st
    frame := s.frame.counter.toNat % 2 ^ 32, ctx := pktCtx c.pkt, result := result }

/-- Complete a command with result bytes that its record carries: it leaves the outstanding work and its record waits for the
next window (R52, R426). A command without a record any more is not completed twice (R343). -/
def completeWith (tag : Nat) (st : Status) (result : List (Nat × List Byte)) (s : State) : State :=
  match cmdOf s tag with
  | none => s
  | some c =>
    { s with host := { s.host with
        cmds := s.host.cmds.filter (fun d => d.tag != tag)
        done := s.host.done ++ [recordOf s c st result] } }

def complete (tag : Nat) (st : Status) (s : State) : State := completeWith tag st [] s

/-- Outbound host DMA writes to a command's buffer (R408). -/
def hostWrite (addr : Nat) (bs : List Byte) (s : State) : State :=
  if bs = [] then s else { s with host := { s.host with hostOut := s.host.hostOut ++ [{ addr := addr, data := bs }] } }

/-- Commands accepted whose record is not yet in the ring (R401). -/
def outstanding (s : State) : Nat :=
  s.host.cmds.length + s.host.done.length + (s.host.heldRecs.filter (fun r => r.kind = 0)).length

/-! ### The error log -/

/-- Entries waiting in control SRAM: at most 256 (R498). -/
def logWaiting (l : Logs) : Nat := (l.errors.filter (fun e => !e.persistent)).length

/-- Identical events of one frame fold into one entry (R498). -/
def logFolds (e f : LogEntry) : Bool :=
  e.source = f.source && e.code = f.code && e.ctx = f.ctx && e.inst = f.inst && e.frame = f.frame && e.count < 255 && !e.persistent

/-- Enter an event in the error log (R497, R498). -/
def logAdd (e : LogEntry) (l : Logs) : Logs :=
  if l.errors.any (fun d => logFolds d e) then
    { l with errors := l.errors.map (fun d => if logFolds d e then { d with count := d.count + 1 } else d) }
  else if 256 ≤ logWaiting l then { l with lost := l.lost + 1 }
  else { l with errors := l.errors ++ [{ e with seq := l.nextSeq }], nextSeq := l.nextSeq + 1 }

/-- Log an event now: source, severity, code, context, instance, address, the two details. -/
def logEvent (source sev code ctx inst addr d0 d1 : Nat) (s : State) : State :=
  { s with logs := logAdd { seq := 0, frame := s.frame.counter.toNat, resets := s.power.resets, source := source, severity := sev
                            code := code, ctx := ctx, inst := inst, addr := addr, detail0 := d0, detail1 := d1 } s.logs }

/-- An event that a supervisor processor raised (R30): processor, source, severity, code, context, instance, address. -/
def logBy (sp source sev code ctx inst addr : Nat) (s : State) : State :=
  { s with logs := logAdd { seq := 0, frame := s.frame.counter.toNat, resets := s.power.resets, source := source, sp := sp, severity := sev
                            code := code, ctx := ctx, inst := inst, addr := addr } s.logs }

/-! ### Frame statistics -/

/-- Counts of one event, charged to the frame and to the context (R501). -/
structure Count where
  sketch : Nat := 0
  missed : Nat := 0
  evictions : Nat := 0
  dropped : Nat := 0
  saturated : Nat := 0
  nanQuant : Nat := 0
  constCh : Nat := 0

def countFrame (c : Count) (f : FrameRec) : FrameRec :=
  { f with sketch := stick32 (f.sketch + c.sketch), missed := stick32 (f.missed + c.missed)
           evictions := stick32 (f.evictions + c.evictions), dropped := stick32 (f.dropped + c.dropped)
           saturated := stick32 (f.saturated + c.saturated), nanQuant := stick32 (f.nanQuant + c.nanQuant)
           constCh := stick32 (f.constCh + c.constCh) }

def countCtx (c : Count) (t : CtxStats) : CtxStats :=
  { sketch := t.sketch + c.sketch, missed := t.missed + c.missed, evictions := t.evictions + c.evictions
    dropped := t.dropped + c.dropped, saturated := t.saturated + c.saturated, nanQuant := t.nanQuant + c.nanQuant
    constCh := t.constCh + c.constCh }

def ctxOf (s : State) (n : Nat) : Context := mapGet {} s.ctxs n

def setCtx (n : Nat) (c : Context) (s : State) : State := { s with ctxs := mapSet {} n c s.ctxs }

def updCtx (n : Nat) (f : Context → Context) (s : State) : State := setCtx n (f (ctxOf s n)) s

/-- Charge counts to the running frame and to a context. -/
def countFor (n : Nat) (c : Count) (s : State) : State :=
  updCtx n (fun x => { x with stats := countCtx c x.stats }) { s with logs := { s.logs with cur := countFrame c s.logs.cur } }

end Sys2Proof.Machine
end

