-- ==== Sys2Proof/Machine/Operands.lean ====
section
/-! DEFINITION. Operand access: the parts of the family, the registers, generators and T0 of an MX core, and when a core may
issue an instruction (chapters 0, 4 and 11). -/

namespace Sys2Proof.Machine

/-! ### Fitted quantities (Table 0-1, Table 14-4) -/

def isQ96 (s : State) : Bool := s.part = .q96
def hasReduction (s : State) : Bool := s.part = .f192
def portPairs (s : State) : Nat :=
  match s.part with
  | .f192 => 16
  | .i192 => 16
  | .q96 => 4
def computeDomains (s : State) : Nat := if isQ96 s then 13 else 25
def clustersPresent (s : State) : Nat := if isQ96 s then 125 else 250
def diesPerChannel (s : State) : Nat := if isQ96 s then 24 else 48

/-- Clusters of domain D: ten, but five in D17 of the Q96 (R320). -/
def domainClusters (s : State) (d : Nat) : List Nat :=
  (List.range 10).filterMap (fun i => if (d - 5) * 10 + i < clustersPresent s then some ((d - 5) * 10 + i) else none)

/-! ### Contexts, cores and clusters -/

def isResident (c : Context) : Bool :=
  match c.state with
  | .swappingIn => true
  | .runnable => true
  | .blocked => true
  | .swappingOut => true
  | .teardown => true
  | .destroying => !c.alloc.isEmpty
  | _ => false

def progOf (c : Context) (sketch : Bool) : Option Program := if sketch then c.sketch.map (·.prog) else c.prog

def coreOf (s : State) (r : CoreRef) : Core :=
  mapGet {} (if r.sketch then (ctxOf s r.ctx).sketchCores else (ctxOf s r.ctx).cores) r.lcore

def setCore (r : CoreRef) (k : Core) (s : State) : State :=
  updCtx r.ctx (fun c => if r.sketch then { c with sketchCores := mapSet {} r.lcore k c.sketchCores }
    else { c with cores := mapSet {} r.lcore k c.cores }) s

def updCore (r : CoreRef) (f : Core → Core) (s : State) : State := setCore r (f (coreOf s r)) s

/-- LCLUSTER of a core: cores are numbered cluster by cluster (Table 4-22). -/
def lclusterOf (s : State) (r : CoreRef) : Nat :=
  match progOf (ctxOf s r.ctx) r.sketch with
  | some p => r.lcore / p.cores
  | none => 0

def clusterOf (s : State) (n lc : Nat) : Cluster := mapGet {} (ctxOf s n).clusters lc

def updCluster (n lc : Nat) (f : Cluster → Cluster) (s : State) : State :=
  updCtx n (fun c => { c with clusters := mapSet {} lc (f (mapGet {} c.clusters lc)) c.clusters }) s

/-- Bytes of the context's T1 area on each cluster (R215). -/
def t1Size (s : State) (n : Nat) : Nat := (ctxOf s n).quotaT1 * 65536

/-- An offline core makes its whole cluster unallocatable (R96). -/
def clusterOffline (s : State) (k : Nat) : Bool := s.phys.any (fun p => p.1 / 100 = k && p.2.offline)

/-- The clusters of an allocation in LCLUSTER order (R325, R96). A cluster whose core goes offline during the run leaves the list at once,
so that later LCLUSTERs of every context on its domain stand for the clusters after it (log entry 98). -/
def allocClusters (s : State) (n : Nat) : List Nat :=
  (ctxOf s n).alloc.flatMap (fun d => (domainClusters s d).filter (fun k => !clusterOffline s k))

/-- Cluster and core within it on which a core of a context runs (R139, R233). -/
def physOf (s : State) (r : CoreRef) : Nat × Nat :=
  let c := ctxOf s r.ctx
  match progOf c r.sketch with
  | none => (0, 0)
  | some p =>
    ((allocClusters s r.ctx).getD (r.lcore / p.cores) 0,
     (if r.sketch then 100 - (c.sketch.map (·.cores)).getD 0 else 0) + r.lcore % p.cores)

def physCore (s : State) (r : CoreRef) : PhysCore := mapGet {} s.phys ((physOf s r).1 * 100 + (physOf s r).2)

/-! ### Registers and generators -/

/-- Read g`n`: g0 reads 0 (Table 4-1). -/
def readReg (k : Core) (n : BitVec 5) : Word64 := if n = 0 then 0 else mapGet 0 k.regs n.toNat

/-- Write g`n`: writes to g0 are discarded. -/
def writeReg (n : BitVec 5) (v : Word64) (k : Core) : Core := if n = 0 then k else { k with regs := mapSet 0 n.toNat v k.regs }

/-- Register g(4q + w) of a quad. -/
def quadReg (q : BitVec 3) (w : Nat) : BitVec 5 := BitVec.ofNat 5 (4 * q.toNat + w)

/-- The 32-byte line of a quad: g(4q) holds line bytes 0-7. -/
def quadLine (k : Core) (q : BitVec 3) : List Byte :=
  (List.range 4).flatMap (fun w => leBytes 8 (readReg k (quadReg q w)).toNat)

def quadSet (q : BitVec 3) (line : List Byte) (k : Core) : Core :=
  (List.range 4).foldl (fun k w => writeReg (quadReg q w) (BitVec.ofNat 64 (byteField line (8 * w) 8)) k) k

def genOf (k : Core) (g : BitVec 2) : Gen := mapGet {} k.gens g.toNat
def setGen (g : BitVec 2) (v : Gen) (k : Core) : Core := { k with gens := mapSet {} g.toNat v k.gens }

/-- Address a generator gives. -/
def genAddr (k : Core) (g : BitVec 2) : Nat := (genOf k g).addr.toNat

/-- A count field: 0 stands for 65,536 (R117). -/
def genCount (c : BitVec 16) : Nat := if c = 0 then 65536 else c.toNat

/-- step(a) of R117. -/
def genStep (a : Gen) : Gen :=
  if a.i0 + 1 < genCount a.cnt0 then { a with i0 := a.i0 + 1, addr := a.addr + a.inc0 }
  else
    let i1 := if genCount a.cnt1 ≤ a.i1 + 1 then 0 else a.i1 + 1
    { a with i0 := 0, i1 := i1, addr := a.base + BitVec.ofNat 32 i1 * a.inc1 }

/-- Step each generator named once, if the STEP bit is 1 (R118). -/
def stepGens (stepG : Bool) (gs : List (BitVec 2)) (k : Core) : Core :=
  if stepG then gs.dedup.foldl (fun k g => setGen g (genStep (genOf k g)) k) k else k

/-- SETA: a field of a generator; ADDR becomes BASE and the counters 0 (R117). -/
def genSet (field : BitVec 3) (v : Word64) (a : Gen) : Gen :=
  let w : Word32 := v.setWidth 32
  let h : BitVec 16 := v.setWidth 16
  let b : Gen := match field.toNat with
    | 0 => { a with base := w }
    | 1 => { a with inc0 := w }
    | 2 => { a with cnt0 := h }
    | 3 => { a with inc1 := w }
    | _ => { a with cnt1 := h }
  { b with addr := b.base, i0 := 0, i1 := 0 }

/-! ### Array instructions in flight -/

/-- A and B of an MMA in flight, or the T0 operands of another array instruction: (address, bytes). -/
def opReads (o : ArrayOp) (chains : List Chain) : List (Nat × Nat) :=
  match o.ins with
  | .mma _ f => [(o.a, mmaALen f), (o.b, mmaBLen f)]
  | .ew _ f =>
    let n := fmtBytes f.tin.toNat (f.len1.toNat + 1)
    (if f.s1k = 0 then [(o.a, n)] else []) ++ (if f.s2k = 0 then [(o.b, n)] else [])
  | .chain f =>
    match chains[f.chain.toNat]? with
    | none => []
    | some c =>
      let m := f.m1.toNat + 1
      let w (x : Nat) : Nat := if (preStages c).any (usesStream x) || (x = 1 && c.source = 2) then f.n1.toNat + 1 else c.rowN
      (if streamRuns c f.last 1 then [(o.x1, streamLen c.x1 m (w 1))] else []) ++
      (if streamRuns c f.last 2 then [(o.x2, streamLen c.x2 m (w 2))] else []) ++
      (if (holdIdx c).isSome then [(c.holdAddr, c.holdLen)] else [])
  | _ => []

/-- T0 ranges an array instruction in flight will write. -/
def opWrites (o : ArrayOp) (chains : List Chain) : List (Nat × Nat) :=
  match o.ins with
  | .ew _ f => if f.dk = 0 then [(o.x1, roundUp (fmtBytes f.tout.toNat (f.len1.toNat + 1)) 32)] else []
  | .chain f =>
    match chains[f.chain.toNat]? with
    | none => []
    | some c =>
      let m := f.m1.toNat + 1
      let w := if (holdIdx c).isSome then c.rowN else f.n1.toNat + 1
      let wxo := if (postStages c).any writesXo then c.rowN else f.n1.toNat + 1
      (if (holdIdx c).isSome && !f.last then [] else [(o.a, mainLen f.layout f.ppair.toNat (mainFmt c) m w)]) ++
      (if c.xo.shape = 0 || ((postStages c).any writesXo && !f.last) then [] else [(o.b, streamLen c.xo m wxo)]) ++
      (if (holdIdx c).isSome then [(c.holdAddr, c.holdLen)] else [])
  | _ => []

/-- Banks an array instruction in flight writes, when it is no MMA (R82). -/
def opBankWrites (o : ArrayOp) : List Nat :=
  match o.ins with
  | .ew _ f => if f.dk = 0 then [] else (List.range (ceilDiv (f.len1.toNat + 1) 1024)).map (fun i => f.d.toNat + i)
  | _ => []

/-- Banks an MMA in flight writes (R81). -/
def opMmaBanks (o : ArrayOp) : List Nat :=
  match o.ins with
  | .mma _ f => (List.range (f.cnt1.toNat + 1)).map (fun i => f.bank.toNat + i)
  | _ => []

/-- Words of the banks that an array instruction reads, as (first word, count) (R79, R127, R140). -/
def opBankWords (o : ArrayOp) (chains : List Chain) : List (Nat × Nat) :=
  match o.ins with
  | .mma true f => [(f.bank.toNat * 1024, (f.m1.toNat + 1) * (f.n1.toNat + 1))]
  | .ew _ f =>
    (if f.s1k = 1 then [(f.s1.toNat * 1024, f.len1.toNat + 1)] else []) ++ (if f.s2k = 1 then [(f.s2.toNat * 1024, f.len1.toNat + 1)] else [])
  | .chain f =>
    (match chains[f.chain.toNat]? with
     | some c => if c.source = 2 then [] else [(f.bank.toNat * 1024, (f.m1.toNat + 1) * (f.n1.toNat + 1))]
     | none => [])
  | _ => []

/-- Words of the banks that an array instruction writes. -/
def opBankResults (o : ArrayOp) : List (Nat × Nat) :=
  match o.ins with
  | .mma _ f => [(f.bank.toNat * 1024, (f.m1.toNat + 1) * (f.n1.toNat + 1))]
  | .ew _ f => if f.dk = 0 then [] else [(f.d.toNat * 1024, f.len1.toNat + 1)]
  | _ => []

/-- Raw errors that stand after the words of these ranges have been written. -/
def rawAfter (ws : List (Nat × Nat)) (raw : List (Nat × RawError)) : List (Nat × RawError) :=
  raw.filter (fun p => !ws.any (fun w => w.1 ≤ p.1 && p.1 < w.1 + w.2))

/-- Banks an array instruction in flight reads. -/
def opBankReads (o : ArrayOp) : List Nat :=
  match o.ins with
  | .ew _ f =>
    let n := ceilDiv (f.len1.toNat + 1) 1024
    (if f.s1k = 1 then (List.range n).map (fun i => f.s1.toNat + i) else []) ++
    (if f.s2k = 1 then (List.range n).map (fun i => f.s2.toNat + i) else [])
  | .chain f => (List.range (f.cnt1.toNat + 1)).map (fun i => f.bank.toNat + i)
  | _ => []

def overlaps (a n b m : Nat) : Bool := a < b + m && b < a + n && 0 < n && 0 < m

/-- Array instructions queued or streaming. -/
def inFlight (k : Core) : List ArrayOp := k.streaming.toList ++ k.queuedOp.toList

def chainsOf (s : State) (r : CoreRef) : List Chain := ((progOf (ctxOf s r.ctx) r.sketch).map (·.chains)).getD []

/-- A write of `n` bytes at `a` touches the A or B region of an array instruction in flight (R90, R136). -/
def heldByReads (s : State) (r : CoreRef) (a n : Nat) : Bool :=
  (inFlight (coreOf s r)).any (fun o => (opReads o (chainsOf s r)).any (fun p => overlaps a n p.1 p.2))

/-- A read of `n` bytes at `a` touches a T0 line that an array instruction in flight will write (R166). -/
def heldByWrites (s : State) (r : CoreRef) (a n : Nat) : Bool :=
  (inFlight (coreOf s r)).any (fun o => (opWrites o (chainsOf s r)).any (fun p => overlaps a n p.1 p.2))

/-- Banks `bs` are still to be written by an element-wise instruction in flight, or by an MMA too when `mma` is set (R81, R82). -/
def banksHeld (k : Core) (mma : Bool) (bs : List Nat) : Bool :=
  (inFlight k).any (fun o => bs.any (fun b => (opBankWrites o).contains b || (mma && (opMmaBanks o).contains b)))

/-! ### Issue -/

/-- The instruction at a PC. -/
def codeAt (s : State) (r : CoreRef) : Option CoreInstr :=
  match progOf (ctxOf s r.ctx) r.sketch with
  | none => none
  | some p => (p.code[(coreOf s r).pc]?).bind decodeCore

/-- The core's context is resident on powered domains (R23) and in its slice, or the core finishes an atomic run (R130, R131); its run goes
on, and the core issues (R111, R331). -/
def coreRuns (s : State) (r : CoreRef) : Bool :=
  let c := ctxOf s r.ctx
  c.state = .runnable && (c.inSlice || (coreOf s r).atom != 0) && c.alloc.all (fun d => mapGet .off s.power.compute d = .on) && c.run.any (fun u => !r.sketch || u.sketch) &&
  (progOf c r.sketch).any (fun p => r.lcore < progCores p) && (coreOf s r).phase = .running

/-- The sequencer of this core fetches this instruction now. -/
def fetches (s : State) (r : CoreRef) (i : CoreInstr) : Bool := coreRuns s r && codeAt s r = some i

/-- The fetch finds the instruction's code word uncorrectable (R305, R310). -/
def fetchBad (s : State) (r : CoreRef) : Bool := !(rawWords 2 (coreOf s r).codeRaw (coreOf s r).pc ((coreOf s r).pc + 1)).isEmpty

/-- The sequencer of this core issues this instruction now. -/
def issues (s : State) (r : CoreRef) (i : CoreInstr) : Bool := fetches s r i && !fetchBad s r

/-! ### T0 as an instruction reads it -/

/-- T0 address ranges with their new bytes that outstanding transfers into T0 will write. -/
abbrev NewLines := List (Nat × List Byte)

/-- Replace by its new contents each 32-byte line that `pick` names (R134: each line reads wholly old or wholly new). -/
def overlayLines (pick : Nat → Bool) (m : Store) (ls : NewLines) : Store :=
  ls.foldl (fun m l =>
    (pieces 32 (l.2.length / 32) l.2).zipIdx.foldl
      (fun m p => if pick (l.1 / 32 + p.2) then storeWrite 32 m (l.1 + 32 * p.2) p.1 else m) m) m

/-- Low bits of a special register as MFS reads it: s0 CORE_DESC (Table 4-21). -/
def coreDesc (s : State) (r : CoreRef) : Word64 :=
  let p := physOf s r
  let spare := (physCore s r).spare
  BitVec.ofNat 64 (p.2 + p.1 * 2 ^ 8 + (5 + p.1 / 10) * 2 ^ 16 + (if spare.isSome then 39 else 38) * 2 ^ 24 +
    spare.getD 0x1F * 2 ^ 32)

/-- s1 ALLOC (Table 4-22). -/
def allocWord (s : State) (r : CoreRef) : Word64 :=
  match progOf (ctxOf s r.ctx) r.sketch with
  | none => 0
  | some p =>
    BitVec.ofNat 64 (r.lcore + progCores p * 2 ^ 16 + r.lcore / p.cores * 2 ^ 32 + p.clusters % 256 * 2 ^ 40 + r.ctx * 2 ^ 48)

/-- CYCLES as a core reads it now: more than it last read in this run, by a free value (Table 4-23, log entry 19). -/
def cyclesNow (s : State) (k : Core) : Nat := k.cycles + 1 + (Config.free64 s.nonce).toNat % 2 ^ 32

/-- SLICE_LEFT: 0 once the slice has ended; before that a free value of at most the cycles of a frame (Table 4-23, log entry 19). -/
def sliceLeft (s : State) (n : Nat) : Nat :=
  if (ctxOf s n).inSlice then (Config.free64 s.nonce).toNat % (s.frame.effPeriod * 2250 + 1) else 0

/-- Special register s`n` (R139). -/
def specialReg (s : State) (r : CoreRef) (n : BitVec 3) : Word64 :=
  let run := (ctxOf s r.ctx).run
  match n.toNat with
  | 0 => coreDesc s r
  | 1 => allocWord s r
  | 2 => s.frame.counter
  | 3 => BitVec.ofNat 64 (sliceLeft s r.ctx)
  | 4 => BitVec.ofNat 64 ((run.map (·.nreq)).getD 0 + (if r.sketch then 512 else 0))
  | 5 => BitVec.ofNat 64 (cyclesNow s (coreOf s r))
  | 6 => (run.map (·.arg0)).getD 0
  | _ => (run.map (·.arg1)).getD 0

end Sys2Proof.Machine
end

