-- ==== Sys2Proof/WellFormed.lean ====
section
/-! DEFINITION. Which commands name units that exist: the numberings of the family. A command that fails its check ends in
`Fault.noSuchUnit` (log entry 1). -/

namespace Sys2Proof

/-- Contexts 1-255 (R318). -/
def wfCtx (n : Nat) : Bool := 1 ≤ n && n ≤ 255

/-- A core of a context: LCORE below the 25 domains x 10 clusters x 100 cores of the part (R2, R139). -/
def wfCore (c : CoreRef) : Bool := wfCtx c.ctx && c.lcore < 25000

/-- A flash channel (R226). -/
def wfCh (n : Nat) : Bool := n < 32

/-- A die of a channel: three packages of sixteen (R240). -/
def wfDie (ch die : Nat) : Bool := wfCh ch && die < 48

/-- A superblock of a die (R241). -/
def wfSuper (ch die super : Nat) : Bool := wfDie ch die && super < 1242

/-- A port pair 0-15 (R344). -/
def wfPair (n : Nat) : Bool := n < 16

/-- A port 0-31. -/
def wfPort (n : Nat) : Bool := n < 32

/-- A reduction tag 0x000-0xFFF (R368). -/
def wfRedTag (n : Nat) : Bool := n < 4096

/-- A supervisor processor 0-7 (R427). -/
def wfSp (n : Nat) : Bool := n < 8

/-- A scrub engine of the family: its group and its unit within it (Table 10-4). -/
def wfEngine (group unit : Nat) : Bool :=
  match group with
  | 0 => unit < 16
  | 1 => unit < 250
  | 2 => unit = 0
  | 3 => unit = 0
  | _ => false

def wfDuty : Duty → Bool
  | .context n => wfCtx n
  | _ => true

def wfSuspender : Suspender → Bool
  | .command sp => wfSp sp
  | .fetch sp _ => wfSp sp

/-- Every unit the command names exists. -/
def Instr.WellFormed : Instr → Bool
  | .powerOn => true
  | .standbyLoss => true
  | .mainLoss => true
  | .mateDeasserted => true
  | .mateHeld => true
  | .perst _ => true
  | .hotReset => true
  | .linkDown => true
  | .startUp _ => true
  | .gessoPassComplete => true
  | .mapRecoveryComplete _ => true
  | .sanitisingEraseComplete => true
  | .configWrite _ => true
  | .hostDmaError _ _ => true
  | .poisonedTlpReceived _ => true
  | .go _ => true
  | .packetAcceptance => true
  | .frameLoRead => true
  | .frameWideRead => true
  | .statusRingEnable _ => true
  | .hbEnableWrite _ => true
  | .bar0RegisterWrite _ _ _ => true
  | .commandRelease => true
  | .identify _ => true
  | .getLog _ => true
  | .setFeatureFrame _ => true
  | .setFeaturePalette _ => true
  | .setFeatureBlockSpace _ => true
  | .setFeatureRing _ => true
  | .setFeatureArbitration _ => true
  | .setFeaturePowerCap _ => true
  | .setFeatureEfficiencyBasis _ => true
  | .getFeature _ => true
  | .fwDownload _ => true
  | .fwCommit _ => true
  | .fwCommitReset _ => true
  | .abortOne _ => true
  | .abortContext _ => true
  | .abortAll _ => true
  | .lifecycle _ => true
  | .attest _ => true
  | .portControlDisable _ => true
  | .portDrainEnd pair => wfPair pair
  | .portControlEnable _ => true
  | .sleepS0 _ => true
  | .sleepS1 _ => true
  | .sleepS2 _ => true
  | .sleepS3 _ => true
  | .sleepEntry => true
  | .s3Reached => true
  | .s2Wake _ => true
  | .domainControlOff _ => true
  | .domainControlOn _ => true
  | .domainPowerUpComplete dom => 5 ≤ dom && dom ≤ 29
  | .ctxCreate _ => true
  | .ctxDestroy _ => true
  | .ctxQuota _ => true
  | .progLoad _ => true
  | .ctxFallback _ => true
  | .objCreate _ => true
  | .objPlace _ => true
  | .objWrite _ => true
  | .objRead _ => true
  | .objPin _ => true
  | .objEvict _ => true
  | .objDelete _ => true
  | .batchSubmit _ => true
  | .batchSubmitPipe _ => true
  | .stepRun _ => true
  | .stepVoid _ => true
  | .blkRead _ => true
  | .blkWrite _ => true
  | .blkTrim _ => true
  | .blkFlush _ => true
  | .scan _ => true
  | .vsearch _ => true
  | .embed _ => true
  | .redOpen _ => true
  | .redClose _ => true
  | .redStatus _ => true
  | .scrubSet _ => true
  | .rawRead _ => true
  | .frameTick _ => true
  | .statusReadbackComplete => true
  | .heartbeatDue => true
  | .framePlanClose => true
  | .deadlineSnapshot => true
  | .reportPoint => true
  | .tickReceived pair _ => wfPair pair
  | .tickLoss => true
  | .sliceStart ctx => wfCtx ctx
  | .sliceEnd ctx _ => wfCtx ctx
  | .swapDomainComplete _ => true
  | .runTimeout ctx => wfCtx ctx
  | .pipeBatchTimeout _ => true
  | .teardownComplete ctx => wfCtx ctx
  | .powerWindowEnd _ => true
  | .powerSample _ => true
  | .thermalFault => true
  | .powerFault => true
  | .firmwareException sp x => wfSp sp && wfDuty x.duty
  | .wdtKick sp _ => wfSp sp
  | .wdtHalfPeriod => true
  | .wdtExpiry => true
  | .efcLock sp _ => wfSp sp
  | .efProgram sp _ _ _ => wfSp sp
  | .efErase sp _ _ => wfSp sp
  | .efSuspend x => wfSuspender x
  | .efResume sp => wfSp sp
  | .efPoison sp _ _ => wfSp sp
  | .efOperationDone _ => true
  | .nop c => wfCore c
  | .halt c => wfCore c
  | .yield c _ => wfCore c
  | .atom c _ => wfCore c
  | .add c _ _ _ => wfCore c
  | .sub c _ _ _ => wfCore c
  | .and c _ _ _ => wfCore c
  | .or c _ _ _ => wfCore c
  | .xor c _ _ _ => wfCore c
  | .shl c _ _ _ => wfCore c
  | .shr c _ _ _ => wfCore c
  | .sra c _ _ _ => wfCore c
  | .mul c _ _ _ => wfCore c
  | .min c _ _ _ => wfCore c
  | .max c _ _ _ => wfCore c
  | .slt c _ _ _ => wfCore c
  | .sltu c _ _ _ => wfCore c
  | .mfs c _ _ => wfCore c
  | .mfa c _ _ => wfCore c
  | .addi c _ _ _ => wfCore c
  | .andi c _ _ _ => wfCore c
  | .ori c _ _ _ => wfCore c
  | .xori c _ _ _ => wfCore c
  | .shli c _ _ _ => wfCore c
  | .shri c _ _ _ => wfCore c
  | .srai c _ _ _ => wfCore c
  | .li c _ _ => wfCore c
  | .lui c _ _ _ => wfCore c
  | .slti c _ _ _ => wfCore c
  | .sltui c _ _ _ => wfCore c
  | .beq c _ _ _ => wfCore c
  | .bne c _ _ _ => wfCore c
  | .blt c _ _ _ => wfCore c
  | .bge c _ _ _ => wfCore c
  | .bltu c _ _ _ => wfCore c
  | .bgeu c _ _ _ => wfCore c
  | .dbnz c _ _ => wfCore c
  | .jmp c _ => wfCore c
  | .call c _ => wfCore c
  | .jr c _ => wfCore c
  | .ret c => wfCore c
  | .ldl c _ _ _ => wfCore c
  | .stl c _ _ _ => wfCore c
  | .seta c _ _ _ => wfCore c
  | .ldma c _ => wfCore c
  | .cdma c _ _ => wfCore c
  | .dmaTransferComplete c _ => wfCore c
  | .waitd c _ _ => wfCore c
  | .preq c _ _ => wfCore c
  | .mma c _ => wfCore c
  | .mmaAcc c _ => wfCore c
  | .arrayResultLanded c _ => wfCore c
  | .elementwiseAdd c _ => wfCore c
  | .elementwiseSub c _ => wfCore c
  | .elementwiseMul c _ => wfCore c
  | .elementwiseMax c _ => wfCore c
  | .elementwiseMin c _ => wfCore c
  | .scale c _ => wfCore c
  | .cvt c _ => wfCore c
  | .chain c _ => wfCore c
  | .fence c => wfCore c
  | .bar c _ => wfCore c
  | .xbar c _ => wfCore c
  | .fset c _ => wfCore c
  | .fclr c _ => wfCore c
  | .fwait c _ => wfCore c
  | .postAccepted ctx lcluster => wfCtx ctx && lcluster < 250
  | .fillRetry ctx => wfCtx ctx
  | .flashReadComplete _ _ => true
  | .flashProgramComplete _ die _ => die < 48
  | .flashEraseComplete ch die super _ => wfSuper ch die super
  | .fold ch die => wfDie ch die
  | .overlayMerge _ => true
  | .garbageCollection ch die => wfDie ch die
  | .wearLevelling ch die => wfDie ch die
  | .refresh ch die super cause => wfSuper ch die super && cause < 3
  | .patrolRead ch die super _ _ => wfSuper ch die super
  | .scrubAccess group unit _ _ _ => wfEngine group unit
  | .granuleRepair _ _ => true
  | .pageScanned slot ch _ => slot < 4 && wfCh ch
  | .queryMergeComplete slot => slot < 4
  | .connectorPresenceChange connector => connector < 8
  | .identityRetry pair => wfPair pair
  | .identityCheckComplete pair _ _ => wfPair pair
  | .easelOpen pair => wfPair pair
  | .linkUp pair _ _ => wfPair pair
  | .linkLeavesUp port => wfPort port
  | .flitReceived port _ => wfPort port
  | .nakReceived port _ => wfPort port
  | .linkFault pair _ => wfPair pair
  | .discover port _ _ => wfPort port
  | .discoveryComplete pair _ _ => wfPair pair
  | .streamConnect pair _ _ => wfPair pair
  | .streamDataReceived ctx _ _ _ _ _ _ _ => wfCtx ctx
  | .streamCompletionReceived c _ => wfCore c
  | .streamTimeout c _ => wfCore c
  | .importRequestReceived port _ _ _ _ => wfPort port
  | .importDataReceived _ _ _ _ _ => true
  | .importTimeout _ _ => true
  | .ready pair _ tag _ _ => wfPair pair && wfRedTag tag
  | .chunkThin c _ => wfCore c
  | .contrib pair _ tag _ _ _ _ => wfPair pair && wfRedTag tag
  | .result pair _ tag _ _ _ _ => wfPair pair && wfRedTag tag
  | .abandon tag _ cause => wfRedTag tag && cause < 16
  | .redDeadline ctx => wfCtx ctx
  | .stepCommit ctx => wfCtx ctx
  | .easelClosed pair => wfPair pair
  | .programEraseSuspend ch die => wfDie ch die
  | .hostDmaComplete _ _ => true
  | .gatherFillComplete _ => true
  | .sleepExitComplete => true
  | .onfiRetraining => true
  | .temperatureHistoryInterval => true
  | .healthCountSave => true
  | .scanUnitDisabledForService ch mode => wfCh ch && mode < 3

end Sys2Proof
end

