-- ==== Sys2Proof/Machine/Ops.lean ====
section
/-! DEFINITION. Shared operations: the unit guard, cluster SRAM, objects and their copies, quotas and eviction, and the
commands' buffers (chapters 7, 14 and 15). -/

namespace Sys2Proof.Machine

/-- Every meaning answers through this guard: the command's unit exists, or the model stops (log entry 1). -/
def unitOp (ok : Bool) (t : State) : Host.Outcome State Fault Refusal :=
  if ok then .next t else .fault .noSuchUnit

/-- Use up one free value. -/
def bump (s : State) : State := { s with nonce := s.nonce + 1 }

/-! ### Cluster SRAM -/

def t1Of (s : State) (n lc : Nat) : Store := (clusterOf s n lc).t1

/-- Write whole 64-byte lines of a context's T1 area on one cluster. -/
def t1Write (n lc a : Nat) (bs : List Byte) (s : State) : State :=
  updCluster n lc (fun c => { c with t1 := storeWrite 64 c.t1 a bs }) s

/-- Clusters of the allocation, by LCLUSTER: the main image's CLUSTERS, or the allocation where no program is loaded. -/
def lclusters (s : State) (n : Nat) : List Nat :=
  List.range (max (((ctxOf s n).prog.map (·.clusters)).getD 0) (allocClusters s n).length)

/-- Do something on every cluster of a context. -/
def onClusters (n : Nat) (f : Nat → State → State) (s : State) : State := (lclusters s n).foldl (fun s lc => f lc s) s

/-- Set or clear a flag of a cluster. -/
def setFlag (n lc flag : Nat) (v : Bool) (s : State) : State :=
  updCluster n lc (fun c => { c with flags := if v then c.flags ||| ((1 : Word32) <<< flag) else c.flags &&& ~~~((1 : Word32) <<< flag) }) s

/-! ### Objects -/

def granuleBytes : Nat := 65536

def objId (ctx name : Nat) : Nat := ctx * 2 ^ 48 + name
def objCtx (id : Nat) : Nat := id / 2 ^ 48
def objName (id : Nat) : Nat := id % 2 ^ 48

def objOf (s : State) (id : Nat) : Option Obj := mapFind id s.objs

def updObj (id : Nat) (f : Obj → Obj) (s : State) : State :=
  match objOf s id with
  | none => s
  | some o => { s with objs := mapPut id (f o) s.objs }

/-- Change every object of a context. -/
def updObjs (n : Nat) (f : Nat → Obj → Obj) (s : State) : State :=
  { s with objs := s.objs.map (fun p => (p.1, if objCtx p.1 = n then f p.1 p.2 else p.2)) }

def objsOf (s : State) (n : Nat) : SMap Obj := s.objs.filter (fun p => objCtx p.1 = n)

/-- The object of slot `i` of a program (R204): none where the slot is dangling. -/
def slotObj (s : State) (p : Program) (i : Nat) : Option Nat :=
  match p.slots[i]? with
  | none => none
  | some id => if (objOf s id).isSome then some id else none

def granules (o : Obj) : Nat := ceilDiv o.size granuleBytes

/-- Bytes of granule `g` of an object. -/
def granuleLen (o : Obj) (g : Nat) : Nat := min granuleBytes (o.size - g * granuleBytes)

/-- Granules a byte range meets: granule, first byte within it, bytes. -/
def segsOf (off len : Nat) : List (Nat × Nat × Nat) :=
  if len = 0 then []
  else
    (List.range ((off + len - 1) / granuleBytes - off / granuleBytes + 1)).map (fun i =>
      let g := off / granuleBytes + i
      let a := max off (g * granuleBytes)
      (g, a - g * granuleBytes, min (off + len) (g * granuleBytes + granuleBytes) - a))

/-- Logical granule address of an object's granule (Table 8-4). -/
def objLga (o : Obj) (g : Nat) : Nat := o.objNo * 2 ^ 24 + g
/-- Logical granule address of a granule of the logical-block space. -/
def blkLga (g : Nat) : Nat := 2 ^ 60 + g

/-! ### Flash contents (chapter 8) -/

def superKey (ch die n : Nat) : Nat := (ch * 48 + die) * 1242 + n
def dieKey (ch die : Nat) : Nat := ch * 48 + die
def superOf (s : State) (ch die n : Nat) : Super := mapGet {} s.flash.supers (superKey ch die n)
def dieOf (s : State) (ch die : Nat) : Die := mapGet {} s.flash.dies (dieKey ch die)

def updSuper (ch die n : Nat) (f : Super → Super) (s : State) : State :=
  { s with flash := { s.flash with supers := mapSet {} (superKey ch die n) (f (superOf s ch die n)) s.flash.supers } }

def updDie (ch die : Nat) (f : Die → Die) (s : State) : State :=
  { s with flash := { s.flash with dies := mapSet {} (dieKey ch die) (f (dieOf s ch die)) s.flash.dies } }

/-- The version programmed at a granule position. -/
def versionAt (s : State) (l : Loc) : Option Version := mapFind l.pos (superOf s l.ch l.die l.super).vers

def mapped (s : State) (lga : Nat) : Bool := (mapFind lga s.flash.map).isSome

/-- Units of a granule that are in the overlay (R252). -/
def overlayUnits (s : State) (lga : Nat) : List (Nat × Loc × Nat) :=
  (List.range 16).filterMap (fun u => (mapFind (lga * 16 + u) s.flash.overlay).map (fun p => (u, p.1, p.2)))

/-- A granule whose MAPPED and OVERLAY are both 0 reads as zeros without a die (R251). -/
def noMedia (s : State) (lga : Nat) : Bool := !mapped s lga && (overlayUnits s lga).isEmpty

/-- The contents of a granule: its base under its overlay units; code words of 4 KiB (R246, R251, R252). -/
def homeRead (s : State) (lga : Nat) : Store :=
  let base : Store := (((mapFind lga s.flash.map).bind (versionAt s)).map (·.data)).getD {}
  (overlayUnits s lga).foldl (fun m p =>
    match versionAt s p.2.1 with
    | none => m
    | some v => storePaste 4096 m (p.1 * 4096) 4096 (storeSub 4096 v.data (p.2.2 * 4096) 4096)) base

/-- The home of a granule holds an uncorrectable codeword (R269). -/
def homeBad (s : State) (lga : Nat) : Bool := !(homeRead s lga).poison.isEmpty

/-! ### T2 copies -/

/-- Every granule written, none poisoned (Table 7-5). -/
def t2Complete (o : Obj) : Bool := o.copy.any (fun c => c.missing.isEmpty && c.data.poison.isEmpty)

/-- The granules of a copy that hold poison. -/
def badGranules (c : T2Copy) : List Nat := (c.data.poison.map (fun p => p / 1024)).dedup

/-- A poisoned granule that cannot be recovered (R123, R311). -/
def unrecoverable (s : State) (o : Obj) (c : T2Copy) (g : Nat) : Bool :=
  c.dirty || o.kind = .scratch || homeBad s (objLga o g)

/-- The copy counts as present for a cluster DMA transfer (R123). -/
def t2Present (s : State) (o : Obj) : Bool :=
  o.copy.any (fun c => c.missing.isEmpty && (badGranules c).all (unrecoverable s o c))

/-- The object is resident in its required tier (R228, Table 7-5). -/
def objResident (o : Obj) : Bool :=
  match o.binding with
  | some b => b.filled
  | none => t2Complete o

/-- Objects the declared sketch path relies on (R232). -/
def sketchSlots (c : Context) : List Nat := (c.sketch.map (·.prog.slots)).getD []

/-- Object read by an outstanding transfer: SRC_KIND 2 under a ticket. -/
def ticketReads (p : Program) (t : Ticket) : List Nat :=
  match t.out with
  | none => []
  | some d => if bitsOf d.w0.toNat 59 56 = 2 then (p.slots[bitsOf d.w0.toNat 55 48]?).toList else []

def coresReading (p : Option Program) (cores : SMap Core) : List Nat :=
  match p with
  | none => []
  | some p => cores.flatMap (fun k => k.2.tickets.flatMap (fun t => ticketReads p t.2))

/-- Objects that outstanding cluster DMA transfers of a context read. -/
def objsReading (c : Context) : List Nat := coresReading c.prog c.cores ++ coresReading (c.sketch.map (·.prog)) c.sketchCores

/-- A copy is held (R221). -/
def heldNow (s : State) (id : Nat) (o : Obj) : Bool :=
  let c := ctxOf s (objCtx id)
  o.held || (objsReading c).contains id || (sketchSlots c).contains id

/-! ### Quotas (R215-R218) -/

def saveArea (c : Context) : Nat := if c.alloc.isEmpty && c.place.isEmpty && !c.saved then 0 else (184 * c.domains + 1) * 1048576

/-- Bytes of T2 charged to a context. -/
def t2Use (s : State) (n : Nat) : Nat :=
  ((objsOf s n).map (fun (p : Nat × Obj) => if p.2.copy.isSome then roundUp p.2.size granuleBytes else 0)).foldl (· + ·) 0 + saveArea (ctxOf s n)

def t2Free (s : State) (n : Nat) : Nat := (ctxOf s n).quotaT2 * 1048576 - t2Use s n

/-- Logical granules that are mapped or in the overlay. -/
def mappedLgas (s : State) : List Nat := (List.append (s.flash.map.map (fun (p : Nat × Loc) => p.1)) (s.flash.overlay.map (fun (p : Nat × Loc × Nat) => p.1 / 16))).dedup

/-- Granules of T3 charged to a context: mapped granules of its PERSISTENT objects. -/
def t3Use (s : State) (n : Nat) : Nat :=
  let nos := ((objsOf s n).filter (fun p => p.2.kind = .persistent)).map (·.2.objNo)
  ((mappedLgas s).filter (fun l => l < 2 ^ 60 && nos.contains (l / 2 ^ 24))).length

def t4Use (s : State) (n : Nat) : Nat :=
  ((objsOf s n).map (fun (p : Nat × Obj) => if p.2.kind = .import_ then ceilDiv p.2.size 1048576 else 0)).foldl (· + ·) 0

/-- User capacity in bytes and in granules, and usable T2 in MiB (R28, Table 0-1). -/
def userBytes (s : State) : Nat := (if isQ96 s then 84 else 168) * 10 ^ 12
def userGranules (s : State) : Nat := userBytes s / granuleBytes
def usableT2 (s : State) : Nat := (if isQ96 s then 376 else 752) * 1024

/-- Drop a T2 copy. -/
def dropCopyOf (id : Nat) (s : State) : State := updObj id (fun o => { o with copy := none, dropCopy := false }) s

/-- Insert before the first element that does not stand before it. -/
def insertBy {α : Type} (before : α → α → Bool) (a : α) : List α → List α
  | [] => [a]
  | b :: l => if before a b then a :: b :: l else b :: insertBy before a l

/-- Sort by a strict order. -/
def sortBy {α : Type} (before : α → α → Bool) (l : List α) : List α := l.foldl (fun r a => insertBy before a r) []

/-- Copies automatic eviction may take, in its order (R222, R223): CLEAN, unpinned, not held, not SCRATCH; a copy a binding is
still filled from stays (R212). -/
def evictable (s : State) (n : Nat) : List (Nat × Obj) :=
  sortBy (fun a b => a.2.lastUse < b.2.lastUse || (a.2.lastUse = b.2.lastUse && a.1 < b.1)) ((objsOf s n).filter (fun p =>
    p.2.kind != .scratch && p.2.pin = 0 && !heldNow s p.1 p.2 && p.2.copy.any (fun c => !c.dirty && (c.missing.isEmpty || !s.inFlight.contains p.1)) &&
    (p.2.dropBinding || p.2.binding.all (·.filled))))

/-- Take copies in order until `need` bytes are free; none if they run out first (R223). -/
def evictPick : Nat → Nat → List (Nat × Obj) → Option (List Nat)
  | free, need, [] => if need ≤ free then some [] else none
  | free, need, p :: l => if need ≤ free then some [] else (evictPick (free + roundUp p.2.size granuleBytes) need l).map (fun r => p.1 :: r)

/-- Make room for `need` bytes of T2 in a context; none where automatic eviction cannot (R223). -/
def makeRoom (n need : Nat) (s : State) : Option State :=
  (evictPick (t2Free s n) need (evictable s n)).map (fun ids =>
    countFor n { evictions := ids.length } (ids.foldl (fun s id => dropCopyOf id s) s))

/-! ### Bytes in rows (R121, R211) -/

/-- Element size of an ELEM code: 1, 2 or 4 bytes. -/
def elemBytes (elem : Nat) : Nat := if elem = 3 then 4 else elem

/-- Rows of a transfer as its destination receives them: element (i, j) goes to (j, i) where ELEM is not 0. -/
def transposeRows (elem : Nat) (rows : List (List Byte)) : List (List Byte) :=
  if elem = 0 then rows
  else
    let e := elemBytes elem
    (List.range ((rows.headD []).length / e)).map (fun j => rows.flatMap (fun r => (r.drop (j * e)).take e))

/-- Length of a piece of a binding: the range, or a STRIPE piece (R211). -/
def pieceLen (len count : Nat) (stripe : Bool) (i : Nat) : Nat :=
  if stripe then
    let full := ceilDiv len (64 * count) * 64
    min full (len - i * full)
  else len

/-- Offset in the object of the piece that goes to cluster FIRST + i. -/
def pieceOff (b : Binding) (i : Nat) : Nat := b.off + (if b.stripe then i * (ceilDiv b.len (64 * b.count) * 64) else 0)

/-- The bytes cluster FIRST + i receives. -/
def pieceBytes (b : Binding) (data : Store) (i : Nat) : List Byte :=
  let n := pieceLen b.len b.count b.stripe i
  let bs := storeRead data (pieceOff b i) n
  if b.elem = 0 then bs else (transposeRows b.elem (pieces b.rowBytes (n / b.rowBytes) bs)).flatten

/-! ### Command buffers (R414) -/

/-- Entries of an entry list, as (address, length). -/
def entriesOf (bs : List Byte) (n : Nat) : List (Nat × Nat) := (pieces 16 n bs).map (fun b => (byteField b 0 8, byteField b 8 4))

/-- Staged bytes of a command: the entry list first where BUF_KIND is 2. -/
def stagedOf (c : Cmd) : List Byte := c.staged.getD []

/-- Input bytes of the buffer, padded with zeros to BUF_LEN. -/
def cmdData (c : Cmd) : List Byte :=
  padTo (pktBufLen c.pkt) ((if pktBufKind c.pkt = 2 then (stagedOf c).drop (16 * pktNent c.pkt) else stagedOf c).take (pktBufLen c.pkt))

/-- The pieces of host memory that make up the buffer. -/
def bufPieces (c : Cmd) : List (Nat × Nat) :=
  if pktBufKind c.pkt = 2 then entriesOf (stagedOf c) (pktNent c.pkt) else [(pktBufAddr c.pkt, pktBufLen c.pkt)]

/-- Host writes of `bs` at offset `off` of a buffer of these pieces. -/
def splitWrite : List (Nat × Nat) → Nat → List Byte → List (Nat × List Byte)
  | [], _, _ => []
  | (a, n) :: l, off, bs =>
    if bs = [] then []
    else if n ≤ off then splitWrite l (off - n) bs
    else (a + off, bs.take (n - off)) :: splitWrite l 0 (bs.drop (n - off))

/-- Write bytes at an offset of a command's buffer. -/
def bufWrite (c : Cmd) (off : Nat) (bs : List Byte) (s : State) : State :=
  (splitWrite (bufPieces c) off bs).foldl (fun s w => hostWrite w.1 w.2 s) s

/-- Errors of an entry list: lengths that do not sum to BUF_LEN offend in the packet and come first (R19), then its bytes (R414). -/
def listErr (c : Cmd) : Option Status :=
  if pktBufKind c.pkt = 2 then
    if ((entriesOf (stagedOf c) (pktNent c.pkt)).map (·.2)).foldl (· + ·) 0 != pktBufLen c.pkt then some (stInvalidField 56 0)
    else
      (firstErr (pieceErrs 0 16 (fun _ b => errIf (byteField b 0 8 % 64 != 0) 0 ++ errIf (byteField b 8 4 % 64 != 0) 8 ++
        errIf (dirty b 12 16) 12) (pieces 16 (pktNent c.pkt) (stagedOf c)))).map (fun o => stInvalidField o 2)
  else none

/-! ### Running a host opcode on its accepted command -/

/-- Host DMA is possible (R394): the function is in D0 with Bus Master Enable set. -/
def dmaReady (s : State) : Bool := s.pcie.bme && !s.pcie.d3hot

/-- The command's unit reads its buffer as input. -/
def readsBuffer (p : PacketBits) : Bool :=
  match pktOpcode p with
  | 0x03 => pktField p 8 1 = 0x11
  | 0x40 => pktField p 12 4 != 0
  | 0x41 => pktField p 16 4 != 0
  | op => [0x05, 0x08, 0x23, 0x24, 0x32, 0x51, 0x60, 0x61, 0x62, 0x70].contains op

/-- The command's input: a buffer its unit reads, or an entry list, has landed in staging (R210, R414). -/
def inputReady (c : Cmd) : Bool :=
  pktBufKind c.pkt = 0 || c.staged.isSome || (pktBufKind c.pkt = 1 && !readsBuffer c.pkt)

/-- The module is in S2. -/
def inS2 (s : State) : Bool := s.host.devState = .sleep && s.host.sleepLevel = 2

/-- The module is in S1. -/
def inS1 (s : State) : Bool := s.host.devState = .sleep && s.host.sleepLevel = 1

/-- Leave S1 (Table 18-3). -/
def leaveS1 (s : State) : State := if inS1 s then { s with host := { s.host with devState := .ready, sleepLevel := 0 } } else s

/-- Start the exit from S2 (R486). -/
def startWake (s : State) : State := if inS2 s then { s with power := { s.power with waking := true } } else s

/-- D3 is powered and its clocks run (Table 18-1). -/
def flashOn (s : State) : Bool := s.power.d3 && !inS2 s

/-- Commands that need a compute domain: runs, queries, a DOMAIN_CONTROL, an OBJ_PLACE that sets a binding, an OBJ_PIN of level 2 (log entry
126). -/
def needsCompute (p : PacketBits) : Bool :=
  let op := pktOpcode p
  [0x0C, 0x40, 0x41, 0x42, 0x60, 0x61, 0x62].contains op || (op = 0x31 && bitOf (pktField p 14 1) 1) || (op = 0x34 && pktField p 14 1 = 2)

/-- Commands whose unit is T2, T3 or a compute domain (R400, R486). -/
def needsMemory (p : PacketBits) : Bool :=
  let op := pktOpcode p
  (0x21 ≤ op && op ≤ 0x24) || (0x30 ≤ op && op ≤ 0x36) || [0x40, 0x41, 0x50, 0x51, 0x52, 0x53, 0x60, 0x61, 0x62, 0x70, 0x79].contains op ||
  (op = 3 && pktField p 8 1 = 0x12) || needsCompute p

/-- The unit of a released command can work now: the map is complete (R277) and the memories are powered (R486). -/
def unitAwake (s : State) (p : PacketBits) : Bool :=
  !needsMemory p || s.host.devState = .ready || (s.host.devState = .sleep && s.host.sleepLevel = 1)

/-- Answer with bytes for the buffer: the writes are issued, and the command completes with `st` when the last has been
(HOST_DMA_COMPLETE). -/
def reply (c : Cmd) (off : Nat) (bs : List Byte) (st : Status) (s : State) : State :=
  bufWrite c off bs (updCmd c.tag (fun d => { d with phase := .finishing, result := some st, moved := d.moved + bs.length }) s)

/-- The command stays with its unit: programs, reads or fills are still to end. -/
def keepRunning (c : Cmd) (left : Nat) (s : State) : State :=
  updCmd c.tag (fun d => { d with phase := .running, left := left }) s

/-- No selector. -/
def anyPkt (_ : PacketBits) : Bool := true

/-- A context named by a command is defined: INVALID_FIELD at offset 2 otherwise (R318, R416). -/
def ctxDefined (s : State) (n : Nat) : Bool := (ctxOf s n).state != .free

end Sys2Proof.Machine
end

