-- ==== Sys2Proof/Machine/Errors.lean ====
section
/-! DEFINITION. Raw errors in code words and what a demand read makes of them (R304, R305, R308): the word is poisoned where its memory
has a poison state, and the event is logged with its requester. -/

namespace Sys2Proof.Machine

/-- SOURCE codes of Table 19-2 that requesters have. -/
def srcCore : Nat := 1
def srcDma : Nat := 2
def srcPrefetch : Nat := 3
def srcReduction : Nat := 11
def srcHost : Nat := 12
def srcFirmware : Nat := 13

/-- Memory of Table 10-1, from 1. -/
def memoryCode (m : CodeMemory) : Nat :=
  match m with
  | .t0 _ => 1
  | .istore _ => 2
  | .banks _ => 3
  | .t1 _ _ => 4
  | .t2 _ => 5
  | .hbm _ => 5
  | .idle _ => 4
  | .staging _ => 5
  | .control => 6
  | .embedded _ => 7

/-- SOURCE of the memory (Table 19-2). -/
def memorySource (m : CodeMemory) : Nat :=
  match m with
  | .t1 _ _ => 5
  | .idle _ => 5
  | .t2 _ => 4
  | .hbm _ => 4
  | .staging _ => 4
  | .control => 6
  | .embedded _ => 7
  | _ => 1

def memoryCtx (m : CodeMemory) : Nat :=
  match m with
  | .t0 c => c.ctx
  | .istore c => c.ctx
  | .banks c => c.ctx
  | .t1 n _ => n
  | .t2 id => objCtx id
  | _ => 0

/-- INSTANCE of Table 19-2: LCORE with its core within the cluster, the cluster, or the stack; an object's words lie in a stack that
the spec does not name (log entry 97). -/
def memoryInst (s : State) (m : CodeMemory) : Nat :=
  let coreInst (c : CoreRef) : Nat := c.lcore % 65536 + (physOf s c).2 * 65536
  match m with
  | .t0 c => coreInst c
  | .istore c => coreInst c
  | .banks c => coreInst c
  | .t1 n lc => (allocClusters s n).getD lc 0
  | .hbm k => k
  | .idle k => k
  | _ => 0

/-- Bytes of a code word. -/
def wordBytes (m : CodeMemory) : Nat :=
  match memoryCode m with
  | 1 => 32
  | 3 => 4
  | 4 => 64
  | 5 => 64
  | _ => 8

/-- Enter an uncorrectable event in the error log: memory, code word address, requester, frame (R308). -/
def logWord (m : CodeMemory) (req w : Nat) (s : State) : State :=
  logEvent (memorySource m) 0 (memoryCode m) (memoryCtx m) (memoryInst s m) (w * wordBytes m) req 0 s

def logWords (m : CodeMemory) (req : Nat) (ws : List Nat) (s : State) : State := ws.foldl (fun s w => logWord m req w s) s

/-- Memory of Table 10-1 that holds code word `w` of a cluster, in the order T1, then T0, banks and instruction store of each core
(log entry 97). -/
def clusterKind (w : Nat) : Nat :=
  if w < 65536 then 4
  else
    let q := (w - 65536) % 10240
    if q < 4096 then 1 else if q < 8192 then 3 else 2

/-- Code that protects a word (Table 10-1). -/
def wordKind (m : CodeMemory) (w : Nat) : Nat :=
  match m with
  | .idle _ => clusterKind w
  | m => memoryCode m

/-- Raw errors of a memory. -/
def rawOf (s : State) (m : CodeMemory) : List (Nat × RawError) :=
  match m with
  | .t0 c => (coreOf s c).t0.raw
  | .istore c => (coreOf s c).codeRaw
  | .banks c => (coreOf s c).bankRaw
  | .t1 n lc => (t1Of s n lc).raw
  | .t2 id => (((objOf s id).bind (·.copy)).map (·.data.raw)).getD []
  | .hbm k => (mapGet {} s.hbmRest k).raw
  | .idle k => (mapGet {} s.idle k).raw
  | .staging tag => ((cmdOf s tag).map (·.home.raw)).getD []
  | .control => s.ctrl.raw
  | .embedded otp => if otp then s.ef.otpRaw else s.ef.raw

/-- Change the raw errors of a memory. -/
def updRaw (m : CodeMemory) (f : List (Nat × RawError) → List (Nat × RawError)) (s : State) : State :=
  match m with
  | .t0 c => updCore c (fun k => { k with t0 := { k.t0 with raw := f k.t0.raw } }) s
  | .istore c => updCore c (fun k => { k with codeRaw := f k.codeRaw }) s
  | .banks c => updCore c (fun k => { k with bankRaw := f k.bankRaw }) s
  | .t1 n lc => updCluster n lc (fun k => { k with t1 := { k.t1 with raw := f k.t1.raw } }) s
  | .t2 id => updObj id (fun o => { o with copy := o.copy.map (fun c => { c with data := { c.data with raw := f c.data.raw } }) }) s
  | .hbm k => { s with hbmRest := mapSet {} k { mapGet {} s.hbmRest k with raw := f (mapGet {} s.hbmRest k).raw } s.hbmRest }
  | .idle k => { s with idle := mapSet {} k { mapGet {} s.idle k with raw := f (mapGet {} s.idle k).raw } s.idle }
  | .staging tag => updCmd tag (fun c => { c with home := { c.home with raw := f c.home.raw } }) s
  | .control => { s with ctrl := { s.ctrl with raw := f s.ctrl.raw } }
  | .embedded otp => { s with ef := if otp then { s.ef with otpRaw := f s.ef.otpRaw } else { s.ef with raw := f s.ef.raw } }

/-- A code word suffers a raw error. -/
def applyUpset (x : Upset) (s : State) : State := updRaw x.mem (rawPut x.word x.err) s

/-- A requester reads `n` bytes of a core's T0. -/
def meetT0 (req : Nat) (c : CoreRef) (a n : Nat) (s : State) : State :=
  let bad := rawBad 1 32 (coreOf s c).t0 a n
  if bad.isEmpty then s else logWords (.t0 c) req bad (updCore c (fun k => { k with t0 := storeMeet bad k.t0 }) s)

/-- A requester reads `n` bytes of a T1 area. -/
def meetT1 (req m lc a n : Nat) (s : State) : State :=
  let bad := rawBad 4 64 (t1Of s m lc) a n
  if bad.isEmpty then s else logWords (.t1 m lc) req bad (updCluster m lc (fun k => { k with t1 := storeMeet bad k.t1 }) s)

/-- A requester reads `n` bytes of an object's T2 copy. -/
def meetT2 (req id a n : Nat) (s : State) : State :=
  let bad := (((objOf s id).bind (·.copy)).map (fun c => rawBad 5 64 c.data a n)).getD []
  if bad.isEmpty then s
  else logWords (.t2 id) req bad (updObj id (fun o => { o with copy := o.copy.map (fun c => { c with data := storeMeet bad c.data }) }) s)

/-- Host DMA reads `n` bytes of a command's staging (R210): the staging as it is then. -/
def meetStaging (c : Cmd) (a n : Nat) : Store := storeMeet (rawBad 5 64 c.home a n) c.home

/-- The words found are entered in the log. -/
def logStaging (c : Cmd) (a n : Nat) (s : State) : State := logWords (.staging c.tag) srcHost (rawBad 5 64 c.home a n) s

/-- A requester finds words uncorrectable that have no poison state: each is entered once (R305, R308). -/
def meetPlain (m : CodeMemory) (req : Nat) (ws : List Nat) (s : State) : State :=
  updRaw m (rawKnown ws) (logWords m req (rawNew ws (rawOf s m)) s)

/-- A processor reads `n` bytes of control SRAM. -/
def meetCtrl (a n : Nat) (s : State) : State :=
  let bad := rawBad 6 8 s.ctrl a n
  if bad.isEmpty then s else logWords .control srcFirmware bad { s with ctrl := storeMeet bad s.ctrl }

/-! ### Scrub engines (R313, R316) -/

/-- Stacks fitted: all sixteen, or 0-3 and 8-11 on the Q96 (R28). -/
def stackFitted (s : State) (k : Nat) : Bool := if isQ96 s then k % 8 < 4 else k < 16

/-- Code words that an engine of a group covers in one pass (Table 10-4): a stack of 48 GiB; a cluster's T1 and the T0, banks and
instruction stores of its 100 cores; the control SRAM; the main array and the OTP row. -/
def engineWords (g : Nat) : Nat :=
  match g with
  | 0 => 805306368
  | 1 => 1089536
  | 2 => 4194304
  | _ => 1049088

/-- Where an engine stands: its next code word and its passes. -/
def engineOf (s : State) (g u : Nat) : Nat × Nat := mapGet (0, 0) (mapGet {} s.scrub g).engines u

def updGroup (g : Nat) (f : ScrubGroup → ScrubGroup) (s : State) : State :=
  { s with scrub := mapSet {} g (f (mapGet {} s.scrub g)) s.scrub }

/-- Engines whose memory is gone start their pass again from the lowest address (R316). -/
def restartEngines (g : Nat) (pick : Nat → Bool) (s : State) : State :=
  updGroup g (fun x => { x with engines := (x.engines.map (fun p => if pick p.1 then (p.1, (0, p.2.2)) else p)).filter (fun p => p.2 != (0, 0)) }) s

end Sys2Proof.Machine
end

