-- ==== Sys2Proof/Machine/Flits.lean ====
section
/-! DEFINITION. The ring ports' link layer (R352, R354-R357): flits and messages as bytes, sequence numbers, credits and the replay buffer, and
which way round a ring a message goes. -/

namespace Sys2Proof.Machine

def pairOf (s : State) (p : Nat) : Pair := mapGet {} s.ring.pairs p
def updPair (p : Nat) (f : Pair → Pair) (s : State) : State :=
  { s with ring := { s.ring with pairs := mapSet {} p (f (pairOf s p)) s.ring.pairs } }

/-- The pair of a port: ports 2p (DN) and 2p + 1 (UP) (R344). -/
def portPair (n : Nat) : Nat := n / 2
def portOf (s : State) (n : Nat) : Port := if n % 2 = 0 then (pairOf s (n / 2)).dn else (pairOf s (n / 2)).up
def updPort (n : Nat) (f : Port → Port) (s : State) : State :=
  updPair (n / 2) (fun p => if n % 2 = 0 then { p with dn := f p.dn } else { p with up := f p.up }) s
/-- The other port of the pair. -/
def farPort (n : Nat) : Nat := if n % 2 = 0 then n + 1 else n - 1
/-- The port of a pair that faces a direction. -/
def sidePort (p : Nat) (dn : Bool) : Nat := if dn then 2 * p else 2 * p + 1

/-! ### Flits as bytes (Table 12-4) -/

/-- The header word. -/
def flitHeader (f : Flit) : Nat :=
  f.typ % 8 + f.vc % 4 * 2 ^ 3 + bit f.poison 5 + bit f.first 6 + bit f.last 7 + f.seq.toNat * 2 ^ 8 + f.ack.toNat * 2 ^ 16 + bit f.nak 24 +
  f.cvc % 4 * 2 ^ 25 + f.cred % 32 * 2 ^ 27

/-- Bytes 0-251 of a flit. -/
def flitBody (f : Flit) : List Byte := leBytes 4 (flitHeader f) ++ padTo 248 (f.payload.take 248)

/-- The 256 bytes of a flit: header, payload, CRC-32C (R354). -/
def flitImage (f : Flit) : List Byte := flitBody f ++ leBytes 4 (crc32c (flitBody f))

/-- A flit as its bytes give it. -/
def flitOf (b : List Byte) : Flit :=
  let h := byteField b 0 4
  { typ := bitsOf h 2 0, vc := bitsOf h 4 3, poison := bitOf h 5, first := bitOf h 6, last := bitOf h 7, seq := BitVec.ofNat 8 (bitsOf h 15 8)
    ack := BitVec.ofNat 8 (bitsOf h 23 16), nak := bitOf h 24, cvc := bitsOf h 26 25, cred := bitsOf h 31 27, payload := (b.drop 4).take 248 }

/-- Its CRC is right. -/
def flitSound (b : List Byte) : Bool := b.length = 256 && byteField b 252 4 = crc32c (b.take 252)

/-- A flit that carries no sequence number and needs no credit: IDLE or TICK (R356). -/
def unnumbered (f : Flit) : Bool := f.typ = 0 || f.typ = 2

/-! ### Messages as flits (R345, R355, R376) -/

/-- The 16 bytes of the message header; the length of a reduction message counts the bytes after its reduction header (R376). -/
def msgHeader (m : RingMsg) : List Byte :=
  leBytes 1 m.dest ++ leBytes 1 m.src ++ leBytes 1 m.kind ++ leBytes 1 m.index ++ leBytes 4 m.offset ++
  leBytes 4 (if m.kind = 4 then m.body.length - 16 else m.body.length) ++ zeros 4

/-- Flits of a message of `L` bytes: ⌈(L + 16) / 248⌉. -/
def msgFlitCount (m : RingMsg) : Nat := ceilDiv (m.body.length + 16) 248

/-- The flits of a message, in order. -/
def msgFlits (m : RingMsg) : List Flit :=
  let k := msgFlitCount m
  (List.range k).map (fun i =>
    { typ := m.typ, vc := m.vc, poison := m.poison, first := i = 0, last := i + 1 = k
      payload := padTo 248 (((msgHeader m ++ m.body).drop (248 * i)).take 248) })

/-! ### Sending (R356, R357) -/

/-- Send one flit now, with the ACK, NAK and credits that are due; a numbered one takes the next SEQ, a credit and a place in the replay
buffer. -/
def putFlit (f : Flit) (p : Port) : Port :=
  let v := ((List.range 4).find? (fun v => p.credDue.getD v 0 != 0)).getD 0
  let c := min 31 (p.credDue.getD v 0)
  let g := { f with ack := BitVec.ofNat 8 p.rxSeq, nak := p.nakDue, cvc := v, cred := c }
  let p := { p with ackDue := false, nakDue := false, credDue := p.credDue.set v (p.credDue.getD v 0 - c) }
  if unnumbered f then { p with out := p.out ++ [g] }
  else
    let g := { g with seq := BitVec.ofNat 8 p.txSeq }
    { p with out := p.out ++ [g], replay := p.replay ++ [g], txSeq := (p.txSeq + 1) % 256
             credits := p.credits.set f.vc (p.credits.getD f.vc 0 - 1) }

/-- The port may send a numbered flit: it holds a credit for its VC, and the replay buffer has room (R356, R357). -/
def maySend (f : Flit) (p : Port) : Bool := p.credits.getD f.vc 0 != 0 && p.replay.length < 64

/-- Send the waiting flits that may go, in order on each VC. -/
def flushPort (p : Port) : Port :=
  p.wait.foldl (fun q f =>
    if q.wait.any (fun g => g.1.vc = f.1.vc) || !maySend f.1 q then { q with wait := q.wait ++ [f] } else putFlit f.1 q) { p with wait := [] }

/-- ACK, NAK or credits are due and no flit has taken them along. -/
def hasDues (p : Port) : Bool := p.ackDue || p.nakDue || p.credDue.any (· != 0)

def idleFlit : Flit := { typ := 0 }

/-- IDLE flits carry what is due (R356). -/
def sendDues : Nat → Port → Port
  | 0, p => p
  | n + 1, p => if hasDues p then sendDues n (putFlit idleFlit p) else p

/-- IDLE flits that the credits of four full buffers need at most. -/
def duesFuel : Nat := 12

/-- Forwarded flits of a VC that wait. -/
def fwdWaiting (p : Port) (v : Nat) : Nat := (p.wait.filter (fun f => f.2 && f.1.vc = v)).length

/-- Send what a port may send. The buffer space of forwarded flits that have left is returned to the neighbour they came from (R356). -/
def flushAt (n : Nat) (s : State) : State :=
  let p := portOf s n
  let q := flushPort p
  let s := updPort n (fun _ => q) s
  updPort (farPort n) (fun x => if x.up then sendDues duesFuel { x with
    credDue := (List.range 4).map (fun v => x.credDue.getD v 0 + (fwdWaiting p v - fwdWaiting q v)) } else x) s

/-- An own message waits behind a forwarded one that is still coming in on its VC. -/
def queueOwn (l : List Flit) (p : Port) : Port :=
  if l.any (fun f => p.open_.contains f.vc) then { p with later := p.later ++ l } else { p with wait := p.wait ++ l.map (fun f => (f, false)) }

/-- A forwarded flit; with the last one of its message the own ones that waited for it follow. -/
def queueFwd (f : Flit) (p : Port) : Port :=
  let w := p.wait ++ [(f, true)]
  if f.last then
    { p with wait := w ++ (p.later.filter (fun g => g.vc = f.vc)).map (fun g => (g, false)), later := p.later.filter (fun g => g.vc != f.vc)
             open_ := setDel f.vc p.open_ }
  else { p with wait := w, open_ := setAdd f.vc p.open_ }

/-- Send a TICK or IDLE flit at once, on a port that is up. -/
def sendNow (n : Nat) (f : Flit) (s : State) : State := updPort n (fun p => if p.up then putFlit f p else p) s

/-! ### Which way round (R352, R375) -/

/-- Position of a member in DN order. -/
def placeIn (l : List Word64) (u : Word64) : Nat := l.idxOf u

/-- Links to a member in the DN direction on a closed ring. -/
def dnDistance (s : State) (p : Nat) (u : Word64) : Nat :=
  let l := (pairOf s p).members.map (·.1)
  (placeIn l u + l.length - placeIn l s.uid) % max 1 l.length

/-- The ring's direction from this module to a member is whole. -/
def reaches (s : State) (p : Nat) (dn : Bool) (u : Word64) : Bool :=
  let x := pairOf s p
  x.members.any (fun m => m.1 = u) && u != s.uid && (portOf s (sidePort p dn)).up &&
  (x.closed || (if dn then placeIn x.line s.uid < placeIn x.line u else placeIn x.line u < placeIn x.line s.uid))

/-- ROUTE SHORTEST: the way with fewer links, DN for a tie, and on a line the direction that is whole. -/
def shortest (s : State) (p : Nat) (u : Word64) : Option Bool :=
  match reaches s p true u, reaches s p false u with
  | true, true => some (2 * dnDistance s p u ≤ (pairOf s p).members.length)
  | true, false => some true
  | false, true => some false
  | false, false => none

/-- The direction of a ROUTE: 0 SHORTEST, 1 DN, 2 UP (Table 12-6). -/
def routeWay (s : State) (p route : Nat) (u : Word64) : Option Bool :=
  if route = 1 then (if reaches s p true u then some true else none)
  else if route = 2 then (if reaches s p false u then some false else none)
  else shortest s p u

/-- Position of a member, as messages name it. -/
def posOf (s : State) (p : Nat) (u : Word64) : Nat := placeIn ((pairOf s p).members.map (·.1)) u

/-! ### Handing a message to a port -/

/-- VC of a message kind: 1 stream, 2 object, 3 reduction (Table 12-4). -/
def kindVc (kind : Nat) : Nat := if kind ≤ 1 then 1 else if kind ≤ 3 then 2 else if kind = 4 then 3 else 0

/-- Send a message by a port that is up and whose pair is not being disabled (R365); any other loses it. -/
def sendRing (m : RingMsg) (s : State) : State :=
  let n := sidePort m.pair m.dn
  if (portOf s n).up && (pairOf s m.pair).draining.isNone then
    flushAt n (updPort n (queueOwn (msgFlits m)) { s with ring := { s.ring with out := s.ring.out ++ [m] } })
  else s

/-- Send to a member by a ROUTE; a message whose way is cut is lost. -/
def sendTo (p route : Nat) (u : Word64) (m : RingMsg) (s : State) : State :=
  match routeWay s p route u with
  | none => s
  | some dn => sendRing { m with pair := p, dn := dn, dest := posOf s p u, src := (pairOf s p).position, vc := if m.typ = 3 then 0 else kindVc m.kind } s

/-! ### Stream connections (R362) -/

/-- Bytes of a message of the CONTROL exchange (log entry 25). -/
def connectBytes (m : ConnectMsg) : List Byte :=
  match m with
  | .ask fc fs n i => leBytes 1 1 ++ leBytes 1 fc ++ leBytes 1 fs ++ leBytes 1 n ++ leBytes 1 i
  | .accept n i w => leBytes 1 2 ++ leBytes 1 n ++ leBytes 1 i ++ leBytes 8 w
  | .refuse n i => leBytes 1 3 ++ leBytes 1 n ++ leBytes 1 i
  | .broken n i => leBytes 1 4 ++ leBytes 1 n ++ leBytes 1 i

/-- Send a CONTROL message to a member (R362). -/
def sendConnect (p : Nat) (u : Word64) (m : ConnectMsg) (s : State) : State :=
  sendTo p 0 u { typ := 3, kind := 0, body := connectBytes m } s

/-- A PROG_LOAD or a teardown breaks the connections of a context's streams: each peer is told (R362). -/
def breakConns (n : Nat) (s : State) : State :=
  let c := ctxOf s n
  let s := (((c.prog.map (·.streams)).getD []).zipIdx.filter (fun e => c.linked.contains e.2 || c.joined.contains e.2)).foldl
    (fun s e => sendConnect e.1.ring e.1.peerUid (.broken e.1.peerContext e.1.peerStream) s) s
  updCtx n (fun c => { c with linked := [], joined := [], windows := [] }) s

end Sys2Proof.Machine
end

