-- ==== Sys2Proof/Machine/Transfers.lean ====
section
/-! DEFINITION. Cluster DMA transfers: the fields of a descriptor, the checks made at issue, what a transfer reads and writes
(R120-R123), and T0 as an instruction sees it while transfers write it (R134). -/

namespace Sys2Proof.Machine

/-! ### Descriptor fields (Table 4-12) -/

def dSrcAddr (d : Desc) : Nat := bitsOf d.w0.toNat 47 0
def dSrcSlot (d : Desc) : Nat := bitsOf d.w0.toNat 55 48
def dSrcKind (d : Desc) : Nat := bitsOf d.w0.toNat 59 56
def dDstKind (d : Desc) : Nat := bitsOf d.w0.toNat 63 60
def dDstAddr (d : Desc) : Nat := bitsOf d.w1.toNat 47 0
def dDstSlot (d : Desc) : Nat := bitsOf d.w1.toNat 55 48
def dRows (d : Desc) : Nat := bitsOf d.w2.toNat 15 0
def dRowBytes (d : Desc) : Nat := bitsOf d.w2.toNat 47 16
def dElem (d : Desc) : Nat := bitsOf d.w2.toNat 49 48
def dSrcStride (d : Desc) : Nat := bitsOf d.w3.toNat 31 0
def dDstStride (d : Desc) : Nat := bitsOf d.w3.toNat 63 32

/-- Bytes a transfer moves. -/
def dLen (d : Desc) : Nat := dRows d * dRowBytes d

/-- Rows at the destination: (count, bytes) (R121). -/
def dDstRows (d : Desc) : Nat × Nat :=
  if dElem d = 0 then (dRows d, dRowBytes d) else (dRowBytes d / elemBytes (dElem d), dRows d * elemBytes (dElem d))

/-- The bucket tag of a contribution (R373). -/
def dTag (d : Desc) : Nat := bitsOf (dDstAddr d) 37 26

/-- One past the last byte of a strided range. -/
def spanEnd (addr rows stride len : Nat) : Nat := addr + (rows - 1) * stride + len

def dSrcEnd (d : Desc) : Nat := spanEnd (dSrcAddr d) (dRows d) (dSrcStride d) (dRowBytes d)
def dDstEnd (d : Desc) : Nat := spanEnd (dDstAddr d) (dDstRows d).1 (dDstStride d) (dDstRows d).2

/-! ### Checks at issue -/

/-- An end of the given kind breaks its alignment or its range (R122, R219). `lo` is the first T1 byte it may touch. -/
def endBad (s : State) (n kind addr stride len stop lo : Nat) : Bool :=
  match kind with
  | 0 => addr % 32 != 0 || stride % 32 != 0 || len % 32 != 0 || 131072 < stop
  | 1 => addr % 64 != 0 || stride % 64 != 0 || len % 64 != 0 || t1Size s n < stop || addr < lo
  | _ => addr % 64 != 0 || stride % 64 != 0 || len % 64 != 0

/-- A row of a T1 destination on LCLUSTER 0 touches the landing window of a running query (R120, R295). -/
def landingHit (s : State) (n : Nat) (d : Desc) : Bool :=
  s.scan.slots.any (fun q => q.2.ctx = n && (List.range (dDstRows d).1).any (fun i =>
    let a := dDstAddr d + i * dDstStride d
    a < q.2.desc.landOff + 131072 && q.2.desc.landOff < a + (dDstRows d).2))

/-- The descriptor breaks R122, R219, R203 or R373: fault DMA_DESCRIPTOR. -/
def descBad (s : State) (r : CoreRef) (p : Program) (d : Desc) : Bool :=
  let sk := dSrcKind d
  let dk := dDstKind d
  let dr := dDstRows d
  2 < sk || 4 < dk || (sk = 0 && dk = 0) || bitsOf d.w1.toNat 63 56 != 0 || bitsOf d.w2.toNat 63 50 != 0 ||
  dRows d = 0 || dRowBytes d = 0 || dRowBytes d % 64 != 0 ||
  (dElem d != 0 && dRows d * elemBytes (dElem d) % 64 != 0) ||
  (sk != 2 && dSrcSlot d != 0) || (dk != 2 && dk != 3 && dDstSlot d != 0) ||
  endBad s r.ctx sk (dSrcAddr d) (dSrcStride d) (dRowBytes d) (dSrcEnd d) 0 ||
  (dk ≤ 2 && endBad s r.ctx dk (dDstAddr d) (dDstStride d) dr.2 (dDstEnd d) 128) ||
  (dk = 1 && lclusterOf s r = 0 && landingHit s r.ctx d) ||
  (sk = 2 && p.slots.length ≤ dSrcSlot d) || (dk = 2 && p.slots.length ≤ dDstSlot d) ||
  (dk = 2 && ((slotObj s p (dDstSlot d)).bind (objOf s)).any (fun o => o.kind = .import_)) ||
  (dk = 3 && (p.streams.length ≤ dDstSlot d || dDstAddr d % 64 != 0)) ||
  (dk = 4 && (!p.reduction || dDstAddr d % 4096 != 0 || 2 ^ 38 ≤ dDstAddr d || dElem d != 0 ||
    (dLen d % 4096 != 0 && bitsOf (dDstAddr d) 25 0 + dLen d != (mapGet {} s.red.tags (dTag d)).nelem)))

/-- A T2 end lies outside its object. -/
def boundBad (s : State) (p : Program) (d : Desc) : Bool :=
  (dSrcKind d = 2 && ((slotObj s p (dSrcSlot d)).bind (objOf s)).any (fun o => o.size < dSrcEnd d)) ||
  (dDstKind d = 2 && ((slotObj s p (dDstSlot d)).bind (objOf s)).any (fun o => o.size < dDstEnd d))

/-- A slot of a T2 end is dangling. -/
def slotBad (s : State) (p : Program) (d : Desc) : Bool :=
  (dSrcKind d = 2 && (slotObj s p (dSrcSlot d)).isNone) || (dDstKind d = 2 && (slotObj s p (dDstSlot d)).isNone)

/-- A T2 end has no present copy: the ticket completes ABSENT (R123). -/
def endAbsent (s : State) (p : Program) (d : Desc) : Bool :=
  (dSrcKind d = 2 && !((slotObj s p (dSrcSlot d)).bind (objOf s)).any (t2Present s)) ||
  (dDstKind d = 2 && !((slotObj s p (dDstSlot d)).bind (objOf s)).any (t2Present s))

/-! ### Moving data -/

/-- The memory a source end reads, with the width of its code words. -/
def srcMem (s : State) (r : CoreRef) (p : Program) (d : Desc) : Nat × Store :=
  match dSrcKind d with
  | 0 => (32, (coreOf s r).t0)
  | 1 => (64, t1Of s r.ctx (lclusterOf s r))
  | _ => (64, ((((slotObj s p (dSrcSlot d)).bind (objOf s)).bind (·.copy)).map (·.data)).getD {})

/-- Source rows. -/
def srcRows (s : State) (r : CoreRef) (p : Program) (d : Desc) : List (List Byte) :=
  (List.range (dRows d)).map (fun i => storeRead (srcMem s r p d).2 (dSrcAddr d + i * dSrcStride d) (dRowBytes d))

/-- A source row meets a poisoned code word. -/
def srcPoison (s : State) (r : CoreRef) (p : Program) (d : Desc) : Bool :=
  (List.range (dRows d)).any (fun i => storeHit (srcMem s r p d).1 (srcMem s r p d).2 (dSrcAddr d + i * dSrcStride d) (dRowBytes d))

/-- Destination rows as (address, bytes); kinds 3 and 4 receive one contiguous range. -/
def dstRows (s : State) (r : CoreRef) (p : Program) (d : Desc) : NewLines :=
  let rows := transposeRows (dElem d) (srcRows s r p d)
  if 3 ≤ dDstKind d then [(dDstAddr d, rows.flatten)]
  else (rows.zipIdx).map (fun q => (dDstAddr d + q.2 * dDstStride d, q.1))

/-- Which bytes of the source rows come from poisoned code words: 1 marks one. -/
def srcFlags (s : State) (r : CoreRef) (p : Program) (d : Desc) : List (List Byte) :=
  let m := srcMem s r p d
  (List.range (dRows d)).map (fun i =>
    let a := dSrcAddr d + i * dSrcStride d
    if storeHit m.1 m.2 a (dRowBytes d) then (List.range (dRowBytes d)).map (fun j => if storeHit m.1 m.2 (a + j) 1 then 1 else 0)
    else zeros (dRowBytes d))

/-- Bytes of a line at the destination. -/
def lineWidth (d : Desc) : Nat := if dDstKind d = 0 then 32 else 64

/-- A line that a transfer writes: address, bytes, and whether a byte of it comes from a poisoned code word. -/
structure XferLine where
  addr : Nat
  data : List Byte
  bad : Bool

/-- The lines a transfer writes, in order. -/
def dstLines (s : State) (r : CoreRef) (p : Program) (d : Desc) : List XferLine :=
  let flags := transposeRows (dElem d) (srcFlags s r p d)
  let fs := if 3 ≤ dDstKind d then [flags.flatten] else flags
  let w := lineWidth d
  ((dstRows s r p d).zip fs).flatMap (fun q =>
    (List.range (ceilDiv q.1.2.length w)).map (fun i =>
      { addr := q.1.1 + i * w, data := (q.1.2.drop (i * w)).take w, bad := ((q.2.drop (i * w)).take w).any (· != 0) }))

/-- Lines of a transfer that are still to be moved. -/
def linesLeft (s : State) (r : CoreRef) (p : Program) (d : Desc) (t : Ticket) : List XferLine := (dstLines s r p d).drop t.lines

/-- The lines that land before the transfer meets poison (R137). -/
def goodLines (ls : List XferLine) : NewLines := (ls.takeWhile (fun l => !l.bad)).map (fun l => (l.addr, l.data))

/-- Write rows into a memory with code words of `w` bytes. -/
def writeLinesAt (w : Nat) (m : Store) (ls : NewLines) : Store := ls.foldl (fun m l => storeWrite w m l.1 l.2) m

/-- Tickets of a core with an outstanding transfer into T0. -/
def writingT0 (k : Core) : List Nat := (k.tickets.filter (fun t => t.2.out.any (fun d => dDstKind d = 0))).map (·.1)

/-- T0 lines that the outstanding transfers of the tickets `pick` names will write, with their new bytes. -/
def incoming (s : State) (r : CoreRef) (pick : Nat → Bool) : NewLines :=
  match progOf (ctxOf s r.ctx) r.sketch with
  | none => []
  | some p =>
    (coreOf s r).tickets.flatMap (fun t =>
      match t.2.out with
      | some d => if dDstKind d = 0 && pick t.1 then goodLines (linesLeft s r p d t.2) else []
      | none => [])

/-- T0 as a reader finds it: each line that one of these transfers writes reads old or new (R134, log entry 2). -/
def t0Through (s : State) (r : CoreRef) (pick : Nat → Bool) : Store :=
  overlayLines (fun i => Config.freeBool (s.nonce * 4096 + i)) (coreOf s r).t0 (incoming s r pick)

/-- T0 as an instruction reads it now. -/
def t0View (s : State) (r : CoreRef) : Store := t0Through s r (fun _ => true)

/-- T0 as an array instruction reads its operands: a transfer that started after its issue wrote none of their lines (R90). -/
def t0ViewOp (s : State) (r : CoreRef) (o : ArrayOp) : Store := t0Through s r (fun t => o.before.contains t)

/-- The transfer reads its source: uncorrectable words of it become poison (R308). -/
def meetSource (r : CoreRef) (p : Program) (d : Desc) (s : State) : State :=
  (List.range (dRows d)).foldl (fun s i =>
    let a := dSrcAddr d + i * dSrcStride d
    match dSrcKind d with
    | 0 => meetT0 srcDma r a (dRowBytes d) s
    | 1 => meetT1 srcDma r.ctx (lclusterOf s r) a (dRowBytes d) s
    | _ =>
      match slotObj s p (dSrcSlot d) with
      | some id => meetT2 srcDma id a (dRowBytes d) s
      | none => s) s

/-- The first poisoned source address of a transfer. -/
def srcHitAt (s : State) (r : CoreRef) (p : Program) (d : Desc) : Nat :=
  let m := srcMem s r p d
  (((List.range (dRows d)).filter (fun i => storeHit m.1 m.2 (dSrcAddr d + i * dSrcStride d) (dRowBytes d))).map
    (fun i => hitAt m.1 m.2 (dSrcAddr d + i * dSrcStride d) (dRowBytes d))).headD 0

/-- Write a memory's line in the poison state (R309). -/
def poisonLine (w : Nat) (m : Store) (ls : List XferLine) : Store :=
  match ls.find? (·.bad) with
  | some l => storePoison w m l.addr l.data.length
  | none => m

end Sys2Proof.Machine
end

