-- ==== Sys2Proof/Machine/Faults.lean ====
section
/-! DEFINITION. What ends work early: failed buckets and void steps (R383, R389), the end of a run, array results landing, and the
context fault with its teardown (R340). -/

namespace Sys2Proof.Machine

/-! ### Reduction messages (Tables 13-4, 13-5) -/

/-- The 16-byte reduction header. -/
def redHeader (rtype gen cause tag chunk nent pcrc : Nat) : List Byte :=
  leBytes 1 rtype ++ leBytes 1 (gen % 16 + cause % 16 * 16) ++ leBytes 2 (tag % 4096) ++ leBytes 4 chunk ++ leBytes 2 nent ++
  zeros 2 ++ leBytes 4 pcrc

def tagOf (s : State) (t : Nat) : RedTag := mapGet {} s.red.tags t
def updTag (t : Nat) (f : RedTag → RedTag) (s : State) : State :=
  { s with red := { s.red with tags := mapSet {} t (f (tagOf s t)) s.red.tags } }

/-- Send a reduction message of a tag to the participants in `dests`, each on its shortest way (R375, R376). -/
def sendRed (t : Nat) (dests : List Word64) (body : List Byte) (s : State) : State :=
  dests.foldl (fun s u => sendTo (tagOf s t).ring 0 u { kind := 4, body := body } s) s

/-- Every participant but this module. -/
def otherParts (s : State) (k : RedTag) : List Word64 := k.parts.filter (· != s.uid)

def isOpenTag (k : RedTag) : Bool := k.state = .open_ || k.state = .armed

/-! ### Tickets -/

/-- End the outstanding transfers that `pick` selects with a result (1 ABSENT, 2 CANCELLED). -/
def endTickets (pick : Desc → Bool) (res : Nat) (k : Core) : Core :=
  { k with tickets := mapVals (fun t => if t.out.any pick then { out := none, result := res } else t) k.tickets }

/-- End transfers of every core of a context's main and sketch runs. -/
def endCtxTickets (n : Nat) (pick : Desc → Bool) (res : Nat) (s : State) : State :=
  updCtx n (fun c => { c with cores := mapVals (endTickets pick res) c.cores, sketchCores := mapVals (endTickets pick res) c.sketchCores }) s

/-! ### Buckets and steps -/

/-- Enter a bucket failure in the error log (R497). -/
def logBucket (t cause : Nat) (s : State) : State := logEvent 11 1 cause (tagOf s t).ctx t 0 0 0 s

/-- A bucket that is OPEN or ARMED fails; contributions it still holds complete CANCELLED (R373). -/
def failTag (t cause : Nat) (s : State) : State :=
  if isOpenTag (tagOf s t) then
    logBucket t cause (endCtxTickets (tagOf s t).ctx (fun d => dDstKind d = 4 && dTag d = t) 2
      (updTag t (fun k => { k with state := .failed, cause := cause }) s))
  else s

/-- The step line of Table 13-7. -/
def stepLine (parity : Bool) (st : Step) : List Byte :=
  padTo 64 (leBytes 4 st.step ++
    leBytes 1 (match st.outcome with
      | .pending => 0
      | .reduced => 1
      | .void => 2) ++
    leBytes 1 (if parity then 1 else 0) ++ leBytes 2 st.tags.length ++ leBytes 2 st.nFailed ++ leBytes 2 st.failedTag ++
    leBytes 1 st.cause)

/-- A step in progress, by the tag of its STEP_RUN. -/
def stepOf (s : State) (n tag : Nat) : Option Step := (ctxOf s n).steps.find? (fun x => x.tag = tag)

/-- Store a step under the tag of its STEP_RUN. -/
def putStep (n : Nat) (st : Step) (s : State) : State :=
  updCtx n (fun c => { c with steps := c.steps.map (fun x => if x.tag = st.tag then st else x) }) s

/-- Write a step's line on every cluster and set or clear F30 (R381-R383). Where two steps are in progress the line is the one last written
(log entry 52). -/
def writeStep (n : Nat) (st : Step) (f30 : Bool) (s : State) : State :=
  onClusters n (fun lc s => setFlag n lc 30 f30 (t1Write n lc 64 (stepLine (ctxOf s n).parity st) s)) s

/-- A bucket of a void step fails and sends ABANDON with its cause to every participant (R383). -/
def abandonTag (t cause : Nat) (s : State) : State :=
  let s := failTag t cause s
  let k := tagOf s t
  sendRed t (otherParts s k) (redHeader 3 k.gen k.cause t 0 0 0) s

/-- A step becomes void: buckets that are not DONE fail, OUTCOME 2, F30 (R383). -/
def voidStep (n cause : Nat) (st : Step) (s : State) : State :=
  let rest := st.tags.filter (fun t => !st.doneTags.contains t)
  let first := ((st.tags.filter (fun t => (tagOf s t).state = .failed)).head?).getD (rest.headD 0xFFFF)
  let s1 := rest.foldl (fun s t => abandonTag t cause s) s
  let st1 := { st with outcome := .void, nFailed := rest.length, failedTag := if st.failedTag = 0xFFFF then first else st.failedTag
                       cause := if first = 0xFFFF then cause else (tagOf s1 first).cause }
  writeStep n st1 true (putStep n st1 s1)

/-! ### Flash work that has not started -/

/-- Drop the programs that `pick` selects and no die holds yet. -/
def dropPrograms (pick : ProgOp → Bool) (s : State) : State :=
  { s with flash := { s.flash with progQ := s.flash.progQ.filter (fun p => !(pick p) || p.on.isSome) } }

/-- Drop the reads that `pick` selects. -/
def dropReads (pick : ReadOp → Bool) (s : State) : State :=
  { s with flash := { s.flash with readQ := s.flash.readQ.filter (fun r => !pick r) } }

/-- A read or an import request still serves this object. -/
def objBusy (s : State) (id : Nat) : Bool :=
  s.flash.readQ.any (fun r => match r.why with
    | .fill o _ _ => o = id
    | _ => false) || s.ring.imports.any (fun i => i.obj = id && i.tag = 0)

/-- Forget objects whose reads have all ended or been dropped (R224). -/
def pruneFlight (s : State) : State := { s with inFlight := s.inFlight.filter (objBusy s) }

/-- Drop the posts of a context: reads for them that have not started go, the holds end (R227, R340). -/
def dropPosts (n : Nat) (s : State) : State :=
  pruneFlight (updObjs n (fun _ o => { o with held := false, posted := false, posts := 0, started := false })
    (dropReads (fun r => !r.started && (match r.why with
      | .fill o _ post => post && objCtx o = n
      | _ => false)) { (updCtx n (fun c => { c with needs := [], clusters := mapVals (fun k => { k with posts := [] }) c.clusters }) s) with
        ring := { s.ring with imports := s.ring.imports.filter (fun i => !(i.post && i.tag = 0 && i.sent = 0 && objCtx i.obj = n)) } }))

/-! ### Lines of a transfer -/

/-- The stream of a DST_KIND 3 transfer. -/
def streamOf (p : Program) (d : Desc) : Option StreamEntry := p.streams[dDstSlot d]?

/-- MARK and seed of a run as stream messages carry them (log entry 99). -/
def markBytes (mark : Mask) (seed : Word64) : List Byte := leBytes 32 mark.toNat ++ leBytes 8 seed.toNat

/-- The SEND stream hands bytes to the ring by its ROUTE; the last ones of a transfer bring the run's MARK and seed as they stand (R352, R362,
R363, log entry 99). -/
def sendStream (s : State) (c : CoreRef) (p : Program) (d : Desc) (off : Nat) (body : List Byte) (last : Bool) (t : State) : State :=
  match streamOf p d with
  | none => t
  | some e =>
    let u := (ctxOf s c.ctx).run
    let tail := if last then markBytes ((u.map (fun u => u.mark ||| u.masks)).getD 0) ((u.map (·.seed)).getD 0) else []
    sendTo e.ring e.route e.peerUid { kind := 0, index := e.peerStream, offset := dDstAddr d + off, body := body ++ tail } t

/-- Write lines of a transfer to its destination; a T2 copy becomes DIRTY (R206). -/
def landRows (c : CoreRef) (p : Program) (d : Desc) (ls : NewLines) (s : State) : State :=
  match dDstKind d with
  | 0 => updCore c (fun k => { k with t0 := writeLinesAt 32 k.t0 ls }) s
  | 1 => updCluster c.ctx (lclusterOf s c) (fun k => { k with t1 := writeLinesAt 64 k.t1 ls }) s
  | _ =>
    match slotObj s p (dDstSlot d) with
    | none => s
    | some id => updObj id (fun o => { o with copy := o.copy.map (fun m => { m with data := writeLinesAt 64 m.data ls, dirty := true }) }) s

/-- The line that stops the transfer is written in the poison state (R309). -/
def landPoison (c : CoreRef) (p : Program) (d : Desc) (ls : List XferLine) (s : State) : State :=
  match dDstKind d with
  | 0 => updCore c (fun k => { k with t0 := poisonLine 32 k.t0 ls }) s
  | 1 => updCluster c.ctx (lclusterOf s c) (fun k => { k with t1 := poisonLine 64 k.t1 ls }) s
  | _ =>
    match slotObj s p (dDstSlot d) with
    | none => s
    | some id => updObj id (fun o => { o with copy := o.copy.map (fun m => { m with data := poisonLine 64 m.data ls }) }) s

/-- A line is held: an array instruction in flight still reads it (R90). -/
def lineHeld (s : State) (c : CoreRef) (d : Desc) (l : Nat × List Byte) : Bool := dDstKind d = 0 && heldByReads s c l.1 l.2.length

/-- Lines that land before the transfer meets poison or a held line. -/
def freeLines (s : State) (c : CoreRef) (d : Desc) (ls : List XferLine) : NewLines := (goodLines ls).takeWhile (fun l => !lineHeld s c d l)

def setTicket (t : Nat) (v : Ticket) (k : Core) : Core := { k with tickets := mapSet {} t v k.tickets }

/-- The transfer moves these lines. -/
def moveLines (c : CoreRef) (t : Nat) (p : Program) (d : Desc) (ls : NewLines) (last : Bool) (s : State) : State :=
  let done := (mapGet {} (coreOf s c).tickets t).lines
  let s1 := updCore c (fun k => setTicket t { mapGet {} k.tickets t with lines := done + ls.length } k) s
  if dDstKind d = 3 then sendStream s c p d (done * 64) ((ls.map (·.2)).flatten) last s1 else landRows c p d ls s1

/-- A transfer pauses, or is cancelled, at a line boundary: the lines before it stand (R132, R134). How many they are is a free value
(log entry 2). A contribution has handed over that many bytes of its next chunk. -/
def pauseTransfer (c : CoreRef) (t : Nat) (s : State) : State :=
  match progOf (ctxOf s c.ctx) c.sketch, (mapGet {} (coreOf s c).tickets t).out with
  | some p, some d =>
    let tk := mapGet {} (coreOf s c).tickets t
    let r := (Config.free64 s.nonce).toNat
    if dDstKind d = 4 then
      let o := tk.chunks * 4096 + tk.part.length
      let n := r % max 1 (ceilDiv (min (dLen d) (tk.chunks * 4096 + 4096) - o) 64) * 64
      let bs := (((srcRows s c p d).flatten).drop o).take n
      if srcPoison s c p d then bump s else bump (updCore c (fun k => setTicket t { tk with part := tk.part ++ bs } k) s)
    else
      let ls := freeLines s c d (linesLeft s c p d tk)
      bump (moveLines c t p d (ls.take (r % (max 1 (linesLeft s c p d tk).length))) false s)
  | _, _ => s

/-- Every outstanding transfer of a core pauses. -/
def pauseCore (c : CoreRef) (s : State) : State :=
  (((coreOf s c).tickets.filter (fun t => t.2.out.isSome)).map (·.1)).foldl (fun s t => pauseTransfer c t s) s

/-- Every outstanding transfer of a context pauses. -/
def pauseCtx (n : Nat) (s : State) : State :=
  let refs (sk : Bool) (m : SMap Core) : List CoreRef :=
    (m.filter (fun k => k.2.tickets.any (fun t => t.2.out.isSome))).map (fun k => { ctx := n, sketch := sk, lcore := k.1 })
  (refs false (ctxOf s n).cores ++ refs true (ctxOf s n).sketchCores).foldl (fun s c => pauseCore c s) s

/-- The slice of a context ends: its transfers pause, and its cores stop at their next preemption point (R130, R132). -/
def leaveSlice (n : Nat) (s : State) : State :=
  if (ctxOf s n).inSlice then updCtx n (fun c => { c with inSlice := false }) (pauseCtx n s) else s

/-! ### Context fault (R340) -/

/-- A read for one of these queries. -/
def readsQuery (tags : List Nat) (r : ReadOp) : Bool :=
  match r.why with
  | .query tag _ => tags.contains tag
  | _ => false

/-- Free the slots of queries, with their reads. -/
def dropQueries (pick : Query → Bool) (s : State) : State :=
  let tags := (s.scan.slots.filter (fun q => pick q.2)).map (fun (q : Nat × Query) => q.2.tag)
  dropReads (readsQuery tags) { s with scan := { s.scan with slots := s.scan.slots.filter (fun q => !pick q.2) } }

/-- The state a context keeps through a teardown: its parameters, quotas and statistics; its palette, programs, cores, clusters,
run and streams go (R340 steps 1-5, R341). -/
def wipedCtx (c : Context) : Context :=
  { state := c.state, cls := c.cls, domains := c.domains, slicePct := c.slicePct, waitFrames := c.waitFrames
    runFrames := c.runFrames, quotaT1 := c.quotaT1, lowerT1 := c.lowerT1, quotaT2 := c.quotaT2, quotaT3 := c.quotaT3, quotaT4 := c.quotaT4
    alloc := c.alloc, wiping := true, parity := c.parity, lastStep := c.lastStep, stats := c.stats }

/-- SCRATCH objects and T1 bindings of a context go. -/
def dropScratch (n : Nat) (s : State) : State :=
  let nos := ((objsOf s n).filter (fun p => p.2.kind = .scratch)).map (fun (p : Nat × Obj) => p.2.objNo)
  updObjs n (fun _ o => { o with binding := none, dropBinding := false, dropCopy := false, deleting := none, evict := none
                                 fillTags := [], waiting := false })
    { s with
      objs := s.objs.filter (fun p => !(objCtx p.1 = n && p.2.kind = .scratch))
      flash := { s.flash with objNos := s.flash.objNos.filter (fun k => !nos.contains k) } }

/-- Commands that a context fault ends: every command of the context but CTX_DESTROY and ABORT. -/
def faultEnds (n : Nat) (c : Cmd) : Bool := pktCtx c.pkt = n && pktOpcode c.pkt != 0x21 && pktOpcode c.pkt != 0x07

/-- The result of a batch that a fault ends: every request is FAULTED (Table 7-7), where the batch has its buffer (R414, log entry 112). -/
def faultedResult (c : Cmd) : List (Nat × List Byte) :=
  if pktOpcode c.pkt = 0x40 && inputReady c && (listErr c).isNone then
    splitWrite (bufPieces c) (pktField c.pkt 16 4) (padTo 256 (List.replicate (pktField c.pkt 8 2) 3))
  else []

/-- End a command with CONTEXT_FAULT. -/
def faultCmd (cause r1 : Nat) (c : Cmd) (s : State) : State := completeWith c.tag (stContextFault cause r1) (faultedResult c) s

/-- The whole of steps 1-7 of R340 but the time they take: the context is in TEARDOWN, its records wait for the next frame
boundary, its save area waits for the swap engine. -/
def contextFault (n cause r1 : Nat) (s : State) : State :=
  if (ctxOf s n).state = .free then s
  else
    let s := breakConns n (pauseCtx n s)
    let s := (ctxOf s n).steps.foldl (fun s st => voidStep n 11 st s) s
    let s := dropPosts n s
    let s := dropPrograms (fun p => p.ctx = n && p.tag != 0 && (cmdOf s p.tag).any (faultEnds n)) s
    let s := dropQueries (fun q => q.ctx = n) s
    let s := dropScratch n s
    let s := (s.host.cmds.filter (faultEnds n)).foldl (fun s c => faultCmd cause r1 c s) s
    let s := updCtx n (fun c => { wipedCtx c with state := if c.state = .destroying then .destroying
                                                   else if isResident c then .teardown else c.state }) s
    { s with swaps := s.swaps.filter (fun o => o.ctx != n) ++ [{ ctx := n, domain := 0, swapIn := false, wipe := true }] }

/-- A program fault of a core (R137, R138): entered in the error log, then the context fault. Teardown halts every other core with it, so
commands that reach the block later are no second fault of that context (log entry 120). -/
def coreFault (r : CoreRef) (cause addr : Nat) (s : State) : State :=
  let pc := (coreOf s r).pc
  contextFault r.ctx cause (r.lcore % 65536 + pc % 2048 * 65536)
    (logEvent 1 2 cause r.ctx (r.lcore % 65536 + (physOf s r).2 * 65536) addr pc 0 s)

/-! ### Array results -/

/-- Run the streaming array instruction on a core: its results land at once. -/
def computeOp (s : State) (r : CoreRef) (o : ArrayOp) (a : Arr) : Arr :=
  match o.ins with
  | .mma acc f => runMma acc f o.a o.b a
  | .ew op f => runEw op f o.a o.b o.x1 o.konst a
  | .chain f =>
    match (chainsOf s r)[f.chain.toNat]? with
    | some c => runChain c f.chain.toNat f { go := o.a, x1 := o.x1, x2 := o.x2, xo := o.b } a
    | none => a
  | _ => a

/-- What the array works on. -/
def arrOf (s : State) (r : CoreRef) (o : ArrayOp) : Arr :=
  let k := coreOf s r
  { view := t0ViewOp s r o, t0 := k.t0, banks := k.banks, fpTags := k.fpTags, acc := { rng := k.rng, pal := (ctxOf s r.ctx).palette } }

/-- The streaming instruction reads its operands: uncorrectable words of T0 become poison (R308). -/
def meetOp (r : CoreRef) (o : ArrayOp) (s : State) : State :=
  (opReads o (chainsOf s r)).foldl (fun s p => meetT0 srcCore r p.1 p.2 s) s

/-- Addresses of the poisoned T0 code words that the streaming instruction consumes (R308, R310). -/
def opPoison (s : State) (r : CoreRef) (o : ArrayOp) : List Nat :=
  ((opReads o (chainsOf s r)).filter (fun p => storeHit 32 (t0ViewOp s r o) p.1 p.2)).map (fun p => hitAt 32 (t0ViewOp s r o) p.1 p.2)

/-- Bank words that the streaming instruction reads and finds uncorrectable (R305). -/
def opBankBad (s : State) (r : CoreRef) (o : ArrayOp) : List Nat :=
  (opBankWords o (chainsOf s r)).flatMap (fun w => rawWords 3 (coreOf s r).bankRaw w.1 (w.1 + w.2))

/-- A queued array instruction of the context may start: its slice runs, and the duty is not 0 (R89, R479). -/
def arrayGoes (s : State) (n : Nat) : Bool := (ctxOf s n).inSlice && s.power.duty != 0

/-- Results of the streaming instruction land: banks, T0, generator, palette records and counts; the queued one follows (R80, R88),
unless the slice has ended and withdrawn it (R89). -/
def landOp (s : State) (r : CoreRef) (o : ArrayOp) : State :=
  let a := computeOp s r o (arrOf s r o)
  countFor r.ctx { saturated := a.acc.sat, nanQuant := a.acc.nan, constCh := a.acc.const }
    (updCtx r.ctx (fun c => { c with palette := a.acc.pal })
      (updCore r (fun k => { k with t0 := a.t0, banks := a.banks, fpTags := a.fpTags, rng := a.acc.rng, bankRaw := rawAfter (opBankResults o) k.bankRaw
                                    streaming := if arrayGoes s r.ctx then k.queuedOp else none
                                    queuedOp := if arrayGoes s r.ctx then none else k.queuedOp }) (bump s)))

/-- The array instruction that streams on a core ends (R81): its results land, or its core faults. -/
def landArray (r : CoreRef) (residueFail : Bool) (s : State) : State :=
  match (coreOf s r).streaming with
  | none => s
  | some o =>
    if residueFail then
      coreFault r 4 0 { s with phys := mapPut ((physOf s r).1 * 100 + (physOf s r).2) { physCore s r with offline := true } s.phys }
    else
      let s := meetOp r o s
      match opPoison s r o, opBankBad s r o with
      | a :: _, _ => coreFault r 0x0B a s
      | [], w :: ws => coreFault r 0x0B (w * 4) (meetPlain (.banks r) srcCore (w :: ws) s)
      | [], [] => landOp s r o

/-! ### The end of a run -/

/-- A core as the end of a run by ABORT leaves it: stopped, its queued array instruction withdrawn (Table 15-8). -/
def stopCore (k : Core) : Core :=
  { k with phase := .idle, arrived := none, atom := 0, streaming := none, queuedOp := none, postsOut := 0 }

/-- Cores of a context that still stream. -/
def streamingCores (s : State) (n : Nat) : List CoreRef :=
  let pick (sk : Bool) (m : SMap Core) : List CoreRef :=
    (m.filter (fun k => k.2.streaming.isSome)).map (fun k => { ctx := n, sketch := sk, lcore := k.1 })
  pick false (ctxOf s n).cores ++ pick true (ctxOf s n).sketchCores

/-- End a run as ABORT does: a streaming array instruction finishes, a queued one is withdrawn, tickets complete CANCELLED, posts
are dropped and holds end; the context keeps its program and state (Table 15-8). -/
def endRun (n : Nat) (s : State) : State :=
  let stop (m : SMap Core) : SMap Core := mapVals (fun k => endTickets (fun _ => true) 2 (stopCore k)) m
  let s := (streamingCores s n).foldl (fun s r => landArray r false s) (pauseCtx n s)
  dropPosts n (updCtx n (fun c =>
    { c with run := none, cores := stop c.cores, sketchCores := stop c.sketchCores
             clusters := mapVals (fun k => { k with bars := [] }) c.clusters, xbars := [], sketchBars := [] }) s)

/-- The run of a step still goes on. -/
def stepRunning (s : State) (n tag : Nat) : Bool := (ctxOf s n).run.any (fun u => u.kind = .step && u.tag = tag)

/-- A void of a step that is not complete: its run ends and its STEP_RUN completes with `st` (R383). -/
def voidRunWith (n cause : Nat) (x : Step) (st : Step → Status) (s : State) : State :=
  let s := voidStep n cause x s
  let s := if stepRunning s n x.tag then endRun n s else s
  match stepOf s n x.tag with
  | some y => updCtx n (fun c => { c with steps := c.steps.filter (fun z => z.tag != x.tag) }) (complete x.tag (st y) s)
  | none => s

/-- A void that completes STEP_RUN with STEP_VOID, its cause and FAILED_TAG. -/
def voidRun (n cause : Nat) (x : Step) (s : State) : State := voidRunWith n cause x (fun y => stStepVoid y.cause y.failedTag) s

/-- A bucket fails; every step in progress that counts on it is void (R383). -/
def redFail (t cause : Nat) (s : State) : State :=
  if isOpenTag (tagOf s t) then
    let n := (tagOf s t).ctx
    let s := failTag t cause s
    ((ctxOf s n).steps.filter (fun st => st.tags.contains t)).foldl (fun s st => voidRun n cause st s) s
  else s

end Sys2Proof.Machine
end

