-- ==== Sys2Proof/Machine/Packets.lean ====
section
/-! DEFINITION. The checks of a command packet that need nothing but the packet, the part and the lifecycle (R17-R22, R413-R415, Tables 15-3
to 15-14, 17-4). -/

namespace Sys2Proof.Machine

/-! ### Opcodes (Table 15-4) -/

def opcodes : List Nat :=
  [0x01, 0x02, 0x03, 0x04, 0x05, 0x06, 0x07, 0x08, 0x09, 0x0A, 0x0B, 0x0C, 0x20, 0x21, 0x22, 0x23, 0x24, 0x30, 0x31, 0x32, 0x33, 0x34,
   0x35, 0x36, 0x40, 0x41, 0x42, 0x50, 0x51, 0x52, 0x53, 0x60, 0x61, 0x62, 0x70, 0x71, 0x72, 0x78, 0x79]

def isAdmin (op : Nat) : Bool := 0x01 ≤ op && op ≤ 0x0C
def isObject (op : Nat) : Bool := 0x30 ≤ op && op ≤ 0x36
def isBlock (op : Nat) : Bool := 0x50 ≤ op && op ≤ 0x53
def isQuery (op : Nat) : Bool := 0x60 ≤ op && op ≤ 0x62
/-- Execution commands (R322, R337). -/
def isExecution (op : Nat) : Bool := [0x23, 0x24, 0x40, 0x41].contains op
/-- Opcodes that need the reduction engine (R34). -/
def needsReduction (op : Nat) : Bool := [0x41, 0x42, 0x70, 0x71, 0x72].contains op

/-- Opcodes that name a context. -/
def namesCtx (p : PacketBits) : Bool :=
  let op := pktOpcode p
  (0x20 ≤ op && op ≤ 0x24) || isObject op || [0x40, 0x41, 0x42, 0x60, 0x61, 0x62, 0x70, 0x71, 0x72].contains op ||
  ((op = 3 || op = 4) && pktField p 8 1 = 0x11) || (op = 7 && pktField p 8 1 = 1)

/-- OPCODE_MAP of this part (R419). -/
def opcodeFitted (s : State) (op : Nat) : Bool := opcodes.contains op && (hasReduction s || !needsReduction op)

/-! ### Lifecycle (Table 17-4, R464) -/

def lifecycleAllows (l : Lifecycle) (p : PacketBits) : Bool :=
  let op := pktOpcode p
  match l with
  | .blank => (isAdmin op && !(op = 0x0C && pktField p 9 1 = 1)) || op = 0x72
  | .provisioned => !([0x40, 0x41, 0x42, 0x70, 0x79].contains op || isQuery op)
  | .deployed => op != 0x79
  | .service => isAdmin op || [0x33, 0x50, 0x72, 0x79].contains op
  | .retired => [0x01, 0x02, 0x04, 0x07, 0x09, 0x0B].contains op

/-- Object, block and query commands need a media key (R464). -/
def keyAllows (s : State) (op : Nat) : Bool := s.sec.keyHeld || !(isObject op || isBlock op || isQuery op)

/-! ### Parameters an opcode names in bytes 8-47: (byte, length, mask of the bits used in a one-byte field) -/

def paramFields (p : PacketBits) : List (Nat × Nat × Nat) :=
  match pktOpcode p with
  | 0x02 => [(8, 1, 255), (16, 8, 255)]
  | 0x03 => [(8, 1, 255), (10, 2, 255), (12, 2, 255), (14, 2, 255), (16, 32, 255)]
  | 0x04 => [(8, 1, 255), (10, 2, 255), (12, 2, 255), (14, 2, 255)]
  | 0x05 => [(8, 4, 255)]
  | 0x06 => [(8, 1, 255)]
  | 0x07 => [(8, 1, 255), (12, 4, 255)]
  | 0x08 => [(8, 1, 255)]
  | 0x09 => [(8, 32, 255)]
  | 0x0A => [(8, 1, 255), (9, 1, 255)]
  | 0x0B => [(8, 1, 255), (12, 4, 255)]
  | 0x0C => [(8, 1, 255), (9, 1, 255)]
  | 0x20 => [(8, 1, 255), (9, 1, 255), (10, 1, 255), (12, 2, 255), (14, 2, 255)]
  | 0x22 => [(8, 1, 255), (9, 1, 15), (12, 4, 255), (16, 8, 255), (24, 4, 255)]
  | 0x24 => [(8, 1, 255), (9, 1, 1)]
  | 0x30 =>
    [(8, 6, 255), (14, 1, 255), (15, 1, 1), (16, 8, 255), (24, 1, 255), (26, 2, 255), (28, 6, 255), (40, 8, 255)]
  | 0x31 =>
    [(8, 6, 255), (14, 1, 7), (15, 1, 255), (16, 8, 255), (24, 8, 255), (32, 4, 255), (36, 2, 255), (38, 2, 255), (40, 1, 255),
     (42, 2, 255), (44, 4, 255)]
  | 0x32 => [(8, 6, 255), (16, 8, 255)]
  | 0x33 => [(8, 6, 255), (16, 8, 255)]
  | 0x34 => [(8, 6, 255), (14, 1, 255)]
  | 0x35 => [(8, 6, 255), (14, 1, 15)]
  | 0x36 => [(8, 6, 255)]
  | 0x40 => [(8, 2, 255), (10, 1, 1), (12, 4, 255), (16, 4, 255), (20, 4, 255), (24, 8, 255), (32, 8, 255), (40, 8, 255)]
  | 0x41 => [(8, 4, 255), (12, 2, 255), (16, 4, 255), (24, 8, 255), (32, 8, 255), (40, 8, 255)]
  | 0x42 => [(8, 4, 255)]
  | 0x50 => [(16, 8, 255), (24, 4, 255)]
  | 0x51 => [(16, 8, 255), (24, 4, 255)]
  | 0x52 => [(16, 8, 255), (24, 4, 255)]
  | 0x60 => [(8, 6, 255), (16, 4, 255), (20, 4, 255)]
  | 0x61 => [(8, 6, 255), (16, 4, 255), (20, 4, 255)]
  | 0x62 => [(8, 6, 255), (16, 4, 255), (20, 4, 255), (24, 8, 255), (40, 8, 255)]
  | 0x71 => [(8, 2, 255), (10, 2, 255)]
  | 0x72 => [(8, 2, 255), (10, 2, 255)]
  | 0x78 => [(8, 1, 255), (9, 1, 255), (12, 4, 255)]
  | 0x79 => [(8, 1, 255), (9, 1, 255), (10, 1, 255), (12, 2, 255), (14, 2, 255), (16, 1, 3)]
  | _ => []

/-- Non-zero bits of bytes 8-47 that the opcode's table does not name, by byte (R413, R19). -/
def paramErr (p : PacketBits) : List Nat :=
  let fs := paramFields p
  (List.range 40).flatMap (fun i =>
    let b := pktField p (8 + i) 1
    let mask := ((fs.find? (fun f => f.1 ≤ 8 + i && 8 + i < f.1 + f.2.1)).map (·.2.2)).getD 0
    errIf (b &&& (255 - mask) != 0) (8 + i))

/-! ### Class, context and buffer -/

/-- Classes: 0 any, 1 any but URGENT, 2 ignored (R415). -/
def classRule (op : Nat) : Nat :=
  if op = 0x07 then 2
  else if [0x01, 0x02, 0x03, 0x04, 0x09, 0x0A, 0x40, 0x42, 0x71, 0x72].contains op then 0 else 1

def headErr (p : PacketBits) : List Nat :=
  let ctx := pktCtx p
  errIf (pktFlags p != 0 || (classRule (pktOpcode p) = 1 && pktClass p = 3)) 1 ++
  errIf (if namesCtx p then ctx = 0 || 255 < ctx else ctx != 0) 2 ++ errIf (pktField p 6 2 != 0) 6

/-- The opcode needs a buffer of at least this many bytes; none where it needs no buffer. A length that another field asks for is a limit of
that field (R19). -/
def bufNeed (p : PacketBits) : Option Nat :=
  match pktOpcode p with
  | 0x01 => some 4096
  | 0x02 => some 0
  | 0x03 => if pktField p 8 1 = 0x11 && pktField p 14 2 != 0 then some 0 else none
  | 0x04 => some (if pktField p 8 1 = 0x11 then 0 else 32)
  | 0x05 => some 64
  | 0x08 => some 4992
  | 0x09 => some 3456
  | 0x23 => some 64
  | 0x24 => if bitOf (pktField p 9 1) 0 then none else some 64
  | 0x32 => some 0
  | 0x33 => some 0
  | 0x40 => some 0
  | 0x41 => if pktField p 16 4 = 0 then none else some 0
  | 0x50 => some 0
  | 0x51 => some 0
  | 0x60 => some 64
  | 0x61 => some 64
  | 0x62 => some 64
  | 0x70 => some 352
  | 0x72 => some 0
  | 0x79 => some 16384
  | _ => none

/-- Longest buffer of an opcode. -/
def bufMax (op : Nat) : Nat :=
  match op with
  | 0x05 => 262144
  | 0x23 => 16777216
  | 0x24 => 16777216
  | 0x40 => 268435456
  | 0x41 => 268435456
  | _ => 2 ^ 32

def bufErr (p : PacketBits) : List Nat :=
  let k := pktBufKind p
  errIf (dirty (leBytes 64 p.toNat) 61 62) 61 ++
  (match k with
   | 0 => errIf (pktBufAddr p != 0) 48 ++ errIf (pktBufLen p != 0) 56 ++ errIf (bufNeed p).isSome 60 ++ errIf (pktNent p != 0) 62
   | 1 => errIf (pktBufAddr p % 64 != 0) 48 ++ errIf (pktBufLen p % 64 != 0) 56 ++ errIf (pktNent p != 0) 62
   | 2 => errIf (pktBufAddr p % 64 != 0) 48 ++ errIf (pktBufLen p % 64 != 0) 56 ++ errIf (pktNent p = 0 || 4096 < pktNent p) 62
   | _ => [60]) ++
  errIf (k != 0 && ((bufNeed p).any (fun n => pktBufLen p < n) || bufMax (pktOpcode p) < pktBufLen p)) 56 ++
  errIf (pktOpcode p = 0x24 && bitOf (pktField p 9 1) 0 && k != 0) 60

/-! ### Feature data of SET_FEATURE (Tables 2-1, 12-7, 14-10, 15-7, 18-2, 19-8) -/

/-- dword `i` of DATA. -/
def featDw (p : PacketBits) (i : Nat) : Nat := pktField p (16 + 4 * i) 4

/-- Dwords of DATA from dword `i` on that are not 0: each is a reserved field. -/
def featTail (p : PacketBits) (i : Nat) : List Nat := (List.range 8).flatMap (fun k => errIf (i ≤ k && featDw p k != 0) (16 + 4 * k))

def setFeatureErr (p : PacketBits) : List Nat :=
  let d0 := featDw p 0
  match pktField p 8 1 with
  | 0x10 =>
    let t := bitsOf d0 14 0
    let q := bitsOf d0 22 16
    errIf (t < 100 || 20000 < t) 16 ++ errIf (bitOf d0 15) 17 ++ errIf (q < 50 || 90 < q || bitsOf d0 31 23 != 0) 18 ++ featTail p 3
  | 0x11 => featTail p 0
  | 0x12 =>
    errIf (bitsOf (featDw p 1) 31 8 != 0) 21 ++ errIf (bitsOf (featDw p 3) 31 8 != 0) 29 ++ featTail p 4
  | 0x14 => errIf (bitOf d0 1 || bitsOf d0 7 6 != 0) 16 ++ errIf (bitsOf d0 31 28 != 0) 19
  | 0x15 =>
    errIf (bitsOf d0 7 0 = 0) 16 ++ errIf (bitsOf d0 15 8 = 0) 17 ++ errIf (bitsOf d0 23 16 = 0) 18 ++ errIf (bitsOf d0 31 24 != 0) 19 ++
    errIf (bitsOf (featDw p 1) 31 11 != 0) 21 ++ errIf (bitsOf (featDw p 2) 31 11 != 0) 25 ++
    errIf (bitsOf (featDw p 3) 31 11 != 0) 29 ++ errIf (bitsOf (featDw p 4) 31 11 != 0) 33 ++ featTail p 5
  | 0x16 =>
    let c := bitsOf d0 11 0
    let t := bitsOf (featDw p 5) 23 16
    errIf (c < 1400 || 3600 < c) 16 ++ errIf (bitsOf d0 15 12 != 0) 17 ++ errIf (bitsOf d0 31 23 != 0) 18 ++
    errIf (t < 85 || 100 < t) 38 ++ errIf (bitsOf (featDw p 5) 31 24 != 0) 39 ++ featTail p 6
  | 0x17 => errIf (bitsOf d0 31 2 != 0) 16 ++ featTail p 2
  | _ => [8]

/-- FID, SEL, FIRST and COUNT of SET_FEATURE and GET_FEATURE. -/
def featureErr (s : State) (p : PacketBits) : List Nat :=
  let fid := pktField p 8 1
  let sel := pktField p 10 2
  let first := pktField p 12 2
  let count := pktField p 14 2
  let isSet := pktOpcode p = 3
  let each := if isSet then 4 else 144
  errIf (fid < 0x10 || 0x17 < fid || (isSet && fid = 0x13)) 8 ++
  errIf ((if fid = 0x13 then 3 else if fid = 0x14 then portPairs s - 1 else 0) < sel) 10 ++
  (if fid = 0x11 then errIf (256 < first + count) 12 ++ errIf (pktBufKind p != 0 && pktBufLen p < each * count) 14
   else errIf (first != 0) 12 ++ errIf (count != 0) 14) ++
  (if isSet then setFeatureErr p else [])

/-! ### Ranges of the other opcodes -/

/-- LBA and NBLK against the logical-block space. -/
def blkErr (s : State) (p : PacketBits) : List Nat :=
  let lba := pktField p 16 8
  let n := pktField p 24 4
  let trim := pktOpcode p = 0x52
  errIf (s.flash.blockGranules * 16 < lba + n || (trim && lba % 16 != 0)) 16 ++
  errIf (n = 0 || (if trim then n % 16 != 0 else 65536 < n || pktBufLen p < n * 4096)) 24

def valueErr (s : State) (p : PacketBits) : List Nat :=
  let b (o : Nat) : Nat := pktField p o 1
  let len := pktBufLen p
  match pktOpcode p with
  | 0x02 => errIf (b 8 = 0 || 6 < b 8) 8 ++ errIf (pktField p 16 8 % 64 != 0) 16
  | 0x03 => featureErr s p
  | 0x04 => featureErr s p
  | 0x05 => errIf (pktField p 8 4 % 64 != 0) 8
  | 0x06 => errIf (1 < b 8) 8
  | 0x07 => errIf (2 < b 8) 8
  | 0x08 => errIf (4 < b 8) 8
  | 0x0A => errIf (portPairs s ≤ b 8) 8 ++ errIf (1 < b 9) 9
  | 0x0B => errIf (3 < b 8) 8 ++ errIf (2 ^ computeDomains s ≤ pktField p 12 4) 12
  | 0x0C => errIf (b 8 < 5 || computeDomains s + 5 ≤ b 8) 8 ++ errIf (1 < b 9) 9
  | 0x20 =>
    errIf (3 < b 8) 8 ++ errIf (b 9 = 0 || computeDomains s < b 9) 9 ++ errIf (b 10 < 10 || 100 < b 10) 10 ++
    errIf (pktField p 12 2 = 0) 12 ++ errIf (pktField p 14 2 = 0) 14
  | 0x22 =>
    errIf (bitOf (b 9) 0 && (b 8 = 0 || 64 < b 8)) 8 ++ errIf (bitOf (b 9) 1 && usableT2 s < pktField p 12 4) 12 ++
    errIf (bitOf (b 9) 2 && userGranules s < pktField p 16 8) 16 ++ errIf (bitOf (b 9) 3 && 2 ^ 24 < pktField p 24 4) 24
  | 0x24 => errIf (if bitOf (b 9) 0 then b 8 != 0 else b 8 = 0 || 50 < b 8) 8
  | 0x30 =>
    let size := pktField p 16 8
    errIf (pktField p 8 6 = 0) 8 ++ errIf (2 < b 14) 14 ++ errIf (b 14 != 0 && b 15 != 0) 15 ++
    errIf (size = 0 || size % 64 != 0 || 2 ^ 40 < size) 16 ++
    (if b 14 = 2 then
      errIf (portPairs s ≤ b 24) 24 ++ errIf (pktField p 26 2 = 0 || 255 < pktField p 26 2) 26 ++ errIf (pktField p 28 6 = 0) 28
    else [(24, 1), (26, 2), (28, 6), (40, 8)].flatMap (fun (f : Nat × Nat) => errIf (pktField p f.1 f.2 != 0) f.1))
  | 0x31 => errIf (bitOf (b 14) 1 && bitOf (b 14) 2) 14 ++ errIf (1 < b 15) 15 ++ errIf (3 < b 40) 40
  | 0x34 => errIf (2 < b 14) 14
  | 0x35 => errIf (bitOf (b 14) 3 && !bitOf (b 14) 2) 14
  | 0x40 =>
    errIf (pktField p 8 2 = 0 || 256 < pktField p 8 2) 8 ++ errIf (len < pktField p 12 4) 12 ++
    errIf (pktField p 16 4 % 64 != 0 || len < pktField p 16 4 + 256 + pktField p 20 4) 16 ++ errIf (65280 < pktField p 20 4) 20 ++
    errIf (bitOf (b 10) 0 && pktField p 24 8 = 0) 24
  | 0x41 => errIf (pktField p 12 2 = 0) 12 ++ errIf (len < pktField p 16 4) 16
  | 0x50 => blkErr s p
  | 0x51 => blkErr s p
  | 0x52 => blkErr s p
  | 0x60 => errIf (pktField p 16 4 % 64 != 0 || len < pktField p 16 4 + pktField p 20 4) 16
  | 0x61 => errIf (pktField p 16 4 % 64 != 0 || len < pktField p 16 4 + pktField p 20 4) 16
  | 0x62 => errIf (pktField p 16 4 % 64 != 0 || len < pktField p 16 4 + pktField p 20 4) 16
  | 0x71 => errIf (4095 < pktField p 8 2 || 4096 < pktField p 8 2 + pktField p 10 2) 8 ++ errIf (pktField p 10 2 = 0 || 4096 < pktField p 10 2) 10
  | 0x72 =>
    errIf (4095 < pktField p 8 2 || 4096 < pktField p 8 2 + pktField p 10 2) 8 ++
    errIf (pktField p 10 2 = 0 || 4096 < pktField p 10 2 || (pktBufKind p != 0 && len < 32 * pktField p 10 2)) 10
  | 0x78 =>
    let t := pktField p 12 4
    let r := match b 8 with
      | 0 => (60, 86400)
      | 1 => (10, 86400)
      | 2 => (10, 3600)
      | _ => (3600, 604800)
    errIf (3 < b 8) 8 ++ errIf (1 < b 9) 9 ++ errIf (t < r.1 || r.2 < t) 12
  | 0x79 =>
    errIf (31 < b 8) 8 ++ errIf (diesPerChannel s ≤ b 9) 9 ++ errIf (3 < b 10) 10 ++ errIf (1279 < pktField p 12 2) 12 ++
    errIf (1535 < pktField p 14 2) 14 ++ errIf (pktBufKind p != 0 && bitOf (b 16) 0 && len < 18432) 16
  | _ => []

/-- Every offending byte of a packet (R19). -/
def packetErrs (s : State) (p : PacketBits) : List Nat := headErr p ++ paramErr p ++ bufErr p ++ valueErr s p

end Sys2Proof.Machine
end

