-- ==== Sys2Proof/Machine/ScanEngine.lean ====
section
/-! DEFINITION. The scan units' work: the scan descriptor and its checks (R284-R288), records, predicates, projection, scores and
candidates (R283-R294), and the layout of a query's result (Tables 9-4, 9-5). -/

namespace Sys2Proof.Machine

/-! ### The descriptor (Tables 9-1 to 9-3) -/

def scanFieldOf (b : List Byte) : ScanField := { off := byteField b 0 2, typ := byteField b 2 1, len := byteField b 3 1 }

def scanStepOf (b : List Byte) : ScanStep :=
  { op := byteField b 0 1, neg := bitOf (byteField b 1 1) 0, newTerm := bitOf (byteField b 1 1) 1, field := byteField b 2 1
    a := BitVec.ofNat 64 (byteField b 8 8), b := BitVec.ofNat 64 (byteField b 16 8) }

/-- Bytes of a query vector with its padding. -/
def queryBytes (vfmt vdim : Nat) : Nat := roundUp (fmtBytes vfmt vdim) 64

def scanDescOf (b : List Byte) : ScanDesc :=
  let vfmt := byteField b 6 1
  let vdim := byteField b 8 2
  let nq := min (byteField b 7 1) 16
  { rlen := byteField b 0 2
    fields := (pieces 8 (min (byteField b 2 1) 16) (b.drop 64)).map scanFieldOf
    steps := (pieces 24 (min (byteField b 3 1) 16) (b.drop 192)).map scanStepOf
    proj := (pieces 4 (min (byteField b 4 1) 16) (b.drop 576)).map (fun p => (byteField p 0 2, byteField p 2 2))
    metric := byteField b 5 1, vfmt := vfmt, nq := nq, vdim := vdim, voff := byteField b 10 2
    vexp := signOf 8 (byteField b 12 1), qexp := signOf 8 (byteField b 13 1), wide := byteField b 14 1 = 1
    keyOff := byteField b 16 2, kch := byteField b 18 2, k := byteField b 20 2, pace := byteField b 22 2
    firstRec := byteField b 24 8, nrec := byteField b 32 8, landOff := byteField b 40 4
    queries := pieces (queryBytes vfmt vdim) nq (b.drop 640) }

/-- Bytes of a descriptor with its query vectors. -/
def scanDescLen (d : ScanDesc) : Nat := 640 + d.nq * queryBytes d.vfmt d.vdim

/-- Bytes of a field. -/
def fieldBytes (f : ScanField) : Nat :=
  match f.typ with
  | 0 => 1
  | 1 => 2
  | 2 => 4
  | 3 => 8
  | 4 => 1
  | 5 => 2
  | 6 => 4
  | 7 => 8
  | 8 => 4
  | 9 => 2
  | _ => f.len

def fieldFloat (f : ScanField) : Bool := f.typ = 8 || f.typ = 9
def fieldSigned (f : ScanField) : Bool := 4 ≤ f.typ && f.typ ≤ 7

/-- A constant that R288 does not allow for the field: the bits above its width are not all 0, nor for a signed type all copies of the sign. -/
def constBad (f : ScanField) (v : Word64) : Bool :=
  let w := if fieldFloat f then 32 else 8 * fieldBytes f
  2 ^ w ≤ v.toNat && !(fieldSigned f && v = BitVec.ofInt 64 (signOf w (v.toNat % 2 ^ w)))

def scanFieldErr (b : List Byte) : List Nat :=
  let f := scanFieldOf b
  errIf (10 < f.typ) 2 ++
  errIf (if f.typ = 10 then f.len = 0 || 8 < f.len else f.len != 0) 3 ++ errIf (dirty b 4 8) 4

def scanStepErr (fields : List ScanField) (b : List Byte) : List Nat :=
  let t := scanStepOf b
  match fields[t.field]? with
  | none => errIf (t.op = 0 || 8 < t.op) 0 ++ errIf (3 < byteField b 1 1) 1 ++ [2] ++ errIf (dirty b 3 8) 3
  | some f =>
    errIf (t.op = 0 || 8 < t.op || (t.op = 8 && fieldFloat f) || (f.typ = 10 && !(t.op = 1 || t.op = 2 || t.op = 8))) 0 ++
    errIf (3 < byteField b 1 1) 1 ++ errIf (dirty b 3 8) 3 ++ errIf (constBad f t.a) 8 ++
    errIf (if t.op = 7 || t.op = 8 then constBad f t.b else t.b != 0) 16

/-- Non-zero bytes of unused entries of a table area of `n` entries of `size` bytes at `base`. -/
def unusedErr (b : List Byte) (base size used n : Nat) : List Nat :=
  (List.range (size * n)).flatMap (fun i => errIf (size * used ≤ i && dirty b (base + i) (base + i + 1)) (base + i))

/-- Records of an object of `size` bytes. -/
def totalRecords (size rlen : Nat) : Nat := size / 65536 * (65536 / rlen) + size % 65536 / rlen

/-- Some field, projected range, key or vector extends past RLEN. -/
def pastRecord (d : ScanDesc) : Bool :=
  d.fields.any (fun f => d.rlen < f.off + fieldBytes f) || d.proj.any (fun p => d.rlen < p.1 + p.2) ||
  (d.keyOff != 0xFFFF && d.rlen < d.keyOff + 8) || (d.metric != 0 && d.rlen < d.voff + fmtBytes d.vfmt d.vdim)

/-- METRIC, VFMT, NQ and the exponents do not agree. -/
def metricBad (d : ScanDesc) (vfmt nq : Nat) : Bool :=
  if d.metric = 0 then vfmt != 0 || nq != 0 else nq = 0 || (d.metric = 2 && (vfmt = 0 || vfmt = 2) && d.vexp != d.qexp)

/-- Offending bytes of a descriptor for a query of this kind on an object of this size (R285). A limit on several fields offends at the lowest
of them: RLEN for what extends past it, METRIC for what goes with it, KCH for K (R19). -/
def scanDescErr (kind : QueryKind) (size : Nat) (b : List Byte) : List Nat :=
  let d := scanDescOf b
  let vs := kind = .vsearch
  let vfmt := byteField b 6 1
  let nq := byteField b 7 1
  errIf (d.rlen < 8 || 16384 < d.rlen || d.rlen % 8 != 0 || pastRecord d) 0 ++ errIf (16 < byteField b 2 1) 2 ++ errIf (16 < byteField b 3 1) 3 ++
  errIf (16 < byteField b 4 1 || (vs && byteField b 4 1 != 0)) 4 ++ errIf (2 < d.metric || (vs && d.metric = 0) || metricBad d vfmt nq) 5 ++
  errIf (vfmt = 1 || 5 < vfmt) 6 ++ errIf (16 < nq) 7 ++ errIf (4096 < d.vdim || (d.metric != 0 && d.vdim = 0)) 8 ++
  errIf (d.voff % 8 != 0) 10 ++ errIf (d.vexp < -64 || 63 < d.vexp) 12 ++ errIf (d.qexp < -64 || 63 < d.qexp) 13 ++
  errIf (1 < byteField b 14 1) 14 ++ errIf (dirty b 15 16) 15 ++
  errIf (if vs then d.kch = 0 || 256 < d.kch || d.kch < d.k else d.kch != 0) 18 ++ errIf (if vs then d.k = 0 else d.k != 0) 20 ++
  errIf (totalRecords size (max d.rlen 1) ≤ d.firstRec) 24 ++ errIf (d.landOff % 64 != 0 || d.landOff < 192) 40 ++
  errIf (dirty b 44 64) 44 ++
  pieceErrs 64 8 (fun _ x => scanFieldErr x) (pieces 8 d.fields.length (b.drop 64)) ++ unusedErr b 64 8 d.fields.length 16 ++
  pieceErrs 192 24 (fun _ x => scanStepErr d.fields x) (pieces 24 d.steps.length (b.drop 192)) ++ unusedErr b 192 24 d.steps.length 16 ++
  unusedErr b 576 4 d.proj.length 16

/-! ### Granules of a query -/

def recsPerGranule (d : ScanDesc) : Nat := 65536 / d.rlen

/-- One past the last record number of the query. -/
def recEnd (d : ScanDesc) (size : Nat) : Nat :=
  let t := totalRecords size d.rlen
  if d.nrec = 0 then t else min t (d.firstRec + d.nrec)

/-- The first granule of the query on channel `ch` (R226). -/
def firstOn (d : ScanDesc) (ch : Nat) : Nat :=
  let g := d.firstRec / recsPerGranule d
  g + (ch + 32 - g % 32) % 32

/-- Granules of the query on channel `ch`. -/
def granulesOn (d : ScanDesc) (size ch : Nat) : Nat :=
  let last := (recEnd d size - 1) / recsPerGranule d
  if last < firstOn d ch then 0 else (last - firstOn d ch) / 32 + 1

/-- Every channel has read its granules. -/
def scanDone (q : Query) (size : Nat) : Bool :=
  (List.range 32).all (fun ch => granulesOn q.desc size ch ≤ mapGet 0 q.next ch)

/-! ### Predicate (R286-R289) -/

/-- A field's contents as a number. -/
def fieldRaw (f : ScanField) (r : List Byte) : Nat := byteField r f.off (fieldBytes f)

def fieldInt (f : ScanField) (v : Nat) : Int := if fieldSigned f then signOf (8 * fieldBytes f) (v % 2 ^ (8 * fieldBytes f)) else v

/-- Comparisons of integer and BYTES fields. -/
def stepInt (f : ScanField) (t : ScanStep) (r : List Byte) : Bool :=
  let x := fieldInt f (fieldRaw f r)
  let a := fieldInt f t.a.toNat
  let b := fieldInt f t.b.toNat
  match t.op with
  | 1 => x = a
  | 2 => x != a
  | 3 => x < a
  | 4 => x ≤ a
  | 5 => a < x
  | 6 => a ≤ x
  | 7 => a ≤ x && x ≤ b
  | _ => (fieldRaw f r &&& t.b.toNat) = t.a.toNat % 2 ^ (8 * fieldBytes f)

/-- IEEE comparisons of FP32 and BF16 fields. -/
def stepFloat (f : ScanField) (t : ScanStep) (r : List Byte) : Bool :=
  let x := if f.typ = 9 then wideValue 5 (fieldRaw f r) else wideValue 7 (fieldRaw f r)
  let a := wideValue 7 t.a.toNat
  let b := wideValue 7 t.b.toNat
  match t.op with
  | 1 => eqV x a
  | 2 => !eqV x a
  | 3 => ltV x a
  | 4 => ltV x a || eqV x a
  | 5 => ltV a x
  | 6 => ltV a x || eqV x a
  | _ => (ltV a x || eqV x a) && (ltV x b || eqV x b)

def stepTrue (fields : List ScanField) (r : List Byte) (t : ScanStep) : Bool :=
  match fields[t.field]? with
  | none => false
  | some f => (if fieldFloat f then stepFloat f t r else stepInt f t r) != t.neg

/-- The terms: each step with NEWTERM opens a further one. -/
def termsTrue (eval : ScanStep → Bool) : List ScanStep → Bool → Bool
  | [], cur => cur
  | t :: l, cur => if t.newTerm then cur || termsTrue eval l (eval t) else termsTrue eval l (cur && eval t)

/-- A record passes (R289). -/
def recordPasses (d : ScanDesc) (r : List Byte) : Bool :=
  match d.steps with
  | [] => true
  | t :: l => termsTrue (stepTrue d.fields r) l (stepTrue d.fields r t)

/-- The output record of a passing record (R290). -/
def outRecord (d : ScanDesc) (recno : Nat) (r : List Byte) : List Byte :=
  let body := if d.proj.isEmpty then r else d.proj.flatMap (fun p => (r.drop p.1).take p.2)
  padTo (roundUp (8 + body.length) 8) (leBytes 8 recno ++ body)

/-- Bytes of an output record. -/
def outSize (d : ScanDesc) : Nat :=
  roundUp (8 + (if d.proj.isEmpty then d.rlen else (d.proj.map (·.2)).foldl (· + ·) 0)) 8

/-! ### Scores and candidates (R291-R294) -/

/-- Code `k` of a packed vector. -/
def vecCode (vfmt : Nat) (v : List Byte) (k : Nat) : Nat :=
  match fmtBits vfmt with
  | 4 => if k % 2 = 0 then byteField v (k / 2) 1 % 16 else byteField v (k / 2) 1 / 16
  | 8 => byteField v k 1
  | n => byteField v (k * (n / 8)) (n / 8)

/-- Scores of INT8 and INT4: exact, rounded once. -/
def scoreInt (d : ScanDesc) (v q : List Byte) : Word32 :=
  let e (k : Nat) : Int × Int := (codeInt d.vfmt (vecCode d.vfmt v k), codeInt d.vfmt (vecCode d.vfmt q k))
  let ks := List.range d.vdim
  if d.metric = 1 then enc32 (valOf ((ks.map (fun k => (e k).1 * (e k).2)).foldl (· + ·) 0) (d.vexp + d.qexp) false)
  else enc32 (valOf ((ks.map (fun k => ((e k).1 - (e k).2) * ((e k).1 - (e k).2))).foldl (· + ·) 0) (2 * d.vexp) false)

/-- Scores of the floating formats: binary32, in ascending order of the dimensions. -/
def scoreFloat (d : ScanDesc) (v q : List Byte) : Word32 :=
  let val (bs : List Byte) (x : Int) (k : Nat) : FVal :=
    let c := vecCode d.vfmt bs k
    r32 (scaleV x (if d.vfmt = 5 then wideValue 5 c else rawValue d.vfmt c))
  let term (k : Nat) : FVal :=
    let a := val v d.vexp k
    let b := val q d.qexp k
    if d.metric = 1 then mulV a b else r32 (mulV (r32 (subV a b)) (r32 (subV a b)))
  (List.range d.vdim).foldl (fun acc k => enc32 (addV (dec32 acc) (term k))) 0

def scoreOf (d : ScanDesc) (v q : List Byte) : Word32 := if d.vfmt = 0 || d.vfmt = 2 then scoreInt d v q else scoreFloat d v q

/-- The first candidate stands before the second (R293). -/
def candBefore (metric : Nat) (a b : Cand) : Bool :=
  let x := dec32 a.score
  let y := dec32 b.score
  if metric = 1 then ltV y x || (eqV x y && a.recno < b.recno) else ltV x y || (eqV x y && a.recno < b.recno)

def candInsert (metric : Nat) (a : Cand) : List Cand → List Cand
  | [] => [a]
  | b :: l => if candBefore metric a b then a :: b :: l else b :: candInsert metric a l

/-- The best K of the union of the channels' lists for one query. -/
def mergeCands (q : Query) (i : Nat) : List Cand :=
  (((List.range 32).flatMap (fun ch => mapGet [] q.cands (ch * 16 + i))).foldl (fun l c => candInsert q.desc.metric c l) []).take q.desc.k

/-- An entry of a VSEARCH result (Table 9-5); the key of an entry beyond those scored has every bit set. -/
def candEntry (wide : Bool) (c : Option Cand) : List Byte :=
  match c with
  | none => if wide then leBytes 8 (2 ^ 64 - 1) ++ zeros 8 else leBytes 6 (2 ^ 48 - 1) ++ zeros 2
  | some c => if wide then leBytes 8 c.key.toNat ++ leBytes 4 c.score.toNat ++ zeros 4
    else leBytes 6 c.recno ++ leBytes 2 (encBf16 none (dec32 c.score))

/-! ### One granule -/

/-- Put an EMBED record at the end of the last batch, or open a new one. -/
def addToBatch (cap : Nat) (r : List Byte) : List (List (List Byte)) → List (List (List Byte))
  | [] => [[r]]
  | [b] => if b.length < cap then [b ++ [r]] else [b, [r]]
  | b :: l => b :: addToBatch cap r l

/-- Records of a full EMBED batch (R301). -/
def batchCap (d : ScanDesc) : Nat := max 1 (min 256 (131072 / outSize d))

/-- Bytes of the landing window a batch takes, and the batches it holds (log entry 24). -/
def batchBytes (d : ScanDesc) : Nat := min 131072 (roundUp (batchCap d * outSize d) 64)
def windowBatches (d : ScanDesc) : Nat := max 1 (131072 / batchBytes d)

/-- A query after one record that is not skipped. -/
def scanRecord (ch recno : Nat) (r : List Byte) (q : Query) : Query :=
  let q := { q with scanned := q.scanned + 1 }
  if recordPasses q.desc r then
    let q := { q with passed := q.passed + 1 }
    match q.kind with
    | .scan =>
      let o := outRecord q.desc recno r
      if q.outFull || q.resLen < 576 + q.outBytes + o.length then { q with outFull := true }
      else { q with out := q.out ++ [o], outBytes := q.outBytes + o.length }
    | .embed => { q with batches := addToBatch (batchCap q.desc) (outRecord q.desc recno r) q.batches }
    | .vsearch =>
      let key : Word64 := BitVec.ofNat 64 (if q.desc.keyOff = 0xFFFF then recno else byteField r q.desc.keyOff 8)
      (q.desc.queries.zipIdx).foldl (fun q p =>
        let sc := scoreOf q.desc (r.drop q.desc.voff) p.1
        if isNan (dec32 sc) then { q with nanScores := q.nanScores + 1 }
        else { q with cands := mapSet [] (ch * 16 + p.2)
                        ((candInsert q.desc.metric { score := sc, recno := recno, key := key } (mapGet [] q.cands (ch * 16 + p.2))).take q.desc.kch)
                        q.cands }) q
  else q

/-- A record of `n` bytes at `a` meets a bad page. -/
def meetsBad (bad : List Nat) (a n : Nat) : Bool := bad.any (fun p => a < p * 16384 + 16384 && p * 16384 < a + n)

/-- A query after granule `g` on channel `ch` with this content and these bad pages. -/
def scanGranule (ch g size : Nat) (data : Store) (bad : List Nat) (q : Query) : Query :=
  let q := { q with
    badPages := q.badPages + bad.length
    badList := (q.badList ++ bad.map (fun p => BitVec.ofNat 64 (g + p * 2 ^ 40))).take 64 }
  (List.range (recsPerGranule q.desc)).foldl (fun q i =>
    let recno := g * recsPerGranule q.desc + i
    if recno < q.desc.firstRec || recEnd q.desc size ≤ recno || meetsBad bad (i * q.desc.rlen) q.desc.rlen then q
    else scanRecord ch recno (storeRead data (i * q.desc.rlen) q.desc.rlen) q) q

/-! ### The result (Table 9-4) -/

def summaryBytes (q : Query) : List Byte :=
  leBytes 8 q.scanned ++ leBytes 8 q.passed ++ leBytes 8 q.nanScores ++ leBytes 4 q.badPages ++ leBytes 2 q.badList.length ++ zeros 2 ++
  leBytes 8 (if q.kind = .scan then q.outBytes else 0) ++ zeros 24 ++ padTo 512 (q.badList.flatMap (fun w => leBytes 8 w.toNat))

/-- Entries after the summary. -/
def resultEntries (q : Query) : List Byte :=
  match q.kind with
  | .scan => q.out.flatten
  | .vsearch =>
    (List.range q.desc.nq).flatMap (fun i =>
      let l := mergeCands q i
      (List.range q.desc.k).flatMap (fun j => candEntry q.desc.wide l[j]?))
  | .embed => []

/-- The query's completion: RESULT_FULL, or SUCCESS with MEDIA_SKIPPED when pages were bad (R297, R302). -/
def queryStatus (q : Query) : Status :=
  if q.kind = .scan && q.outFull then stResultFull (q.passed % 2 ^ 32)
  else { stSuccess (if q.kind = .embed then q.passed else 576 + (resultEntries q).length) (if q.kind = .embed then 0 else q.badPages) 0 with
         qual := if q.badPages = 0 then 0 else 2 }

/-- Bytes for the host with these code words replaced by zeros (R312). -/
def zeroWords (bs : List Byte) (ws : List Nat) : List Byte :=
  ws.foldl (fun bs w => bs.take (64 * w) ++ zeros (min 64 (bs.length - 64 * w)) ++ bs.drop (64 * w + 64)) bs

/-- Finish a query: its answer is written from staging to the buffer and its slot is free; the command completes when the last write has been
issued. -/
def finishQuery (slot : Nat) (q : Query) (s : State) : State :=
  let s := { s with scan := { s.scan with slots := mapDel slot s.scan.slots } }
  match cmdOf s q.tag with
  | none => s
  | some c =>
    let bs := summaryBytes q ++ resultEntries q
    let bad := (meetStaging c 0 bs.length).poison.filter (· < ceilDiv bs.length 64)
    reply c q.resOff (zeroWords bs bad) (match bad with
      | [] => queryStatus q
      | w :: _ => stMediaError (q.resOff + 64 * w) bad.length) (logStaging c 0 bs.length s)

end Sys2Proof.Machine
end

