-- ==== Sys2Proof/Machine/Runs.lean ====
section
/-! DEFINITION. Runs of a context (R111, R338, R363, R381): what work a context has, how a run and a sketch run start, and how a run
ends with its answer line, outcomes and results (R237, R238, R423-R426). -/

namespace Sys2Proof.Machine

/-! ### Bytes for the host (R208, R312) -/

/-- A flash memory's 4 KiB poison as 64-byte code words. -/
def toLines (m : Store) : Store := { m with poison := m.poison.flatMap (fun p => (List.range 64).map (fun i => p * 64 + i)) }

/-- An object's T2 copy as the host reads it: a granule that is missing, or poisoned and recoverable, comes from its home (R312). The home
of an IMPORT object lies at its peer. -/
def copyView (s : State) (o : Obj) (c : T2Copy) : Store :=
  if o.kind = .import_ then c.data
  else (c.missing ++ (badGranules c).filter (fun g => !unrecoverable s o c g)).foldl
    (fun m g => storePaste 64 m (g * granuleBytes) granuleBytes (toLines (homeRead s (objLga o g)))) c.data

/-- `n` bytes from `a` with poisoned code words zeroed, and where any was: offset in the bytes of the first, and their count. -/
def hostBytes (m : Store) (a n : Nat) : List Byte × Option (Nat × Nat) :=
  let bad := m.poison.filter (fun p => p * 64 < a + n && a < p * 64 + 64)
  let clean := bad.foldl (fun m p => { m with cells := cellsWrite m.cells (p * 64) (zeros 64) }) m
  (storeRead clean a n, bad.head?.map (fun p => (p * 64 - a, bad.length)))

/-- Status of a read for the host. -/
def readStatus (ok : Status) (off : Nat) (bad : Option (Nat × Nat)) : Status :=
  match bad with
  | none => ok
  | some p => stMediaError (off + p.1) p.2

/-! ### Work of a context (R322) -/

def pktPipe (p : PacketBits) : Bool := pktOpcode p = 0x40 && bitOf (pktField p 10 1) 0

/-- A PIPE batch whose run has started waits for its answer (R425). -/
def pipeWaiting (c : Cmd) : Bool := pktPipe c.pkt && c.phase = .running && c.head.isEmpty

/-- A released execution command that has not started. -/
def execWaits (n : Nat) (c : Cmd) : Bool :=
  isExecution (pktOpcode c.pkt) && pktCtx c.pkt = n && (c.phase = .released || c.phase = .ready)

/-- The object's size for a query. -/
def querySize (s : State) (q : Query) : Nat := ((objOf s q.obj).map (·.size)).getD 0

/-- A batch of an EMBED that can start its run: full, or the last one (R301). -/
def embedBatch (s : State) (q : Query) : Option (List (List Byte)) :=
  if q.kind != .embed then none
  else
    match q.batches with
    | [] => none
    | b :: l => if !l.isEmpty || b.length = batchCap q.desc || scanDone q (querySize s q) then some b else none

/-- The slot and query of a command. -/
def queryOf (s : State) (tag : Nat) : Option (Nat × Query) := s.scan.slots.find? (fun p => p.2.tag = tag)

/-- The command waits to start a run: an execution command, or an EMBED with a batch. -/
def wantsRun (s : State) (n : Nat) (c : Cmd) : Bool :=
  execWaits n c || (pktCtx c.pkt = n && (queryOf s c.tag).any (fun p => (embedBatch s p.2).isSome))

/-- Work that a run could start on (R322). -/
def hasWork (s : State) (n : Nat) : Bool := s.host.cmds.any (wantsRun s n) || (ctxOf s n).streamIn.isSome

/-- The frame plan that a command accepted, or ready, now joins (R50): the next frame's, or the one after once that has closed. -/
def planNow (s : State) : Nat := s.frame.counter.toNat + (if s.frame.planClosed then 2 else 1)

/-- A resident context with work is RUNNABLE (Table 11-3). -/
def wakeCtx (n : Nat) (s : State) : State :=
  if (ctxOf s n).state = .blocked && hasWork s n then updCtx n (fun c => { c with state := .runnable }) s else s

/-! ### Starting a run (R111, R185) -/

def initCore (p : Program) (seed : Word64) (i : Nat) (k : Core) : Core :=
  { t0 := k.t0, banks := k.banks, fpTags := k.fpTags, pc := p.entry, rng := rngSeed seed i, phase := .running
    bankRaw := k.bankRaw, codeRaw := k.codeRaw }

def initCores (p : Program) (seed : Word64) (m : SMap Core) : SMap Core :=
  (List.range (progCores p)).map (fun i => (i, initCore p seed i (mapGet {} m i)))

/-- Start a run of the main program: every core at ENTRY, flags clear, no barrier in progress. -/
def startRun (n : Nat) (u : Run) (s : State) : State :=
  match (ctxOf s n).prog with
  | none => s
  | some p =>
    updCtx n (fun c => { c with
      run := some u, state := .runnable, cores := initCores p u.seed c.cores
      clusters := mapVals (fun k => { k with flags := 0, bars := [] }) c.clusters, xbars := [], sketchBars := [] }) s

/-- Start the sketch run with the words and the seed of the run it serves (R233). -/
def startSketch (n : Nat) (s : State) : State :=
  match (ctxOf s n).run, (ctxOf s n).sketch with
  | some u, some d =>
    if u.sketch then s
    else updCtx n (fun c => { c with run := some { u with sketch := true }, state := .runnable
                                     sketchCores := initCores d.prog u.seed c.sketchCores, sketchBars := [] }) s
  | _, _ => s

/-- Write the decision line on every cluster and set F31 (R234). -/
def writeDecision (n : Nat) (mask : Mask) (frame : Nat) (s : State) : State :=
  let marked := ((List.range 256).filter (fun i => mask.getLsbD i)).length
  let line := leBytes 32 mask.toNat ++ leBytes 8 frame ++ leBytes 2 marked ++
    leBytes 1 (if (ctxOf s n).sketch.isSome then 1 else 0) ++ zeros 21
  onClusters n (fun lc s => setFlag n lc 31 true (t1Write n lc 0 line s)) s

/-- The decision of a context that is resident: the line, F31, the marks of the run, and the sketch run (R233-R235). -/
def applyDecision (n : Nat) (mask : Mask) (frame : Nat) (s : State) : State :=
  let s := writeDecision n mask frame s
  let s := updCtx n (fun c => { c with run := c.run.map (fun u =>
    { u with masks := u.masks ||| mask, missed := if c.sketch.isSome then u.missed else u.missed ||| mask }) }) s
  if mask = 0 then s else startSketch n s

/-! ### The end of a run -/

/-- Every core of a run has executed HALT. -/
def allHalted (p : Program) (m : SMap Core) : Bool := (List.range (progCores p)).all (fun i => (mapGet ({} : Core) m i).phase = .halted)

def mainHalted (c : Context) : Bool := c.prog.any (fun p => allHalted p c.cores)
def sketchHalted (c : Context) : Bool := c.sketch.all (fun d => allHalted d.prog c.sketchCores)

def countMask (nreq : Nat) (m : Mask) : Nat := ((List.range nreq).filter (fun i => m.getLsbD i)).length

/-- Outcome of request `i` (Table 7-7). -/
def outcomeOf (masks missed : Mask) (i : Nat) : Nat := if missed.getLsbD i then 2 else if masks.getLsbD i then 1 else 0

/-- Outcome bytes of a batch, and its status but for what the read of its answer meets (R238, R424). -/
def batchHead (c : Cmd) (masks missed : Mask) : List Byte × Status :=
  let nreq := pktField c.pkt 8 2
  let nm := countMask nreq missed
  let ns := countMask nreq (masks &&& ~~~missed)
  (padTo 256 ((List.range nreq).map (fun i => BitVec.ofNat 8 (outcomeOf masks missed i))),
   if nm = 0 then { stSuccess 0 ns (c.extra % 2 ^ 32) with qual := if ns = 0 then 0 else 1 }
   else { cls := 2, code := 4, r0 := nm, r1 := ns, r2 := c.extra % 2 ^ 32 })

/-- Complete a batch: outcome bytes and answer at RES_OFF, carried by its record (R424, R426). -/
def finishBatch (c : Cmd) (data : Store) (s : State) : State :=
  let resOff := pktField c.pkt 16 4
  let ans := hostBytes data 0 (pktField c.pkt 20 4)
  completeWith c.tag (readStatus (c.result.getD (stSuccess 0 0 0)) (resOff + 256) ans.2)
    (splitWrite (bufPieces c) resOff (c.head ++ ans.1)) s

/-- Granules of the answer that only the peer of an IMPORT object can give (R312). -/
def peerGranules (s : State) (o : Obj) (n : Nat) : List Nat :=
  let p := mapGet {} s.ring.pairs o.ring
  if o.kind = .import_ && p.enable && p.draining.isNone then
    (o.copy.map (fun m => ((segsOf 0 n).map (·.1)).filter (fun g => m.missing.contains g || ((badGranules m).contains g && !unrecoverable s o m g)))).getD []
  else []

/-- A batch is complete but for its answer: the slot-1 object, as it stands, read for the host (R312, R424). -/
def completeBatch (n : Nat) (masks missed : Mask) (c : Cmd) (s : State) : State :=
  let len := pktField c.pkt 20 4
  let c := { c with head := (batchHead c masks missed).1, result := some (batchHead c masks missed).2 }
  match (ctxOf s n).prog.bind (fun p => slotObj s p 1) with
  | none => finishBatch c {} s
  | some id =>
    let s := meetT2 srcHost id 0 len s
    let o := (objOf s id).getD { kind := .scratch, size := 0 }
    let data := (o.copy.map (copyView s o)).getD {}
    match peerGranules s o len with
    | [] => finishBatch c data s
    | gs => updCmd c.tag (fun _ => { c with phase := .running, left := gs.length, home := { data with raw := [] } })
        { s with ring := { s.ring with imports := s.ring.imports ++ gs.map (fun g => { obj := id, granule := g, tag := c.tag }) } }

/-- Read the answer line, zero it, and complete the batch it names (R425). A poisoned line is a bus error of SP1, whose duty goes on
without a token (log entry 105). -/
def answerLine (n : Nat) (s : State) : State :=
  let s := meetT1 srcFirmware n 0 128 64 s
  let bad := storeHit 64 (t1Of s n 0) 128 64
  let token := leNat (storeRead (t1Of s n 0) 128 8)
  let u := (ctxOf s n).run
  let s := t1Write n 0 128 (zeros 64) s
  if bad then logBy 1 13 0 0 n 0 0 s
  else if token = 0 then s
  else
    match s.host.cmds.find? (fun c => pktCtx c.pkt = n && pipeWaiting c && pktField c.pkt 24 8 = token) with
    | none => logBy 1 13 0 0 n 0 0 s
    | some c => completeBatch n ((u.map (fun u => u.mark ||| u.masks)).getD 0) ((u.map (·.missed)).getD 0) c s

/-- A batch run of an EMBED has halted: the command completes when it was the last (R301). -/
def embedHalt (tag : Nat) (s : State) : State :=
  match queryOf s tag with
  | none => s
  | some (slot, q) =>
    let q := { q with runs := q.runs - 1 }
    if q.runs = 0 && q.batches.isEmpty && scanDone q (querySize s q) then finishQuery slot q s
    else { s with scan := { s.scan with slots := mapPut slot q s.scan.slots } }

/-- What the end of a run does for what it served. -/
def runServed (n : Nat) (u : Run) (s : State) : State :=
  match u.kind with
  | .batch =>
    match cmdOf s u.tag with
    | none => s
    | some c => completeBatch n (u.mark ||| u.masks) u.missed c s
  | .pipe => s
  | .step => updCtx n (fun c => { c with steps := c.steps.map (fun x => if x.tag = u.tag then { x with halted := true } else x) }) s
  | .embed => embedHalt u.tag s
  | .stream => s

/-- A context without run or work is BLOCKED, and the rest of its slice is skipped (Table 11-3, R333). -/
def settleCtx (n : Nat) (s : State) : State :=
  if (ctxOf s n).state = .runnable && (ctxOf s n).run.isNone && !hasWork s n then
    updCtx n (fun c => { c with state := .blocked, blockedAt := s.frame.counter.toNat }) (leaveSlice n s)
  else s

/-- The reduction engine becomes unavailable with D2: every step in progress is void, every bucket that is not DONE fails (R342, R367, log
entry 123). -/
def engineLost (s : State) : State :=
  let s := { s with red := { s.red with available := false } }
  let s := s.ctxs.foldl (fun s (c : Nat × Context) => settleCtx c.1 (c.2.steps.foldl (fun s st => voidRun c.1 10 st s) s)) s
  ((s.red.tags.filter (fun t => isOpenTag t.2)).map (fun (t : Nat × RedTag) => t.1)).foldl (fun s t => failTag t 10 s) s

/-- The core has executed HALT or YIELD. -/
def coreRests (k : Core) : Bool :=
  match k.phase with
  | .halted => true
  | .yielded _ => true
  | _ => false

/-- Every core of the program rests. -/
def allRest (p : Program) (m : SMap Core) : Bool := (List.range (progCores p)).all (fun i => coreRests (mapGet ({} : Core) m i))

/-- Every core of the context has executed HALT or YIELD: the rest of its slice is skipped (R333). -/
def skipRest (n : Nat) (s : State) : State :=
  let c := ctxOf s n
  if c.prog.any (fun p => allRest p c.cores) && (!(c.run.any (·.sketch)) || c.sketch.any (fun d => allRest d.prog c.sketchCores)) then leaveSlice n s
  else s

/-- The run ends when every core of the main run, and of any sketch run, has halted (R111, R237). -/
def endIfHalted (n : Nat) (s : State) : State :=
  match (ctxOf s n).run with
  | none => s
  | some u =>
    if mainHalted (ctxOf s n) && (!u.sketch || sketchHalted (ctxOf s n)) then
      settleCtx n (updCtx n (fun c => { c with run := none }) (runServed n u (answerLine n s)))
    else if u.sketch && sketchHalted (ctxOf s n) then updCtx n (fun c => { c with run := some { u with sketch := false } }) s
    else s

end Sys2Proof.Machine
end

