-- ==== Sys2Proof/Machine/FlashDies.lean ====
section
/-! DEFINITION. Dies, superblocks and the start of programs (R59, R241-R243, R253, R256, R259-R262, R266): what is programmed where, what of
it is still needed, and when a program goes to a die. -/

namespace Sys2Proof.Machine

/-! ### Sequence numbers (R253) and what is on the media -/

/-- Draw one sequence number. -/
def drawSeq (s : State) : State := { s with flash := { s.flash with seq := s.flash.seq + 1 } }

/-- Home channel of a granule (R249). -/
def lgaChannel (lga : Nat) : Nat := lga % 32

def slotCovers (t : Slot) (lga : Nat) : Bool :=
  if t.count = 0 then lga < 2 ^ 60 && t.lga / 2 ^ 24 = lga / 2 ^ 24 else t.lga ≤ lga && lga < t.lga + t.count

/-- Every programmed version, with its place. -/
def allVersions (s : State) : List (Loc × Version) :=
  s.flash.supers.flatMap (fun (p : Nat × Super) =>
    p.2.vers.map (fun (v : Nat × Version) =>
      (({ ch := p.1 / 1242 / 48, die := p.1 / 1242 % 48, super := p.1 % 1242, pos := v.1 } : Loc), v.2)))

/-- The highest SEQ of a tombstone that covers an address; 0 where none does. -/
def tombSeq (s : State) (lga : Nat) : Nat :=
  ((allVersions s).flatMap (fun p => if p.2.kind = .tombstone then (p.2.slots.filter (fun t => slotCovers t lga)).map (·.seq) else [])).foldl max 0

def slotSeq (v : Version) (j : Nat) : Nat := (v.slots[j]?.map (·.seq)).getD 0

/-- SEQ of the base the map points at; 0 where the granule is unmapped. -/
def baseSeq (s : State) (lga : Nat) : Nat := (((mapFind lga s.flash.map).bind (versionAt s)).map (fun v => slotSeq v 0)).getD 0

/-- SEQ of a unit in the overlay. -/
def unitSeq (s : State) (lga u : Nat) : Nat :=
  ((mapFind (lga * 16 + u) s.flash.overlay).bind (fun p => (versionAt s p.1).map (fun v => slotSeq v p.2))).getD 0

/-! ### Object records -/

/-- The object table's entry as an object record holds it; the layout is this model's (log entry 30). -/
def recordData (id : Nat) (o : Obj) : List Byte :=
  leBytes 8 id ++ leBytes 4 o.objNo ++ leBytes 1 (if o.kind = .import_ then 2 else 0) ++ leBytes 1 (if o.exported then 1 else 0) ++
  leBytes 1 o.ring ++ zeros 1 ++ leBytes 8 o.size ++ leBytes 2 o.peerContext ++ leBytes 6 o.peerName ++ leBytes 8 o.peerUid.toNat

/-- The object that a record rebuilds: identifier and object. -/
def recordObj (v : Version) : Nat × Obj :=
  let b := storeRead v.data 0 40
  (byteField b 0 8,
   { kind := if byteField b 12 1 = 2 then .import_ else .persistent, size := byteField b 16 8, objNo := byteField b 8 4
     exported := byteField b 13 1 = 1, ring := byteField b 14 1, peerContext := byteField b 24 2, peerName := byteField b 26 6
     peerUid := BitVec.ofNat 64 (byteField b 32 8) })

/-! ### What is still needed (R260, R263, R275) -/

/-- A later good copy of this record or tombstone is programmed. -/
def superseded (s : State) (v : Version) : Bool :=
  (allVersions s).any (fun p => p.2.kind = v.kind && p.2.slots = v.slots && v.pseq < p.2.pseq && p.2.data.poison.isEmpty)

/-- The map or the overlay points at this version, or it is a record or tombstone still needed. -/
def versionLive (s : State) (l : Loc) (v : Version) : Bool :=
  match v.kind with
  | .granule => v.slots.any (fun t => mapFind t.lga s.flash.map = some l)
  | .overlay => v.slots.zipIdx.any (fun p => mapFind (p.1.lga * 16 + p.1.unit) s.flash.overlay = some (l, p.2))
  | .objRecord => tombSeq s ((recordObj v).2.objNo * 2 ^ 24) < slotSeq v 0 && !superseded s v
  | .tombstone =>
    (allVersions s).any (fun p => (p.2.kind = .granule || p.2.kind = .overlay || p.2.kind = .objRecord) &&
      p.2.slots.any (fun t => v.slots.any (fun u => t.seq ≤ u.seq))) && !superseded s v
  | _ => false

/-- Bytes held in SLC superblocks and not yet folded (R260). -/
def slcOccupancy (s : State) : Nat :=
  ((allVersions s).filter (fun p => (superOf s p.1.ch p.1.die p.1.super).slc && versionLive s p.1 p.2)).length * granuleBytes

/-- B of R259, with the units of the overlay counted in their granules. -/
def slcTarget (s : State) : Nat :=
  max 256000000000 (min 6000000000000 ((userBytes s - (mappedLgas s).length * granuleBytes) / 4))

/-! ### Superblocks of a die (R241, R261, R266) -/

/-- Listed superblocks of a die. -/
def dieSupers (s : State) (ch die : Nat) : SMap Super :=
  (s.flash.supers.filter (fun p => p.1 / 1242 = dieKey ch die)).map (fun (p : Nat × Super) => (p.1 % 1242, p.2))

/-- The free pool of a die. -/
def erasedCount (s : State) (ch die : Nat) : Nat := 1242 - ((dieSupers s ch die).filter (fun p => p.2.state != .erased)).length

/-- The erased superblock that `better` prefers, the lowest number among equals. -/
def pickErased (better : Nat → Nat → Bool) (s : State) (ch die : Nat) : Option Nat :=
  let l := dieSupers s ch die
  (List.range 1242).foldl (fun best n =>
    let x := mapGet ({} : Super) l n
    if x.state != .erased then best
    else
      match best with
      | none => some n
      | some b => if better x.wear (mapGet ({} : Super) l b).wear then some n else some b) none

def superCap (slc : Bool) : Nat := if slc then 384 else 1536

/-- New data and merges go to SLC superblocks; folds and relocations to QLC ones (R256, R258, R262). -/
def progSlc (k : ProgKind) : Bool :=
  match k with
  | .fold => false
  | .relocate _ => false
  | _ => true

def progUse (k : ProgKind) : SuperUse :=
  match k with
  | .relocate .level => .level
  | .relocate _ => .reloc
  | _ => .data

/-- The superblock the next program of this kind goes to: the open one, else a new one while more than 24 are erased. Wear levelling takes
the free superblock with the most wear, every other use the one with the least (R266, R267). -/
def targetSuper (s : State) (ch die : Nat) (k : ProgKind) : Option Nat :=
  match (dieSupers s ch die).find? (fun p => p.2.state = .open_ && p.2.slc = progSlc k && p.2.use = progUse k) with
  | some p => some p.1
  | none => if 24 < erasedCount s ch die then pickErased (if progUse k = .level then fun a b => b < a else fun a b => a < b) s ch die else none

/-! ### Reads of dies (R59, R243) -/

/-- Channel of a read. -/
def readChannel (r : ReadOp) : Nat :=
  match r.why with
  | .verify _ dst _ => dst.ch
  | _ => lgaChannel r.lga

/-- Dies that hold the parts of a granule. -/
def homeDies (s : State) (lga : Nat) : List Nat :=
  (((mapFind lga s.flash.map).toList ++ (overlayUnits s lga).map (fun u => u.2.1)).map (fun l => dieKey l.ch l.die)).dedup

/-- Dies of a read: the read-back of a fold goes to that of the copy, any other to every die that holds a part of its granule. -/
def readDies (s : State) (r : ReadOp) : List Nat :=
  if r.started then r.dies
  else
    match r.why with
    | .verify _ dst _ => [dieKey dst.ch dst.die]
    | _ => homeDies s r.lga

/-- A RAW_READ waits for this die. -/
def rawWaits (s : State) (d : Nat) : Bool :=
  s.host.cmds.any (fun c => pktOpcode c.pkt = 0x79 && c.phase = .released && dieKey (pktField c.pkt 8 1) (pktField c.pkt 9 1) = d)

/-- A read is on the die. -/
def readOn (s : State) (d : Nat) : Bool := s.flash.readQ.any (fun r => r.started && r.dies.contains d)

/-- A read is queued for the die. -/
def readQueuedFor (s : State) (d : Nat) : Bool := s.flash.readQ.any (fun r => !r.started && (readDies s r).contains d) || rawWaits s d

/-- The die is free for a read: its program or erase is suspended, or it has none, and no other read is on it. So a channel never has more
operations outstanding than dies (R243). -/
def dieFree (s : State) (d : Nat) : Bool :=
  let x := mapGet ({} : Die) s.flash.dies d
  (x.work.isNone || x.suspended) && !readOn s d

/-- Dies resume their program or erase when no read is left for them. -/
def resumeDies (s : State) : State :=
  { s with flash := { s.flash with dies := s.flash.dies.map (fun (p : Nat × Die) =>
      (p.1, if p.2.suspended && !readOn s p.1 && !readQueuedFor s p.1 then { p.2 with suspended := false } else p.2)) } }

/-! ### Starting programs (R256, R260-R262, Table 8-8) -/

/-- Programs in progress on a channel. -/
def onChannel (s : State) (ch : Nat) : List ProgOp := s.flash.progQ.filter (fun o => o.ch = ch && o.on.isSome)

/-- The channel's bus is idle: no read, and no write to an SLC superblock. -/
def channelIdle (s : State) (ch : Nat) : Bool :=
  s.flash.readQ.all (fun r => readChannel r != ch) && (onChannel s ch).all (fun o => !progSlc o.kind)

/-- New data waits while the SLC buffer is full (R260). -/
def waitsSlc (s : State) (k : ProgKind) : Bool :=
  (k = .write || k = .units || k = .record) && s.flash.slcCapacity ≤ slcOccupancy s

/-- The program runs at urgent level: a refresh, or collection on a die with fewer than 40 erased superblocks. -/
def urgent (s : State) (o : ProgOp) : Bool :=
  match o.kind with
  | .relocate .refresh => true
  | .relocate .collect => erasedCount s o.ch (o.die.getD 0) < 40
  | _ => false

/-- Urgent relocations of a channel that have not started. -/
def urgentOn (s : State) (ch : Nat) : Bool := s.flash.progQ.any (fun o => o.ch = ch && o.on.isNone && urgent s o)

/-- The bus allows the program now: a write unless the buffer is full, an urgent relocation in its turn, anything else on idle bus time; a fold
also while the buffer is full (R260). -/
def busAllows (s : State) (o : ProgOp) : Bool :=
  if progSlc o.kind then !waitsSlc s o.kind
  else channelIdle s o.ch || (urgent s o && o.copies.length ≤ mapGet 0 s.flash.credit o.ch) ||
    (o.kind = .fold && s.flash.slcCapacity ≤ slcOccupancy s)

/-- The die takes the program now: nothing is on it or queued for it, it has a superblock for it, and a write finds more than 24 erased ones.
A relocation stays on its die; a failed program goes to another one (R261, R262, R270). -/
def dieTakes (s : State) (o : ProgOp) (die : Nat) : Bool :=
  let d := dieKey o.ch die
  die < diesPerChannel s && (dieOf s o.ch die).work.isNone && !readOn s d && !readQueuedFor s d && o.die.all (· = die) &&
  o.avoid != some die && (!progSlc o.kind || 24 < erasedCount s o.ch die) && (targetSuper s o.ch die o.kind).isSome

/-- What a start does to the balance of writes and urgent relocations on its channel: one relocation transfer for each write transfer. -/
def creditAfter (s : State) (o : ProgOp) : Nat :=
  if progSlc o.kind then (if urgentOn s o.ch then mapGet 0 s.flash.credit o.ch + 1 else 0) else mapGet 0 s.flash.credit o.ch - o.copies.length

/-- The program starts on a die. -/
def startOn (o : ProgOp) (die n : Nat) (s : State) : State :=
  let f := s.flash
  let s1 := updDie o.ch die (fun x => { x with work := some (.program o.id), suspended := false })
    (updSuper o.ch die n (fun x => { x with state := .open_, slc := progSlc o.kind, use := progUse o.kind }) s)
  bump { s1 with flash := { s1.flash with
    credit := mapSet 0 o.ch (creditAfter s o) f.credit
    progQ := f.progQ.map (fun p => if p.id = o.id then { p with on := some (die, n) } else p) } }

/-- Start a program if it can; which of the dies that take it is a free value (log entry 22). -/
def startProg (s : State) (o : ProgOp) : State :=
  if o.on.isSome || !busAllows s o then s
  else
    let ds := (List.range (diesPerChannel s)).filter (dieTakes s o)
    match ds[(Config.free64 s.nonce).toNat % max 1 ds.length]? with
    | none => s
    | some die => (targetSuper s o.ch die o.kind).elim s (fun n => startOn o die n s)

/-- Relocations that are due go first, then writes, then the rest. -/
def startOrder (s : State) : List ProgOp :=
  let q := s.flash.progQ
  q.filter (urgent s) ++ q.filter (fun o => progSlc o.kind) ++ q.filter (fun o => !progSlc o.kind && !urgent s o)

/-- Start every program that can start, while the flash has power. -/
def startPrograms (s : State) : State :=
  let t := if flashOn s then (startOrder s).foldl startProg s else s
  { s with flash := t.flash, nonce := t.nonce }

def enqProg (o : ProgOp) (s : State) : State :=
  startPrograms { s with flash := { s.flash with progQ := s.flash.progQ ++ [{ o with id := s.flash.nextId }], nextId := s.flash.nextId + 1 } }

end Sys2Proof.Machine
end

