-- ==== Sys2Proof/Machine/FlashEngine.lean ====
section
/-! DEFINITION. The flash translation layer's shared operations (chapter 8): writes by granule and unit, reads and what they find, what a
passed program does to the map, and how a superblock is emptied and erased. -/

namespace Sys2Proof.Machine

/-! ### Writing (R252, R255-R257) -/

/-- What a queued program makes of unit `u` of a granule, with its SEQ. -/
def queuedUnit (lga u : Nat) (o : ProgOp) : Option (Nat × Store) :=
  match o.kind with
  | .write => (o.ver.slots.find? (fun t => t.lga = lga)).map (fun t => (t.seq, storeSub 4096 o.ver.data (u * 4096) 4096))
  | .units =>
    ((o.ver.slots.zipIdx).find? (fun p => p.1.lga = lga && p.1.unit = u)).map (fun p => (p.1.seq, storeSub 4096 o.ver.data (p.2 * 4096) 4096))
  | .record => if o.ver.kind = .tombstone then (o.ver.slots.find? (fun t => slotCovers t lga)).map (fun t => (t.seq, {})) else none
  | _ => none

/-- A unit once the queued writes and trims have passed: that of the highest SEQ. -/
def unitNew (s : State) (lga u : Nat) (old : Store) : Store :=
  (s.flash.progQ.foldl (fun (best : Nat × Store) o =>
    match queuedUnit lga u o with
    | some x => if best.1 < x.1 then x else best
    | none => best) (max (baseSeq s lga) (unitSeq s lga u), old)).2

/-- A granule as the staging buffer and the media hold it: queued writes and trims over the home. -/
def homeNew (s : State) (lga : Nat) : Store :=
  let old := homeRead s lga
  if s.flash.progQ.all (fun o => (List.range 16).all (fun u => (queuedUnit lga u o).isNone)) then old
  else (List.range 16).foldl (fun m u => storePaste 4096 m (u * 4096) 4096 (unitNew s lga u (storeSub 4096 old (u * 4096) 4096))) {}

/-- A write of this granule is in progress. -/
def writing (s : State) (lga : Nat) : Bool :=
  s.flash.progQ.any (fun o => (o.kind = .write || o.kind = .units) && o.ver.slots.any (fun t => t.lga = lga))

/-- What a read that overlaps a write in progress returns: each 4 KiB unit all old or all new (R257, log entry 2). -/
def homeMix (s : State) (lga : Nat) : Store :=
  if writing s lga then
    (List.range 16).foldl (fun m u =>
      if Config.freeBool (s.nonce * 4096 + lga % 256 * 16 + u) then storePaste 4096 m (u * 4096) 4096 (storeSub 4096 (homeNew s lga) (u * 4096) 4096)
      else m) (homeRead s lga)
  else homeRead s lga

/-- Patch bytes into a memory whose code words are 4 KiB; a wholly written code word is no longer poisoned. -/
def patchHome (m : Store) (a : Nat) (bs : List Byte) : Store := storeWrite 4096 m a bs

def enqGranule (tag ctx obj lga : Nat) (data : Store) (s : State) : State :=
  enqProg { id := 0, tag := tag, ctx := ctx, obj := obj, kind := .write, ch := lgaChannel lga,
            ver := { kind := .granule, slots := [{ lga := lga, seq := s.flash.seq }], data := data } } (drawSeq s)

/-- Groups of four. -/
def fours {α : Type} : List α → List (List α)
  | a :: b :: c :: d :: l => [a, b, c, d] :: fours l
  | [] => []
  | l => [l]

/-- Write units of a granule to overlay pages, four to a page. -/
def enqUnits (tag ctx obj lga : Nat) (data : Store) (units : List Nat) (s : State) : State :=
  (fours units).foldl (fun s us =>
    enqProg { id := 0, tag := tag, ctx := ctx, obj := obj, kind := .units, ch := lgaChannel lga,
              ver := { kind := .overlay
                       slots := us.zipIdx.map (fun p => { lga := lga, unit := p.1, seq := s.flash.seq + p.2 })
                       data := us.zipIdx.foldl (fun m p => storePaste 4096 m (p.2 * 4096) 4096 (storeSub 4096 data (p.1 * 4096) 4096)) {} } }
      (us.foldl (fun s _ => drawSeq s) s)) s

/-- Write bytes at an offset of the logical space whose granule `g` is `lgaOf g`: whole granules, or units completed in staging. -/
def writeHome (tag ctx obj : Nat) (lgaOf : Nat → Nat) (off : Nat) (bs : List Byte) (s : State) : State :=
  (segsOf off bs.length).foldl (fun s g =>
    let lga := lgaOf g.1
    let part := (bs.drop (g.1 * granuleBytes + g.2.1 - off)).take g.2.2
    if g.2.2 = granuleBytes then enqGranule tag ctx obj lga { cells := cellsOf 0 part } s
    else enqUnits tag ctx obj lga (patchHome (homeNew s lga) g.2.1 part)
      ((List.range (ceilDiv (g.2.1 + g.2.2) 4096 - g.2.1 / 4096)).map (fun i => g.2.1 / 4096 + i)) s) s

/-- Programs of a command that have not ended. -/
def progsOf (s : State) (tag : Nat) : Nat := (s.flash.progQ.filter (fun o => o.tag = tag)).length

/-- Write a tombstone over ranges (first address, granules; 0 granules the whole object) on a channel (R255). -/
def enqTombstone (tag ctx obj ch : Nat) (ranges : List (Nat × Nat)) (s : State) : State :=
  enqProg { id := 0, tag := tag, ctx := ctx, obj := obj, kind := .record, ch := ch,
            ver := { kind := .tombstone, slots := ranges.zipIdx.map (fun p => { lga := p.1.1, count := p.1.2, seq := s.flash.seq + p.2 }) } }
    (ranges.foldl (fun s _ => drawSeq s) s)

/-- Write an object record: its identifier, number, size and import fields in its data (R255). -/
def enqRecord (tag ctx id : Nat) (o : Obj) (s : State) : State :=
  enqProg { id := 0, tag := tag, ctx := ctx, obj := id, kind := .record, ch := o.objNo % 32,
            ver := { kind := .objRecord, slots := [{ lga := 2 ^ 61 + 1, seq := s.flash.seq }]
                     data := { cells := cellsOf 0 (recordData id o) } } } (drawSeq s)

/-! ### Reads (R225, R257, R281) -/

/-- A read issued for a post. -/
def readPost (r : ReadOp) : Bool :=
  match r.why with
  | .fill _ _ p => p
  | _ => false

/-- A read issued for a fill of OBJ_PLACE or OBJ_PIN, or a repair outside a post. -/
def readFill (r : ReadOp) : Bool :=
  match r.why with
  | .fill _ _ p => !p
  | _ => false

/-- The read fills this object. -/
def readsObj (id : Nat) (r : ReadOp) : Bool :=
  match r.why with
  | .fill o _ _ => o = id
  | _ => false

/-- Queue a read; it starts when its dies are free. -/
def enqRead (lga : Nat) (why : ReadFor) (s : State) : State :=
  { s with flash := { s.flash with readQ := s.flash.readQ ++ [{ id := s.flash.nextId, lga := lga, why := why }], nextId := s.flash.nextId + 1 } }

/-- An accepted post of the frame waits: for a read to start, or for room. -/
def postsWait (s : State) : Bool := s.flash.readQ.any (fun r => readPost r && !r.started) || s.objs.any (fun p => p.2.posted && p.2.waiting)

/-- Start a read if its dies are free; it takes the granule as it stands. -/
def startRead (s : State) (r : ReadOp) : State :=
  if r.started || !(readDies s r).all (dieFree s) then s
  else bump { s with flash := { s.flash with readQ := s.flash.readQ.map (fun x =>
      if x.id = r.id then { x with started := true, dies := readDies s r, snap := homeMix s r.lga } else x) } }

/-- Start die reads in order of request, fills only while no post waits (R56, R225). -/
def startDieReads (s : State) : State :=
  let t := (s.flash.readQ.filter (fun r => !readFill r)).foldl startRead s
  let t := if postsWait t then t else (s.flash.readQ.filter readFill).foldl startRead t
  { s with flash := t.flash, nonce := t.nonce }

/-- The request message of an import (R355, R364); the layout of its body is this model's (log entry 25). -/
def importMsg (s : State) (o : Obj) (g : Nat) (dn : Bool) : RingMsg :=
  { pair := o.ring, dn := dn, vc := 2, kind := 2, dest := posOf s o.ring o.peerUid, src := (pairOf s o.ring).position
    body := leBytes 2 o.peerContext ++ leBytes 6 o.peerName ++ leBytes 8 g }

/-- The way a first request takes: ROUTE SHORTEST (R364). -/
def importWay (s : State) (o : Obj) : Bool := (shortest s o.ring o.peerUid).getD true

/-- Send the import requests that wait, fills only while no post waits. -/
def startImports (s : State) : State :=
  (s.ring.imports.filter (fun i => i.sent = 0 && (i.post || i.tag != 0 || !postsWait s))).foldl (fun s i =>
    match objOf s i.obj with
    | none => s
    | some o => sendRing (importMsg s o i.granule (importWay s o)) { s with ring := { s.ring with imports := s.ring.imports.map (fun j =>
        if j.obj = i.obj && j.granule = i.granule && j.tag = i.tag then { j with sent := 1, dn := importWay s o } else j) } }) s

/-- A read for this object has started. -/
def readBegun (s : State) (id : Nat) : Bool :=
  s.flash.readQ.any (fun r => readsObj id r && r.started) || s.ring.imports.any (fun i => i.obj = id && i.tag = 0 && i.sent != 0)

/-- Note the posts whose reads have started (R227). -/
def markStarted (s : State) : State :=
  { s with objs := s.objs.map (fun p => (p.1, if p.2.posted && readBegun s p.1 then { p.2 with started := true } else p.2)) }

def startReads (s : State) : State := markStarted (startImports (if flashOn s then startDieReads s else s))

/-! ### What a read finds (Table 8-9, R268, R269, R278) -/

/-- Where a unit of a granule is stored: a place and the code word there. -/
def unitPlace (s : State) (lga u : Nat) : Option (Loc × Nat) :=
  match mapFind (lga * 16 + u) s.flash.overlay with
  | some p => some p
  | none => (mapFind lga s.flash.map).map (fun l => (l, u))

/-- Places that a read of a granule reads, one for each superblock. -/
def homePlaces (s : State) (lga : Nat) : List Loc :=
  ((List.range 16).filterMap (fun u => (unitPlace s lga u).map (fun p => { p.1 with pos := 0 }))).dedup

/-- Count reads of superblocks (R268). -/
def countReads (ls : List Loc) (s : State) : State := ls.foldl (fun s l => updSuper l.ch l.die l.super (fun x => { x with reads := x.reads + 1 }) s) s

/-- A code word is poisoned where it is stored. -/
def poisonAt (p : Loc × Nat) (s : State) : State :=
  updSuper p.1.ch p.1.die p.1.super (fun x => { x with vers := x.vers.map (fun (v : Nat × Version) =>
    (v.1, if v.1 = p.1.pos then { v.2 with data := { v.2.data with poison := setAdd p.2 v.2.data.poison } } else v.2)) }) s

/-- A read of these places needed soft decoding: their superblocks are due for a refresh (R268, R269). -/
def markSoft (ch : Nat) (ps : List (Loc × Nat)) (s : State) : State :=
  let s := ps.foldl (fun s p => updSuper p.1.ch p.1.die p.1.super (fun x => { x with due := setAdd 2 x.due }) s) s
  { s with flash := { s.flash with softDecodes := s.flash.softDecodes + 1, chSoft := mapSet 0 ch (mapGet 0 s.flash.chSoft ch + 1) s.flash.chSoft } }

/-- What a read found in code words at these places. -/
def foundAt (ch lga : Nat) (place : Nat → Option (Loc × Nat)) (res : ReadResult) (s : State) : State :=
  match res with
  | .clean => s
  | .soft us => markSoft ch ((us.filter (· < 16)).filterMap place) s
  | .uncorrectable us =>
    let ps := (us.filter (· < 16)).filterMap place
    let s := ps.foldl (fun s p => poisonAt p s) (markSoft ch ps s)
    logEvent 8 0 0 0 ch lga 0 0 { s with flash := { s.flash with
        mediaErrors := s.flash.mediaErrors + ps.length, chMedia := mapSet 0 ch (mapGet 0 s.flash.chMedia ch + ps.length) s.flash.chMedia } }

/-- A read of a granule's home: its superblocks count it, and what it found. -/
def readFound (lga : Nat) (res : ReadResult) (s : State) : State :=
  foundAt (lgaChannel lga) lga (unitPlace s lga) res (countReads (homePlaces s lga) s)

/-- The granule a read delivers: as it stood when the read began, uncorrectable code words poisoned. -/
def readData (r : ReadOp) (res : ReadResult) : Store :=
  match res with
  | .uncorrectable us => { r.snap with poison := (us.filter (· < 16)).foldl (fun l u => setAdd u l) r.snap.poison }
  | _ => r.snap

/-! ### What a passed program does to the map (R257, R263, R273) -/

/-- Units older than `seq` leave the overlay. -/
def dropUnits (lga seq : Nat) (s : State) : State :=
  { s with flash := { s.flash with overlay := s.flash.overlay.filter (fun p => !(p.1 / 16 = lga && unitSeq s lga (p.1 % 16) ≤ seq)) } }

/-- A new whole granule of write sequence `seq` at `l`. -/
def installGranule (lga seq : Nat) (l : Loc) (s : State) : State :=
  if seq ≤ baseSeq s lga || seq < tombSeq s lga then s
  else dropUnits lga seq { s with flash := { s.flash with map := mapPut lga l s.flash.map } }

/-- A merged granule: as a new one, but its base may have the same SEQ as the base it replaces. -/
def installMerge (lga seq : Nat) (l : Loc) (s : State) : State :=
  if seq < baseSeq s lga || seq < tombSeq s lga then s
  else dropUnits lga seq { s with flash := { s.flash with map := mapPut lga l s.flash.map } }

def installUnit (l : Loc) (t : Slot) (j : Nat) (s : State) : State :=
  if t.seq ≤ baseSeq s t.lga || t.seq ≤ unitSeq s t.lga t.unit || t.seq < tombSeq s t.lga then s
  else { s with flash := { s.flash with overlay := mapPut (t.lga * 16 + t.unit) (l, j) s.flash.overlay } }

/-- A tombstone unmaps what it covers and is older than it. -/
def applyTomb (t : Slot) (s : State) : State :=
  { s with flash := { s.flash with
      map := s.flash.map.filter (fun p => !(slotCovers t p.1 && baseSeq s p.1 < t.seq))
      overlay := s.flash.overlay.filter (fun p => !(slotCovers t (p.1 / 16) && unitSeq s (p.1 / 16) (p.1 % 16) < t.seq)) } }

/-- Move the map from a relocated or folded copy to its new place, if it still points at the source (R263). -/
def moveMap (src dst : Loc) (v : Version) (s : State) : State :=
  match v.kind with
  | .granule =>
    v.slots.foldl (fun s t =>
      if mapFind t.lga s.flash.map = some src then { s with flash := { s.flash with map := mapPut t.lga dst s.flash.map } } else s) s
  | .overlay =>
    v.slots.zipIdx.foldl (fun s p =>
      let k := p.1.lga * 16 + p.1.unit
      if mapFind k s.flash.overlay = some (src, p.2) then { s with flash := { s.flash with overlay := mapPut k (dst, p.2) s.flash.overlay } }
      else s) s
  | _ => s

/-- The source of a record that was copied holds nothing valid any more. -/
def dropVersion (l : Loc) (s : State) : State := updSuper l.ch l.die l.super (fun x => { x with vers := mapDel l.pos x.vers }) s

/-- A copy takes over: a merged granule as a merge does, any other where the map still points at its source. -/
def landCopy (src dst : Loc) (v : Version) (merged : Bool) (s : State) : State :=
  if merged then v.slots.foldl (fun s t => installMerge t.lga t.seq dst s) s else moveMap src dst v s

/-- A passed program takes effect: in the map, or, for a fold, once its copies have been read back (R258). -/
def programEffect (o : ProgOp) (ls : List Loc) (s : State) : State :=
  match o.kind with
  | .write => (ls.head?).elim s (fun l => o.ver.slots.foldl (fun s t => installGranule t.lga t.seq l s) s)
  | .units => (ls.head?).elim s (fun l => o.ver.slots.zipIdx.foldl (fun s p => installUnit l p.1 p.2 s) s)
  | .record => if o.ver.kind = .tombstone then o.ver.slots.foldl (fun s t => applyTomb t s) s else s
  | .merge => (ls.head?).elim s (fun l => o.ver.slots.foldl (fun s t => installMerge t.lga t.seq l s) s)
  | .fold => (o.copies.zip ls).foldl (fun s p => enqRead (((p.1.ver.slots.head?).map (·.lga)).getD 0) (.verify p.1.src p.2 p.1.merged) s) s
  | .relocate _ => (o.copies.zip ls).foldl (fun s p => landCopy p.1.src p.2 p.1.ver p.1.merged s) s

/-! ### Copying and merging (R252, R255, R262-R265) -/

/-- Live versions of a superblock. -/
def liveIn (s : State) (ch die n : Nat) : List (Loc × Version) :=
  ((superOf s ch die n).vers.map (fun (p : Nat × Version) => (({ ch := ch, die := die, super := n, pos := p.1 } : Loc), p.2))).filter
    (fun p => versionLive s p.1 p.2)

/-- The read-back of a copy of this place is not complete. -/
def verifying (s : State) (pick : Loc → Bool) : Bool :=
  s.flash.readQ.any (fun r => match r.why with
    | .verify src _ _ => pick src
    | _ => false)

/-- A program or a read-back already copies this place. -/
def copying (s : State) (l : Loc) : Bool := s.flash.progQ.any (fun o => o.copies.any (fun c => c.src = l)) || verifying s (· = l)

/-- A merge of this granule is under way. -/
def merging (s : State) (lga : Nat) : Bool :=
  s.flash.progQ.any (fun o => (o.kind = .merge && o.ver.slots.any (fun t => t.lga = lga)) ||
    o.copies.any (fun c => c.merged && c.ver.slots.any (fun t => t.lga = lga))) ||
  s.flash.readQ.any (fun r => r.lga = lga && (match r.why with
    | .verify _ _ m => m
    | _ => false))

/-- A granule and its overlay units as one new granule, with the largest SEQ among them (R252, R255). -/
def mergedVersion (s : State) (lga : Nat) (copied : Bool) : Version :=
  { kind := .granule, copied := copied, data := homeRead s lga
    slots := [{ lga := lga, seq := ((overlayUnits s lga).map (fun u => unitSeq s lga u.1)).foldl max (baseSeq s lga) }] }

/-- The granule can be merged: no write of it is in progress, which the merge would overtake (R257). -/
def mergeable (s : State) (lga : Nat) : Bool := !writing s lga && !merging s lga

/-- Merge a granule into the SLC buffer. -/
def enqMerge (lga : Nat) (s : State) : State :=
  if mergeable s lga then enqProg { id := 0, tag := 0, kind := .merge, ch := lgaChannel lga, ver := mergedVersion s lga false } s else s

/-- What copies a live version out of its place: a granule with overlay units, and an overlay page, are merged on the way (R252); anything
else keeps its SEQ (R255). Nothing where a copy is under way or must wait. -/
def copiesOf (s : State) (p : Loc × Version) : List Copy :=
  let merge (lga : Nat) : List Copy := if mergeable s lga then [{ src := p.1, ver := mergedVersion s lga true, merged := true }] else []
  let plain : List Copy := if copying s p.1 then [] else [{ src := p.1, ver := { p.2 with copied := true, source := some p.1, metaBad := [] } }]
  match p.2.kind with
  | .granule => if p.2.slots.any (fun t => !(overlayUnits s t.lga).isEmpty) then p.2.slots.flatMap (fun t => merge t.lga) else plain
  | .overlay =>
    ((p.2.slots.zipIdx.filter (fun t => mapFind (t.1.lga * 16 + t.1.unit) s.flash.overlay = some (p.1, t.2))).map (fun t => t.1.lga)).dedup.flatMap merge
  | _ => plain

/-- The copies of these versions, each granule merged once. -/
def gather (s : State) (l : List (Loc × Version)) : List Copy :=
  l.foldl (fun acc p => acc ++ (copiesOf s p).filter (fun c => !c.merged || acc.all (fun d => !(d.merged && d.ver.slots = c.ver.slots)))) []

/-- Queue QLC programs of these copies, four to a program (R242); the sources are read for them. -/
def enqCopies (kind : ProgKind) (ch : Nat) (die : Option Nat) (cs : List Copy) (s : State) : State :=
  (fours cs).foldl (fun s l => enqProg { id := 0, tag := 0, kind := kind, ch := ch, die := die, copies := l } s) (countReads (cs.map (·.src)) s)

/-- Queue what a superblock that is being emptied still holds. -/
def emptyMore (ch die n : Nat) (s : State) : State :=
  match (superOf s ch die n).wanted with
  | none => s
  | some why => enqCopies (.relocate why) ch (some die) (gather s (liveIn s ch die n)) s

/-- Empty a superblock: it takes nothing more, and every live version is copied out of it. -/
def emptySuper (why : RelocWhy) (ch die n : Nat) (s : State) : State :=
  emptyMore ch die n (updSuper ch die n (fun x => { x with wanted := some why, state := if x.state = .open_ then .closed else x.state }) s)

/-- Listed superblocks of a channel, by die and number. -/
def chSupers (s : State) (ch : Nat) : List (Nat × Nat) :=
  (s.flash.supers.filter (fun p => p.1 / 1242 / 48 = ch)).map (fun (p : Nat × Super) => (p.1 / 1242 % 48, p.1 % 1242))

/-- Nothing valid is left in the superblock, and no fold of it waits for its read-back: it may be erased where it is being emptied or was an
SLC one (R260, R263). -/
def erasable (s : State) (ch die n : Nat) : Bool :=
  let x := superOf s ch die n
  x.state = .closed && (x.wanted.isSome || x.slc) && (liveIn s ch die n).isEmpty && !verifying s (fun l => l.ch = ch && l.die = die && l.super = n)

/-- Erase the first superblock of a die that can be erased, where the die is idle. -/
def eraseNext (ch die : Nat) (s : State) : State :=
  let d := dieKey ch die
  if (dieOf s ch die).work.isSome || readOn s d || readQueuedFor s d then s
  else
    match (dieSupers s ch die).find? (fun p => erasable s ch die p.1) with
    | none => s
    | some p => updDie ch die (fun x => { x with work := some (.erase p.1), suspended := false }) (updSuper ch die p.1 (fun x => { x with state := .erasing }) s)

/-- Carry a channel's work on after something on it has ended: resume dies, start reads, go on emptying superblocks, erase what is empty, start
programs. -/
def flashGo (ch : Nat) (s : State) : State :=
  let s := startReads (resumeDies s)
  if flashOn s then
    let t := (chSupers s ch).foldl (fun s p => emptyMore ch p.1 p.2 s) s
    startPrograms { s with
      flash := ((((chSupers t ch).map (·.1)).dedup).foldl (fun s d => eraseNext ch d s) t).flash, nonce := t.nonce }
  else s

end Sys2Proof.Machine
end

