-- ==== Sys2Proof/Machine/Fills.lean ====
section
/-! DEFINITION. The prefetch engine (R213, R220-R226, R311, R364): how copies get their granules, what a landed granule does, and
which commands wait for residency. -/

namespace Sys2Proof.Machine

/-- Every byte of a granule in the poison state (R309). -/
def poisonAll (m : Store) (len : Nat) : Store := { m with poison := List.range (ceilDiv len 64) }

/-! ### Commands that wait for residency -/

/-- The T1 copies a binding asks for are there; a binding that leaves at the next update point asks for none. -/
def boundOk (o : Obj) : Bool := o.dropBinding || o.binding.all (·.filled)

/-- What the command waits for is resident: every copy the placement asks for (R213), or the copies that the pin's LEVEL names; level 0
waits for none (R220). -/
def tagReady (s : State) (o : Obj) (tag : Nat) : Bool :=
  match cmdOf s tag with
  | none => true
  | some c =>
    if pktOpcode c.pkt = 0x34 then
      (match pktField c.pkt 14 1 with
        | 0 => true
        | 1 => t2Complete o
        | _ => t2Complete o && boundOk o)
    else (!o.wantT2 || t2Complete o) && boundOk o

/-- Complete the OBJ_PLACE and OBJ_PIN commands of an object whose copies are resident. -/
def checkPlaced (id : Nat) (s : State) : State :=
  match objOf s id with
  | none => s
  | some o =>
    let ready := o.fillTags.filter (tagReady s o)
    ready.foldl (fun s t => complete t (stSuccess 0 0 0) s)
      (updObj id (fun o => { o with fillTags := o.fillTags.filter (fun t => !ready.contains t) }) s)

/-- The fills of an object end with a status of their own (Table 10-3, R364). -/
def failFills (id : Nat) (st : Status) (s : State) : State :=
  match objOf s id with
  | none => s
  | some o => o.fillTags.foldl (fun s t => complete t st s) (updObj id (fun o => { o with fillTags := [] }) s)

/-! ### Granules of a copy -/

/-- A granule lands in a T2 copy, or nothing where the copy is gone or has it already (R364: twice is written once). -/
def putGranule (id g : Nat) (data : Store) (s : State) : State :=
  updObj id (fun o => match o.copy with
    | none => o
    | some c => if c.missing.contains g then
        { o with copy := some { c with data := storePaste 64 c.data (g * granuleBytes) granuleBytes data, missing := setDel g c.missing } }
      else o) s

/-- The read fills this granule of this object. -/
def fillsGranule (id g : Nat) (r : ReadOp) : Bool :=
  match r.why with
  | .fill o h _ => o = id && h = g
  | _ => false

/-- A read of this granule is under way. -/
def readQueued (s : State) (id g : Nat) : Bool :=
  s.flash.readQ.any (fillsGranule id g) || s.ring.imports.any (fun i => i.obj = id && i.granule = g && i.tag = 0)

/-- The pair an import uses is disabled (Table 11-6), or its ring is OVERSIZE and carries no imports (R353). -/
def importRefused (s : State) (o : Obj) : Bool :=
  o.kind = .import_ && (!(pairOf s o.ring).enable || (pairOf s o.ring).draining.isSome || (pairOf s o.ring).oversize)

/-- A post takes over the read of a granule that a fill has queued: it goes behind the reads of the posts accepted before (R225). -/
def promoteRead (id g : Nat) (s : State) : State :=
  let mine (r : ReadOp) : Bool := fillsGranule id g r && !r.started
  { s with
    flash := { s.flash with readQ := s.flash.readQ.filter (fun r => !mine r) ++
      (s.flash.readQ.filter mine).map (fun r => { r with why := .fill id g true }) }
    ring := { s.ring with imports := s.ring.imports.map (fun i =>
      if i.obj = id && i.granule = g && i.tag = 0 then { i with post := true } else i) } }

/-- Queue the read of one missing granule: an import request or a flash read; where MAPPED and OVERLAY are 0 the granule lands at once, as
zeros or as the writes in progress will leave it (R251, log entry 108). -/
def issueGranule (id : Nat) (o : Obj) (post : Bool) (s : State) (g : Nat) : State :=
  if readQueued s id g then (if post then promoteRead id g s else s)
  else
    match o.kind with
    | .import_ => { s with ring := { s.ring with imports := s.ring.imports ++ [{ obj := id, granule := g, post := post }] } }
    | _ => if noMedia s (objLga o g) then putGranule id g (toLines (homeNew s (objLga o g))) s else enqRead (objLga o g) (.fill id g post) s

/-- The engine holds no room for another object in flight (R224). -/
def flightFull (s : State) (id : Nat) : Bool := 8192 ≤ s.inFlight.length && !s.inFlight.contains id

/-- Issue every missing granule of a copy in order, and note the object in flight (R224, R225). A post that needed no die has nothing left to
drop (R227). -/
def issueMissing (id : Nat) (post : Bool) (s : State) : State :=
  match objOf s id with
  | none => s
  | some o =>
    if (o.copy.map (·.missing)).all (·.isEmpty) then updObj id (fun o => { o with started := o.started || o.posted }) s
    else if importRefused s o then failFills id stUnitUnavailable s
    else if flightFull s id then updObj id (fun o => { o with waiting := true }) s
    else
      let s := ((o.copy.map (·.missing)).getD []).foldl (issueGranule id o post) s
      startReads (if objBusy s id then { s with inFlight := setAdd id s.inFlight }
        else updObj id (fun o => { o with started := o.started || o.posted }) s)

/-- Recoverable poisoned granules are read again from the home (R311). -/
def markRepairs (id : Nat) (s : State) : State :=
  updObj id (fun o => match o.copy with
    | none => o
    | some c =>
      let gs := (badGranules c).filter (fun g => !unrecoverable s o c g)
      { o with copy := some { c with missing := gs.foldl (fun l g => setAdd g l) c.missing } }) s

/-- Fill an object: make room and give it a T2 copy where it has none (R223), and issue what is missing. -/
def startFill (id : Nat) (post : Bool) (s : State) : State :=
  match objOf s id with
  | none => s
  | some o =>
    if o.kind = .scratch then s
    else if o.copy.isSome then checkPlaced id (issueMissing id post (updObj id (fun o => { o with waiting := false }) (markRepairs id s)))
    else
      match makeRoom (objCtx id) (roundUp o.size granuleBytes) s with
      | none => updObj id (fun o => { o with waiting := true }) s
      | some s =>
        checkPlaced id (issueMissing id post
          (updObj id (fun o => { o with
            copy := some { missing := List.range (granules o) }, waiting := false, lastUse := if post then s.frame.counter.toNat else 0 }) s))

/-- The object still needs a T2 copy for what the placement, a pin or a binding asks. -/
def needsT2 (o : Obj) : Bool := o.wantT2 || o.pin != 0 || !boundOk o

/-- Retry the fills of a context that wait for room (R223). -/
def retryFills (n : Nat) (s : State) : State :=
  ((objsOf s n).filter (fun p => p.2.waiting)).foldl (fun s p => startFill p.1 p.2.posted s) s

/-- A granule that was read for a fill lands: poison poisons the whole granule, and ends a placement or pin in MEDIA_ERROR (R269,
Table 10-3). -/
def landGranule (id g : Nat) (data : Store) (s : State) : State :=
  match objOf s id with
  | none => s
  | some o =>
    let bad := !data.poison.isEmpty
    let s := putGranule id g (if bad then poisonAll data (granuleLen o g) else data) s
    let s := if bad then failFills id (stMediaError 0 0) s else s
    checkPlaced id (pruneFlight s)

/-! ### T1 bindings -/

/-- Bytes of T1 a piece takes. -/
def pieceSpan (b : Binding) (i : Nat) : Nat := pieceLen b.len b.count b.stripe i

/-- Deliver a binding to its clusters. -/
def deliverBinding (n : Nat) (b : Binding) (data : Store) (s : State) : State :=
  (List.range b.count).foldl (fun s i => t1Write n (b.first + i) b.t1Addr (pieceBytes b data i) s) s

/-- The binding is filled from a complete T2 copy while the context holds its clusters (R212). -/
def fillBinding (id : Nat) (s : State) : State :=
  match objOf s id with
  | none => s
  | some o =>
    match o.binding, o.copy with
    | some b, some c =>
      if b.filled || !t2Complete o || (ctxOf s (objCtx id)).alloc.isEmpty then s
      else checkPlaced id (updObj id (fun o => { o with binding := some { b with filled := true } })
        (deliverBinding (objCtx id) b c.data s))
    | _, _ => s

end Sys2Proof.Machine
end

