-- ==== Sys2Proof/Machine/Checks.lean ====
section
/-! DEFINITION. The checks of a packet's fields against the state, the refusals in the order of R523, and running a host opcode on its
command (R19, R22, R202, R211, R212, R318, R337, R414, R416, R417, R485). -/

namespace Sys2Proof.Machine

/-! ### Bindings (R211, R212) -/

/-- Clusters of `d` domains (R320): the Q96 has five in D17. -/
def clustersOfDomains (s : State) (d : Nat) : Nat := min (10 * d) (clustersPresent s)

/-- The binding a packet asks for. -/
def packetBinding (p : PacketBits) : Binding :=
  { off := pktField p 16 8, len := pktField p 24 8, t1Addr := pktField p 32 4, first := pktField p 36 2, count := pktField p 38 2
    stripe := pktField p 15 1 = 1, elem := pktField p 40 1, rows := pktField p 42 2, rowBytes := pktField p 44 4 }

/-- Two bindings meet on a cluster (R212). -/
def bindingsMeet (a b : Binding) : Bool :=
  (List.range a.count).any (fun i =>
    b.first ≤ a.first + i && a.first + i < b.first + b.count &&
    overlaps a.t1Addr (pieceSpan a i) b.t1Addr (pieceSpan b (a.first + i - b.first)))

/-- A piece is no whole number of rows, or its row count times the element size is no multiple of 64 (R211). -/
def rowsBad (b : Binding) : Bool :=
  (List.range b.count).any (fun i => pieceSpan b i % b.rowBytes != 0 || pieceSpan b i / b.rowBytes * elemBytes b.elem % 64 != 0)

/-- A full piece is not ROWS × ROW_BYTES bytes, or its rows do not fit (R211): RANGE_LEN is the lowest of the fields concerned (R19). -/
def shapeBad (b : Binding) : Bool :=
  pieceSpan b 0 != b.rows * b.rowBytes || b.rowBytes = 0 || rowsBad b

/-- Offending fields of a binding (R211, R212). -/
def bindingErr (s : State) (id : Nat) (o : Obj) (b : Binding) : List Nat :=
  errIf (b.off % 64 != 0 || o.size < b.off + b.len) 16 ++
  errIf (b.len = 0 || b.len % 64 != 0 || (b.elem != 0 && b.elem ≤ 3 && b.count != 0 && shapeBad b)) 24 ++
  errIf (b.t1Addr % 64 != 0 || b.t1Addr < 192 ||
    (objsOf s (objCtx id)).any (fun p => p.1 != id && p.2.binding.any (fun x => bindingsMeet b x))) 32 ++
  errIf (clustersOfDomains s (ctxOf s (objCtx id)).domains < b.first + b.count) 36 ++ errIf (b.count = 0) 38 ++
  errIf (b.elem != 0 && b.rowBytes % elemBytes b.elem != 0) 40

/-! ### Fields against the state (R19, R416) -/

/-- NAME of an object command. -/
def pktName (p : PacketBits) : Nat := pktField p 8 6

/-- An OBJ_DELETE accepted before, and not complete, names the same object (R417). -/
def deletePending (s : State) (tag : Nat) (p : PacketBits) : Bool :=
  s.host.cmds.any (fun d => d.tag != tag && pktOpcode d.pkt = 0x36 && pktCtx d.pkt = pktCtx p && pktName d.pkt = pktName p)

/-- An OBJ_CREATE accepted before, and not complete, names the same object. -/
def createPending (s : State) (p : PacketBits) : Bool :=
  s.host.cmds.any (fun d => pktOpcode d.pkt = 0x30 && pktCtx d.pkt = pktCtx p && pktName d.pkt = pktName p)

/-- A command accepted before, and not complete, has this opcode and the same context. -/
def pendingFor (s : State) (tag op : Nat) (p : PacketBits) : Bool :=
  s.host.cmds.any (fun d => d.tag != tag && pktOpcode d.pkt = op && pktCtx d.pkt = pktCtx p)

/-- Fields of an object command that its object makes invalid. -/
def objectErrs (s : State) (p : PacketBits) : List Nat :=
  let id := objId (pktCtx p) (pktName p)
  let past (o : Obj) : List Nat := errIf (o.size < pktField p 16 8 + pktBufLen p) 16
  match objOf s id with
  | none => errIf (!createPending s p) 8
  | some o =>
    match pktOpcode p with
    | 0x30 => [8]
    | 0x31 => if bitOf (pktField p 14 1) 1 then bindingErr s id o (packetBinding p) else []
    | 0x32 => errIf (o.kind = .import_) 8 ++ past o
    | 0x33 => past o
    | _ => []

/-- LENGTH of a log page (Tables 19-1 to 19-6, R504). -/
def logLength (s : State) (lid : Nat) : Nat :=
  match lid with
  | 1 => 64 + 64 * s.logs.errors.length
  | 2 => 1216
  | 3 => 512
  | 4 => 24736
  | 5 => 320
  | _ => 4400

/-- Fields that the state of the context and of the object makes invalid where nothing accepted before can change it: they are counted beside
the packet's own where the packet is refused, so that the lowest is reported (R19). -/
def lateErrs (s : State) (tag : Nat) (p : PacketBits) : List Nat :=
  let op := pktOpcode p
  if op = 2 then errIf (logLength s (pktField p 8 1) ≤ pktField p 16 8) 16
  else if !namesCtx p || op = 7 then []
  else
    errIf (if op = 0x20 then ctxDefined s (pktCtx p) && !pendingFor s tag 0x21 p else !ctxDefined s (pktCtx p) && !pendingFor s tag 0x20 p) 2 ++
    (if isObject op || isQuery op then objectErrs s p else [])

/-- Fields that acceptance checks against the state: a context that is not defined, or for an execution command has no program unless it is
being destroyed (R337, R342, R421), a second SLEEP (R485), and an object that is being deleted (R417). -/
def acceptErrs (s : State) (tag : Nat) (p : PacketBits) : List Nat :=
  let op := pktOpcode p
  let c := ctxOf s (pktCtx p)
  errIf (((op = 0x21 || op = 0x40 || op = 0x41 || (op = 7 && namesCtx p)) && c.state = .free) ||
    ((op = 0x40 || op = 0x41) && c.prog.isNone && c.state != .destroying)) 2 ++
  errIf (op = 0x0B && s.host.cmds.any (fun d => d.tag != tag && pktOpcode d.pkt = 0x0B)) 8 ++
  errIf ((isObject op || isQuery op) && deletePending s tag p) 8

/-- The mask ROM serves the task window itself (R447). -/
def recoveryWindow (s : State) : Bool := s.host.devState = .fault && s.ef.activeSlot.isNone

/-- Opcodes that the recovery window refuses (R447). -/
def recoveryRefuses (s : State) (op : Nat) : Bool := recoveryWindow s && [0x02, 0x08, 0x09].contains op

/-- The refusal of a packet in the order of R523, steps 1 to 4. -/
def packetRefusal (s : State) (tag : Nat) (p : PacketBits) : Option Status :=
  if !opcodes.contains (pktOpcode p) then some stInvalidOpcode
  else if !lifecycleAllows s.sec.lifecycle p || !keyAllows s (pktOpcode p) || recoveryRefuses s (pktOpcode p) then some stLifecycle
  else if !opcodeFitted s (pktOpcode p) then some stUnsupported
  else
    match packetErrs s p ++ acceptErrs s tag p with
    | [] => none
    | e :: l => (firstErr (e :: l ++ lateErrs s tag p)).map (fun o => stInvalidField o 0)

/-! ### Running a host opcode on its accepted command -/

/-- An earlier SET_FEATURE of the same feature and selector is still to be taken up (R417). -/
def featureBehind (s : State) (c : Cmd) : Bool :=
  (s.host.cmds.takeWhile (fun d => d.tag != c.tag)).any (fun d =>
    pktOpcode c.pkt = 0x03 && pktOpcode d.pkt = 0x03 && d.phase = .released && pktField d.pkt 8 1 = pktField c.pkt 8 1 &&
    pktField d.pkt 10 2 = pktField c.pkt 10 2 && pktCtx d.pkt = pktCtx c.pkt)

/-- Run a meaning on the released command with this tag and opcode once its input has landed; the entry list is checked first,
after the packet (R19, R414). On any other state there is no such event (log entry 1). -/
def onCmd (op tag : Nat) (sel : PacketBits → Bool) (f : Cmd → State → State) (s : State) : State :=
  match cmdOf s tag with
  | none => s
  | some c =>
    if pktOpcode c.pkt = op && sel c.pkt && c.phase = .released && inputReady c && (pktBufKind c.pkt = 0 || dmaReady s) && unitAwake s c.pkt && !featureBehind s c then
      match listErr c with
      | some st => complete tag (match firstErr (lateErrs s tag c.pkt) with
        | some o => stInvalidField o 0
        | none => st) s
      | none => f c s
    else s

end Sys2Proof.Machine
end

