-- ==== Sys2Proof/Machine/HostReads.lean ====
section
/-! DEFINITION. Reads of a home for the host: OBJ_READ without a T2 copy and BLK_READ (R208, R247, R251, R269, R312, R364). -/

namespace Sys2Proof.Machine

/-- The object a command names. -/
def cmdObj (c : Cmd) : Nat := objId (pktCtx c.pkt) (pktField c.pkt 8 6)

def isBlkRead (c : Cmd) : Bool := pktOpcode c.pkt = 0x50

/-- First byte and bytes of a host read. -/
def readSpan (c : Cmd) : Nat × Nat :=
  if isBlkRead c then (pktField c.pkt 16 8 * 4096, pktField c.pkt 24 4 * 4096) else (pktField c.pkt 16 8, pktBufLen c.pkt)

def isImport (s : State) (c : Cmd) : Bool := !isBlkRead c && (objOf s (cmdObj c)).any (fun o => o.kind = .import_)

/-- Logical address of granule `g` of what the command reads. -/
def readLga (s : State) (c : Cmd) (g : Nat) : Nat := if isBlkRead c then blkLga g else ((objOf s (cmdObj c)).map (fun o => objLga o g)).getD 0

/-- Pieces joined, the zeroed code words counted from the start of the buffer (R312). -/
def joinReads : List (List Byte × Option (Nat × Nat)) → Nat → List Byte × Option (Nat × Nat)
  | [], _ => ([], none)
  | p :: l, off =>
    let r := joinReads l (off + p.1.length)
    (p.1 ++ r.1, match p.2, r.2 with
      | none, x => x
      | some a, none => some (off + a.1, a.2)
      | some a, some b => some (off + a.1, a.2 + b.2))

/-- Every granule is there: the bytes go to the host, poisoned code words as zeros (R312). -/
def finishRead (c : Cmd) (s : State) : State :=
  let m := meetStaging c (readSpan c).1 (readSpan c).2
  let r := joinReads ((segsOf (readSpan c).1 (readSpan c).2).map (fun g => hostBytes m (g.1 * granuleBytes + g.2.1) g.2.2)) 0
  reply c 0 r.1 (readStatus (stSuccess 0 0 0) 0 r.2) (logStaging c (readSpan c).1 (readSpan c).2 s)

/-- One more granule of a host read, or of a batch's answer, is there. -/
def readStep (tag : Nat) (s : State) : State :=
  match cmdOf s tag with
  | none => s
  | some c =>
    if c.phase = .running then
      (if c.left ≤ 1 then (if c.head.isEmpty then finishRead c s else finishBatch c c.home s) else updCmd tag (fun d => { d with left := d.left - 1 }) s)
    else s

/-- A granule of a host read lands in staging (R210). -/
def landHost (tag g : Nat) (data : Store) (s : State) : State :=
  readStep tag (updCmd tag (fun d => { d with home := storePaste 64 d.home (g * granuleBytes) granuleBytes data }) s)

/-- Granules a host read meets. -/
def readGranules (c : Cmd) : List Nat := (segsOf (readSpan c).1 (readSpan c).2).map (fun g => g.1)

/-- Read these granules of a home for the host over what staging already holds; a granule that involves no die is zeros at once (R251). -/
def startHostRead (c : Cmd) (gs : List Nat) (have_ : Store) (s : State) : State :=
  match objOf s (cmdObj c), isImport s c && !gs.isEmpty with
  | some o, true =>
    if importRefused s o then complete c.tag stUnitUnavailable s
    else
      startReads (updCmd c.tag (fun d => { d with home := have_ }) (gs.foldl (fun s g => { s with ring := { s.ring with
        imports := s.ring.imports ++ [{ obj := cmdObj c, granule := g, tag := c.tag }] } }) (keepRunning c gs.length s)))
  | _, _ =>
    let need := gs.filter (fun g => !noMedia s (readLga s c g))
    let home := (gs.filter (fun g => noMedia s (readLga s c g))).foldl (fun m g => storePaste 64 m (g * granuleBytes) granuleBytes {}) have_
    let d := { c with home := home }
    if need.isEmpty then finishRead d s
    else startReads (updCmd c.tag (fun d => { d with home := home })
      (need.foldl (fun s g => enqRead (readLga s c g) (.host c.tag g) s) (keepRunning c need.length s)))

end Sys2Proof.Machine
end

