-- ==== Sys2Proof/Machine/StatusRing.lean ====
section
/-! DEFINITION. The status ring: records and their bytes (R404), the window's capacity (R391, R426), what a window writes (R405, R406)
and the registers of BAR0 as a read returns them (Table 14-4). -/

namespace Sys2Proof.Machine

/-! ### Capacity of a window -/

/-- Bytes that 0.95 of the link rate carries in 10 µs: lanes, and GT/s in tenths (R391). -/
def windowBytes (p : Pcie) : Nat :=
  let raw := p.linkWidth * p.linkRate * 125 * 95
  if 80 ≤ p.linkRate then raw * 128 / (130 * 100) else raw * 8 / (10 * 100)

def windowRecords (p : Pcie) : Nat := min 1024 (windowBytes p / 32)

/-! ### Records (Table 14-7) -/

def recordBytes (phase : Bool) (r : Record) : List Byte :=
  leBytes 2 r.hostId ++ leBytes 1 r.opcode ++ leBytes 1 ((if phase then 1 else 0) + 2 * r.kind) ++ leBytes 4 r.tag ++
  leBytes 1 r.status.cls ++ leBytes 1 r.status.code ++ leBytes 2 (r.status.qual + (if r.deferred then 4 else 0)) ++
  leBytes 4 r.frame ++ leBytes 4 r.status.r0 ++ leBytes 4 r.status.r1 ++ leBytes 4 r.status.r2 ++ leBytes 2 r.ctx ++ zeros 2

def ringSize (h : HostIf) : Nat := 2 ^ h.log2Size
def ringBase (h : HostIf) : Nat := h.baseHi.toNat * 2 ^ 32 + h.baseLo.toNat * 4096

/-- Free slots (R406), after the records already written in this window. -/
def freeSlots (h : HostIf) : Nat := (h.head + 2 * ringSize h - (h.tail + h.written) % ringSize h - 1) % ringSize h

def resultBytes (r : Record) : Nat := (r.result.map (·.2.length)).foldl (· + ·) 0

/-- Write one record, its result bytes ahead of it (R426). -/
def putRecord (r : Record) (s : State) : State :=
  let h := s.host
  let i := h.tail + h.written
  let phase := if i / ringSize h % 2 = 1 then !h.phase else h.phase
  let s := r.result.foldl (fun s w => hostWrite w.1 w.2 s) s
  let s := hostWrite (ringBase h + 32 * (i % ringSize h)) (recordBytes phase r) s
  { s with host := { s.host with written := h.written + 1, winRecs := h.winRecs + 1, winBytes := h.winBytes + 32 + resultBytes r } }

/-- How many records from the front fit a window of `recs` records and `bytes` bytes. -/
def fitCount : Nat → Nat → List Record → Nat
  | _, _, [] => 0
  | recs, bytes, r :: l =>
    if recs = 0 || bytes < 32 + resultBytes r then 0 else fitCount (recs - 1) (bytes - 32 - resultBytes r) l + 1

/-- A record of the ring's own kinds, with the current frame (Table 14-8). -/
def eventRecord (s : State) (kind r0 r1 r2 : Nat) : Record :=
  { kind := kind, status := stSuccess r0 r1 r2, frame := s.frame.counter.toNat % 2 ^ 32 }

/-- The status ring can be written: it is enabled and host DMA is possible (R394, R403). -/
def ringOpen (s : State) : Bool := s.host.enable && dmaReady s

/-- Write as many of the records due as a window allows; the rest are held (R405, R406). -/
def writeDue (due : List Record) (s : State) : State :=
  let fit := fitCount (windowRecords s.pcie - s.host.winRecs) (windowBytes s.pcie - s.host.winBytes) due
  let free := freeSlots s.host
  let n := if fit ≤ free then fit else free - 1
  let held := due.drop n
  let s := (due.take n).foldl (fun s r => putRecord r s) s
  let s := { s with host := { s.host with heldRecs := held.map (fun r => { r with deferred := true }) } }
  if fit ≤ free || free = 0 then s
  else
    { putRecord (eventRecord s 3 held.length ((held.head?.map (·.frame)).getD 0) 0) s with
      host := { (putRecord (eventRecord s 3 held.length ((held.head?.map (·.frame)).getD 0) 0) s).host with overflow := true } }

/-- A window opens: nothing is written in it (R391, R426). -/
def openWindow (s : State) : State := { s with host := { s.host with winRecs := 0, winBytes := 0 } }

/-- The WRAP record of a frame whose low 32 bits are 0 (R64). -/
def wrapDue (s : State) : List Record :=
  if s.frame.counter.toNat % 2 ^ 32 = 0 then [eventRecord s 1 (s.frame.counter.toNat / 2 ^ 32) 0 0] else []

/-- The status-write window of a tick (R53, R405): held records, the completions of the frame, a WRAP record. -/
def writeWindow (s : State) : State :=
  let due := s.host.heldRecs ++ s.host.done ++ wrapDue s
  let s := openWindow { s with host := { s.host with done := [] } }
  if ringOpen s then writeDue due s else { s with host := { s.host with heldRecs := due.map (fun r => { r with deferred := true }) } }

/-! ### Registers of BAR0 (Table 14-4) -/

def devStateCode (d : DevState) : Nat :=
  match d with
  | .booting => 0
  | .gesso => 1
  | .rebuilding => 2
  | .ready => 3
  | .sleep => 4
  | .fault => 5

def taskStateCode (t : TaskState) : Nat :=
  match t with
  | .idle => 0
  | .busy => 1
  | .accepted => 2
  | .rejected => 3

def devStateWord (s : State) : Nat :=
  devStateCode s.host.devState + s.host.sleepLevel % 4 * 2 ^ 4 + s.host.faultCause % 256 * 2 ^ 8 + s.host.progress % 256 * 2 ^ 16

/-- CAP0-CAP7 (0x0300-0x031C). -/
def capWord (s : State) (i : Nat) : Nat :=
  match i with
  | 0 => (if isQ96 s then 0x0F0F else 0xFFFF) + (2 ^ portPairs s - 1) * 2 ^ 16
  | 1 => 0xFFFFFFFF
  | 2 => (2 ^ computeDomains s - 1) + bit (hasReduction s) 25
  | 3 => clustersPresent s + clustersPresent s * 100 * 2 ^ 16
  | 4 => diesPerChannel s + 32 * 2 ^ 8 + (if isQ96 s then 84 else 168) * 2 ^ 16
  | 5 => (if isQ96 s then 376 + 384 * 2 ^ 16 else 752 + 768 * 2 ^ 16)
  | 6 => 1 + 1 * 2 ^ 8 + 32 * 2 ^ 16
  | _ => 0

/-- A 4-byte read of BAR0 at an aligned offset, without its capture (R397, R18). -/
def bar0Read (s : State) (off : Nat) : Nat :=
  let h := s.host
  if off < 0x40 then bitsOf h.taskPkt.toNat (8 * off + 31) (8 * off)
  else if 0x300 ≤ off && off < 0x320 then capWord s ((off - 0x300) / 4)
  else
    match off with
    | 0x44 => taskStateCode h.taskState + h.goSeq.toNat * 2 ^ 8
    | 0x48 => h.devTag
    | 0x4C => h.reason
    | 0x100 => h.baseLo.toNat * 2 ^ 12
    | 0x104 => h.baseHi.toNat
    | 0x108 => h.log2Size
    | 0x10C => h.tail
    | 0x110 => h.head
    | 0x114 => bit h.enable 0 + bit h.overflow 1 + bit h.hbEnable 2 + bit h.phase 3 + bit (!h.heldRecs.isEmpty) 4 + h.hbInterval * 2 ^ 8
    | 0x118 => h.heldRecs.length
    | 0x11C => outstanding s
    | 0x200 => devStateWord s
    | 0x204 => s.frame.counter.toNat % 2 ^ 32
    | 0x208 => s.frame.capture.toNat / 2 ^ 32
    | _ => 0

end Sys2Proof.Machine
end

