-- ==== Sys2Proof/Machine/HostIf.lean ====
section
/-! DEFINITION. The host's side of the module (chapter 14): the task window, acceptance, arbitration and release, BAR0 writes,
configuration writes, host DMA and the status ring's own events. -/

namespace Sys2Proof.Machine

/-! ### The task window (R398-R402) -/

/-- BAR0 decodes (R394). -/
def bar0On (s : State) : Bool := s.pcie.mse

def goWrite (v : Word32) (s : State) : State :=
  if v.getLsbD 0 && s.host.taskState != .busy then
    { s with host := { s.host with goCopy := s.host.taskPkt, taskState := .busy, goSeq := s.host.goSeq + 1 } }
  else s

/-- GO (R398). -/
def execGo (value : Word32) (s : State) : Host.Outcome State Fault Refusal := unitOp true (if bar0On s then goWrite value s else s)

/-- Opcodes accepted in FAULT (Table 14-5). -/
def faultOpcode (op : Nat) : Bool := [0x01, 0x02, 0x05, 0x06, 0x08, 0x09].contains op

/-- REASON of a rejection, the lowest that applies; 0 for none (R400, R401). -/
def rejectReason (s : State) (p : PacketBits) : Nat :=
  let n := outstanding s
  if 1024 ≤ n && !(pktOpcode p = 7 && n < 1032) then 1
  else if !s.host.enable then 2
  else if s.host.devState = .booting || s.host.devState = .gesso || (s.host.devState = .fault && !faultOpcode (pktOpcode p)) then 3
  else if !s.pcie.bme then 4
  else 0

/-- Device tags run from 1 and skip 0 (R399). -/
def tagAfter (t : Nat) : Nat := if t + 1 = 2 ^ 32 then 1 else t + 1

/-- The CTX_DESTROY in progress of a context. -/
def destroyTag (s : State) (n tag : Nat) : Nat :=
  ((s.host.cmds.find? (fun d => d.tag != tag && pktOpcode d.pkt = 0x21 && pktCtx d.pkt = n)).map (·.tag)).getD 0

/-- Execution commands of a context accepted and not complete (R337). -/
def execCount (s : State) (n tag : Nat) : Nat :=
  (s.host.cmds.filter (fun d => d.tag != tag && isExecution (pktOpcode d.pkt) && pktCtx d.pkt = n)).length

/-- What acceptance decides after the fields: a context that is being destroyed, and the limit of execution commands (R337, R342). -/
def acceptStatus (s : State) (tag : Nat) (p : PacketBits) : Option Status :=
  if namesCtx p && pktOpcode p != 7 && (ctxOf s (pktCtx p)).state = .destroying then some (stAborted 2 (destroyTag s (pktCtx p) tag) 0)
  else if isExecution (pktOpcode p) && 64 ≤ execCount s (pktCtx p) tag then some stQueueFull
  else none

/-- A new lifecycle challenge, drawn at every reset and after every LIFECYCLE (R468). -/
def drawChallenge (s : State) : State :=
  { s with sec := { s.sec with challenge := (List.range 32).map (Config.random s.nonce) }, nonce := s.nonce + 1 }

/-- End a command with a status, whatever it is: a LIFECYCLE draws a new challenge (R468). -/
def endCmd (c : Cmd) (st : Status) (s : State) : State :=
  if pktOpcode c.pkt = 0x08 then drawChallenge (complete c.tag st s) else complete c.tag st s

/-- A refusal at acceptance. -/
def refuse (tag : Nat) (p : PacketBits) (st : Status) (s : State) : State := endCmd { tag := tag, pkt := p, frame := 0 } st s

/-- Accept a packet: the next device tag, and at once the refusals that need no unit (R399, R523). -/
def acceptPacket (p : PacketBits) (s : State) : State :=
  let tag := s.host.nextTag
  let c : Cmd := { tag := tag, pkt := p, frame := s.frame.counter.toNat, plan := planNow s, challenge := if pktOpcode p = 0x08 then s.sec.challenge else [] }
  let s := { s with host := { s.host with nextTag := tagAfter tag, devTag := tag, taskState := .accepted, cmds := s.host.cmds ++ [c] } }
  match packetRefusal s tag p with
  | some st => refuse tag p st s
  | none =>
    match acceptStatus s tag p with
    | some st => refuse tag p st s
    | none => if pktOpcode p = 0x21 then updCtx (pktCtx p) (fun c => { c with state := .destroying }) s else s

def acceptance (s : State) : State :=
  if s.host.taskState = .busy then
    let r := rejectReason s s.host.goCopy
    if r = 0 then acceptPacket s.host.goCopy s
    else { s with host := { s.host with taskState := .rejected, reason := r } }
  else s

/-- Acceptance or rejection of the copied packet (R399, R400). -/
def execPacketAcceptance (s : State) : Host.Outcome State Fault Refusal := unitOp true (acceptance s)

/-! ### Reads with an effect (R47, R396) -/

/-- A read of FRAME_LO captures the counter. -/
def execFrameLoRead (s : State) : Host.Outcome State Fault Refusal :=
  unitOp true (if bar0On s then
    { s with frame := { s.frame with capture := s.frame.counter }
             host := { s.host with readData := BitVec.ofNat 64 (s.frame.counter.toNat % 2 ^ 32) } }
  else s)

/-- The 8-byte read at 0x0000_0204 captures the counter and returns both halves of the capture. -/
def execFrameWideRead (s : State) : Host.Outcome State Fault Refusal :=
  unitOp true (if bar0On s then
    { s with frame := { s.frame with capture := s.frame.counter }, host := { s.host with readData := s.frame.counter } }
  else s)

/-! ### Register writes (Table 14-4) -/

/-- A write of 0x0114: ENABLE, OVERFLOW, HB_ENABLE and HB_INTERVAL (R403, R407). -/
def write0114 (v : Nat) (s : State) : State :=
  let h := s.host
  let ok := 11 ≤ h.log2Size && h.log2Size ≤ 18
  let opens := bitOf v 0 && !h.enable && ok
  let hb := bitOf v 2
  let interval := bitsOf v 23 8
  { s with host := { h with
    enable := bitOf v 0 && (h.enable || ok)
    tail := if opens then 0 else h.tail
    head := if opens then 0 else h.head
    phase := if opens then true else h.phase
    written := if opens then 0 else h.written
    overflow := h.overflow && !bitOf v 1
    hbEnable := hb
    hbCount := if opens || (hb && !h.hbEnable) then 0 else h.hbCount
    hbInterval := if interval = 0 then h.hbInterval else interval } }

/-- A write that sets ENABLE from 0 to 1 (R403). -/
def execStatusRingEnable (value : Word32) (s : State) : Host.Outcome State Fault Refusal :=
  unitOp true (if bar0On s then write0114 value.toNat s else s)

/-- A write that changes HB_ENABLE from 0 to 1 starts a fresh interval (R407). -/
def execHbEnableWrite (value : Word32) (s : State) : Host.Outcome State Fault Refusal :=
  unitOp true (if bar0On s then write0114 value.toNat s else s)

/-- Patch `n` bytes of a packet at byte `off`. -/
def patchPacket (p : PacketBits) (off n v : Nat) : PacketBits :=
  let bs := leBytes 64 p.toNat
  BitVec.ofNat 512 (leNat (bs.take off ++ leBytes n v ++ bs.drop (off + n)))

/-- A 4-byte write at an aligned offset (R397, R18). -/
def writeDword (off v : Nat) (s : State) : State :=
  let h := s.host
  if off < 0x40 then
    (if h.taskState = .busy then s else { s with host := { h with taskPkt := patchPacket h.taskPkt off 4 v } })
  else
    match off with
    | 0x40 => goWrite (BitVec.ofNat 32 v) s
    | 0x100 => if h.enable then s else { s with host := { h with baseLo := BitVec.ofNat 20 (v / 4096) } }
    | 0x104 => if h.enable then s else { s with host := { h with baseHi := BitVec.ofNat 32 v } }
    | 0x108 => if h.enable then s else { s with host := { h with log2Size := v % 32 } }
    | 0x110 => if bitsOf v 17 0 < ringSize h then { s with host := { h with head := bitsOf v 17 0 } } else s
    | 0x114 => write0114 v s
    | _ => s

/-- A host write of `size` bytes (R396). -/
def bar0Write (off size : Nat) (v : Word64) (s : State) : State :=
  if off + size ≤ 0x40 && size ≤ 8 then
    (if s.host.taskState = .busy then s else { s with host := { s.host with taskPkt := patchPacket s.host.taskPkt off size v.toNat } })
  else if off % 4 != 0 then s
  else if size = 4 then writeDword off (v.toNat % 2 ^ 32) s
  else if size = 8 then writeDword (off + 4) (v.toNat / 2 ^ 32) (writeDword off (v.toNat % 2 ^ 32) s)
  else s

/-- A host write to any other BAR0 field acts by its access code; fewer than 4 bytes outside TASK_PKT are ignored (R16, R396). -/
def execBar0RegisterWrite (offset size : Nat) (value : Word64) (s : State) : Host.Outcome State Fault Refusal :=
  unitOp true (if bar0On s then bar0Write offset size value s else s)

/-! ### Configuration space (R392-R395) -/

def configStep (f : ConfigField) (s : State) : State :=
  let p := s.pcie
  match f with
  | .command v => { s with pcie := { p with mse := v.getLsbD 1, bme := v.getLsbD 2 } }
  | .powerState v => if v = 0 then { s with pcie := { p with d3hot := false } }
    else if v = 3 then { s with pcie := { p with d3hot := true } } else s
  | .interruptLine v => { s with pcie := { p with intLine := v } }
  | .bar0 v => { s with pcie := { p with bar0 := BitVec.ofNat 64 (v.toNat / 2 ^ 20 * 2 ^ 20 + 4) } }
  | .deviceControl v => { s with pcie := { p with devCtl := v, relaxed := v.getLsbD 4, extTag := v.getLsbD 8 } }
  | .tenBitTag v => { s with pcie := { p with tenBitTag := v } }
  | .aerUncor w => { s with pcie := { p with aerUncor := p.aerUncor &&& ~~~w } }
  | .aerCor w => { s with pcie := { p with aerCor := p.aerCor &&& ~~~w } }

/-- A configuration write (R394). -/
def execConfigWrite (f : ConfigField) (s : State) : Host.Outcome State Fault Refusal := unitOp true (configStep f s)

/-! ### Host DMA (R395, R414, R423) -/

/-- The command's input is still to come. -/
def needsInput (c : Cmd) : Bool :=
  c.phase = .released && c.staged.isNone && (pktBufKind c.pkt = 2 || (pktBufKind c.pkt = 1 && readsBuffer c.pkt))

/-- A transfer of the command's buffer can be in progress. -/
def transfers (s : State) (c : Cmd) : Bool := dmaReady s && (needsInput c || c.phase = .finishing)

/-- A completion timeout, UR or CA on host DMA ends the command with HOST_DMA_ERROR (R395). Which of the three it was the event does not say:
whether AER notes a completion timeout is a free value (log entry 2). -/
def execHostDmaError (tag offset : Nat) (s : State) : Host.Outcome State Fault Refusal :=
  unitOp true (match (cmdOf s tag).filter (transfers s) with
    | some c => endCmd c (stHostDma (offset % 2 ^ 32)) (bump { s with pcie := { s.pcie with
        aerUncor := s.pcie.aerUncor ||| (if Config.freeBool s.nonce then 0x4000 else 0) } })
    | none => s)

/-- Poisoned input is stored poisoned in staging, and its command completes with MEDIA_ERROR and no effect, which frees that staging
(R210, R309); AER logs an advisory non-fatal error. -/
def execPoisonedTlpReceived (tag : Nat) (s : State) : Host.Outcome State Fault Refusal :=
  unitOp true (match (cmdOf s tag).filter (fun c => dmaReady s && needsInput c) with
    | some c => endCmd c (stMediaError 0 0)
        { s with pcie := { s.pcie with aerUncor := s.pcie.aerUncor ||| 0x1000, aerCor := s.pcie.aerCor ||| 0x2000 } }
    | none => s)

/-- Bytes of the input a command stages: the entry list, then the buffer. The last code word of the transfer is filled with zeros (R306). -/
def stageLen (c : Cmd) : Nat := (if pktBufKind c.pkt = 2 then 16 * pktNent c.pkt else 0) + (if readsBuffer c.pkt then pktBufLen c.pkt else 0)

def hostDma (tag : Nat) (data : List Byte) (s : State) : State :=
  match cmdOf s tag with
  | none => s
  | some c =>
    if !transfers s c then s
    else if c.phase = .finishing then complete tag (c.result.getD (stSuccess 0 0 0)) s
    else updCmd tag (fun d => { d with staged := some (padTo (roundUp (stageLen c) 64) (data.take (stageLen c))) }) s

/-- A transfer of a command's buffer finishes: its input has landed in staging, or its last write has been issued (R423). -/
def execHostDmaComplete (tag : Nat) (data : List Byte) (s : State) : Host.Outcome State Fault Refusal := unitOp true (hostDma tag data s)

/-! ### Arbitration (R409, R410) -/

inductive ReleaseUnit | context | flash | query | control
deriving DecidableEq, Repr

def releaseUnit (p : PacketBits) : ReleaseUnit :=
  let op := pktOpcode p
  if isExecution op then .context else if isObject op || isBlock op then .flash else if isQuery op then .query else .control

/-- Released and not complete, or for the context's unit not started. -/
def countsIn (u : ReleaseUnit) (n : Nat) (d : Cmd) : Bool :=
  releaseUnit d.pkt = u && pktOpcode d.pkt != 7 &&
  match u with
  | .context => pktCtx d.pkt = n && (d.phase = .released || d.phase = .ready)
  | .query => d.phase = .released || d.phase = .running
  | _ => d.phase != .waiting

def unitRoom (u : ReleaseUnit) : Nat :=
  match u with
  | .context => 2
  | .flash => 256
  | .query => 4
  | .control => 8

/-- An older waiting command must go first: of the same context and unit, or any query (R299, R409). -/
def goesFirst (c d : Cmd) : Bool :=
  d.phase = .waiting && pktOpcode d.pkt != 7 && releaseUnit d.pkt = releaseUnit c.pkt &&
  (releaseUnit c.pkt = .query || (pktCtx c.pkt != 0 && pktCtx d.pkt = pktCtx c.pkt))

/-- Commands before the one with this tag, in acceptance order. -/
def olderCmds (s : State) (tag : Nat) : List Cmd := s.host.cmds.takeWhile (fun d => d.tag != tag)

def releasable (s : State) (c : Cmd) : Bool :=
  c.phase = .waiting && pktOpcode c.pkt != 7 &&
  !(namesCtx c.pkt && pktOpcode c.pkt != 0x21 && (ctxOf s (pktCtx c.pkt)).state = .destroying) &&
  (s.host.cmds.filter (countsIn (releaseUnit c.pkt) (pktCtx c.pkt))).length < unitRoom (releaseUnit c.pkt) &&
  !(olderCmds s c.tag).any (goesFirst c)

/-- The oldest releasable command of a class. -/
def oldestOf (s : State) (cls : Nat) : Option Cmd := s.host.cmds.find? (fun c => pktClass c.pkt = cls && releasable s c)

/-- The release of a command that needs a compute domain leaves S1, and of one that needs a memory leaves S2 (R486). -/
def wakeFor (p : PacketBits) (s : State) : State :=
  if s.host.devState = .sleep then
    (if s.host.sleepLevel = 1 then
      (if needsCompute p then { s with host := { s.host with devState := .ready, sleepLevel := 0 } } else s)
     else if s.host.sleepLevel = 2 && needsMemory p then { s with power := { s.power with waking := true } } else s)
  else s

def releaseCmd (c : Cmd) (s : State) : State :=
  wakeCtx (pktCtx c.pkt) (wakeFor c.pkt (updCmd c.tag (fun d => { d with phase := .released }) s))

/-- One turn through HIGH, MEDIUM and LOW with the credits left. -/
def takeTurn (s : State) : Option State :=
  match if 0 < s.arb.cHigh then oldestOf s 2 else none with
  | some c => some (releaseCmd c { s with arb := { s.arb with cHigh := s.arb.cHigh - 1 } })
  | none =>
    match if 0 < s.arb.cMedium then oldestOf s 1 else none with
    | some c => some (releaseCmd c { s with arb := { s.arb with cMedium := s.arb.cMedium - 1 } })
    | none =>
      match if 0 < s.arb.cLow then oldestOf s 0 else none with
      | some c => some (releaseCmd c { s with arb := { s.arb with cLow := s.arb.cLow - 1 } })
      | none => none

/-- A SET_FEATURE of this feature waits for its effect point. -/
def featureWaits (fid : Nat) (c : Cmd) : Bool := pktOpcode c.pkt = 0x03 && pktField c.pkt 8 1 = fid && c.phase = .ready

/-- New weights take effect, in acceptance order, and their SET_FEATURE completes (R411, R417). -/
def takeWeights (s : State) : State :=
  (s.host.cmds.filter (featureWaits 0x15)).foldl (fun s c =>
    let d := pktField c.pkt 16 4
    complete c.tag (stSuccess 0 0 0)
      { s with arb := { s.arb with wHigh := bitsOf d 7 0, wMedium := bitsOf d 15 8, wLow := bitsOf d 23 16 } }) s

/-- A new round starts with the weights. -/
def newRound (s : State) : State :=
  let s := takeWeights s
  { s with arb := { s.arb with cHigh := s.arb.wHigh, cMedium := s.arb.wMedium, cLow := s.arb.wLow } }

/-- release() of R410: the state, and whether a command was released. -/
def releaseOne (s : State) : State × Bool :=
  match oldestOf s 3 with
  | some c => (releaseCmd c s, true)
  | none =>
    match takeTurn s with
    | some t => (t, true)
    | none =>
      match takeTurn (newRound s) with
      | some t => (t, true)
      | none => (newRound s, false)

/-- release() until nothing is releasable. -/
def releaseAll : Nat → State → State
  | 0, s => s
  | n + 1, s => let r := releaseOne s; if r.2 then releaseAll n r.1 else r.1

/-- A release opportunity (R410). -/
def execCommandRelease (s : State) : Host.Outcome State Fault Refusal := unitOp true (releaseAll (s.host.cmds.length + 1) s)

/-! ### Events of the status ring -/

/-- The read-back of the last record completes: TAIL advances, and PHASE toggles at the wrap (R53, R405). -/
def readBack (s : State) : State :=
  let h := s.host
  let i := h.tail + h.written
  { s with host := { h with tail := i % ringSize h, written := 0, phase := if i / ringSize h % 2 = 1 then !h.phase else h.phase } }

def execStatusReadbackComplete (s : State) : Host.Outcome State Fault Refusal := unitOp true (readBack s)

/-- A HEARTBEAT is due: it is dropped where it would leave fewer than two free slots, else written after the other records (R407). -/
def heartbeat (s : State) : State :=
  let h := s.host
  if h.enable && h.hbEnable && h.hbInterval ≤ h.hbCount then
    let s1 := { s with host := { h with hbCount := 0 } }
    let r := eventRecord s1 2 (devStateWord s1) (s1.frame.counter.toNat / 2 ^ 32) (outstanding s1)
    if freeSlots h < 3 then s1
    else if ringOpen s1 && h.heldRecs.isEmpty && fitCount (windowRecords s.pcie - h.winRecs) (windowBytes s.pcie - h.winBytes) [r] = 1 then
      putRecord r s1
    else { s1 with host := { s1.host with heldRecs := s1.host.heldRecs ++ [{ r with deferred := true }] } }
  else s

def execHeartbeatDue (s : State) : Host.Outcome State Fault Refusal := unitOp true (heartbeat s)

/-- Records a report point writes: of the ABORTs that are done, each with the ABORTED records it caused (R55, R405). -/
def abortRecords (s : State) : List Record :=
  (s.host.done.filter (fun r => r.opcode = 7)).flatMap (fun a =>
    a :: s.host.done.filter (fun r => r.opcode != 7 && r.status.cls = 5 && r.status.r0 = 1 && r.status.r1 = a.tag))

/-- A report point inside a frame longer than 2,500 µs (R54, R55): only the records of finished ABORTs, with the current frame. -/
def reportPoint (s : State) : State :=
  if 2500 < s.frame.effPeriod then
    let recs := abortRecords s
    let s1 := openWindow { s with host := { s.host with done := s.host.done.filter (fun r => !recs.contains r) } }
    let due := recs.map (fun r => { r with frame := s.frame.counter.toNat % 2 ^ 32 })
    if recs.isEmpty then s
    else if ringOpen s && s.host.heldRecs.isEmpty then writeDue due s1
    else { s1 with host := { s1.host with heldRecs := s1.host.heldRecs ++ due.map (fun r => { r with deferred := true }) } }
  else s

def execReportPoint (s : State) : Host.Outcome State Fault Refusal := unitOp true (reportPoint s)

end Sys2Proof.Machine
end

