-- ==== Sys2Proof/Machine/EfWords.lean ====
section
/-! DEFINITION. The embedded flash and the OTP row as the firmware reads them: words, slots, firmware images and their verification
(R431-R434, R443-R447, R451, R455-R457). -/

namespace Sys2Proof.Machine

/-! ### Words -/

/-- Data of an erased word (R431). -/
def erasedWord : Word64 := BitVec.allOnes 64

def efWord (s : State) (w : Nat) : Word64 := mapGet erasedWord s.ef.words w
def otpWord (s : State) (w : Nat) : Word64 := mapGet erasedWord s.ef.otp w
def setEf (w : Nat) (v : Word64) (s : State) : State := { s with ef := { s.ef with words := mapSet erasedWord w v s.ef.words } }
def setOtp (w : Nat) (v : Word64) (s : State) : State := { s with ef := { s.ef with otp := mapSet erasedWord w v s.ef.otp } }

/-- The words from `lo` to `hi` − 1 of the main array read with no uncorrectable error. -/
def efClean (s : State) (lo hi : Nat) : Bool := !s.ef.poisoned.any (fun w => lo ≤ w && w < hi) && (rawWords 7 s.ef.raw lo hi).isEmpty

/-- `n` bytes of the main array from word `w`. -/
def efBytes (s : State) (w n : Nat) : List Byte :=
  ((List.range (ceilDiv n 8)).flatMap (fun i => leBytes 8 (efWord s (w + i)).toNat)).take n

def otpBytes (s : State) (w n : Nat) : List Byte := (List.range n).flatMap (fun i => leBytes 8 (otpWord s (w + i)).toNat)

/-- Write bytes, a multiple of 8, from word `w`. -/
def efWrite (w : Nat) (bs : List Byte) (s : State) : State :=
  (pieces 8 (bs.length / 8) bs).zipIdx.foldl (fun s p => setEf (w + p.2) (BitVec.ofNat 64 (leNat p.1)) s) s

/-- Erase the words of sectors `a` to `b` − 1. -/
def efEraseSectors (a b : Nat) (s : State) : State :=
  { s with ef := { s.ef with
      words := s.ef.words.filter (fun (p : Nat × Word64) => p.1 < a * 256 || b * 256 ≤ p.1)
      poisoned := s.ef.poisoned.filter (fun w => w < a * 256 || b * 256 ≤ w)
      raw := s.ef.raw.filter (fun p => p.1 < a * 256 || b * 256 ≤ p.1) } }

/-! ### Image slots (R444) -/

def committedWord : Word64 := 0x434F4D4D49540001
/-- First sector of slot A (0) or B (1). -/
def slotSector (slot : Nat) : Nat := slot * 1792
def slotWord (slot : Nat) : Nat := slotSector slot * 256
/-- First word of the image in a slot. -/
def imageWord (slot : Nat) : Nat := slotWord slot + 256
def imageMax : Nat := 3667968

/-- COMMIT reads COMMITTED with no uncorrectable error (R447). -/
def slotCommitted (s : State) (slot : Nat) : Bool :=
  efWord s (slotWord slot) = committedWord && efClean s (slotWord slot) (slotWord slot + 1)

def slotSeqNo (s : State) (slot : Nat) : Nat := (efWord s (slotWord slot + 1)).toNat
def slotLength (s : State) (slot : Nat) : Nat := (efWord s (slotWord slot + 2)).toNat

/-- Slot written by a download: the one that is not running; slot A in the recovery window, where none runs. -/
def otherSlot (s : State) : Nat :=
  match s.ef.activeSlot with
  | some 0 => 1
  | _ => 0

/-! ### Keys (R455, R456) -/

def digest (bs : List Byte) : List Byte := Config.shake256 64 bs

/-- Minimum security version: OTP words from 80 on that read 0 (R451). -/
def minSvn (s : State) : Nat := ((List.range 256).takeWhile (fun i => otpWord s (80 + i) = 0)).length

def keySlotEmpty (s : State) (k : Nat) : Bool := (List.range 8).all (fun i => otpWord s (8 + 8 * k + i) = erasedWord)
def keyRevoked (s : State) (k : Nat) : Bool := otpWord s (72 + k) = 0
def revokedMask (s : State) : Nat := ((List.range 8).map (fun k => bit (keyRevoked s k) k)).foldl (· + ·) 0

/-- A public key is accepted for a vendor key slot. -/
def keyAccepted (s : State) (k : Nat) (key : List Byte) : Bool :=
  k < 8 && !keySlotEmpty s k && !keyRevoked s k && digest key = otpBytes s (8 + 8 * k) 8

/-! ### Firmware images (Table 17-1, R457) -/

structure FwImage where
  magicOk : Bool
  svn : Nat
  bodyLen : Nat
  rev : Nat
  keySlot : Nat
  raise : Bool
  revoke : Nat
deriving DecidableEq, Repr

def fwHeader (s : State) (slot : Nat) : FwImage :=
  let h := efBytes s (imageWord slot) 64
  { magicOk := byteField h 0 4 = 0x46495854 && byteField h 4 2 = 1 && byteField h 8 4 % 8 = 0 && byteField h 8 4 ≤ 3664824
    svn := byteField h 6 2, bodyLen := byteField h 8 4, rev := byteField h 12 4, keySlot := byteField h 16 1
    raise := bitOf (byteField h 17 1) 0, revoke := byteField h 18 1 }

/-- The signed digest of the image in a slot. -/
def imageDigest (s : State) (slot : Nat) : List Byte := digest (efBytes s (imageWord slot) (1864 + (fwHeader s slot).bodyLen))

/-- The public key an image carries, without its padding. -/
def imageKey (s : State) (slot : Nat) : List Byte := efBytes s (imageWord slot + (64 + (fwHeader s slot).bodyLen) / 8) 1793

/-- What verification of the image in a slot finds: none where it may run (R457). -/
def imageFault (s : State) (slot : Nat) : Option Status :=
  let h := fwHeader s slot
  let words := (64 + h.bodyLen + 3080) / 8
  if !h.magicOk || !efClean s (imageWord slot) (imageWord slot + words) then some stSignature
  else if !keyAccepted s h.keySlot (imageKey s slot) then some stSignature
  else if !Config.falconVerify (imageKey s slot) (efBytes s (imageWord slot + (1864 + h.bodyLen) / 8) 1280) (imageDigest s slot) then
    some stSignature
  else if h.svn < minSvn s then some stRollback
  else none

/-- A committed image in the slot verifies. -/
def slotValid (s : State) (slot : Nat) : Bool := slotCommitted s slot && (imageFault s slot).isNone

/-- SEQ of the next commit (R446). -/
def nextSlotSeq (s : State) : Nat :=
  ([0, 1].filter (slotCommitted s)).foldl (fun m k => max m (slotSeqNo s k)) 0 + 1

/-! ### The active erase -/

/-- An erase is active. -/
def eraseActive (e : Ef) : Bool := e.busy && e.activeOp = 2

/-- The active erase is suspended (Table 16-3). -/
def suspendErase (e : Ef) : Ef :=
  if eraseActive e then { e with busy := false, activeOp := 0, suspended := true, suspSector := e.eraseSec, done := true } else e

/-! ### Codes of the lifecycle and the protection level -/

def lifecycleCode (l : Lifecycle) : Nat :=
  match l with
  | .blank => 0
  | .provisioned => 1
  | .deployed => 2
  | .service => 3
  | .retired => 4

def rdpCode (r : Rdp) : Nat :=
  match r with
  | .open_ => 0
  | .sealed => 1
  | .fixed => 2

end Sys2Proof.Machine
end

