-- ==== Sys2Proof/Machine/EfRecords.lean ====
section
/-! DEFINITION. The data regions of the embedded flash as the firmware keeps them: the markers of their sectors, records that are added,
superseded and copied (R433, R435, R442, R443). -/

namespace Sys2Proof.Machine

/-- Word 0 of a sector whose erase has completed (R443). -/
def erasedOk : Word64 := 0x4552415345444F4B
/-- Word 1 of a sector that holds records. -/
def inUseWord : Word64 := 0x494E555345000001

/-- A word of the main array reads with no uncorrectable error. -/
def efGood (s : State) (w : Nat) : Bool := efClean s w (w + 1)

/-- A data region: its first sector and the one after its last, and the words of one record (R433). -/
structure Region where
  lo : Nat
  hi : Nat
  size : Nat
deriving DecidableEq, Repr

def badBlockRegion : Region := ⟨3584, 3840, 1⟩
def repairRegion (copy : Nat) : Region := ⟨3840 + 16 * copy, 3856 + 16 * copy, 1⟩
def errorLogRegion : Region := ⟨3872, 4000, 8⟩
def configRegion : Region := ⟨4000, 4064, 12⟩

def sectorList (r : Region) : List Nat := (List.range (r.hi - r.lo)).map (fun i => r.lo + i)

/-- The sector may be used: word 0 reads ERASED_OK (R443). -/
def sectorTrusted (s : State) (n : Nat) : Bool := efWord s (n * 256) = erasedOk && efGood s (n * 256)

/-- The sector holds records that stand: trusted, IN_USE and not superseded. -/
def sectorLive (s : State) (n : Nat) : Bool := sectorTrusted s n && efWord s (n * 256 + 1) = inUseWord

/-- Erase a sector as the firmware does: word 0 to data 0 first, ERASED_OK once every word has read back erased (R443). -/
def firmErase (n : Nat) (s : State) : State := setEf (n * 256) erasedOk (efEraseSectors n (n + 1) (setEf (n * 256) 0 s))

/-- A sector ready for its first record: one that is not trusted is erased again before its use. -/
def openSector (n : Nat) (s : State) : State :=
  setEf (n * 256 + 1) inUseWord (if sectorTrusted s n && efWord s (n * 256 + 1) = erasedWord then s else firmErase n s)

/-- Records one sector holds after its two header words. -/
def sectorRecords (r : Region) : Nat := 254 / r.size

/-- First word of record `i` of a sector. -/
def recordWord (r : Region) (n i : Nat) : Nat := n * 256 + 2 + i * r.size

/-- Places of a sector that hold a record: every word of it erased means none. -/
def usedRecords (s : State) (r : Region) (n : Nat) : List Nat :=
  (List.range (sectorRecords r)).filter (fun i => (List.range r.size).any (fun k => efWord s (recordWord r n i + k) != erasedWord))

/-- The first free place of a sector. -/
def freeRecord (s : State) (r : Region) (n : Nat) : Option Nat :=
  let k := ((usedRecords s r n).getLast?.map (· + 1)).getD 0
  if k < sectorRecords r then some k else none

/-- Words of a record that has been read. -/
def recordAt (s : State) (r : Region) (n i : Nat) : List Word64 := (List.range r.size).map (fun k => efWord s (recordWord r n i + k))

/-- Every record of a region that stands and reads with no uncorrectable error and not as data 0 (R435), with its sector and place. -/
def regionRecords (s : State) (r : Region) : List (Nat × Nat × List Word64) :=
  ((sectorList r).filter (sectorLive s)).flatMap (fun n =>
    ((usedRecords s r n).filter (fun i => (List.range r.size).all (fun k => efGood s (recordWord r n i + k)) &&
      (recordAt s r n i).any (· != 0))).map (fun i => (n, i, recordAt s r n i)))

def programRecord (r : Region) (n i : Nat) (ws : List Word64) (s : State) : State :=
  (ws.zipIdx).foldl (fun s p => setEf (recordWord r n i + p.2) p.1 s) s

/-- The live sector with room, else a sector that holds no records. -/
def targetSector (s : State) (r : Region) : Option Nat :=
  match ((sectorList r).filter (fun n => sectorLive s n && (freeRecord s r n).isSome)).head? with
  | some n => some n
  | none => ((sectorList r).filter (fun n => !sectorLive s n)).head?

/-- Add a record to a region; a region that is full keeps none (R270 gives the bad-block list its limit). -/
def addRecord (r : Region) (ws : List Word64) (s : State) : State :=
  match targetSector s r with
  | none => s
  | some n =>
    let s := if sectorLive s n then s else openSector n s
    programRecord r n ((freeRecord s r n).getD 0) ws s

/-- A sector is superseded: word 1 to data 0, then it is erased. -/
def dropSector (n : Nat) (s : State) : State := firmErase n (setEf (n * 256 + 1) 0 s)

/-- The region a sector belongs to. -/
def regionOf (n : Nat) : Option Region :=
  [badBlockRegion, repairRegion 0, repairRegion 1, errorLogRegion, configRegion].find? (fun r => r.lo ≤ n && n < r.hi)

/-- Copy a sector's valid records to another sector of its region and erase it (R442); a sector that holds nothing that stands is erased alone,
and where the region has no other free sector the records stay where they are. -/
def rewriteSector (n : Nat) (s : State) : State :=
  match regionOf n with
  | none => s
  | some r =>
    let recs := (regionRecords s r).filter (fun x => x.1 = n)
    match ((sectorList r).filter (fun k => k != n && !sectorLive s k)).head? with
    | none => s
    | some k =>
      if recs.isEmpty then dropSector n s
      else dropSector n ((recs.zipIdx).foldl (fun s x => programRecord r k x.2 x.1.2.2 s) (openSector k s))

/-! ### Grown bad-block list (R270) and core repair map (R95). The spec lays neither word out (log entry 104). -/

/-- Word of a bad block. -/
def badBlockWord (b : Nat) : Word64 := BitVec.ofNat 64 (0x4242 * 2 ^ 48 + b)

/-- The bad blocks listed in the array. -/
def listedBlocks (s : State) : List Nat :=
  (regionRecords s badBlockRegion).flatMap (fun x => x.2.2.filterMap (fun w => if w.toNat / 2 ^ 48 = 0x4242 then some (w.toNat % 2 ^ 48) else none))

/-- Word of a repaired core: its number, the row replaced, and the map's own check code over both. -/
def repairWord (core row : Nat) : Word64 :=
  let v := core + row * 2 ^ 16
  BitVec.ofNat 64 (v + crc32c (leBytes 4 v) * 2 ^ 32)

/-- Repairs that one copy of the map records; a word whose check code is wrong records none. -/
def mapCopy (s : State) (copy : Nat) : List (Nat × Nat) :=
  (regionRecords s (repairRegion copy)).flatMap (fun x => x.2.2.filterMap (fun w =>
    let v := w.toNat % 2 ^ 32
    if w.toNat / 2 ^ 32 = crc32c (leBytes 4 v) && v / 2 ^ 16 < 16 then some (v % 2 ^ 16, v / 2 ^ 16) else none))

/-- The repair map: what either copy records. -/
def repairMap (s : State) : SMap PhysCore :=
  (mapCopy s 0 ++ mapCopy s 1).foldl (fun m p => mapPut p.1 { spare := some p.2 } m) []

/-- A new repair enters both copies. -/
def recordRepair (core row : Nat) (s : State) : State :=
  addRecord (repairRegion 1) [repairWord core row] (addRecord (repairRegion 0) [repairWord core row] s)

/-! ### Configuration records (R452, R463-R467, R470, R499): one standing record of each kind (log entry 104) -/

def cfgSealed : Nat := 1
def cfgErase : Nat := 2
def cfgLifecycle : Nat := 3
def cfgKgen : Nat := 4
def cfgKeys : Nat := 5
def cfgOwner : Nat := 6
def cfgIntent : Nat := 7
def cfgDone : Nat := 8
def cfgSanitise : Nat := 9
/-- The health counts fill eight records of eleven counts. -/
def cfgHealth (i : Nat) : Nat := 16 + i

def cfgTag (k : Nat) : Word64 := BitVec.ofNat 64 (0x4347 * 2 ^ 48 + k)

/-- The standing records of a kind: sector, place, words. -/
def cfgRecords (s : State) (k : Nat) : List (Nat × Nat × List Word64) :=
  (regionRecords s configRegion).filter (fun x => x.2.2.head? = some (cfgTag k))

/-- Payload of the record of a kind. -/
def cfgGet (s : State) (k : Nat) : Option (List Word64) := (cfgRecords s k).getLast?.map (fun x => x.2.2.drop 1)

def cfgHas (s : State) (k : Nat) : Bool := !(cfgRecords s k).isEmpty

/-- Program every word of the records of a kind to data 0 (R435). -/
def cfgDrop (k : Nat) (s : State) : State :=
  (cfgRecords s k).foldl (fun s x => programRecord configRegion x.1 x.2.1 (List.replicate 12 0) s) s

/-- Add a configuration record; a sector without room is copied to a fresh one first. -/
def cfgAdd (k : Nat) (ws : List Word64) (s : State) : State :=
  let s := match (sectorList configRegion).find? (sectorLive s) with
    | some n => if (freeRecord s configRegion n).isSome then s else rewriteSector n s
    | none => s
  addRecord configRegion (cfgTag k :: (ws ++ List.replicate (11 - ws.length) 0)) s

/-- The record of a kind becomes this one. -/
def cfgPut (k : Nat) (ws : List Word64) (s : State) : State := cfgAdd k ws (cfgDrop k s)

/-- Append one word to a counter or log of the configuration records: each step stands beside the earlier ones, with its number (R465, R467). -/
def cfgAppend (k : Nat) (v : Word64) (s : State) : State :=
  cfgAdd k [v, BitVec.ofNat 64 ((cfgRecords s k).length + 1)] s

/-- The last step of a counter or log. -/
def cfgLast (s : State) (k : Nat) : Option Word64 :=
  ((cfgRecords s k).foldl (fun best x =>
    let n := (x.2.2.getD 2 0).toNat
    match best with
    | some (m, _) => if m < n then some (n, x.2.2.getD 1 0) else best
    | none => some (n, x.2.2.getD 1 0)) (none : Option (Nat × Word64))).map (·.2)

/-- 64-bit words of a byte string. -/
def wordsOf (n : Nat) (bs : List Byte) : List Word64 := (pieces 8 n bs).map (fun b => BitVec.ofNat 64 (leNat b))
def bytesOf (ws : List Word64) : List Byte := ws.flatMap (fun w => leBytes 8 w.toNat)

/-! ### The persistent error log (R498) -/

def logEntryBytes (e : LogEntry) : List Byte :=
  leBytes 8 e.seq ++ leBytes 8 e.frame ++ leBytes 4 e.resets ++ leBytes 1 e.source ++ leBytes 1 e.sp ++ leBytes 1 e.severity ++
  leBytes 1 e.count ++ leBytes 2 e.code ++ leBytes 2 e.ctx ++ leBytes 4 e.inst ++ leBytes 8 e.addr ++ leBytes 8 e.detail0 ++
  leBytes 8 e.detail1 ++ zeros 8

def logEntryOf (b : List Byte) : LogEntry :=
  { seq := byteField b 0 8, frame := byteField b 8 8, resets := byteField b 16 4, source := byteField b 20 1, sp := byteField b 21 1
    severity := byteField b 22 1, count := byteField b 23 1, code := byteField b 24 2, ctx := byteField b 26 2, inst := byteField b 28 4
    addr := byteField b 32 8, detail0 := byteField b 40 8, detail1 := byteField b 48 8, persistent := true }

/-- The entries in the array, in ascending SEQ. -/
def listedErrors (s : State) : List LogEntry :=
  sortBy (fun a b => a.seq < b.seq) ((regionRecords s errorLogRegion).map (fun x => logEntryOf (bytesOf x.2.2)))

/-- The sector after one, round the log's sectors. -/
def nextLogSector (n : Nat) : Nat := if n + 1 < errorLogRegion.hi then n + 1 else errorLogRegion.lo

/-- Erase what stands in a sector, so that it is ready ahead of the newest. -/
def eraseAhead (n : Nat) (s : State) : State :=
  if sectorLive s n then dropSector n s else if sectorTrusted s n then s else firmErase n s

/-- Program an entry into the log's newest sector; the next sector is erased ahead when one fills up. -/
def programEntry (e : LogEntry) (s : State) : State :=
  let live := (sectorList errorLogRegion).filter (sectorLive s)
  let n := (live.find? (fun n => (freeRecord s errorLogRegion n).isSome)).getD
    (match live.find? (fun n => !live.contains (nextLogSector n)) with
     | some n => nextLogSector n
     | none => errorLogRegion.lo)
  let s := if live.contains n then s else eraseAhead (nextLogSector n) (openSector n s)
  programRecord errorLogRegion n ((freeRecord s errorLogRegion n).getD 0) (wordsOf 8 (logEntryBytes e)) s

end Sys2Proof.Machine
end

