-- ==== Sys2Proof/Machine/Pages.lean ====
section
/-! DEFINITION. Data the module reports: IDENTIFY (Table 15-5), the six log pages (Tables 19-1 to 19-6, R504, R505) and the feature
data of GET_FEATURE (Tables 2-1, 6-4, 10-5, 12-7, 14-10, 18-2, 19-8). -/

namespace Sys2Proof.Machine

/-! ### Configuration space (Tables 14-2, 14-3) -/

/-- The standard's identifiers, versions and links of the capabilities of Table 14-3, by offset (PRESUMED, log entry 125). -/
def capHeader (off : Nat) : Nat :=
  match off with
  | 0x40 => 0x01 + 0x50 * 2 ^ 8 + 3 * 2 ^ 16
  | 0x50 => 0x10 + 2 * 2 ^ 16
  | 0x100 => 0x0001 + 2 * 2 ^ 16 + 0x148 * 2 ^ 20
  | 0x148 => 0x0003 + 1 * 2 ^ 16 + 0x158 * 2 ^ 20
  | 0x158 => 0x0019 + 1 * 2 ^ 16 + 0x188 * 2 ^ 20
  | 0x188 => 0x0026 + 1 * 2 ^ 16 + 0x1B8 * 2 ^ 20
  | 0x1B8 => 0x0027 + 1 * 2 ^ 16 + 0x1D8 * 2 ^ 20
  | 0x1D8 => 0x002A + 1 * 2 ^ 16
  | _ => 0

/-- A 4-byte read of the configuration header and of the capability fields that Table 14-3 fixes (R392, R393). -/
def configRead (s : State) (off : Nat) : Nat :=
  let p := s.pcie
  match off with
  | 0x00 => 0x1F3C + 0x0534 * 2 ^ 16
  | 0x04 => bit p.mse 1 + bit p.bme 2 + bit true 20
  | 0x08 => bitsOf (otpWord s 1).toNat 55 48 + 0x120000 * 2 ^ 8
  | 0x10 => p.bar0.toNat % 2 ^ 32
  | 0x14 => p.bar0.toNat / 2 ^ 32
  | 0x2C => 0x1F3C + (match s.part with
      | .f192 => 1
      | .i192 => 2
      | .q96 => 3) * 2 ^ 16
  | 0x34 => 0x40
  | 0x3C => p.intLine.toNat
  | 0x44 => (if p.d3hot then 3 else 0) + bit true 3
  | 0x58 => p.devCtl.toNat
  | 0x78 => bit p.tenBitTag 12
  | 0x104 => p.aerUncor.toNat
  | 0x110 => p.aerCor.toNat
  | 0x14C => s.uid.toNat % 2 ^ 32
  | 0x150 => s.uid.toNat / 2 ^ 32
  | _ => capHeader off

/-! ### IDENTIFY -/

def orderCode (s : State) : String :=
  match s.part with
  | .f192 => "CVX-SX4-F192"
  | .i192 => "CVX-SX4-I192"
  | .q96 => "CVX-SX4-Q96"

/-- Cores of a cluster, by their state. -/
def coresOf (s : State) (cl : Nat) (pick : PhysCore → Bool) : Nat :=
  ((List.range 100).filter (fun k => pick (mapGet {} s.phys (cl * 100 + k)))).length

def clusterWord (s : State) (cl : Nat) : Nat :=
  if cl < clustersPresent s then
    coresOf s cl (fun c => !c.offline) + 2 ^ 7 + coresOf s cl (fun c => c.spare.isSome) * 2 ^ 8 + (5 + cl / 10) * 2 ^ 16
  else 0

def opcodeMap (s : State) : Nat := ((opcodes.filter (opcodeFitted s)).map (fun op => 2 ^ op)).foldl (· + ·) 0

/-- FW_REV of the image that runs, and of the other slot, 0 where that is not valid. -/
def fwRevActive (s : State) : Nat := (s.ef.activeSlot.map (fun k => (fwHeader s k).rev)).getD 0
def fwRevOther (s : State) : Nat := if slotValid s (otherSlot s) then (fwHeader s (otherSlot s)).rev else 0
def activeSlotCode (s : State) : Nat := s.ef.activeSlot.getD 0

/-- The 4,096 bytes of IDENTIFY. -/
def identifyData (s : State) : List Byte :=
  padTo 4096 (
    (List.range 8).flatMap (fun i => leBytes 4 (capWord s i)) ++ leBytes 8 s.uid.toNat ++ asciiPad 16 (orderCode s) ++
    leBytes 4 (bitsOf (otpWord s 1).toNat 63 48) ++ leBytes 4 (fwRevActive s) ++ leBytes 4 (fwRevOther s) ++
    leBytes 1 (activeSlotCode s) ++ leBytes 1 (lifecycleCode s.sec.lifecycle) ++ leBytes 1 (rdpCode s.sec.rdp) ++ zeros 1 ++
    leBytes 2 100 ++ leBytes 2 20000 ++ leBytes 1 255 ++ leBytes 1 32 ++ leBytes 2 1024 ++ leBytes 2 64 ++ leBytes 1 4 ++ zeros 1 ++
    leBytes 4 65536 ++ leBytes 4 1048576 ++ leBytes 4 (userGranules s) ++ leBytes 8 ((if isQ96 s then 84 else 168) * 10 ^ 12) ++
    leBytes 8 (usableT2 s * 1048576) ++ leBytes 2 (if hasReduction s then 4096 else 0) ++ zeros 14 ++
    leBytes 32 (0xFF * 2 ^ 0x10) ++ leBytes 32 0x7E ++ leBytes 32 (opcodeMap s) ++ zeros 32 ++
    (List.range 250).flatMap (fun cl => leBytes 4 (clusterWord s cl)))

/-! ### Log pages -/

/-- A page of `n` bytes: bytes 20-63 of its header, then the rest. -/
def pageOf (n : Nat) (head rest : List Byte) : List Byte := padTo n (zeros 20 ++ padTo 44 head ++ rest)

def errorPage (s : State) : List Byte :=
  pageOf (64 + 64 * s.logs.errors.length) (leBytes 4 s.logs.errors.length ++ leBytes 4 s.logs.lost)
    (s.logs.errors.flatMap logEntryBytes)

/-! Flash health (Tables 8-12, 19-3). -/

/-- Superblocks in service beyond the reserves and the user capacity, now or at manufacture (R261, R271). -/
def spareSupers (s : State) (retired : Nat) : Nat :=
  32 * diesPerChannel s * 1242 - retired - 32 * diesPerChannel s * 24 - ceilDiv (userGranules s) 1536

def retiredSupers (s : State) : Nat := (s.flash.supers.filter (fun (p : Nat × Super) => p.2.state = .retired)).length
/-- SPARE_PCT; 0 in a module that is read-only. -/
def sparePct (s : State) : Nat := if s.flash.readOnly then 0 else spareSupers s (retiredSupers s) * 100 / max 1 (spareSupers s 0)

def wearList (s : State) : List Nat := s.flash.supers.map (fun (p : Nat × Super) => p.2.wear)
def pctUsed (s : State) : Nat := (wearList s).foldl (· + ·) 0 * 100 / (32 * diesPerChannel s * 1242 * 15000)
def wearMax (s : State) : Nat := (wearList s).foldl max 0
/-- A superblock that no field of which has changed is not listed and has wear 0. -/
def wearMin (s : State) : Nat :=
  if s.flash.supers.length < 32 * diesPerChannel s * 1242 then 0 else (wearList s).foldl min (wearMax s)

/-- Grown bad blocks of a channel; a bad block is numbered die * 5,120 + block of the die. -/
def grownOn (s : State) (ch : Nat) : Nat := (s.flash.badBlocks.filter (fun b => b / 5120 / 48 = ch)).length
def wearMaxOn (s : State) (ch : Nat) : Nat :=
  ((s.flash.supers.filter (fun p => p.1 / 1242 / 48 = ch)).map (fun (p : Nat × Super) => p.2.wear)).foldl max 0
def fewestErased (s : State) (ch : Nat) : Nat := ((List.range (diesPerChannel s)).map (erasedCount s ch)).foldl min 1242

def flashPage (s : State) : List Byte :=
  let f := s.flash
  pageOf 1216 [] (
    leBytes 1 (sparePct s) ++ leBytes 1 (if f.readOnly then 1 else 0) ++ leBytes 1 f.lastStart ++
    leBytes 1 (bit (sparePct s < 10) 0 + bit (100 ≤ pctUsed s) 1 + bit f.readOnly 2) ++ leBytes 2 (pctUsed s) ++ zeros 2 ++
    leBytes 4 f.lastStartMs ++ leBytes 4 (wearMin s) ++ leBytes 4 (wearMax s) ++ leBytes 4 0 ++ leBytes 4 f.badBlocks.length ++
    leBytes 4 f.programFails ++ leBytes 4 f.eraseFails ++ zeros 4 ++ leBytes 8 f.mediaErrors ++ leBytes 8 f.softDecodes ++
    leBytes 4 f.refreshes.1 ++ leBytes 4 f.refreshes.2.1 ++ leBytes 4 f.refreshes.2.2 ++ zeros 4 ++ leBytes 8 f.slcCapacity ++
    leBytes 8 (slcOccupancy s) ++ leBytes 8 f.bytesHost ++ leBytes 8 f.bytesFlash ++ zeros 24 ++
    (List.range 32).flatMap (fun ch =>
      leBytes 4 (grownOn s ch) ++ leBytes 4 (mapGet 0 f.chMedia ch) ++ leBytes 4 (mapGet 0 f.chSoft ch) ++ leBytes 2 (wearMaxOn s ch) ++
      leBytes 1 (min 255 (fewestErased s ch)) ++ leBytes 1 (diesPerChannel s) ++ zeros 16))

/-! Temperatures (Table 19-4): bytes 64-115 as the last tick read them; every sensor before the first reading reads 0x80 (log entry 6). -/

def unread : Byte := 0x80

def tempPage (s : State) : List Byte :=
  let now := (s.power.temps ++ List.replicate 52 unread).take 52
  pageOf 512 [] (now ++ s.power.lifeMax ++ leBytes 4 (s.power.throttleUs / 1000000) ++ leBytes 4 s.power.thermalFaults ++
    ((s.power.history.flatten) ++ List.replicate 384 unread).take 384)

/-! Frame statistics (Table 19-5). -/

def frameRecBytes (r : FrameRec) : List Byte :=
  leBytes 8 r.frame ++ leBytes 4 r.sketch ++ leBytes 4 r.missed ++ leBytes 4 r.evictions ++ leBytes 4 r.dropped ++ leBytes 4 r.saturated ++
  leBytes 4 r.nanQuant ++ leBytes 4 r.constCh ++ leBytes 4 r.requests ++ leBytes 4 r.commands ++ leBytes 4 r.held ++ leBytes 2 r.overrun ++
  leBytes 1 r.dutyMin ++ leBytes 1 r.flags ++ zeros 12

def ctxStatBytes (c : CtxStats) : List Byte :=
  leBytes 4 c.sketch ++ leBytes 4 c.missed ++ leBytes 4 c.evictions ++ leBytes 4 c.dropped ++ leBytes 4 c.saturated ++
  leBytes 4 c.nanQuant ++ leBytes 4 c.constCh ++ zeros 4

def framePage (s : State) : List Byte :=
  let t := s.logs.totals
  pageOf 24736 [] (
    leBytes 8 t.sketch ++ leBytes 8 t.missed ++ leBytes 8 t.evictions ++ leBytes 8 t.dropped ++ leBytes 8 t.saturated ++
    leBytes 8 t.nanQuant ++ leBytes 8 t.constCh ++ leBytes 8 t.requests ++ leBytes 8 t.commands ++ leBytes 8 s.logs.frames ++ zeros 48 ++
    padTo (256 * 64) (s.logs.recs.flatMap frameRecBytes) ++
    (List.range 255).flatMap (fun i => ctxStatBytes (if (ctxOf s (i + 1)).state = .free then {} else (ctxOf s (i + 1)).stats)))

/-! Unit state (Table 19-6). -/

def pairStateCode (p : PairState) : Nat :=
  match p with
  | .down => 0
  | .identifying => 1
  | .training => 2
  | .up => 3
  | .refused => 4
  | .fault => 5

def ctxStateCode (c : CtxState) : Nat :=
  match c with
  | .free => 0
  | .out => 1
  | .swappingIn => 2
  | .runnable => 3
  | .blocked => 4
  | .swappingOut => 5
  | .teardown => 6
  | .destroying => 7

def domCode (s : State) (d : Nat) : Nat :=
  if computeDomains s + 5 ≤ d then 2
  else
    match mapGet .off s.power.compute d with
    | .off => 0
    | .on => 1
    | .retained => 3

def unitCode (u : UnitState) : Nat :=
  match u with
  | .enabled => 1
  | .service => 2
  | .stopped => 3

def offlineMask (s : State) (cl : Nat) : Nat :=
  ((List.range 100).map (fun k => bit (mapGet ({} : PhysCore) s.phys (cl * 100 + k)).offline k)).foldl (· + ·) 0

def unitPage (s : State) : List Byte :=
  pageOf 4400 [] (
    (List.range 16).flatMap (fun p => leBytes 1 (if p < portPairs s then pairStateCode (pairOf s p).state else 0xFF)) ++
    (List.range 25).flatMap (fun i => leBytes 1 (domCode s (5 + i))) ++
    leBytes 1 (if !hasReduction s then 0 else if s.red.available then 1 else 2) ++ zeros 6 ++
    (List.range 32).flatMap (fun ch => leBytes 1 (unitCode (mapGet .enabled s.scan.units ch))) ++
    leBytes 1 0xFF ++ (List.range 255).flatMap (fun i => leBytes 1 (ctxStateCode (ctxOf s (i + 1)).state)) ++
    (List.range 250).flatMap (fun cl => leBytes 16 (offlineMask s cl)))

/-! Efficiency (R504, R505). -/

/-- A ratio in units of 1/65,536, rounded down; 0 where the denominator is 0. -/
def ratioOf (num den : Nat) : Nat := if den = 0 then 0 else min (num * 65536 / den) 0xFFFFFFFF

def arithAt (b : EffBlock) (i : Nat) : Nat := b.arith.getD i 0

/-- RATIO of entry `i` under PHYSICAL; half of a full module's compute, HBM and ring in a Q96. -/
def ratioPhysical (s : State) (b : EffBlock) (i : Nat) : Nat :=
  let h := if isQ96 s then 2 else 1
  let us := b.elapsedUs
  let coded := if 80 ≤ s.pcie.linkRate then (128, 130) else (8, 10)
  match i with
  | 0 => ratioOf ((2 * arithAt b 0 + arithAt b 1 + 8 * arithAt b 2 + 64 * arithAt b 3) * h) (57600000000 * us)
  | 1 => ratioOf (b.hbm * h) (38400000 * us)
  | 2 => ratioOf b.flash (115200 * us)
  | 3 => ratioOf (b.ring * (if isQ96 s then 4 else 1)) (384000 * us)
  | 4 => ratioOf (b.host * 8 * coded.2) (2 * s.pcie.linkWidth * s.pcie.linkRate * 100 * coded.1 * us)
  | 5 => ratioOf b.scan (115200 * us)
  | _ => ratioOf (b.energy * 10) (36 * us)

/-- RATIO of entry `i` under REFERENCE (Table 19-7). -/
def ratioReference (b : EffBlock) (i : Nat) : Nat :=
  match i with
  | 0 => ratioOf (b.arith.foldl (· + ·) 0 * 60000000) (b.energy * (64 * 10 ^ 15))
  | 1 => ratioOf (b.hbm * 60000000) (b.energy * (320 * 10 ^ 12))
  | 2 => ratioOf (b.flash * 40000000) (b.energy * (600 * 10 ^ 9))
  | _ => 0

def effDelivered (b : EffBlock) : List Nat := [b.arith.foldl (· + ·) 0, b.hbm, b.flash, b.ring, b.host, b.scan, b.energy]

def effBlockBytes (s : State) (b : EffBlock) : List Byte :=
  leBytes 8 b.frames ++ leBytes 8 b.elapsedUs ++ ((effDelivered b).zipIdx).flatMap (fun p =>
    leBytes 8 p.1 ++ leBytes 4 (if s.logs.basisRef then ratioReference b p.2 else ratioPhysical s b p.2) ++ zeros 4)

def effPage (s : State) : List Byte :=
  pageOf 320 (leBytes 1 (if s.logs.basisRef then 1 else 0)) (effBlockBytes s s.logs.lastFrame ++ effBlockBytes s s.logs.accum)

/-- The contents of a log, its header fields LID to GENERATION left 0. -/
def logBody (s : State) (lid : Nat) : List Byte :=
  match lid with
  | 1 => errorPage s
  | 2 => flashPage s
  | 3 => tempPage s
  | 4 => framePage s
  | 5 => effPage s
  | _ => unitPage s

/-! ### The management map (R518, Table 20-6) -/

/-- The values that D1 produces: FW_REV_ACTIVE, bytes 64-127 of the TEMPERATURE page, FRAME_AVG_W and COMPUTE_W. -/
def mgmtLive (s : State) : List Byte :=
  leBytes 4 (fwRevActive s) ++ ((tempPage s).drop 64).take 64 ++ leBytes 2 s.power.frameAvgW ++ leBytes 2 s.power.computeW

/-- The same as the map shows them: as last known while D1 is off. -/
def mgmtShown (s : State) : List Byte := if s.power.d1 || s.power.lastKnown.isEmpty then mgmtLive s else s.power.lastKnown

/-- Bytes 0-251 of the map. -/
def mgmtBody (s : State) : List Byte :=
  padTo 252 (leBytes 8 s.uid.toNat ++ asciiPad 16 (orderCode s) ++ leBytes 8 (otpWord s 2).toNat ++
    leBytes 4 (bitsOf (otpWord s 1).toNat 63 48) ++ (mgmtShown s).take 4 ++ leBytes 1 (devStateWord s % 256) ++
    leBytes 1 s.power.resetCause ++ leBytes 1 (lifecycleCode s.sec.lifecycle) ++ zeros 1 ++ leBytes 4 s.power.resets ++ zeros 16 ++
    (mgmtShown s).drop 4)

/-- The 256 bytes that the carrier reads at address 0x5A, in every state that has standby power; a write is not acknowledged. -/
def managementMap (s : State) : List Byte := mgmtBody s ++ leBytes 4 (crc32c (mgmtBody s))

/-- Note a snapshot: GENERATION rises where the contents differ from those of the last snapshot (log entry 26). -/
def noteSnap (lid : Nat) (s : State) : State :=
  let b := logBody s lid
  if mapGet [] s.logs.snaps lid = b then s
  else { s with logs := { s.logs with
      snaps := mapPut lid b s.logs.snaps
      gens := mapSet 0 lid ((mapGet 0 s.logs.gens lid + 1) % 2 ^ 32) s.logs.gens } }

/-- The page of a snapshot (Table 19-1). -/
def logPage (s : State) (lid : Nat) : List Byte :=
  let b := logBody s lid
  leBytes 1 lid ++ leBytes 1 1 ++ zeros 2 ++ leBytes 4 b.length ++ leBytes 8 s.frame.counter.toNat ++ leBytes 4 (mapGet 0 s.logs.gens lid) ++
  b.drop 20

/-! ### Feature data -/

def frameFeature (s : State) : List Nat :=
  let f := s.frame
  [f.period + f.pct * 2 ^ 16,
   f.effPeriod + bit f.locked 15 + f.sourceRing % 32 * 2 ^ 16 + bit f.sourceValid 21 + bit (f.masterRings != 0) 22 + bit f.slewing 23,
   f.lockErr.toNat + f.masterRings.toNat * 2 ^ 16]

/-- Largest BLOCK_SPACE size (R248). -/
def blockMax (s : State) : Nat := userGranules s

def blockFeature (s : State) : List Nat :=
  [s.flash.blockGranules % 2 ^ 32, s.flash.blockGranules / 2 ^ 32, blockMax s % 2 ^ 32, blockMax s / 2 ^ 32]

/-- Default period of a scrub group (Table 10-4). -/
def scrubDefault (g : Nat) : Nat :=
  match g with
  | 0 => 3600
  | 1 => 600
  | 2 => 60
  | _ => 86400

def scrubOf (s : State) (g : Nat) : ScrubGroup := mapGet {} s.scrub g

/-- Engines of a group that the part has (Table 10-4). -/
def groupUnits (s : State) (g : Nat) : List Nat :=
  match g with
  | 0 => (List.range 16).filter (stackFitted s)
  | 1 => List.range (clustersPresent s)
  | _ => [0]

/-- The least of a list, 0 of none. -/
def leastOf (l : List Nat) : Nat := l.foldl min (l.headD 0)

/-- PASSES of every engine, and the progress of the slowest in units of 1/65,536 (Table 10-5). -/
def scrubPasses (s : State) (g : Nat) : Nat := leastOf ((groupUnits s g).map (fun u => (engineOf s g u).2))
def scrubProgress (s : State) (g : Nat) : Nat := leastOf ((groupUnits s g).map (fun u => (engineOf s g u).1)) * 65536 / engineWords g

def scrubFeature (s : State) (g : Nat) : List Nat :=
  let x := scrubOf s g
  [bit x.enable 0 + g * 2 ^ 8, if x.period = 0 then scrubDefault g else x.period, scrubPasses s g % 2 ^ 32, scrubProgress s g, x.corrected, x.poisoned, x.lastMs]

def easelCode (e : Easel) : Nat :=
  match e with
  | .closed => 0
  | .opening => 1
  | .opened => 2
  | .closing => 3

def ringFeature (s : State) (p : Nat) : List Nat :=
  let x := pairOf s p
  [bit x.enable 0 + x.masterPri * 2 ^ 2 + easelCode x.easel * 2 ^ 8 + pairStateCode x.state * 2 ^ 10 +
     (if x.state = .refused then x.refuse else 0) * 2 ^ 13 + x.position % 32 * 2 ^ 16 + (x.members.length - 1) % 32 * 2 ^ 21 +
     bit x.closed 26 + bit x.oversize 27,
   x.masterUid.toNat % 2 ^ 32, x.masterUid.toNat / 2 ^ 32, x.hopDn % 65536 + x.hopUp % 65536 * 2 ^ 16, x.crcErrors, x.resends, x.linkFaults,
   x.fecSymbols]

/-- Accepted commands of a class not yet released. -/
def waitingIn (s : State) (cls : Nat) : Nat := (s.host.cmds.filter (fun c => c.phase = .waiting && pktClass c.pkt = cls)).length

def arbFeature (s : State) : List Nat :=
  [s.arb.wHigh + s.arb.wMedium * 2 ^ 8 + s.arb.wLow * 2 ^ 16, waitingIn s 3, waitingIn s 2, waitingIn s 1, waitingIn s 0]

def powerFeature (s : State) : List Nat :=
  let p := s.power
  [p.capW + p.duty * 2 ^ 16 + bit p.limited 21 + bit p.overCap 22, p.frameAvgW % 65536 + p.peakW % 65536 * 2 ^ 16,
   p.computeW % 65536 + p.idleW % 65536 * 2 ^ 16, p.limitedFrames, p.trips, p.dieTemp.toNat + p.hbmTemp.toNat * 2 ^ 8 + p.throttleC * 2 ^ 16]

def effFeature (s : State) : List Nat := [bit s.logs.basisRef 0, s.logs.accum.frames % 2 ^ 32]

/-- The 32 bytes of an inline feature. -/
def featureBytes (s : State) (fid sel : Nat) : List Byte :=
  padTo 32 ((match fid with
    | 0x10 => frameFeature s
    | 0x12 => blockFeature s
    | 0x13 => scrubFeature s sel
    | 0x14 => ringFeature s sel
    | 0x15 => arbFeature s
    | 0x16 => powerFeature s
    | _ => effFeature s).flatMap (leBytes 4))

/-- Records FIRST to FIRST + COUNT − 1 of a palette (R177). -/
def paletteBytes (s : State) (n first count : Nat) : List Byte :=
  (List.range count).flatMap (fun i => palRecord (mapGet {} (ctxOf s n).palette (first + i)))

end Sys2Proof.Machine
end

