-- ==== Sys2Proof/Machine/Admin.lean ====
section
/-! DEFINITION. Admin commands that report or set (Table 15-3): IDENTIFY, GET_LOG, GET_FEATURE, SET_FEATURE but for the RING feature,
ATTEST and SCRUB_SET (R37-R41, R177, R178, R247, R248, R317, R411, R419, R461, R483, R495, R496, R506). -/

namespace Sys2Proof.Machine

/-! ### IDENTIFY, GET_LOG, GET_FEATURE -/

def identifyCmd (c : Cmd) (s : State) : State := reply c 0 (identifyData s) (stSuccess 4096 0 0) s

/-- IDENTIFY (0x01): the 4,096 bytes of Table 15-5 (R419). -/
def execIdentify (tag : Nat) (s : State) : Host.Outcome State Fault Refusal := unitOp true (onCmd 0x01 tag anyPkt identifyCmd s)

def getLogCmd (c : Cmd) (s : State) : State :=
  let lid := pktField c.pkt 8 1
  let off := pktField c.pkt 16 8
  let s1 := noteSnap lid s
  let page := logPage s1 lid
  if recoveryWindow s then complete c.tag stLifecycle s
  else if page.length ≤ off then complete c.tag (stInvalidField 16 0) s
  else
    let bs := (page.drop off).take (pktBufLen c.pkt)
    reply c 0 bs (stSuccess bs.length page.length 0) s1

/-- GET_LOG (0x02): part of one page, from one snapshot (R495, R496). -/
def execGetLog (tag : Nat) (s : State) : Host.Outcome State Fault Refusal := unitOp true (onCmd 0x02 tag anyPkt getLogCmd s)

def getFeatureCmd (c : Cmd) (s : State) : State :=
  let fid := pktField c.pkt 8 1
  if fid = 0x11 then
    (if ctxDefined s (pktCtx c.pkt) then
      let bs := paletteBytes s (pktCtx c.pkt) (pktField c.pkt 12 2) (pktField c.pkt 14 2)
      reply c 0 bs (stSuccess bs.length 0 0) s
     else complete c.tag (stInvalidField 2 0) s)
  else reply c 0 (featureBytes s fid (pktField c.pkt 10 2)) (stSuccess 32 0 0) s

/-- GET_FEATURE (0x04): the data of one feature (R177, R317, Table 15-7). -/
def execGetFeature (tag : Nat) (s : State) : Host.Outcome State Fault Refusal := unitOp true (onCmd 0x04 tag anyPkt getFeatureCmd s)

/-! ### SET_FEATURE. A change that waits for a tick stays with its command until then (FRAME_TICK applies it). -/

def isFeature (fid : Nat) (p : PacketBits) : Bool := pktField p 8 1 = fid

/-- The command waits for its tick or update point. -/
def awaitTick (c : Cmd) (at_ : Nat) (s : State) : State := updCmd c.tag (fun d => { d with phase := .ready, extra := at_ }) s

/-- The values are stored and reported at once; they take effect two frames after acceptance (R39-R41). -/
def setFrameCmd (c : Cmd) (s : State) : State :=
  let d := featDw c.pkt 0
  awaitTick c (max (c.frame + 2) (s.frame.counter.toNat + 1))
    { s with frame := { s.frame with period := bitsOf d 14 0, pct := bitsOf d 22 16 } }

/-- SET_FEATURE FRAME (R37-R41). -/
def execSetFeatureFrame (tag : Nat) (s : State) : Host.Outcome State Fault Refusal :=
  unitOp true (onCmd 0x03 tag (isFeature 0x10) setFrameCmd s)

/-- Offending bytes of a palette word (R177). -/
def palWordErr (w : Nat) : List Nat :=
  let e := signOf 8 (bitsOf w 7 0)
  errIf ((e < -64 && e != -128) || 63 < e) 0 ++ errIf (bitsOf w 15 8 != 0 && bitsOf w 18 16 != 1) 1 ++ errIf (4 < bitsOf w 18 16) 2 ++
  errIf (bitsOf w 31 27 != 0) 3

/-- The words a palette write supplies. -/
def palWords (c : Cmd) : List Nat := (pieces 4 (pktField c.pkt 14 2) (cmdData c)).map leNat

def setPaletteCmd (c : Cmd) (s : State) : State :=
  if !ctxDefined s (pktCtx c.pkt) then complete c.tag (stInvalidField 2 0) s
  else
    match firstErr (pieceErrs 0 4 (fun _ w => palWordErr w) (palWords c)) with
    | some o => complete c.tag (stInvalidField o 1) s
    | none => awaitTick c 0 s

/-- SET_FEATURE PALETTE: checked at once, applied at the next update point (R177, R178). -/
def execSetFeaturePalette (tag : Nat) (s : State) : Host.Outcome State Fault Refusal :=
  unitOp true (onCmd 0x03 tag (isFeature 0x11) setPaletteCmd s)

/-- T3 quotas of every context. -/
def quotaT3Sum (s : State) : Nat := ((s.ctxs.filter (fun p => p.2.state != .free)).map (fun (p : Nat × Context) => p.2.quotaT3)).foldl (· + ·) 0

def setBlockCmd (c : Cmd) (s : State) : State :=
  let n := featDw c.pkt 0 + bitsOf (featDw c.pkt 1) 7 0 * 2 ^ 32
  if userGranules s < n + quotaT3Sum s then complete c.tag stQuota s
  else if s.flash.blockGranules ≤ n then complete c.tag (stSuccess 0 0 0) { s with flash := { s.flash with blockGranules := n } }
  else if s.flash.readOnly then complete c.tag stProgramFail s
  else
    keepRunning c 1 (enqTombstone c.tag 0 0 (lgaChannel (blkLga n)) [(blkLga n, s.flash.blockGranules - n)]
      { s with flash := { s.flash with blockGranules := n } })

/-- SET_FEATURE BLOCK_SPACE: a reduced size holds at once, and every granule beyond its end is trimmed before the command completes (R247,
R248). -/
def execSetFeatureBlockSpace (tag : Nat) (s : State) : Host.Outcome State Fault Refusal :=
  unitOp true (onCmd 0x03 tag (isFeature 0x12) setBlockCmd s)

/-- SET_FEATURE ARBITRATION: a new weight counts from the next new round, where the command completes (R411). -/
def execSetFeatureArbitration (tag : Nat) (s : State) : Host.Outcome State Fault Refusal :=
  unitOp true (onCmd 0x03 tag (isFeature 0x15) (fun c s => awaitTick c 0 s) s)

/-- SET_FEATURE POWER_CAP: from the next tick (R483). -/
def execSetFeaturePowerCap (tag : Nat) (s : State) : Host.Outcome State Fault Refusal :=
  unitOp true (onCmd 0x03 tag (isFeature 0x16) (fun c s => awaitTick c 0 s) s)

/-- SET_FEATURE EFFICIENCY_BASIS: from the next tick (R506). -/
def execSetFeatureEfficiencyBasis (tag : Nat) (s : State) : Host.Outcome State Fault Refusal :=
  unitOp true (onCmd 0x03 tag (isFeature 0x17) (fun c s => awaitTick c 0 s) s)

/-- SCRUB_SET (0x78): from the next tick (R317). -/
def execScrubSet (tag : Nat) (s : State) : Host.Outcome State Fault Refusal :=
  unitOp true (onCmd 0x78 tag anyPkt (fun c s => awaitTick c 0 s) s)

/-! ### ATTEST (Table 17-3) -/

def ownerDigest (s : State) : List Byte :=
  match s.sec.owner with
  | some d => d
  | none => zeros 64

/-- The seed of the identity key pair (R459). -/
def idSeed (s : State) : List Byte := Config.shake256 48 (otpBytes s 336 8 ++ asciiPad 6 "SX4-ID")

/-- Bytes 0-2,119 of the measurement record. -/
def measureBody (c : Cmd) (s : State) : List Byte :=
  let other := otherSlot s
  let ok := slotCommitted s other && s.ef.activeSlot.isSome
  padTo 128 (
    leBytes 4 0x41545854 ++ leBytes 2 1 ++ leBytes 2 3400 ++ leBytes 8 s.uid.toNat ++ leBytes 32 (pktField c.pkt 8 32) ++
    padTo 32 s.sec.challenge ++ leBytes 1 (lifecycleCode s.sec.lifecycle) ++ leBytes 1 (rdpCode s.sec.rdp) ++ leBytes 2 (minSvn s) ++
    leBytes 1 (activeSlotCode s) ++ leBytes 1 ((s.ef.activeSlot.map (fun k => (fwHeader s k).keySlot)).getD 0) ++
    leBytes 1 (revokedMask s) ++ leBytes 1 (bit s.sec.owner.isSome 0 + bit s.sec.sanitise 1) ++ leBytes 4 (fwRevActive s) ++
    leBytes 4 (fwRevOther s) ++ leBytes 2 ((s.ef.activeSlot.map (fun k => (fwHeader s k).svn)).getD 0) ++
    leBytes 2 (if ok then (fwHeader s other).svn else 0xFFFF) ++ leBytes 4 s.sec.kgen ++ leBytes 8 s.frame.counter.toNat ++
    leBytes 4 s.power.resets ++ leBytes 1 s.power.resetCause) ++
  padTo 64 ((s.ef.activeSlot.map (imageDigest s)).getD []) ++ padTo 64 (if ok then imageDigest s other else []) ++ padTo 64 (ownerDigest s) ++
  padTo 1800 ((Config.falconPublic (idSeed s)).take 1793)

def measureRecord (c : Cmd) (s : State) : List Byte :=
  measureBody c s ++ padTo 1280 ((Config.falconSign (idSeed s) (digest (measureBody c s))).take 1280)

def attestCmd (c : Cmd) (s : State) : State :=
  if recoveryWindow s then complete c.tag stLifecycle s
  else if pktBufLen c.pkt < 3456 then complete c.tag (stInvalidField 56 0) s
  else reply c 0 (measureRecord c s) (stSuccess 3400 0 0) s

/-- ATTEST (0x09): a signed measurement record (R461). -/
def execAttest (tag : Nat) (s : State) : Host.Outcome State Fault Refusal := unitOp true (onCmd 0x09 tag anyPkt attestCmd s)

end Sys2Proof.Machine
end

