-- ==== Sys2Proof/Machine/Aborts.lean ====
section
/-! DEFINITION. How a command is ended before its time (R303, R421, R422, Table 15-8) and ABORT itself. -/

namespace Sys2Proof.Machine

/-- Opcodes that ABORT does not end once their unit has started them (last row of Table 15-8). -/
def keepsOn (p : PacketBits) : Bool :=
  let op := pktOpcode p
  [0x06, 0x08, 0x0A, 0x0B, 0x0C, 0x20, 0x21, 0x22, 0x23, 0x24, 0x30, 0x36, 0x52, 0x70, 0x71, 0x78].contains op ||
  (op = 0x03 && pktField p 8 1 != 0x11)

/-- The unit has not started the command: it waits for release or input, or as work for a plan or an update point (log entry 27). -/
def notStarted (c : Cmd) : Bool :=
  pktOpcode c.pkt != 0x21 &&
  (c.phase = .waiting || c.phase = .released ||
    (c.phase = .ready && [0x03, 0x23, 0x24, 0x32, 0x35, 0x40, 0x41, 0x42, 0x53].contains (pktOpcode c.pkt) &&
      !(pktOpcode c.pkt = 0x03 && pktField c.pkt 8 1 != 0x11)))

/-- The run in progress belongs to this command. -/
def runOf (s : State) (c : Cmd) : Bool := (ctxOf s (pktCtx c.pkt)).run.any (fun u => u.tag = c.tag && u.kind != .stream)

/-- End the run of a command, if it is in progress. -/
def endRunOf (c : Cmd) (s : State) : State := if runOf s c then settleCtx (pktCtx c.pkt) (endRun (pktCtx c.pkt) s) else s

/-- Stop the fills of a placement or pin, and restore the placement and pin level it replaced (Table 15-8). -/
def undoPlace (c : Cmd) (s : State) : State :=
  let id := cmdObj c
  let s := updObj id (fun o => match c.undo with
    | none => { o with fillTags := o.fillTags.filter (· != c.tag) }
    | some (t2, b, pin) =>
      { o with wantT2 := t2, binding := b, pin := pin, dropBinding := false, fillTags := o.fillTags.filter (· != c.tag)
               waiting := o.waiting && (o.posted || t2 || pin != 0)
               dropCopy := o.dropCopy || o.copy.any (fun x => !x.missing.isEmpty && !o.posted) }) s
  if (objOf s id).any (fun o => o.fillTags.isEmpty) then
    pruneFlight { (dropReads (fun r => match r.why with
      | .fill o _ post => o = id && !post
      | _ => false) s) with
      ring := { s.ring with imports := s.ring.imports.filter (fun i => i.obj != id || i.post) } }
  else s

/-- A write that has begun: programs no die holds are dropped; it ends when the last one on a die has (Table 15-8). A copy that OBJ_EVICT
was writing back stays as it is, DIRTY. -/
def abortWrite (c : Cmd) (st : Status) (s : State) : State :=
  let s := dropPrograms (fun p => p.tag = c.tag) s
  let s := updObj (cmdObj c) (fun o => if o.evict.any (fun e => e.1 = c.tag) then { o with evict := none } else o) s
  if progsOf s c.tag = 0 then complete c.tag { st with r2 := c.moved % 2 ^ 32 } s
  else updCmd c.tag (fun d => { d with result := some st, left := progsOf s c.tag }) s

/-- A read for the host of this command. -/
def readsHost (tag : Nat) (r : ReadOp) : Bool :=
  match r.why with
  | .host t _ => t = tag
  | _ => false

/-- What ending a started command does, with the ABORTED status it completes with. -/
def abortStarted (c : Cmd) (st : Status) (s : State) : State :=
  let op := pktOpcode c.pkt
  if op = 0x41 then
    (match stepOf s (pktCtx c.pkt) c.tag with
     | some x => settleCtx (pktCtx c.pkt) (voidRunWith (pktCtx c.pkt) 9 x (fun _ => st) s)
     | none => complete c.tag st s)
  else if op = 0x40 then complete c.tag st (endRunOf c s)
  else if isQuery op && c.phase != .finishing then complete c.tag st (dropQueries (fun q => q.tag = c.tag) (endRunOf c s))
  else if [0x32, 0x35, 0x51].contains op then abortWrite c st s
  else if op = 0x31 || op = 0x34 then complete c.tag st (undoPlace c s)
  else complete c.tag { st with r2 := c.moved % 2 ^ 32 } (dropReads (readsHost c.tag) { s with ring := { s.ring with imports := s.ring.imports.filter (fun i => i.tag != c.tag) } })

/-- An execution command that ends without a run may leave its context without work (Table 11-2). -/
def endsUnrun (c : Cmd) (s : State) : State := if isExecution (pktOpcode c.pkt) then settleCtx (pktCtx c.pkt) s else s

/-- End one command: the state, and whether it was ended. -/
def abortCmd (by_ byTag : Nat) (c : Cmd) (s : State) : State × Bool :=
  let st := stAborted by_ byTag 0
  if pktOpcode c.pkt = 0x07 then (s, false)
  else if notStarted c then (endsUnrun c (endCmd c st s), true)
  else if keepsOn c.pkt then (s, false)
  else if c.result.any (fun r => r.cls = 5) then (s, false)
  else (abortStarted c st s, true)

/-- End every command of a list, counting those ended. -/
def abortList (by_ byTag : Nat) (cs : List Cmd) (s : State) : State × Nat :=
  cs.foldl (fun a c =>
    match cmdOf a.1 c.tag with
    | none => a
    | some d => let r := abortCmd by_ byTag d a.1; (r.1, a.2 + (if r.2 then 1 else 0))) (s, 0)

/-! ### ABORT (0x07) -/

/-- Commands complete whose record is not in the ring. -/
def unwritten (s : State) (pick : Record → Bool) : Nat := ((s.host.done ++ s.host.heldRecs).filter (fun r => r.kind = 0 && pick r)).length

/-- Run an ABORT of this scope at once on its accepted command: it is not arbitrated (R401, R421). -/
def abortRun (tag scope : Nat) (pick : Cmd → Cmd → Bool) (done : Cmd → Record → Bool) (s : State) : State :=
  match cmdOf s tag with
  | none => s
  | some c =>
    if pktOpcode c.pkt = 0x07 && pktField c.pkt 8 1 = scope && c.phase = .waiting then
      let sel := s.host.cmds.filter (fun d => d.tag != tag && pick c d)
      let r := abortList 1 tag sel s
      let all := sel.length + unwritten s (done c)
      complete tag (stSuccess r.2 ((if scope = 0 then max all 1 else all) - r.2) 0) r.1
    else s

def abortTarget (c : Cmd) : Nat := pktField c.pkt 12 4

/-- ABORT of SCOPE 0, ONE: the command whose device tag is TARGET_TAG. -/
def execAbortOne (tag : Nat) (s : State) : Host.Outcome State Fault Refusal :=
  unitOp true (abortRun tag 0 (fun c d => d.tag = abortTarget c) (fun c r => r.tag = abortTarget c) s)

/-- ABORT of SCOPE 1, CONTEXT. -/
def execAbortContext (tag : Nat) (s : State) : Host.Outcome State Fault Refusal :=
  unitOp true (abortRun tag 1 (fun c d => pktCtx d.pkt = pktCtx c.pkt) (fun c r => r.ctx = pktCtx c.pkt) s)

/-- ABORT of SCOPE 2, ALL. -/
def execAbortAll (tag : Nat) (s : State) : Host.Outcome State Fault Refusal :=
  unitOp true (abortRun tag 2 (fun _ _ => true) (fun _ _ => true) s)

end Sys2Proof.Machine
end

