-- ==== Sys2Proof/Machine/CoreScalar.lean ====
section
/-! DEFINITION. MX core instructions of classes 0x1, 0x2 and 0x3, with NOP and ATOM: scalar arithmetic, branches, calls (R113, R115,
R116, R131, R139). -/

namespace Sys2Proof.Machine

/-! ### Issue and the program counter -/

/-- Instructions of the image a core runs. -/
def codeLen (s : State) (r : CoreRef) : Nat := ((progOf (ctxOf s r.ctx) r.sketch).map (fun p => p.code.length)).getD 0

/-- The core goes to instruction `pc`; at or beyond CODE_LEN it stops with PC_RANGE before it fetches (R116). -/
def goPc (r : CoreRef) (pc : Nat) (s : State) : State :=
  let s := updCore r (fun k => { k with pc := pc, atom := k.atom - 1 }) s
  if codeLen s r ≤ pc then coreFault r 5 0 s else s

/-- Retire an instruction that leaves its core as `k`: the next instruction in order follows. -/
def retire (r : CoreRef) (k : Core) (s : State) : State := goPc r (k.pc + 1) (setCore r k s)

/-- Run `f` on the state where the core issues this instruction now; a fetch that finds the instruction uncorrectable stops the core with
MEMORY_ERROR (R305, R310); on any other state there is no such event (log entry 1). -/
def onIssue (r : CoreRef) (i : CoreInstr) (f : State → State) (s : State) : State :=
  if issues s r i then f s
  else if fetches s r i then coreFault r 0x0B ((coreOf s r).pc * 8) (meetPlain (.istore r) srcCore [(coreOf s r).pc] s)
  else s

/-- An instruction that writes one register from the core. -/
def regOp (r : CoreRef) (i : CoreInstr) (rd : BitVec 5) (v : State → Core → Word64) (s : State) : State :=
  onIssue r i (fun s => retire r (writeReg rd (v s (coreOf s r)) (coreOf s r)) s) s

/-! ### Arithmetic (Table 4-7) -/

/-- IMM sign-extended. -/
def sx (imm : Word32) : Word64 := imm.signExtend 64

def boolWord (b : Bool) : Word64 := if b then 1 else 0

def aluEval (op : AluOp) (a b : Word64) : Word64 :=
  match op with
  | .add => a + b
  | .sub => a - b
  | .and => a &&& b
  | .or => a ||| b
  | .xor => a ^^^ b
  | .shl => a <<< (b.toNat % 64)
  | .shr => a >>> (b.toNat % 64)
  | .sra => a.sshiftRight (b.toNat % 64)
  | .mul => a * b
  | .min => if a.slt b then a else b
  | .max => if a.slt b then b else a
  | .slt => boolWord (a.slt b)
  | .sltu => boolWord (a.ult b)

def aluIEval (op : AluIOp) (a : Word64) (imm : Word32) : Word64 :=
  match op with
  | .addi => a + sx imm
  | .andi => a &&& sx imm
  | .ori => a ||| sx imm
  | .xori => a ^^^ sx imm
  | .shli => a <<< (imm.toNat % 64)
  | .shri => a >>> (imm.toNat % 64)
  | .srai => a.sshiftRight (imm.toNat % 64)
  | .lui => (imm.setWidth 64 <<< 32) ||| (a &&& 0xFFFFFFFF)
  | .slti => boolWord (a.slt (sx imm))
  | .sltui => boolWord (a.ult (sx imm))

def brTaken (op : BrOp) (a b : Word64) : Bool :=
  match op with
  | .beq => a = b
  | .bne => a != b
  | .blt => a.slt b
  | .bge => !a.slt b
  | .bltu => a.ult b
  | .bgeu => !a.ult b

def aluCmd (op : AluOp) (c : CoreRef) (rd rs1 rs2 : BitVec 5) (s : State) : State :=
  regOp c (.alu op rd rs1 rs2) rd (fun _ k => aluEval op (readReg k rs1) (readReg k rs2)) s

def aluICmd (op : AluIOp) (c : CoreRef) (rd rs1 : BitVec 5) (imm : Word32) (s : State) : State :=
  regOp c (.alui op rd rs1 imm) rd (fun _ k => aluIEval op (readReg k rs1) imm) s

/-- PC + TGT for an image whose targets PROG_LOAD checked (R116). -/
def relTarget (pc : Nat) (tgt : Word32) : Nat := ((pc : Int) + tgt.toInt).toNat

def brCmd (op : BrOp) (c : CoreRef) (rs1 rs2 : BitVec 5) (tgt : Word32) (s : State) : State :=
  onIssue c (.br op rs1 rs2 tgt) (fun s =>
    let k := coreOf s c
    if brTaken op (readReg k rs1) (readReg k rs2) then goPc c (relTarget k.pc tgt) s else goPc c (k.pc + 1) s) s

/-! ### The instructions -/

/-- NOP (0x00): nothing but the next PC. -/
def execNop (c : CoreRef) (s : State) : Host.Outcome State Fault Refusal :=
  unitOp (wfCore c) (onIssue c .nop (fun s => retire c (coreOf s c) s) s)

/-- ATOM (0x03): the next N instructions form an atomic run (R131); the boundary after ATOM itself lies inside it (log entry 102). -/
def execAtom (c : CoreRef) (n1 : BitVec 5) (s : State) : Host.Outcome State Fault Refusal :=
  unitOp (wfCore c) (onIssue c (.atom n1) (fun s =>
    retire c { coreOf s c with atom := n1.toNat + 2 } s) s)

/-- ADD (0x10) (Table 4-7, R115). -/
def execAdd (c : CoreRef) (rd rs1 rs2 : BitVec 5) (s : State) : Host.Outcome State Fault Refusal :=
  unitOp (wfCore c) (aluCmd .add c rd rs1 rs2 s)

/-- SUB (0x11) (Table 4-7, R115). -/
def execSub (c : CoreRef) (rd rs1 rs2 : BitVec 5) (s : State) : Host.Outcome State Fault Refusal :=
  unitOp (wfCore c) (aluCmd .sub c rd rs1 rs2 s)

/-- AND (0x12) (Table 4-7, R115). -/
def execAnd (c : CoreRef) (rd rs1 rs2 : BitVec 5) (s : State) : Host.Outcome State Fault Refusal :=
  unitOp (wfCore c) (aluCmd .and c rd rs1 rs2 s)

/-- OR (0x13) (Table 4-7, R115). -/
def execOr (c : CoreRef) (rd rs1 rs2 : BitVec 5) (s : State) : Host.Outcome State Fault Refusal :=
  unitOp (wfCore c) (aluCmd .or c rd rs1 rs2 s)

/-- XOR (0x14) (Table 4-7, R115). -/
def execXor (c : CoreRef) (rd rs1 rs2 : BitVec 5) (s : State) : Host.Outcome State Fault Refusal :=
  unitOp (wfCore c) (aluCmd .xor c rd rs1 rs2 s)

/-- SHL (0x15) (Table 4-7, R115). -/
def execShl (c : CoreRef) (rd rs1 rs2 : BitVec 5) (s : State) : Host.Outcome State Fault Refusal :=
  unitOp (wfCore c) (aluCmd .shl c rd rs1 rs2 s)

/-- SHR (0x16) (Table 4-7, R115). -/
def execShr (c : CoreRef) (rd rs1 rs2 : BitVec 5) (s : State) : Host.Outcome State Fault Refusal :=
  unitOp (wfCore c) (aluCmd .shr c rd rs1 rs2 s)

/-- SRA (0x17) (Table 4-7, R115). -/
def execSra (c : CoreRef) (rd rs1 rs2 : BitVec 5) (s : State) : Host.Outcome State Fault Refusal :=
  unitOp (wfCore c) (aluCmd .sra c rd rs1 rs2 s)

/-- MUL (0x18) (Table 4-7, R115). -/
def execMul (c : CoreRef) (rd rs1 rs2 : BitVec 5) (s : State) : Host.Outcome State Fault Refusal :=
  unitOp (wfCore c) (aluCmd .mul c rd rs1 rs2 s)

/-- MIN (0x19) (Table 4-7, R115). -/
def execMin (c : CoreRef) (rd rs1 rs2 : BitVec 5) (s : State) : Host.Outcome State Fault Refusal :=
  unitOp (wfCore c) (aluCmd .min c rd rs1 rs2 s)

/-- MAX (0x1A) (Table 4-7, R115). -/
def execMax (c : CoreRef) (rd rs1 rs2 : BitVec 5) (s : State) : Host.Outcome State Fault Refusal :=
  unitOp (wfCore c) (aluCmd .max c rd rs1 rs2 s)

/-- SLT (0x1B) (Table 4-7, R115). -/
def execSlt (c : CoreRef) (rd rs1 rs2 : BitVec 5) (s : State) : Host.Outcome State Fault Refusal :=
  unitOp (wfCore c) (aluCmd .slt c rd rs1 rs2 s)

/-- SLTU (0x1C) (Table 4-7, R115). -/
def execSltu (c : CoreRef) (rd rs1 rs2 : BitVec 5) (s : State) : Host.Outcome State Fault Refusal :=
  unitOp (wfCore c) (aluCmd .sltu c rd rs1 rs2 s)

/-- ADDI (0x20) (Table 4-7, R115). -/
def execAddi (c : CoreRef) (rd rs1 : BitVec 5) (imm : Word32) (s : State) : Host.Outcome State Fault Refusal :=
  unitOp (wfCore c) (aluICmd .addi c rd rs1 imm s)

/-- ANDI (0x21) (Table 4-7, R115). -/
def execAndi (c : CoreRef) (rd rs1 : BitVec 5) (imm : Word32) (s : State) : Host.Outcome State Fault Refusal :=
  unitOp (wfCore c) (aluICmd .andi c rd rs1 imm s)

/-- ORI (0x22) (Table 4-7, R115). -/
def execOri (c : CoreRef) (rd rs1 : BitVec 5) (imm : Word32) (s : State) : Host.Outcome State Fault Refusal :=
  unitOp (wfCore c) (aluICmd .ori c rd rs1 imm s)

/-- XORI (0x23) (Table 4-7, R115). -/
def execXori (c : CoreRef) (rd rs1 : BitVec 5) (imm : Word32) (s : State) : Host.Outcome State Fault Refusal :=
  unitOp (wfCore c) (aluICmd .xori c rd rs1 imm s)

/-- SHLI (0x24) (Table 4-7, R115). -/
def execShli (c : CoreRef) (rd rs1 : BitVec 5) (imm : Word32) (s : State) : Host.Outcome State Fault Refusal :=
  unitOp (wfCore c) (aluICmd .shli c rd rs1 imm s)

/-- SHRI (0x25) (Table 4-7, R115). -/
def execShri (c : CoreRef) (rd rs1 : BitVec 5) (imm : Word32) (s : State) : Host.Outcome State Fault Refusal :=
  unitOp (wfCore c) (aluICmd .shri c rd rs1 imm s)

/-- SRAI (0x26) (Table 4-7, R115). -/
def execSrai (c : CoreRef) (rd rs1 : BitVec 5) (imm : Word32) (s : State) : Host.Outcome State Fault Refusal :=
  unitOp (wfCore c) (aluICmd .srai c rd rs1 imm s)

/-- LUI (0x28) (Table 4-7, R115). -/
def execLui (c : CoreRef) (rd rs1 : BitVec 5) (imm : Word32) (s : State) : Host.Outcome State Fault Refusal :=
  unitOp (wfCore c) (aluICmd .lui c rd rs1 imm s)

/-- SLTI (0x29) (Table 4-7, R115). -/
def execSlti (c : CoreRef) (rd rs1 : BitVec 5) (imm : Word32) (s : State) : Host.Outcome State Fault Refusal :=
  unitOp (wfCore c) (aluICmd .slti c rd rs1 imm s)

/-- SLTUI (0x2A) (Table 4-7, R115). -/
def execSltui (c : CoreRef) (rd rs1 : BitVec 5) (imm : Word32) (s : State) : Host.Outcome State Fault Refusal :=
  unitOp (wfCore c) (aluICmd .sltui c rd rs1 imm s)

/-- LI (0x27): IMM sign-extended. -/
def execLi (c : CoreRef) (rd : BitVec 5) (imm : Word32) (s : State) : Host.Outcome State Fault Refusal :=
  unitOp (wfCore c) (regOp c (.li rd imm) rd (fun _ _ => sx imm) s)

/-- MFS (0x1E): a special register (R139). s3 and s5 are free values. -/
def execMfs (c : CoreRef) (rd : BitVec 5) (n : BitVec 3) (s : State) : Host.Outcome State Fault Refusal :=
  unitOp (wfCore c) (bump (onIssue c (.mfs rd n) (fun s =>
    let k := coreOf s c
    retire c (writeReg rd (specialReg s c n) (if n = 5 then { k with cycles := cyclesNow s k } else k)) s) s))

/-- MFA (0x1F): ADDR of a generator (R117). -/
def execMfa (c : CoreRef) (rd : BitVec 5) (g : BitVec 2) (s : State) : Host.Outcome State Fault Refusal :=
  unitOp (wfCore c) (regOp c (.mfa rd g) rd (fun _ k => (genOf k g).addr.setWidth 64) s)

/-- BEQ (0x30) (Table 4-9, R116). -/
def execBeq (c : CoreRef) (rs1 rs2 : BitVec 5) (tgt : Word32) (s : State) : Host.Outcome State Fault Refusal :=
  unitOp (wfCore c) (brCmd .beq c rs1 rs2 tgt s)

/-- BNE (0x31) (Table 4-9, R116). -/
def execBne (c : CoreRef) (rs1 rs2 : BitVec 5) (tgt : Word32) (s : State) : Host.Outcome State Fault Refusal :=
  unitOp (wfCore c) (brCmd .bne c rs1 rs2 tgt s)

/-- BLT (0x32) (Table 4-9, R116). -/
def execBlt (c : CoreRef) (rs1 rs2 : BitVec 5) (tgt : Word32) (s : State) : Host.Outcome State Fault Refusal :=
  unitOp (wfCore c) (brCmd .blt c rs1 rs2 tgt s)

/-- BGE (0x33) (Table 4-9, R116). -/
def execBge (c : CoreRef) (rs1 rs2 : BitVec 5) (tgt : Word32) (s : State) : Host.Outcome State Fault Refusal :=
  unitOp (wfCore c) (brCmd .bge c rs1 rs2 tgt s)

/-- BLTU (0x34) (Table 4-9, R116). -/
def execBltu (c : CoreRef) (rs1 rs2 : BitVec 5) (tgt : Word32) (s : State) : Host.Outcome State Fault Refusal :=
  unitOp (wfCore c) (brCmd .bltu c rs1 rs2 tgt s)

/-- BGEU (0x35) (Table 4-9, R116). -/
def execBgeu (c : CoreRef) (rs1 rs2 : BitVec 5) (tgt : Word32) (s : State) : Host.Outcome State Fault Refusal :=
  unitOp (wfCore c) (brCmd .bgeu c rs1 rs2 tgt s)

/-- DBNZ (0x36): decrement RS1, branch while it is not 0. -/
def execDbnz (c : CoreRef) (rs1 : BitVec 5) (tgt : Word32) (s : State) : Host.Outcome State Fault Refusal :=
  unitOp (wfCore c) (onIssue c (.dbnz rs1 tgt) (fun s =>
    let k := coreOf s c
    let v := readReg k rs1 - 1
    goPc c (if v != 0 then relTarget k.pc tgt else k.pc + 1) (setCore c (writeReg rs1 v k) s)) s)

/-- JMP (0x37): an absolute instruction index. -/
def execJmp (c : CoreRef) (tgt : Word32) (s : State) : Host.Outcome State Fault Refusal :=
  unitOp (wfCore c) (onIssue c (.jmp tgt) (fun s => goPc c tgt.toNat s) s)

/-- CALL (0x38): push PC + 1 and jump; STACK when eight entries stand (R116). -/
def execCall (c : CoreRef) (tgt : Word32) (s : State) : Host.Outcome State Fault Refusal :=
  unitOp (wfCore c) (onIssue c (.call tgt) (fun s =>
    let k := coreOf s c
    if 8 ≤ k.stack.length then coreFault c 6 0 s else goPc c tgt.toNat (setCore c { k with stack := (k.pc + 1) :: k.stack } s)) s)

/-- JR (0x39): RS1[10:0]; PC_RANGE when RS1 is at or beyond CODE_LEN, its bits [63:11] included (R116). -/
def execJr (c : CoreRef) (rs1 : BitVec 5) (s : State) : Host.Outcome State Fault Refusal :=
  unitOp (wfCore c) (onIssue c (.jr rs1) (fun s =>
    let t := (readReg (coreOf s c) rs1).toNat
    if codeLen s c ≤ t then coreFault c 5 0 s else goPc c t s) s)

/-- RET (0x3A): pop and jump; STACK when no entry stands (R116). -/
def execRet (c : CoreRef) (s : State) : Host.Outcome State Fault Refusal :=
  unitOp (wfCore c) (onIssue c .ret (fun s =>
    let k := coreOf s c
    match k.stack with
    | [] => coreFault c 6 0 s
    | t :: l => goPc c t (setCore c { k with stack := l } s)) s)

end Sys2Proof.Machine
end

