-- ==== Sys2Proof/Machine/CoreMemory.lean ====
section
/-! DEFINITION. MX core instructions of classes 0x4 and 0x5: line memory, generators, LDMA, cluster DMA, WAITD and PREQ, and the
end of a cluster DMA transfer (R117-R125, R310, R373). -/

namespace Sys2Proof.Machine

/-! ### Operand checks (R118) -/

/-- The program fault of an operand of `n` bytes at `a`, with its address: OPERAND_ALIGN or OPERAND_ADDRESS. -/
def operandBad (a n : Nat) : List (Nat × Nat) :=
  if a % 32 != 0 then [(1, a)] else if 131072 < a + n then [(2, a)] else []

/-- Fault with the first cause, or go on. -/
def faultOr (r : CoreRef) (bad : List (Nat × Nat)) (f : State → State) (s : State) : State :=
  match bad with
  | [] => f s
  | (c, a) :: _ => coreFault r c a s

/-! ### LDL, STL, SETA -/

def ldlCmd (c : CoreRef) (q : BitVec 3) (g : BitVec 2) (stepG : Bool) (s : State) : State :=
  onIssue c (.ldl q g stepG) (fun s =>
    let k := coreOf s c
    let a := genAddr k g
    faultOr c (operandBad a 32) (fun s =>
      if heldByWrites s c a 32 then s
      else
        let s := meetT0 srcCore c a 32 s
        if storeHit 32 (t0View s c) a 32 then coreFault c 0x0B a s
        else retire c (stepGens stepG [g] (quadSet q (storeRead (t0View s c) a 32) (coreOf s c))) (bump s)) s) s

/-- LDL (0x40): a line to a quad; it waits for a CHAIN that will write the line (R118, R166). -/
def execLdl (c : CoreRef) (q : BitVec 3) (g : BitVec 2) (stepG : Bool) (s : State) : Host.Outcome State Fault Refusal :=
  unitOp (wfCore c) (ldlCmd c q g stepG s)

def stlCmd (c : CoreRef) (q : BitVec 3) (g : BitVec 2) (stepG : Bool) (s : State) : State :=
  onIssue c (.stl q g stepG) (fun s =>
    let k := coreOf s c
    let a := genAddr k g
    faultOr c (operandBad a 32) (fun s =>
      if heldByReads s c a 32 then s
      else retire c (stepGens stepG [g] { k with t0 := storeWrite 32 k.t0 a (quadLine k q) }) s) s) s

/-- STL (0x41): a quad to a line; it waits while an array instruction in flight reads the line (R90, R136). -/
def execStl (c : CoreRef) (q : BitVec 3) (g : BitVec 2) (stepG : Bool) (s : State) : Host.Outcome State Fault Refusal :=
  unitOp (wfCore c) (stlCmd c q g stepG s)

/-- SETA (0x42): a generator field; ADDR becomes BASE and the counters 0 (R117). -/
def execSeta (c : CoreRef) (rs : BitVec 5) (g : BitVec 2) (field : BitVec 3) (s : State) : Host.Outcome State Fault Refusal :=
  unitOp (wfCore c) (onIssue c (.seta rs g field) (fun s =>
    let k := coreOf s c
    retire c (setGen g (genSet field (readReg k rs) (genOf k g)) k) s) s)

/-! ### LDMA (R119) -/

def ldmaLines (f : LdmaF) : Nat := f.lines1.toNat + 1

/-- Generators an LDMA uses, with the T0 range each gives. -/
def ldmaRanges (k : Core) (f : LdmaF) : List (BitVec 2 × Nat) :=
  (if f.dir = 1 then [] else [(f.sg, genAddr k f.sg)]) ++ (if f.dir = 0 || f.dir = 1 then [(f.dg, genAddr k f.dg)] else [])

/-- Banks an LDMA touches. -/
def ldmaBanks (f : LdmaF) : List Nat :=
  if f.dir = 0 then [] else (List.range (ceilDiv (ldmaLines f * 8) 1024)).map (fun i => f.bank.toNat + i)

/-- Copy lines in ascending order through a view and T0 together, so that an overlap copies line by line. -/
def copyLines (src dst : Nat) : Nat → Store → Store → Store
  | 0, _, t0 => t0
  | n + 1, v, t0 =>
    let line := storeRead v src 32
    copyLines (src + 32) (dst + 32) n (storeWrite 32 v dst line) (storeWrite 32 t0 dst line)

/-- The core after an LDMA of `n` lines. -/
def ldmaRun (v : Store) (f : LdmaF) (n : Nat) (k : Core) : Core :=
  let src := genAddr k f.sg
  let dst := genAddr k f.dg
  let w0 := f.bank.toNat * 1024
  match f.dir.toNat with
  | 0 => { k with t0 := copyLines src dst n v k.t0 }
  | 1 => { k with t0 := storeWrite 32 k.t0 dst ((List.range (n * 8)).flatMap (fun i => leBytes 4 (mapGet 0 k.banks (w0 + i)).toNat)) }
  | d => { k with
      banks := writeBanks k.banks w0 ((List.range (n * 8)).map (fun i => BitVec.ofNat 32 (leNat (storeRead v (src + 4 * i) 4))))
      bankRaw := rawAfter [(w0, n * 8)] k.bankRaw
      fpTags := tagBanks (d = 3) k.fpTags f.bank.toNat (ldmaBanks f).length }

/-- The LDMA waits: a destination line is an operand in flight (R90, R136), a source line will be written by a CHAIN (R166), or
its banks are in flight (R81, R82). -/
def ldmaHeld (s : State) (c : CoreRef) (f : LdmaF) : Bool :=
  let k := coreOf s c
  let n := ldmaLines f * 32
  (f.dir != 1 && heldByWrites s c (genAddr k f.sg) n) || ((f.dir = 0 || f.dir = 1) && heldByReads s c (genAddr k f.dg) n) ||
  banksHeld k true (ldmaBanks f) ||
  (2 ≤ f.dir.toNat && (inFlight k).any (fun o => (opBankReads o).any (fun b => (ldmaBanks f).contains b)))

/-- Where an LDMA meets an error: the line it stops before and the address it reports (R137). A source in the banks has no poison state
(R305). -/
def ldmaStop (s : State) (c : CoreRef) (f : LdmaF) : Option (Nat × Nat) :=
  let k := coreOf s c
  let w0 := f.bank.toNat * 1024
  if f.dir = 1 then
    (match rawWords 3 k.bankRaw w0 (w0 + ldmaLines f * 8) with
     | [] => none
     | w :: ws => let w := ws.foldl min w; some ((w - w0) / 8, w * 4))
  else
    let v := t0View s c
    let a := genAddr k f.sg
    if storeHit 32 v a (ldmaLines f * 32) then some ((hitAt 32 v a (ldmaLines f * 32) - a) / 32, hitAt 32 v a (ldmaLines f * 32)) else none

/-- Bank words that an LDMA finds uncorrectable are logged as it reads them (R308). -/
def ldmaLog (c : CoreRef) (f : LdmaF) (s : State) : State :=
  if f.dir = 1 then
    meetPlain (.banks c) srcCore ((rawWords 3 (coreOf s c).bankRaw (f.bank.toNat * 1024) (f.bank.toNat * 1024 + ldmaLines f * 8)).take 1) s
  else s

def ldmaCmd (c : CoreRef) (f : LdmaF) (s : State) : State :=
  onIssue c (.ldma f) (fun s =>
    let k := coreOf s c
    let n := ldmaLines f * 32
    faultOr c ((ldmaRanges k f).flatMap (fun p => operandBad p.2 n)) (fun s =>
      if ldmaHeld s c f then s
      else
        let s := if f.dir = 1 then s else meetT0 srcCore c (genAddr k f.sg) n s
        let k := coreOf s c
        match ldmaStop s c f with
        | some (line, a) => coreFault c 0x0B a (ldmaLog c f (setCore c (ldmaRun (t0View s c) f line k) s))
        | none => retire c (stepGens f.stepG ((ldmaRanges k f).map (·.1)) (ldmaRun (t0View s c) f (ldmaLines f) k)) (bump s)) s) s

/-- LDMA (0x43): lines between T0 and T0 or the banks (R119). -/
def execLdma (c : CoreRef) (f : LdmaF) (s : State) : Host.Outcome State Fault Refusal := unitOp (wfCore c) (ldmaCmd c f s)

/-! ### CDMA -/

def quadDesc (k : Core) (q : BitVec 3) : Desc :=
  { w0 := readReg k (quadReg q 0), w1 := readReg k (quadReg q 1), w2 := readReg k (quadReg q 2), w3 := readReg k (quadReg q 3) }

def ticketOf (k : Core) (t : BitVec 2) : Ticket := mapGet {} k.tickets t.toNat

/-- Chunks of a contribution (R373). -/
def contribChunks (d : Desc) : List Nat :=
  (List.range (ceilDiv (dLen d) 4096)).map (fun i => bitsOf (dDstAddr d) 25 0 / 4096 + i)

/-- A contribution the engine cannot take: fault REDUCTION_BUCKET (R373). -/
def bucketBad (s : State) (n : Nat) (d : Desc) : Bool :=
  let k := tagOf s (dTag d)
  !(isOpenTag k && k.ctx = n) || k.nelem < bitsOf (dDstAddr d) 25 0 + dLen d || (contribChunks d).any (fun c => k.sent.contains c)

/-- A stream whose pair is disabled (R362, Table 11-6). -/
def streamDisabled (s : State) (p : Program) (d : Desc) : Bool :=
  (streamOf p d).any (fun e => !(pairOf s e.ring).enable || (pairOf s e.ring).draining.isSome)

/-- A stream that is not connected, or a transfer that passes its WINDOW: fault RING_STREAM (R362). -/
def streamBad (s : State) (n : Nat) (p : Program) (d : Desc) : Bool :=
  let c := ctxOf s n
  (streamOf p d).all (fun e => e.receive) || !c.linked.contains (dDstSlot d) ||
  mapGet 0 c.windows (dDstSlot d) < dDstAddr d + dLen d

/-- The fixed ROUTE of a stream cannot be served: the ticket completes CANCELLED (R352). It comes before RING_STREAM while the ring still lists
the peer (log entry 121). -/
def routeCut (s : State) (p : Program) (d : Desc) : Bool :=
  (streamOf p d).any (fun e => !e.receive && e.route != 0 && (pairOf s e.ring).members.any (fun m => m.1 = e.peerUid) &&
    (routeWay s e.ring e.route e.peerUid).isNone)

/-- Program faults of a CDMA at issue, in order: DMA_DESCRIPTOR, OBJECT_SLOT, OBJECT_BOUND, then the ring's and the engine's. -/
def cdmaBad (s : State) (c : CoreRef) (p : Program) (d : Desc) : List (Nat × Nat) :=
  if descBad s c p d then [(7, 0)]
  else if slotBad s p d then [(9, 0)]
  else if boundBad s p d then [(8, if dSrcKind d = 2 then dSrcAddr d else dDstAddr d)]
  else if dDstKind d = 3 && !streamDisabled s p d && !routeCut s p d && streamBad s c.ctx p d then [(0xA, 0)]
  else if dDstKind d = 4 && s.red.available && bucketBad s c.ctx d then [(0xE, 0)]
  else []

/-- The ticket's result at issue where no data moves: ABSENT (R123), CANCELLED (R352, R362, Table 11-6). -/
def cdmaAtOnce (s : State) (p : Program) (d : Desc) : Option Nat :=
  if dDstKind d = 3 && (streamDisabled s p d || routeCut s p d) then some 2
  else if dDstKind d = 4 && !s.red.available then some 2
  else if endAbsent s p d then some 1
  else none

/-- The copy read is used in this frame (R222). -/
def touchSource (s : State) (p : Program) (d : Desc) (t : State) : State :=
  if dSrcKind d = 2 then
    (match slotObj s p (dSrcSlot d) with
     | some id => updObj id (fun o => { o with lastUse := s.frame.counter.toNat }) t
     | none => t)
  else t

/-- A poisoned T2 source may make the ticket ABSENT: the object is named by a post accepted in this frame, before the snapshot
(Table 10-3). -/
def poisonAbsent (s : State) (p : Program) (d : Desc) : Bool :=
  dSrcKind d = 2 && !s.frame.snapDone && ((slotObj s p (dSrcSlot d)).bind (objOf s)).any (fun o => o.posted)

/-- Array instructions in flight were issued before the transfer that now takes the ticket (R90). -/
def forgetTicket (t : BitVec 2) (k : Core) : Core :=
  let f (o : ArrayOp) : ArrayOp := { o with before := o.before.filter (· != t.toNat) }
  { k with streaming := k.streaming.map f, queuedOp := k.queuedOp.map f }

def cdmaCmd (c : CoreRef) (q : BitVec 3) (t : BitVec 2) (s : State) : State :=
  onIssue c (.cdma q t) (fun s =>
    match progOf (ctxOf s c.ctx) c.sketch with
    | none => s
    | some p =>
      let k := coreOf s c
      let d := quadDesc k q
      if (ticketOf k t).out.isSome then s
      else faultOr c (cdmaBad s c p d) (fun s =>
        match cdmaAtOnce s p d with
        | some res => retire c (setTicket t.toNat { result := res } k) s
        | none =>
          touchSource s p d (retire c (setTicket t.toNat { out := some d, result := (ticketOf k t).result } (forgetTicket t k)) s)) s) s

/-- CDMA (0x50): check the descriptor and start the transfer under ticket T; it waits while T is outstanding (R120-R123). -/
def execCdma (c : CoreRef) (q : BitVec 3) (t : BitVec 2) (s : State) : Host.Outcome State Fault Refusal :=
  unitOp (wfCore c) (cdmaCmd c q t s)

/-- The transfer ends with its last line, its source lines read as they stand now, or where it paused, then (log entry 117): a ticket into
T0, T1 or T2 is DONE; one on a stream waits for its completion message (R124, R362). Where its source is poisoned, the lines before the first poisoned one stand, that one is written poisoned, and Table 10-3 says
what follows (R137, R309). -/
def dmaDone (c : CoreRef) (t : BitVec 2) (s : State) : State :=
  match progOf (ctxOf s c.ctx) c.sketch, (ticketOf (coreOf s c) t).out with
  | some p, some d =>
    if dDstKind d = 4 || !((ctxOf s c.ctx).inSlice) then s
    else
      let s := meetSource c p d s
      let ls := linesLeft s c p d (ticketOf (coreOf s c) t)
      if (goodLines ls).any (lineHeld s c d) || ls.isEmpty then s
      else
        let s1 := moveLines c t.toNat p d (goodLines ls) (ls.all (fun l => !l.bad)) s
        if ls.all (fun l => !l.bad) then (if dDstKind d = 3 then s1 else updCore c (setTicket t.toNat { result := 0 }) s1)
        else if poisonAbsent s p d then updCore c (setTicket t.toNat { result := 1 }) (landPoison c p d ls s1)
        else coreFault c 0x0B (srcHitAt s c p d) (landPoison c p d ls s1)
  | _, _ => s

/-- A transfer to T0, T1 or T2 is complete when its last line is written (R124); poison in its source follows Table 10-3. -/
def execDmaTransferComplete (c : CoreRef) (t : BitVec 2) (s : State) : Host.Outcome State Fault Refusal :=
  unitOp (wfCore c) (dmaDone c t s)

/-- WAITD (0x51): wait until ticket T is idle; its last result to RD. -/
def execWaitd (c : CoreRef) (rd : BitVec 5) (t : BitVec 2) (s : State) : Host.Outcome State Fault Refusal :=
  unitOp (wfCore c) (onIssue c (.waitd rd t) (fun s =>
    let k := coreOf s c
    if (ticketOf k t).out.isSome then s else retire c (writeReg rd (BitVec.ofNat 64 (ticketOf k t).result) k) s) s)

/-- The 256-bit mask in a quad. -/
def quadMask (k : Core) (q : BitVec 3) : Mask := BitVec.ofNat 256 (leNat (quadLine k q))

def preqCmd (c : CoreRef) (rs : BitVec 5) (q : BitVec 3) (s : State) : State :=
  onIssue c (.preq rs q) (fun s =>
    match progOf (ctxOf s c.ctx) c.sketch with
    | none => s
    | some p =>
      let k := coreOf s c
      let v := (readReg k rs).toNat
      if p.slots.length ≤ v then coreFault c 7 0 s
      else
        match slotObj s p v with
        | none => coreFault c 9 0 s
        | some id =>
          if 64 ≤ (clusterOf s c.ctx (lclusterOf s c)).posts.length then s
          else retire c { k with postsOut := k.postsOut + 1 }
            (updCluster c.ctx (lclusterOf s c) (fun x => { x with posts := x.posts ++ [{ obj := id, mask := quadMask k q, core := c }] }) s)) s

/-- PREQ (0x52): post an object for the requests of a mask; it waits while the post queue holds 64 entries (R125). -/
def execPreq (c : CoreRef) (rs : BitVec 5) (q : BitVec 3) (s : State) : Host.Outcome State Fault Refusal :=
  unitOp (wfCore c) (preqCmd c rs q s)

end Sys2Proof.Machine
end

