-- ==== Sys2Proof/Machine/Firmware.lean ====
section
/-! DEFINITION. Firmware download and commit (R444-R446, R457), LIFECYCLE (R468-R470, Tables 17-5, 17-6), and what a command that
ends in a reset does before it (R420). -/

namespace Sys2Proof.Machine

/-- The firmware can use the embedded-flash controller: it is idle and its lock is free. -/
def efFree (s : State) : Bool := !s.ef.busy && !s.ef.suspended && s.ef.owner = 15

/-- A command that ends in a reset or a power-down (R420): its own record, then the ABORTED records of every other command; the rest
follows the next status-write window. -/
def endWith (c : Cmd) (cause : Nat) (s : State) : State :=
  let s := complete c.tag (stSuccess 0 0 0) s
  let s := (abortList 1 c.tag s.host.cmds s).1
  { s with power := { s.power with afterWindow := some cause } }

/-! ### FW_DOWNLOAD (0x05) -/

/-- The first `k` words of a chunk are programmed; the next one fails verification and reads as a free value (log entry 2). -/
def failedChunk (w k : Nat) (data : List Byte) (s : State) : State :=
  setEf (w + k) (Config.free64 (s.nonce + 1)) (efWrite w (data.take (8 * k)) s)

def downloadCmd (c : Cmd) (s : State) : State :=
  let off := pktField c.pkt 8 4
  let data := cmdData c
  let slot := otherSlot s
  if !efFree s then s
  else if (off != 0 && s.ef.dlNext != some off) || imageMax < off + data.length then complete c.tag (stInvalidField 8 0) s
  else
    let s := if off = 0 then efEraseSectors (slotSector slot) (slotSector slot + 1792) s else s
    let w := imageWord slot + off / 8
    if Config.freeBool s.nonce then
      let s1 := failedChunk w ((Config.free64 s.nonce).toNat % (data.length / 8)) data s
      complete c.tag (stMediaError 0 0) { s1 with ef := { s1.ef with dlNext := none, progFail := true }, nonce := s.nonce + 2 }
    else
      let s1 := efWrite w data s
      complete c.tag (stSuccess 0 0 0) { s1 with ef := { s1.ef with dlNext := some (off + data.length) }, nonce := s.nonce + 2 }

/-- FW_DOWNLOAD: one chunk into the slot that is not running; at OFFSET 0 the slot is revoked and erased first (R445). Whether a word
fails verification is a free value. -/
def execFwDownload (tag : Nat) (s : State) : Host.Outcome State Fault Refusal := unitOp true (onCmd 0x05 tag anyPkt downloadCmd s)

/-! ### FW_COMMIT (0x06) -/

/-- Program SEQ, LENGTH and COMMIT of a slot (R446); a slot that is committed already stays as it is. -/
def commitSlot (slot : Nat) (s : State) : State :=
  if slotCommitted s slot then s
  else
    setEf (slotWord slot) committedWord (setEf (slotWord slot + 2) (BitVec.ofNat 64 (3144 + (fwHeader s slot).bodyLen))
      (setEf (slotWord slot + 1) (BitVec.ofNat 64 (nextSlotSeq s)) s))

/-- Verify the downloaded image and commit it, then go on. -/
def commitCmd (andThen : Cmd → State → State) (c : Cmd) (s : State) : State :=
  if !efFree s then s
  else
    match imageFault s (otherSlot s) with
    | some st => complete c.tag st s
    | none => andThen c (commitSlot (otherSlot s) s)

/-- FW_COMMIT with ACTION 0: the image is active from the next reset; in the recovery window the module resets now (R446, R447). -/
def execFwCommit (tag : Nat) (s : State) : Host.Outcome State Fault Refusal :=
  unitOp true (onCmd 0x06 tag (fun p => pktField p 8 1 = 0)
    (commitCmd (fun c s => if recoveryWindow s then endWith c 6 s else complete c.tag (stSuccess 0 0 0) s)) s)

/-- FW_COMMIT with ACTION 1: commit and reset (R420, R446). -/
def execFwCommitReset (tag : Nat) (s : State) : Host.Outcome State Fault Refusal :=
  unitOp true (onCmd 0x06 tag (fun p => pktField p 8 1 = 1) (commitCmd (fun c s => endWith c 6 s)) s)

/-! ### LIFECYCLE (0x08) -/

def lifecycleOf (n : Nat) : Lifecycle :=
  match n with
  | 0 => .blank
  | 1 => .provisioned
  | 2 => .deployed
  | 3 => .service
  | _ => .retired

def rdpOf (n : Nat) : Rdp :=
  match n with
  | 0 => .open_
  | 1 => .sealed
  | _ => .fixed

/-- State and level an authorisation record asks for; 0xFF leaves them as they are. -/
def authTarget (s : State) (b : List Byte) : Lifecycle :=
  if byteField b 6 1 = 0xFF then s.sec.lifecycle else lifecycleOf (byteField b 6 1)
def authRdp (s : State) (b : List Byte) : Rdp := if byteField b 7 1 = 0xFF then s.sec.rdp else rdpOf (byteField b 7 1)

/-- Offending bytes of an authorisation record for a packet's TARGET and the challenge in force at its acceptance (R468, R469 step 1, R20). -/
def authErr (s : State) (target : Nat) (challenge b : List Byte) : List Nat :=
  let lc := byteField b 6 1
  let sg := byteField b 8 1
  errIf (byteField b 0 4 != 0x41555854) 0 ++ errIf (byteField b 4 2 != 1) 4 ++ errIf (lc != 0xFF && lc != target) 6 ++
  errIf (2 < byteField b 7 1 && byteField b 7 1 != 0xFF) 7 ++ errIf (7 < sg && sg != 0x10) 8 ++ errIf (dirty b 9 16) 9 ++
  errIf (byteField b 16 8 != s.uid.toNat) 16 ++ errIf ((b.drop 24).take 32 != padTo 32 challenge) 24 ++ errIf (dirty b 56 64) 56 ++
  errIf (!(s.sec.lifecycle = .blank && lc = 1) && dirty b 1864 3664) 1864

/-- The signer's key is accepted and the signature verifies (R469 step 2). -/
def authSigned (s : State) (b : List Byte) : Bool :=
  let key := (b.drop 64).take 1793
  (if byteField b 8 1 = 0x10 then s.sec.owner = some (digest key) else keyAccepted s (byteField b 8 1) key) &&
  Config.falconVerify key ((b.drop 3664).take 1280) (digest (b.take 3664))

/-- The change of state is in Table 17-6 with that kind of signer. -/
def lifecycleStep (from_ to_ : Lifecycle) (byOwner hasOwner : Bool) : Bool :=
  match from_, to_ with
  | .blank, .provisioned => !byOwner
  | .provisioned, .deployed => byOwner
  | .deployed, .service => byOwner
  | .service, .deployed => byOwner
  | .deployed, .provisioned => byOwner
  | .service, .provisioned => byOwner
  | .provisioned, .blank => true
  | .deployed, .blank => true
  | .service, .blank => true
  | .retired, .retired => byOwner || !hasOwner
  | .retired, _ => false
  | f, .retired => f != .retired
  | f, t => f = t && (byOwner || !hasOwner)

/-- The change of level is one of R453. -/
def rdpStep (from_ to_ : Rdp) : Bool :=
  match from_, to_ with
  | .fixed, .fixed => true
  | .fixed, _ => false
  | _, _ => true

/-- The media keys are destroyed (Table 17-6). -/
def destroysKeys (from_ to_ : Lifecycle) (r q : Rdp) : Bool :=
  (from_ != to_ && (to_ = .blank || to_ = .retired || (to_ = .provisioned && from_ != .blank))) || (r = .sealed && q = .open_)

/-- The transition a record asks for. -/
def intentOf (s : State) (b : List Byte) : Intent :=
  let f := s.sec.lifecycle
  let t := authTarget s b
  let opens := s.sec.rdp = .sealed && authRdp s b = .open_
  { target := t, rdp := authRdp s b, destroy := destroysKeys f t s.sec.rdp (authRdp s b)
    sanitise := (f != t && (t = .blank || t = .provisioned)) || opens
    owner := if opens || (t = .blank && f != .blank) then none
      else if f = .blank && t = .provisioned then some (digest ((b.drop 1864).take 1793)) else s.sec.owner
    wipeArray := opens }

def lifecycleCmd (c : Cmd) (s : State) : State :=
  let b := cmdData c
  let t := authTarget s b
  let r := authRdp s b
  if recoveryWindow s then complete c.tag stLifecycle s
  else
    match firstErr (authErr s (pktField c.pkt 8 1) c.challenge b) with
    | some o => complete c.tag (stInvalidField o 1) s
    | none =>
      if !authSigned s b then complete c.tag stSignature s
      else if t = s.sec.lifecycle && r = s.sec.rdp then complete c.tag (stSuccess 0 0 0) s
      else if !lifecycleStep s.sec.lifecycle t (byteField b 8 1 = 0x10) s.sec.owner.isSome || !rdpStep s.sec.rdp r then
        complete c.tag stTransition s
      else endWith c 7 { s with sec := { s.sec with intent := some (intentOf s b) } }

/-- The command, and a new challenge when it has completed, whatever its outcome. -/
def lifecycleRow (tag : Nat) (s : State) : State :=
  let t := onCmd 0x08 tag anyPkt lifecycleCmd s
  if (cmdOf s tag).isSome && (cmdOf t tag).isNone then drawChallenge t else t

/-- LIFECYCLE (0x08): the record is checked; a transition follows its status-write window (R469, R470). Every LIFECYCLE draws a new
challenge (R468). -/
def execLifecycle (tag : Nat) (s : State) : Host.Outcome State Fault Refusal :=
  unitOp true (lifecycleRow tag s)

end Sys2Proof.Machine
end

