-- ==== Sys2Proof/Machine/RingPorts.lean ====
section
/-! DEFINITION. Port pairs and their easels (R344-R351, R365, R517), flits (R354-R357), discovery (R353, R360) and the tick on the ring
(R43-R46, R358, R359). -/

namespace Sys2Proof.Machine

/-! ### Ports -/

/-- The pair is fitted in this part (R4). -/
def fitted (s : State) (p : Nat) : Bool := p < portPairs s

/-- A port as the loss of its link leaves it. -/
def downPort (p : Port) : Port := { dark := p.dark, out := p.out }

/-! ### What the pair leaving UP, or the ring, breaks -/

/-- Streams of a ring lose their connections (R362). -/
def breakStreams (p : Nat) (pick : StreamEntry → Bool) (s : State) : State :=
  { s with ctxs := s.ctxs.map (fun (c : Nat × Context) => (c.1, { c.2 with
      linked := c.2.linked.filter (fun i => !((c.2.prog.bind (fun g => g.streams[i]?)).any (fun e => e.ring = p && pick e)))
      joined := c.2.joined.filter (fun i => !((c.2.prog.bind (fun g => g.streams[i]?)).any (fun e => e.ring = p && pick e))) })) }

/-- Buckets of a ring that count on a participant the ring has lost fail with PEER_LOST (Table 13-9). -/
def losePeers (p : Nat) (s : State) : State :=
  let gone (k : RedTag) : Bool := isOpenTag k && k.ring = p && k.parts.any (fun u => u != s.uid && !((pairOf s p).members.any (fun m => m.1 = u)))
  ((s.red.tags.filter (fun t => gone t.2)).map (fun (t : Nat × RedTag) => t.1)).foldl (fun s t => settleCtx (tagOf s t).ctx (redFail t 4 s)) s

/-- Send a DISCOVER message with a MODULE_UID and MASTER_PRI by one port (R353). -/
def discoverBy (p : Nat) (dn : Bool) (uid : Word64) (pri : Nat) (s : State) : State :=
  sendRing { pair := p, dn := dn, typ := 3, kind := 5, src := (pairOf s p).position, body := leBytes 8 uid.toNat ++ leBytes 1 pri } s

/-- DISCOVER in both directions with this module's UID and MASTER_PRI (R353). -/
def sendDiscover (p : Nat) (s : State) : State :=
  discoverBy p false s.uid (pairOf s p).masterPri (discoverBy p true s.uid (pairOf s p).masterPri s)

/-- The members of a closed ring as a line that is cut on one side of this module. -/
def cutLine (s : State) (p : Nat) (dnLost : Bool) : List Word64 :=
  let l := (pairOf s p).members.map (·.1)
  let k := placeIn l s.uid + (if dnLost then 1 else 0)
  l.drop k ++ l.take k

/-- The pair leaves UP: its streams are broken, the ring is a line, and discovery runs where a port is still up (R352, R353, R362). -/
def leaveUp (p : Nat) (s : State) : State :=
  sendDiscover p (breakStreams p (fun _ => true) (updPair p (fun x => { x with
    line := if x.closed then cutLine s p (!x.dn.up) else x.line, closed := false, memberList := false }) s))

/-! ### The tick source (R43) -/

/-- The lowest-numbered ring that has a frame master. -/
def masteredRing (s : State) : Option Nat := (List.range (portPairs s)).find? (fun p => (pairOf s p).masterUid != 0 && (pairOf s p).memberList)

/-- Choose the tick source again: free-run where the module is the master of that ring or no ring has one, else lock to it. -/
def chooseSource (s : State) : State :=
  match masteredRing s with
  | some p =>
    if (pairOf s p).masterUid = s.uid then { s with frame := { s.frame with sourceValid := false, locked := false, slewing := false, sourceNext := none } }
    else if s.frame.sourceValid && s.frame.sourceRing = p then { s with frame := { s.frame with sourceNext := none } }
    else { s with frame := { s.frame with sourceNext := some p } }
  | none => { s with frame := { s.frame with sourceValid := false, locked := false, slewing := false, sourceNext := none } }

/-- The module is off a ring: no members, no master, its buckets there lose their participants. -/
def leaveRing (p : Nat) (s : State) : State :=
  let s := leaveUp p s
  let s := updPair p (fun x => { x with members := [], line := [], position := 0, masterUid := 0, oversize := false }) s
  let s := { s with frame := { s.frame with masterRings := s.frame.masterRings &&& ~~~((1 : BitVec 16) <<< p) } }
  losePeers p (chooseSource s)

/-- The easel loses its drive: the links go down, and it is CLOSED within 100 µs (R346, R349). -/
def closeEasel (p : Nat) (st : PairState) (s : State) : State :=
  leaveRing p (updPair p (fun x => { x with
    easel := if x.easel = .closed then .closed else .closing
    state := st, reading := false, recheck := false, dn := downPort { x.dn with dark := false }, up := downPort { x.up with dark := false } }) s)

/-- Every easel closes (reset, FAULT, S3). -/
def closeAllEasels (s : State) : State := (List.range (portPairs s)).foldl (fun s p => closeEasel p .down s) s

/-- PORT_CONTROL enables that wait end once STATE has left IDENTIFYING and TRAINING (Table 15-3). -/
def endEnables (p : Nat) (s : State) : State :=
  let x := pairOf s p
  if x.state = .identifying || x.state = .training then s
  else x.enabling.foldl (fun s t => complete t (stSuccess (pairStateCode x.state) 0 0) s) (updPair p (fun x => { x with enabling := [] }) s)

/-! ### Disable and enable (R365, R366) -/

/-- A host read of an import over a lost way: a batch keeps its outcomes and takes the granule as poisoned (R312), any other command ends. -/
def endImportTag (tag g : Nat) (st : Status) (s : State) : State :=
  if (cmdOf s tag).any (fun c => !c.head.isEmpty) then landHost tag g (poisonAll {} granuleBytes) s else complete tag st s

/-- Import fills over a disabled pair end ABORTED (Table 11-6). -/
def stopImports (p : Nat) (s : State) : State :=
  let gone := s.ring.imports.filter (fun i => (objOf s i.obj).any (fun o => o.ring = p))
  let ids := (gone.map (·.obj)).dedup
  let s := gone.foldl (fun s i => if i.tag = 0 then s else endImportTag i.tag i.granule (stAborted 3 0 0) s) s
  pruneFlight (ids.foldl (fun s id => failFills id (stAborted 3 0 0) s)
    { s with ring := { s.ring with imports := s.ring.imports.filter (fun i => !ids.contains i.obj) } })

/-- Disable a pair for a command, or for the RING feature where `tag` is 0: new transfers are refused from now on. A FAULT pair keeps that STATE
until it is enabled again (R349). -/
def disablePair (p tag : Nat) (s : State) : State :=
  let x := pairOf s p
  let s := stopImports p (updPair p (fun x => { x with enable := false }) s)
  if x.easel = .closed then
    let s := endEnables p (updPair p (fun x => { x with
      state := if x.state = .fault then .fault else .down, refuse := 0, reading := false, recheck := false }) s)
    if tag = 0 then s else complete tag (stSuccess 0 0 0) s
  else updPair p (fun x => { x with draining := some tag, drained := false }) s

/-- Enable a pair: the identity checks start unless it is in the ring or on its way there. -/
def enablePair (p tag : Nat) (s : State) : State :=
  let s := updPair p (fun x => { x with
    enable := true
    faultMs := if x.state = .fault then [] else x.faultMs
    state := if x.state = .down || x.state = .refused || x.state = .fault then .identifying else x.state
    enabling := if tag = 0 then x.enabling else x.enabling ++ [tag] }) s
  endEnables p s

/-- PORT_CONTROL names its pair in byte 8; a pair that is still draining waits. -/
def pairOfCmd (c : Cmd) : Nat := pktField c.pkt 8 1

def portDisableCmd (c : Cmd) (s : State) : State :=
  if (pairOf s (pairOfCmd c)).draining.isSome then s else disablePair (pairOfCmd c) c.tag (keepRunning c 0 s)

/-- PORT_CONTROL with ACTION 0: completes when the easel is CLOSED (R365). -/
def execPortControlDisable (tag : Nat) (s : State) : Host.Outcome State Fault Refusal :=
  unitOp true (onCmd 0x0A tag (fun p => pktField p 9 1 = 0) portDisableCmd s)

def portEnableCmd (c : Cmd) (s : State) : State :=
  if (pairOf s (pairOfCmd c)).draining.isSome then s else enablePair (pairOfCmd c) c.tag (keepRunning c 0 s)

/-- PORT_CONTROL with ACTION 1: starts the identity checks; completes when STATE leaves IDENTIFYING and TRAINING (R365). -/
def execPortControlEnable (tag : Nat) (s : State) : Host.Outcome State Fault Refusal :=
  unitOp true (onCmd 0x0A tag (fun p => pktField p 9 1 = 1) portEnableCmd s)

def setRingCmd (c : Cmd) (s : State) : State :=
  let p := pktField c.pkt 10 2
  let d := featDw c.pkt 0
  if (pairOf s p).draining.isSome then s
  else
    let s := updPair p (fun x => { x with masterPri := bitsOf d 5 2 }) s
    complete c.tag (stSuccess 0 0 0)
      (if bitOf d 0 then enablePair p 0 s else disablePair p 0 s)

/-- SET_FEATURE RING: MASTER_PRI, and ENABLE as PORT_CONTROL would (R366). -/
def execSetFeatureRing (tag : Nat) (s : State) : Host.Outcome State Fault Refusal :=
  unitOp true (onCmd 0x03 tag (isFeature 0x14) setRingCmd s)

/-- The stream of a ticket runs over this pair. -/
def overPair (p : Nat) (g : Option Program) (d : Desc) : Bool :=
  dDstKind d = 3 && (g.bind (fun x => x.streams[dDstSlot d]?)).any (fun e => e.ring = p)

/-- Tickets on a pair complete CANCELLED (R124, R365). -/
def cancelPair (p : Nat) (s : State) : State :=
  { s with ctxs := s.ctxs.map (fun (c : Nat × Context) => (c.1, { c.2 with
      cores := mapVals (endTickets (overPair p c.2.prog) 2) c.2.cores
      sketchCores := mapVals (endTickets (overPair p (c.2.sketch.map (·.prog))) 2) c.2.sketchCores })) }

def drainEnd (p : Nat) (s : State) : State :=
  if (pairOf s p).draining.isSome && !(pairOf s p).drained then
    updPair p (fun x => { x with drained := true }) (closeEasel p (if (pairOf s p).state = .fault then .fault else .down) (cancelPair p s))
  else s

/-- Messages in flight have finished, or 100 µs have passed: the tickets left complete CANCELLED and the easel closes (R365). -/
def execPortDrainEnd (pair : Nat) (s : State) : Host.Outcome State Fault Refusal := unitOp (wfPair pair) (drainEnd pair s)

/-- A pair whose presence changed while its easel was closing is checked again (R348). -/
def closedState (x : Pair) : PairState := if x.recheck && x.state != .fault then .identifying else x.state

def easelShut (p : Nat) (s : State) : State :=
  let x := pairOf s p
  if x.easel = .closing then
    let s := if x.draining.isSome && !x.drained then cancelPair p s else s
    let s := endEnables p (updPair p (fun x => { x with easel := .closed, state := closedState x, recheck := false, draining := none, drained := false }) s)
    match x.draining with
    | some t => if t != 0 then complete t (stSuccess (pairStateCode (closedState x)) 0 0) s else s
    | none => s
  else s

/-- A closing easel reaches CLOSED (R346); the PORT_CONTROL that disables the pair completes, its tickets left CANCELLED (R365). -/
def execEaselClosed (pair : Nat) (s : State) : Host.Outcome State Fault Refusal := unitOp (wfPair pair) (easelShut pair s)

/-! ### Identity checks (R347, R348, R516, Table 12-3) -/

def idKind (b : List Byte) : Nat := byteField b 2 1
def idPart (b : List Byte) : List Byte := (b.drop 4).take 8
def idLoss (b : List Byte) : Nat := byteField b 12 2
def idUid (b : List Byte) : Word64 := BitVec.ofNat 64 (byteField b 16 8)

/-- MAGIC, FORMAT and CRC of a record are valid (Table 12-2). -/
def idValid (b : List Byte) : Bool :=
  b.length = 64 && byteField b 0 2 = 0x4C49 && byteField b 3 1 = 1 && byteField b 60 4 = crc32c (b.take 60)

/-- The parts the spec names; the rest of the firmware's list is not given (log entry 122). -/
def namedPart (p : List Byte) : Bool :=
  [asciiPad 8 "SX4P-DN", asciiPad 8 "SX4P-UP", asciiPad 8 "SX4-QTP", asciiPad 8 "SX4-BLNK"].contains p
def approvedPart (p : List Byte) : Bool := namedPart p || Config.approvedPart (leNat p)

/-- A record of the kind MODULE_PORT. -/
def isModulePort (b : List Byte) : Bool := idValid b && idKind b = 3

/-- A chain: up to the first memory of kind MODULE_PORT. -/
def chainUpTo : List IdRecord → List IdRecord
  | [] => []
  | r :: l => if r.any isModulePort then [r] else r :: chainUpTo l

/-- The records of a chain that answer. -/
def chainRecs (l : List IdRecord) : List (List Byte) := l.filterMap id

/-- The cable assemblies of a chain: their end memories come in pairs. -/
def cablePairs : List (List Byte) → List (List Byte × List Byte)
  | a :: b :: l => (a, b) :: cablePairs l
  | _ => []

def cableEnds (l : List (List Byte)) : List (List Byte) := l.filter (fun b => idKind b = 1)
def chainBlanks (l : List (List Byte)) : List (List Byte) := l.filter (fun b => idKind b = 2)

/-- The two ends of an assembly disagree (R516). -/
def endsDiffer (p : List Byte × List Byte) : Bool := idUid p.1 != idUid p.2 || idPart p.1 != idPart p.2 || idLoss p.1 != idLoss p.2

/-- Path loss in 0.1 dB: 8.0 dB for the module ports, each cable once, each blank. -/
def pathLoss (l : List (List Byte)) : Nat :=
  80 + ((cablePairs (cableEnds l)).map (fun p => idLoss p.1)).foldl (· + ·) 0 + ((chainBlanks l).map idLoss).foldl (· + ·) 0

/-- The end of a chain that the other side's position gives: a DN position's ends at an UP port (R516). -/
def endPart (isDn : Bool) : List Byte := asciiPad 8 (if isDn then "SX4P-UP" else "SX4P-DN")

/-- The cause of Table 12-3 for the chain of one side, the lowest code first; 0 where it passes. -/
def chainCause (s : State) (isDn : Bool) (chain : List IdRecord) : Nat :=
  let l := chainUpTo chain
  let bs := chainRecs l
  let last := bs.getLast?
  if l.isEmpty || l.any (·.isNone) then 1
  else if bs.any (fun b => !idValid b) || (cablePairs (cableEnds bs)).any endsDiffer then 2
  else if bs.any (fun b => !(1 ≤ idKind b && idKind b ≤ 3) || !approvedPart (idPart b)) ||
      last.any (fun b => idKind b = 3 && idPart b != endPart isDn) then 3
  else if 2 < (chainBlanks bs).length || !last.any (fun b => idKind b = 3) then 4
  else if 280 < pathLoss bs then 5
  else if last.any (fun b => idUid b = s.uid) then 7
  else 0

/-- Bytes 0-59 of an identity record (Table 12-2). -/
def idBody (kind : Nat) (part : String) (loss : Nat) (uid : Word64) : List Byte :=
  padTo 60 (leBytes 2 0x4C49 ++ leBytes 1 kind ++ leBytes 1 1 ++ asciiPad 8 part ++ leBytes 2 loss ++ zeros 2 ++ leBytes 8 uid.toNat ++ leBytes 1 4)

def idImage (body : List Byte) : List Byte := body ++ leBytes 4 (crc32c body)

/-- The identity memories the module carries, as its neighbours and the carrier read them: a MODULE_PORT memory at each position of a fitted
link connector (R515), one BLANK memory in each through path of a Q96 (R4, R513). Their contents are fixed by the part and the MODULE_UID;
the serial number of a through path is not given and stands as 0 (log entry 122). -/
def identityMemory (s : State) (connector : Nat) (dn : Bool) : List Byte :=
  if 4 * connector < portPairs s then idImage (idBody 3 (if dn then "SX4P-DN" else "SX4P-UP") 0 s.uid)
  else idImage (idBody 2 "SX4-QTP" 24 0)

/-- ENABLE, D2 and the device state allow the easel to open. -/
def easelAllowed (s : State) (p : Nat) : Bool :=
  (pairOf s p).enable && s.power.d2 && (s.host.devState = .rebuilding || s.host.devState = .ready ||
    (s.host.devState = .sleep && (s.host.sleepLevel = 1 || s.host.sleepLevel = 2)))

/-- The cause for both sides: the lower code; NOT_ALLOWED (6) stands before DUPLICATE. -/
def checkCause (s : State) (p : Nat) (dn up : List IdRecord) : Nat :=
  let cs := [chainCause s true dn, chainCause s false up, if easelAllowed s p then 0 else 6].filter (· != 0)
  match cs with
  | [] => 0
  | c :: l => l.foldl min c

/-- The module is still on its way to REBUILDING: the checks are decided only then (Table 18-7). -/
def starting (s : State) : Bool := s.host.devState = .booting || s.host.devState = .gesso

def identityDone (p : Nat) (dn up : List IdRecord) (s : State) : State :=
  let x := pairOf s p
  if !fitted s p || starting s then s
  else if x.state = .identifying then
    let c := checkCause s p dn up
    if c = 0 then updPair p (fun x => { x with easel := .opening, state := .training, refuse := 0 }) s
    else endEnables p (updPair p (fun x => { x with state := .refused, refuse := c }) s)
  else if x.recheck && (x.easel = .opened || x.easel = .opening) then
    let c := checkCause s p dn up
    if c = 0 then updPair p (fun x => { x with recheck := false, reading := false, dn := { x.dn with dark := false }, up := { x.up with dark := false } }) s
    else endEnables p (updPair p (fun x => { x with refuse := c }) (closeEasel p .refused s))
  else if x.reading then
    updPair p (fun x => { x with
      reading := false
      dn := { x.dn with dark := x.dn.dark && !(chainCause s true dn = 0 && easelAllowed s p) }
      up := { x.up with dark := x.up.dark && !(chainCause s false up = 0 && easelAllowed s p) } }) s
  else s

/-- The chain reads of a pair finish: its easel opens, or the pair is REFUSED; a dark port whose chain passes trains again; a check on
a presence change that fails closes the easel (R348, R349, R517). -/
def execIdentityCheckComplete (pair : Nat) (dn up : List IdRecord) (s : State) : Host.Outcome State Fault Refusal :=
  unitOp (wfPair pair) (identityDone pair dn up s)

/-- Read a pair's chains again. -/
def readAgain (p : Nat) (s : State) : State :=
  updPair p (fun x =>
    match x.easel with
    | .closed => if x.state = .fault then x else { x with state := .identifying }
    | _ => { x with recheck := true }) s

/-- A connector's presence signal changes: the checks of its four pairs are repeated (R348). Connector `2j` is the DN position of link
connector `j`, `2j + 1` its UP position (R512). -/
def execConnectorPresenceChange (connector : Nat) (s : State) : Host.Outcome State Fault Refusal :=
  unitOp (connector < 8) (((List.range 4).map (fun i => 4 * (connector / 2) + i)).foldl
    (fun s p => if fitted s p && s.power.d1 then readAgain p s else s) s)

def retryPair (p : Nat) (s : State) : State :=
  let x := pairOf s p
  if x.state = .refused && x.easel = .closed then updPair p (fun x => { x with state := .identifying }) s
  else if x.dn.dark || x.up.dark then updPair p (fun x => { x with reading := true }) s
  else s

/-- 10 s have passed: a REFUSED pair or a dark port reads its chain again (R348, R517). -/
def execIdentityRetry (pair : Nat) (s : State) : Host.Outcome State Fault Refusal := unitOp (wfPair pair) (retryPair pair s)

/-! ### Links (R351, R357, R517) -/

/-- The easel reaches OPEN and the ports train (R351). -/
def execEaselOpen (pair : Nat) (s : State) : Host.Outcome State Fault Refusal :=
  unitOp (wfPair pair) (if (pairOf s pair).easel = .opening then updPair pair (fun x => { x with easel := .opened }) s else s)

/-- A port that has trained starts with no flit outstanding; one that was up goes on. -/
def trainPort (p : Port) : Port := if p.up then p else { out := p.out, up := true }

def linkUpAt (p hopDn hopUp : Nat) (s : State) : State :=
  let x := pairOf s p
  if x.state = .training && x.easel = .opened && !x.dn.dark && !x.up.dark then
    sendDiscover p (endEnables p (updPair p (fun x => { x with
      state := .up, hopDn := hopDn, hopUp := hopUp, memberList := false
      dn := trainPort x.dn, up := trainPort x.up }) s))
  else s

/-- Both ports are trained and measured: the pair is UP, and discovery runs (R351, R353). -/
def execLinkUp (pair hopDn hopUp : Nat) (s : State) : Host.Outcome State Fault Refusal := unitOp (wfPair pair) (linkUpAt pair hopDn hopUp s)

/-- The message that came in by a lost port ends where it stands; own messages no longer wait for it (R357). -/
def dropOpen (p : Port) : Port := { p with open_ := [], wait := p.wait ++ p.later.map (fun f => (f, false)), later := [] }

/-- A port leaves UP other than by its own easel: it is dark until its chain has passed again, and the pair trains (R517). -/
def portLeaves (n : Nat) (s : State) : State :=
  if (portOf s n).up then
    updPair (portPair n) (fun x => { x with state := .training, reading := true })
      (leaveUp (portPair n) (flushAt (farPort n) (updPort (farPort n) dropOpen (updPort n (fun p => { downPort p with dark := true }) s))))
  else s

/-- A port leaves UP (R517). -/
def execLinkLeavesUp (port : Nat) (s : State) : Host.Outcome State Fault Refusal := unitOp (wfPort port) (portLeaves port s)

/-- Link faults of the last 60 s, this one included. -/
def recentFaults (x : Pair) (ms : Nat) : List Nat := (x.faultMs.filter (fun t => ms < t + 60000)) ++ [ms]

def faultLink (p ms : Nat) (s : State) : State :=
  let x := pairOf s p
  if x.dn.up || x.up.up then
    let s := logEvent 10 0 0 0 p 0 0 0 (updPair p (fun x => { x with linkFaults := stick32 (x.linkFaults + 1), faultMs := recentFaults x ms }) s)
    if 3 ≤ (recentFaults x ms).length then endEnables p (closeEasel p .fault s)
    else portLeaves (2 * p) (portLeaves (2 * p + 1) s)
  else s

/-- A link fault at time `ms`: the ports retrain; the third within 60 s stops the pair (R349, R357). -/
def execLinkFault (pair ms : Nat) (s : State) : Host.Outcome State Fault Refusal := unitOp (wfPair pair) (faultLink pair ms s)

/-! ### Flits (R354-R357) -/

/-- Flits after the acknowledged one: all up to ACK leave the replay buffer. -/
def ackReplay (ack : Nat) (l : List Flit) : List Flit :=
  if l.any (fun f => f.seq.toNat = ack) then (l.dropWhile (fun f => f.seq.toNat != ack)).drop 1 else l

/-- ACK and credits that a flit carries. -/
def takeAck (f : Flit) (p : Port) : Port :=
  let l := ackReplay f.ack.toNat p.replay
  { p with replay := l, resends := if l.length < p.replay.length then 0 else p.resends
           credits := p.credits.set f.cvc (p.credits.getD f.cvc 0 + f.cred) }

/-- Resend every flit after ACK, in order, with the ACK of now; the third resend of a flit is a link fault (R357). -/
def resendFrom (n ack ms : Nat) (s : State) : State :=
  let p := portOf s n
  let l := ackReplay ack p.replay
  let k := if l.length < p.replay.length then 1 else p.resends + 1
  if l.isEmpty then flushAt n (updPort n (fun p => { p with replay := l, resends := 0 }) s)
  else
    let s := updPair (portPair n) (fun x => { x with resends := stick32 (x.resends + 1) })
      (updPort n (fun p => { p with replay := l, resends := k, out := p.out ++ l.map (fun f => { f with ack := BitVec.ofNat 8 p.rxSeq }) }) s)
    if 3 ≤ k then faultLink (portPair n) ms s else s

/-- Member that a flit's message is for: the header's, or that of the message which it continues. DISCOVER is for every member. -/
def flitDest (here : Nat) (p : Port) (f : Flit) : Nat :=
  if f.first then (if byteField f.payload 2 1 = 5 then here else byteField f.payload 0 1) else mapGet here p.route f.vc

/-- A flit to be forwarded goes on by the other port, on the same VC (R355); where that port is down, or where its pair is being disabled and the
message is new (R365), it is lost and its buffer space is free at once. -/
def forwardFlit (n : Nat) (f : Flit) (s : State) : State :=
  if (portOf s (farPort n)).up && !((pairOf s (portPair n)).draining.isSome && f.first) then
    flushAt (farPort n) (updPort (farPort n) (queueFwd f) s)
  else
    updPort n (fun p => { p with
      route := mapSet (pairOf s (portPair n)).position f.vc (pairOf s (portPair n)).position p.route
      credDue := p.credDue.set f.vc (p.credDue.getD f.vc 0 + 1) }) s

/-- A flit received in order: acknowledged, and delivered here or forwarded. -/
def acceptFlit (n : Nat) (f : Flit) (s : State) : State :=
  let here := (pairOf s (portPair n)).position
  let dest := flitDest here (portOf s n) f
  let s := updPort n (fun p => { p with rxSeq := f.seq.toNat, nakOut := false, ackDue := true, route := mapSet here f.vc dest p.route }) s
  let s := if dest = here then updPort n (fun p => { p with credDue := p.credDue.set f.vc (p.credDue.getD f.vc 0 + 1) }) s else forwardFlit n f s
  updPort n (sendDues duesFuel) s

/-- A flit is dropped and counted; the first of a run draws a NAK with the last good SEQ (R357). -/
def dropFlit (n : Nat) (s : State) : State :=
  let s := updPair (portPair n) (fun x => { x with crcErrors := stick32 (x.crcErrors + 1) }) s
  if (portOf s n).nakOut then s else updPort n (fun p => sendDues duesFuel { p with nakOut := true, nakDue := true }) s

/-- The flit is not the next one in order, or comes while a resend is awaited. -/
def outOfOrder (p : Port) (f : Flit) : Bool :=
  if unnumbered f then p.nakOut else f.seq.toNat != (p.rxSeq + 1) % 256

/-- The FEC has corrected these symbols (R345, Table 12-7). -/
def countFec (n symbols : Nat) (s : State) : State :=
  updPair (portPair n) (fun x => { x with fecSymbols := stick32 (x.fecSymbols + symbols) }) s

def flitIn (n : Nat) (image : List Byte) (symbols ms : Nat) (s : State) : State :=
  if !(portOf s n).up then s
  else if 15 < symbols || !flitSound image then dropFlit n s
  else
    let f := flitOf image
    let s := countFec n symbols s
    if outOfOrder (portOf s n) f then dropFlit n s
    else
      let s := flushAt n (updPort n (takeAck f) s)
      let s := if f.nak then resendFrom n f.ack.toNat ms s else s
      if unnumbered f || !(portOf s n).up then s else acceptFlit n f s

/-- A flit arrives, with the wrong symbols of its FEC codeword: more than 15 are not corrected. It is dropped with a NAK where it is bad or out of
order, else acknowledged, and forwarded where its message is for another member (R355-R357). What a message delivered here does is the meaning
of the message's own command. -/
def execFlitReceived (port : Nat) (f : FlitArrival) (s : State) : Host.Outcome State Fault Refusal :=
  unitOp (wfPort port) (flitIn port f.image f.symbols f.ms s)

/-- A NAK: every flit after ACK is sent again (R357). -/
def execNakReceived (port : Nat) (n : NakArrival) (s : State) : Host.Outcome State Fault Refusal :=
  unitOp (wfPort port) (if (portOf s port).up then resendFrom port n.ack.toNat n.ms s else s)

/-! ### Discovery (R353, R360) -/

def discoverIn (n : Nat) (uid : Word64) (pri : Nat) (s : State) : State :=
  let p := portPair n
  if !(portOf s n).up || uid = s.uid then s
  else
    let s := discoverBy p (n % 2 = 1) uid pri s
    if !(pairOf s p).memberList || (pairOf s p).members.any (fun m => m.1 = uid && m.2 = pri) then s
    else sendDiscover p (updPair p (fun x => { x with memberList := false }) s)

/-- A DISCOVER flit is forwarded; a member or priority that the list does not hold opens a new discovery, in which this module sends its own
(R353). -/
def execDiscover (port : Nat) (uid : Word64) (pri : Nat) (s : State) : Host.Outcome State Fault Refusal :=
  unitOp (wfPort port) (discoverIn port uid pri s)

/-- Members in the DN direction from the lowest MODULE_UID on. -/
def fromLowest (l : List (Word64 × Nat)) : List (Word64 × Nat) :=
  let low := (l.map (·.1.toNat)).foldl min (2 ^ 64)
  l.dropWhile (fun m => m.1.toNat != low) ++ l.takeWhile (fun m => m.1.toNat != low)

/-- The eligible member with the highest MASTER_PRI, the lowest UID among equals; 0 where none is eligible. -/
def electMaster (l : List (Word64 × Nat)) : Word64 :=
  match (l.filter (fun m => m.2 != 0)).foldl (fun best m =>
      match best with
      | none => some m
      | some b => if b.2 < m.2 || (b.2 = m.2 && m.1.toNat < b.1.toNat) then some m else best) (none : Option (Word64 × Nat)) with
  | some m => m.1
  | none => 0

def discoveryDone (p : Nat) (members : List (Word64 × Nat)) (closed : Bool) (s : State) : State :=
  let x := pairOf s p
  let l := fromLowest members
  if !(x.dn.up || x.up.up) || !members.any (fun m => m.1 = s.uid) then s
  else
    let master := electMaster l
    let s := updPair p (fun x => { x with
      members := l, memberList := true, closed := closed, line := if closed then [] else members.map (·.1), position := (l.takeWhile (fun m => m.1 != s.uid)).length
      oversize := 32 < l.length, masterUid := master }) s
    let bit : BitVec 16 := (1 : BitVec 16) <<< p
    let s := { s with frame := { s.frame with
      masterRings := if master = s.uid then s.frame.masterRings ||| bit else s.frame.masterRings &&& ~~~bit } }
    chooseSource (losePeers p (breakStreams p (fun e => 32 < l.length || !l.any (fun m => m.1 = e.peerUid)) s))

/-- All members agree: positions, the frame master and the tick source (R43, R353, R360). Lost peers break their streams and buckets. The
members of a line come from its UP end to its DN end. -/
def execDiscoveryComplete (pair : Nat) (members : List (Word64 × Nat)) (closed : Bool) (s : State) : Host.Outcome State Fault Refusal :=
  unitOp (wfPair pair) (discoveryDone pair members closed s)

/-! ### The tick (R44-R46, R358, R359) -/

/-- The TICK payload of Table 12-5. -/
def tickBytes (frame period next ring hops : Nat) (master : Word64) (acc : Nat) : List Byte :=
  padTo 248 (leBytes 8 frame ++ leBytes 2 period ++ leBytes 2 next ++ leBytes 1 ring ++ leBytes 1 hops ++ zeros 2 ++ leBytes 8 master.toNat ++
    leBytes 4 acc)

def tickFlit (body : List Byte) : Flit := { typ := 2, first := true, last := true, payload := body }

/-- This copy is the one to use: fewer HOPS, or the DN copy among equals (R359). -/
def betterTick (f : FrameUnit) (p : TickPayload) : Bool :=
  match f.lastTick with
  | none => true
  | some (n, h, dn) => n != p.frame || p.hops < h || (p.hops = h && p.viaDn && !dn)

/-- Signed 16 bits that saturate at ±32,767 (Table 2-1). -/
def sat16 (i : Int) : BitVec 16 := BitVec.ofInt 16 (max (-32767) (min 32767 i))

/-- Lock to, or slew towards, the source's tick. A marker opens one frame of the source, which is one of the module's own frames from the lock
on (log entry 106): its period belongs to that frame, and NEXT to the one after (R39, R40). -/
def lockTick (p : TickPayload) (pair : Nat) (s : State) : State :=
  let f := s.frame
  let near := p.errNs.natAbs ≤ 2000
  let counter := if !f.wasReady && !f.everLocked then p.frame else f.counter
  let off := if f.sourceValid && f.sourceRing = pair then f.sourceOff else counter - p.frame
  let opened := (p.frame + off).toNat
  { s with frame := { f with
      counter := counter, sourceOff := off
      sourceRing := pair, sourceValid := true, sourceNext := none, everLocked := true, missed := 0
      locked := near || !f.wasReady, slewing := !near && f.wasReady, slewAny := f.slewAny || (!near && f.wasReady)
      lockedAll := f.lockedAll && (near || !f.wasReady)
      lockErr := sat16 p.errNs, announced := p.nextUs
      known := [(opened, p.periodUs), (opened + 1, p.nextUs)].filter (fun k => counter.toNat < k.1)
      effPeriod := if opened = counter.toNat then p.periodUs else f.effPeriod, lastTick := some (p.frame, p.hops, p.viaDn) } }

/-- The tick goes on by the other port where that is up. The delay a forwarder adds is a free value (log entry 2). -/
def forwardTick (pair : Nat) (p : TickPayload) (s : State) : State :=
  let x := pairOf s pair
  let acc := p.accDelayNs + (if p.viaDn then x.hopDn else x.hopUp) + (Config.free64 s.nonce).toNat % 2 ^ 16
  bump (sendNow (sidePort pair (!p.viaDn)) (tickFlit (tickBytes p.frame.toNat p.periodUs p.nextUs p.ring (p.hops + 1) p.masterUid acc)) s)

def tickIn (pair : Nat) (p : TickPayload) (s : State) : State :=
  let x := pairOf s pair
  if !(if p.viaDn then x.dn.up else x.up.up) || p.masterUid = s.uid then s
  else
    let s := forwardTick pair p s
    if (s.frame.sourceNext = some pair || (s.frame.sourceValid && s.frame.sourceRing = pair && s.frame.sourceNext.isNone)) && betterTick s.frame p then
      lockTick p pair s
    else s

/-- A TICK flit arrives: it is forwarded, and the source's tick locks or slews the module (R44, R46, R359). -/
def execTickReceived (pair : Nat) (p : TickPayload) (s : State) : Host.Outcome State Fault Refusal :=
  unitOp (wfPair pair) (tickIn pair p s)

/-- Three expected tick markers have not arrived: the module holds over and chooses a source again (R45). -/
def execTickLoss (s : State) : Host.Outcome State Fault Refusal :=
  unitOp true (if s.frame.sourceValid then
    chooseSource { s with frame := { s.frame with locked := false, lockedAll := false, sourceValid := false, slewing := false, missed := 3 } }
  else s)

end Sys2Proof.Machine
end

