-- ==== Sys2Proof/Machine/Streams.lean ====
section
/-! DEFINITION. Streams (R361-R363), remote objects (R364) and the wake from S2 by a ring message (R488). -/

namespace Sys2Proof.Machine

/-! ### S2 -/

/-- Ring input on VC 1, 2 or 3 addressed to the module: in S2 it is dropped and starts the exit (R488). -/
def ringInput (f : State → State) (s : State) : State := if inS2 s then startWake s else f s

/-- A ring message addressed to the module in S2 on VC 1, 2 or 3 is dropped and starts the exit (R488). -/
def execS2Wake (vc : Nat) (s : State) : Host.Outcome State Fault Refusal := unitOp true (if 1 ≤ vc && vc ≤ 3 then startWake s else s)

/-! ### Streams -/

def streamEntryAt (s : State) (n i : Nat) : Option StreamEntry := (ctxOf s n).prog.bind (fun p => p.streams[i]?)

/-- The ring of an entry has discovered its peer and carries streams. -/
def peerKnown (s : State) (e : StreamEntry) : Bool :=
  let x := pairOf s e.ring
  x.memberList && !x.oversize && x.enable && x.draining.isNone && x.members.any (fun m => m.1 = e.peerUid)

/-- A landing object takes stream data: SCRATCH, or pinned at level 1 or more, with the window within it (R362). -/
def landingOk (s : State) (n : Nat) (e : StreamEntry) : Bool :=
  ((ctxOf s n).prog.bind (fun p => slotObj s p e.slot)).any (fun id => (objOf s id).any (fun o => (o.kind = .scratch || 1 ≤ o.pin) && e.window ≤ o.size))

/-- The RECEIVE entry names that ring, module, context and stream, and its landing object can take data (R362). -/
def receives (s : State) (pair : Nat) (u : Word64) (fc fs n i : Nat) : Option StreamEntry :=
  (streamEntryAt s n i).filter (fun e => e.receive && e.ring = pair && e.peerUid = u && e.peerContext = fc && e.peerStream = fs && peerKnown s e && landingOk s n e)

/-- A stream loses its connection. -/
def unlink (n i : Nat) (s : State) : State :=
  updCtx n (fun c => { c with linked := c.linked.filter (fun j => j != i), joined := c.joined.filter (fun j => j != i) }) s

def connect (pair : Nat) (u : Word64) (m : ConnectMsg) (s : State) : State :=
  match m with
  | .ask fc fs n i =>
    (match receives s pair u fc fs n i with
     | some e => sendConnect pair u (.accept fc fs e.window) (updCtx n (fun c => { c with joined := setAdd i c.joined }) s)
     | none => sendConnect pair u (.refuse fc fs) s)
  | .accept n i w =>
    (match streamEntryAt s n i with
     | some e =>
       if e.receive || e.ring != pair || e.peerUid != u || !peerKnown s e then s
       else updCtx n (fun c => { c with linked := setAdd i c.linked, windows := mapSet 0 i w c.windows }) s
     | none => s)
  | .refuse n i => if (streamEntryAt s n i).any (fun e => e.ring = pair && e.peerUid = u) then unlink n i s else s
  | .broken n i => if (streamEntryAt s n i).any (fun e => e.ring = pair && e.peerUid = u) then unlink n i s else s

/-- A message of the CONTROL exchange that connects a SEND stream to its peer's RECEIVE stream, or breaks the connection (R362). -/
def execStreamConnect (pair : Nat) (src : Word64) (m : ConnectMsg) (s : State) : Host.Outcome State Fault Refusal :=
  unitOp (wfPair pair) (if (pairOf s pair).dn.up || (pairOf s pair).up.up then connect pair src m s else s)

/-- A SEND stream that is not connected asks its peer, at every tick until it is (R362, log entry 25). -/
def askStreams (s : State) : State :=
  s.ctxs.foldl (fun s (c : Nat × Context) =>
    match c.2.prog with
    | none => s
    | some p => (p.streams.zipIdx).foldl (fun s e =>
        if e.1.receive || c.2.linked.contains e.2 || !peerKnown s e.1 then s
        else sendConnect e.1.ring e.1.peerUid (.ask c.1 e.2 e.1.peerContext e.1.peerStream) s) s) s

/-- Input that a completed transfer adds (R363). -/
def addInput (i bytes : Nat) (mark : Mask) (seed : Word64) (frame : Nat) (x : Option StreamInput) : StreamInput :=
  match x with
  | none => { streams := 2 ^ i, bytes := bytes, mark := mark, seed := seed, frame := frame }
  | some x => { x with streams := x.streams ||| 2 ^ i, bytes := x.bytes + bytes, mark := x.mark ||| mark }

/-- The landing object of a receive stream. -/
def landingObj (s : State) (n : Nat) (e : StreamEntry) : Option Nat := (ctxOf s n).prog.bind (fun p => slotObj s p e.slot)

/-- Write whole 64-byte code words into the landing object's T2 copy; it no longer equals its home. -/
def landStream (id off : Nat) (data : List Byte) (poison : Bool) (s : State) : State :=
  updObj id (fun o => { o with copy := o.copy.map (fun c =>
    let m := storeWrite 64 c.data off data
    { c with data := if poison then storePoison 64 m off data.length else m, dirty := c.dirty || o.kind != .scratch }) }) s

/-- The transfer is complete: its completion message goes back, and the context has work for the next frame; S1 ends (Table 18-3). -/
def streamDone (n i : Nat) (e : StreamEntry) (mark : Mask) (seed : Word64) (s : State) : State :=
  let bytes := mapGet 0 (ctxOf s n).streamPart i
  let s := updCtx n (fun c => { c with
    streamIn := some (addInput i bytes mark seed s.frame.counter.toNat c.streamIn), streamPart := mapSet 0 i 0 c.streamPart }) s
  leaveS1 (wakeCtx n (sendTo e.ring 0 e.peerUid { kind := 1, index := e.peerStream, body := markBytes mark seed } s))

def streamIn (n i off : Nat) (src : Word64) (data : List Byte) (poison last : Bool) (mark : Mask) (seed : Word64) (s : State) : State :=
  match streamEntryAt s n i with
  | none => s
  | some e =>
    match landingObj s n e with
    | none => s
    | some id =>
      if !e.receive || src != e.peerUid || !(ctxOf s n).joined.contains i || !landingOk s n e || !peerKnown s e || off % 64 != 0 || data.length % 64 != 0 || e.window < off + data.length ||
          !(objOf s id).any (fun o => o.copy.isSome && off + data.length ≤ o.size) then s
      else
        let s := landStream id off data poison s
        let s := updCtx n (fun c => { c with streamPart := mapSet 0 i (mapGet 0 c.streamPart i + data.length) c.streamPart }) s
        if last then streamDone n i e mark seed s else s

/-- Stream data from the peer that the stream is connected to lands in the landing object; with its last data the transfer is complete (R362,
R363). -/
def execStreamDataReceived (ctx stream offset : Nat) (data : StreamData) (poison last : Bool) (mark : Mask) (seed : Word64) (s : State) :
    Host.Outcome State Fault Refusal :=
  unitOp (wfCtx ctx) (ringInput (streamIn ctx stream offset data.src data.bytes poison last mark seed) s)

/-- End a ticket that sends on a stream with a result. -/
def endStreamTicket (c : CoreRef) (t : BitVec 2) (res : Nat) (s : State) : State :=
  if (ticketOf (coreOf s c) t).out.any (fun d => dDstKind d = 3) then updCore c (setTicket t.toNat { result := res }) s else s

/-- The completion message completes the sender's ticket DONE (R124, R362). -/
def execStreamCompletionReceived (c : CoreRef) (t : BitVec 2) (s : State) : Host.Outcome State Fault Refusal :=
  unitOp (wfCore c) (ringInput (endStreamTicket c t 0) s)

def streamLate (c : CoreRef) (t : BitVec 2) (s : State) : State :=
  if (ticketOf (coreOf s c) t).out.any (fun d => dDstKind d = 3) then logEvent 10 0 0 c.ctx (c.lcore % 65536) 0 0 0 (endStreamTicket c t 2 s) else s

/-- 500 µs without a completion: the transfer completes CANCELLED and is logged (R362). -/
def execStreamTimeout (c : CoreRef) (t : BitVec 2) (s : State) : Host.Outcome State Fault Refusal := unitOp (wfCore c) (streamLate c t s)

/-! ### Imports (R364) -/

/-- Answer an import request with a granule, or with an error, which carries no data (log entry 25), by the port it came in. `req` holds the
requester's position above its request index. -/
def answerImport (port req : Nat) (data : List Byte) (poison error : Bool) (s : State) : State :=
  sendRing { pair := portPair port, dn := port % 2 = 0, vc := 2, kind := 3, dest := req / 256, src := (pairOf s (portPair port)).position
             index := req % 256, body := if error then [] else data, poison := poison } s

/-- The granule as the T2 copy holds it, if it is resident there. -/
def residentGranule (o : Obj) (g : Nat) : Option Store :=
  o.copy.bind (fun c => if c.missing.contains g then none else some (storeSub 64 c.data (g * granuleBytes) granuleBytes))

def serveImport (port n name g req : Nat) (s : State) : State :=
  if (pairOf s (portPair port)).oversize then s else
  match objOf s (objId n name) with
  | none => answerImport port req [] false true s
  | some o =>
    if !o.exported || o.kind != .persistent || granules o ≤ g then answerImport port req [] false true s
    else
      match residentGranule o g with
      | some m => answerImport port req (storeRead m 0 (granuleLen o g)) (!m.poison.isEmpty) false s
      | none =>
        if noMedia s (objLga o g) then answerImport port req (zeros (granuleLen o g)) false false s
        else startReads (enqRead (objLga o g) (.serveImport port req g) s)

/-- A peer's import request: served from the T2 copy, else from the home; an object that is gone or not exported answers with an error
(R364). In S2 the request is dropped and starts the exit; before the map is complete it is not answered (R277, R488). -/
def execImportRequestReceived (port ctx name granule : Nat) (req : ImportId) (s : State) : Host.Outcome State Fault Refusal :=
  unitOp (wfPort port) (if !(portOf s port).up then s else ringInput (fun s =>
    if s.host.devState = .ready || s.host.devState = .sleep then serveImport port ctx name granule (req.src * 256 + req.index % 256) s else s) s)

def importOf (s : State) (id g : Nat) : Option ImportReq := s.ring.imports.find? (fun i => i.obj = id && i.granule = g)

def dropImport (id g : Nat) (s : State) : State :=
  { s with ring := { s.ring with imports := s.ring.imports.filter (fun i => !(i.obj = id && i.granule = g)) } }

def importIn (id g : Nat) (data : List Byte) (poison error : Bool) (s : State) : State :=
  let reqs := s.ring.imports.filter (fun i => i.obj = id && i.granule = g)
  if reqs.isEmpty then s
  else
    let m : Store := { cells := cellsOf 0 (data.take granuleBytes), poison := if poison then [0] else [] }
    let whole : Store := if poison then poisonAll m granuleBytes else m
    let s := reqs.foldl (fun s i =>
      if i.tag = 0 then s else if error then endImportTag i.tag g (stMediaError 0 0) s else landHost i.tag g whole s) (dropImport id g s)
    if reqs.all (fun i => i.tag != 0) then s
    else if error then pruneFlight (failFills id (stMediaError 0 0) s)
    else landGranule id g m s

/-- Import data lands in the local T2 copy; poison poisons the granule, an error ends the fill with MEDIA_ERROR (R364). -/
def execImportDataReceived (obj granule : Nat) (data : List Byte) (poison error : Bool) (s : State) : Host.Outcome State Fault Refusal :=
  unitOp true (ringInput (importIn obj granule data poison error) s)

/-- Send the request again in a direction. -/
def resendImport (id g : Nat) (dn : Bool) (f : ImportReq → ImportReq) (s : State) : State :=
  match objOf s id with
  | none => s
  | some o => sendRing (importMsg s o g dn) { s with ring := { s.ring with
      imports := s.ring.imports.map (fun i => if i.obj = id && i.granule = g then f i else i) } }

/-- The other direction still reaches the peer of an import (R364). -/
def otherReaches (s : State) (id : Nat) (i : ImportReq) : Bool := (objOf s id).any (fun o => reaches s o.ring (!i.dn) o.peerUid)

def importLate (id g : Nat) (s : State) : State :=
  match importOf s id g with
  | none => s
  | some i =>
    if i.sent = 0 then s
    else if i.sent < 3 then resendImport id g i.dn (fun i => { i with sent := i.sent + 1 }) s
    else if i.otherWay < 3 && otherReaches s id i then resendImport id g (!i.dn) (fun i => { i with otherWay := i.otherWay + 1 }) s
    else
      pruneFlight (failFills id stUnitUnavailable ((s.ring.imports.filter (fun i => i.obj = id && i.granule = g)).foldl
        (fun s i => if i.tag = 0 then s else endImportTag i.tag g stUnitUnavailable s) (dropImport id g s)))

/-- An unanswered import request is sent again, three times in each direction that serves, then the fill completes UNIT_UNAVAILABLE
(R364). -/
def execImportTimeout (obj granule : Nat) (s : State) : Host.Outcome State Fault Refusal := unitOp true (importLate obj granule s)

end Sys2Proof.Machine
end

