-- ==== Sys2Proof/Machine/Reduction.lean ====
section
/-! DEFINITION. The reduction engine (chapter 13): opening, closing and reporting buckets (R369-R371, R387, R388), thinning (R373, R374),
the sums at their owners (R375-R379), the messages that meet a bucket (R389) and the end of a step (R381-R383). -/

namespace Sys2Proof.Machine

/-! ### Buckets -/

/-- Chunks of a bucket (R369). -/
def chunkCount (k : RedTag) : Nat := ceilDiv k.nelem 4096
/-- Elements of chunk `c`. -/
def chunkLen (k : RedTag) (c : Nat) : Nat := min 4096 (k.nelem - 4096 * c)
/-- H of Table 13-3: bytes of a residual half. -/
def halfBytes (nelem : Nat) : Nat := roundUp (4 * nelem) 64
/-- The owner of chunk `c`: its place in the list of participants (R375). -/
def ownerOf (k : RedTag) (t c : Nat) : Nat := (c + t) % k.parts.length
/-- This module's place in the list. -/
def ownPart (s : State) (k : RedTag) : Nat := k.parts.idxOf s.uid

/-- A bucket fails, and its context settles where that ends a run. -/
def redFailAt (t cause : Nat) (s : State) : State := settleCtx (tagOf s t).ctx (redFail t cause s)

/-- A step whose set holds every bucket DONE before its deadline is REDUCED (R382). -/
def stepCheck (n : Nat) (s : State) : State :=
  ((ctxOf s n).steps.filter (fun st => st.outcome = .pending && st.tags.all (fun t => st.doneTags.contains t) &&
    s.frame.counter.toNat < st.start + st.redFrames)).foldl (fun s st =>
      writeStep n { st with outcome := .reduced } true (putStep n { st with outcome := .reduced } s)) s

/-- Chunk `c` is final here; the bucket is DONE with its last chunk (R379). -/
def chunkFinal (t c : Nat) (s : State) : State :=
  let s := updTag t (fun k => { k with final := setAdd c k.final }) s
  if (tagOf s t).final.length = chunkCount (tagOf s t) then
    stepCheck (tagOf s t).ctx (updCtx (tagOf s t).ctx (fun c => { c with steps := c.steps.map (fun x =>
      if x.tags.contains t then { x with doneTags := setAdd t x.doneTags } else x) }) (updTag t (fun k => { k with state := .done }) s))
  else s

/-! ### SUM and RESID in T2 -/

/-- Bytes of an object for the engine: its T2 copy, what the copy misses from the home. -/
def engineRead (s : State) (id a n : Nat) : List Byte :=
  match objOf s id with
  | none => zeros n
  | some o =>
    match o.copy with
    | some c => storeRead (copyView s o c) a n
    | none => (segsOf a n).flatMap (fun g => storeRead (homeRead s (objLga o g.1)) g.2.1 g.2.2)

/-- The engine meets poison in these bytes. -/
def engineBad (s : State) (id a n : Nat) : Bool :=
  (objOf s id).any (fun o => o.copy.any (fun c => storeHit 64 (copyView s o c) a n))

/-- A granule as the engine fetches it from its home: poison spoils the whole of it (R309). -/
def fetchedGranule (s : State) (o : Obj) (g : Nat) : Store :=
  let m := toLines (homeRead s (objLga o g))
  if m.poison.isEmpty then m else poisonAll m (granuleLen o g)

/-- Change bytes `a` to `a + n` of an object's copy; a granule the copy misses is fetched first. -/
def engineWrite (id a n : Nat) (f : Store → Store) (s : State) : State :=
  match objOf s id with
  | none => s
  | some o =>
    updObj id (fun o => { o with copy := o.copy.map (fun c => { c with data := f c.data, dirty := true }) })
      ((segsOf a n).foldl (fun s g => putGranule id g.1 (fetchedGranule s o g.1) s) s)

/-- Bytes of chunk `c` in the SUM object. -/
def sumSpan (s : State) (k : RedTag) (c : Nat) : Nat := min 16384 (((objOf s k.sum).map (·.size)).getD 0 - 16384 * c)

/-- Set a word of a memory. -/
def putWord (a : Nat) (w : Word32) (m : Store) : Store := { m with cells := cellsWrite m.cells a (leBytes 4 w.toNat) }

/-- Add a widened BF16 value to a word, rounded under R142 (R377). -/
def addWord (a : Nat) (v : BitVec 16) (m : Store) : Store :=
  putWord a (fAdd (BitVec.ofNat 32 (leNat (storeRead m a 4))) (BitVec.ofNat 32 (v.toNat * 65536))) m

/-! ### RESULT messages (R376-R378) -/

/-- The participants a RESULT is addressed to, with its direction: on a closed ring the farthest of the first half by DN, and of the rest by
UP; on a line the farthest in each direction that leads to a participant (R377). -/
def resultDests (s : State) (k : RedTag) : List (Word64 × Bool) :=
  let others := sortBy (fun a b => dnDistance s k.ring a < dnDistance s k.ring b) (otherParts s k)
  let half := (others.length + 1) / 2
  if (pairOf s k.ring).closed then
    ((others.take half).getLast?.toList).map (fun u => (u, true)) ++ ((others.drop half).head?.toList).map (fun u => (u, false))
  else
    let l := (pairOf s k.ring).line
    let byPlace := sortBy (fun a b => placeIn l a < placeIn l b) (otherParts s k)
    (((byPlace.filter (fun u => reaches s k.ring true u)).getLast?.toList).map (fun u => (u, true))) ++
      ((byPlace.filter (fun u => reaches s k.ring false u)).head?.toList).map (fun u => (u, false))

/-- Send a RESULT each way. -/
def sendResult (t : Nat) (body : List Byte) (s : State) : State :=
  (resultDests s (tagOf s t)).foldl (fun s d => sendTo (tagOf s t).ring (if d.2 then 1 else 2) d.1 { kind := 4, body := body } s) s

/-- The RESULT of chunk `c`: the bitmap of the indices sent, and their sums (Table 13-5). -/
def resultBody (s : State) (t c : Nat) : List Byte :=
  let k := tagOf s t
  let idx := mapGet [] k.seen c
  redHeader 2 k.gen 0 t c idx.length 0 ++ leBytes 512 ((idx.map (fun i => 2 ^ i)).foldl (· + ·) 0) ++
  idx.flatMap (fun i => engineRead s k.sum (16384 * c + 4 * i) 4)

/-- The owner adds one contribution to its chunk; with the last it sends the RESULT (R377). -/
def ownerAdd (t c part : Nat) (entries : List (Nat × BitVec 16)) (s : State) : State :=
  let k := tagOf s t
  let had := mapGet [] k.added c
  let s := if had.contains part || had.isEmpty then s else meetT2 srcReduction k.sum (16384 * c) (sumSpan s k c) s
  if had.contains part then s
  else if !had.isEmpty && engineBad s k.sum (16384 * c) (sumSpan s k c) then redFailAt t 7 s
  else
    let s := engineWrite k.sum (16384 * c) (sumSpan s k c) (fun m =>
      entries.foldl (fun m e => addWord (16384 * c + 4 * (e.1 % 4096)) e.2 m)
        (if had.isEmpty then storePaste 64 m (16384 * c) (sumSpan s k c) {} else m)) s
    let s := updTag t (fun k => { k with
      added := mapSet [] c (setAdd part had) k.added
      seen := mapSet [] c (entries.foldl (fun l e => setAdd (e.1 % 4096) l) (mapGet [] k.seen c)) k.seen }) s
    if had.length + 1 = k.parts.length then chunkFinal t c (sendResult t (resultBody s t c) s) else s

/-! ### Thinning (R373, R374) -/

def nonFinite (v : FVal) : Bool :=
  match v with
  | .fin _ _ _ => false
  | _ => true

/-- u of R374: the scaled code plus the residual, in binary32. -/
def thinSum (fmt : Nat) (e : Int) (code : Byte) (r : Word32) : Word32 :=
  enc32 (addV (scaleV e (rawValue fmt code.toNat)) (dec32 r))

/-- The `kk` indices of largest magnitude, the lower first among equals. -/
def thinPick (kk : Nat) (u : List Word32) : List Nat :=
  ((sortBy (fun a b => b.1.toNat % 2 ^ 31 < a.1.toNat % 2 ^ 31 || (b.1.toNat % 2 ^ 31 = a.1.toNat % 2 ^ 31 && a.2 < b.2)) u.zipIdx).take kk).map (·.2)

/-- The value sent for u. -/
def thinSent (u : Word32) : Nat := encBf16 none (dec32 u)

/-- What stays: u less what was sent, exact in binary32. -/
def thinRest (u : Word32) : Word32 := enc32 (subV (dec32 u) (wideValue 5 (thinSent u)))

/-- What a lane makes of a chunk: its entries, its NEXT residual, and the elements it went through before a sent value was infinite; none where
an element of u is not finite. -/
def thin (kk : Nat) (u : List Word32) : Option (List (Nat × BitVec 16) × List Word32 × Nat) :=
  let pick := thinPick kk u
  if u.any (fun w => nonFinite (dec32 w)) then none
  else some (u.zipIdx.filterMap (fun p => if pick.contains p.2 then some (p.2, BitVec.ofNat 16 (thinSent p.1)) else none),
             u.zipIdx.map (fun p => if pick.contains p.2 then thinRest p.1 else p.1),
             (u.zipIdx.takeWhile (fun p => !(pick.contains p.2 && nonFinite (wideValue 5 (thinSent p.1))))).length)

/-- The source lines of a chunk's codes meet poison. -/
def codesBad (s : State) (r : CoreRef) (p : Program) (d : Desc) (j len : Nat) : Bool :=
  (List.range (ceilDiv len 64)).any (fun l =>
    let o := 4096 * j + 64 * l
    storeHit (srcMem s r p d).1 (srcMem s r p d).2 (dSrcAddr d + o / dRowBytes d * dSrcStride d + o % dRowBytes d) 64)

/-- The codes of the next chunk of a transfer: bytes handed over before a pause, then the source as it stands (R132). -/
def chunkCodes (s : State) (r : CoreRef) (p : Program) (d : Desc) (tk : Ticket) (len : Nat) : List Byte :=
  (tk.part ++ (((dstRows s r p d).map (·.2)).flatten).drop (4096 * tk.chunks + tk.part.length)).take len

/-- Byte of the RESID object where half `h` of chunk `c` begins. -/
def residAt (k : RedTag) (h c : Nat) : Nat := 64 + h * halfBytes k.nelem + 16384 * c

def sel (s : State) (k : RedTag) : Nat := byteField (engineRead s k.resid 0 1) 0 1

/-- The engine has taken the next chunk of a contribution: the ticket is DONE with the last. -/
def ticketChunk (r : CoreRef) (t : BitVec 2) (d : Desc) (s : State) : State :=
  updCore r (fun k =>
    let x := ticketOf k t
    setTicket t.toNat (if x.chunks + 1 = (contribChunks d).length then { result := 0 } else { x with chunks := x.chunks + 1, part := [] }) k) s

/-- Hand a contribution to its owner: this module's own adders, or a CONTRIB message (R375). -/
def sendContrib (t c : Nat) (entries : List (Nat × BitVec 16)) (s : State) : State :=
  let k := tagOf s t
  if ownerOf k t c = ownPart s k then ownerAdd t c (ownPart s k) entries s
  else sendRed t (k.parts[ownerOf k t c]?).toList (redHeader 1 k.gen 0 t c entries.length 0 ++
    entries.flatMap (fun e => leBytes 2 e.1 ++ leBytes 2 e.2.toNat)) s

def thinInto (r : CoreRef) (t : BitVec 2) (p : Program) (d : Desc) (c : Nat) (s : State) : State :=
  let k := tagOf s (dTag d)
  let len := chunkLen k c
  let s := if k.noresid then s else meetT2 srcReduction k.resid 0 64 s
  let h := if k.noresid then 0 else sel s k
  let s := if k.noresid then s else meetT2 srcReduction k.resid (residAt k h c) (4 * len) s
  if !k.noresid && (engineBad s k.resid 0 64 || engineBad s k.resid (residAt k h c) (4 * len)) then redFailAt (dTag d) 7 s
  else
    let res : List Word32 := if k.noresid then List.replicate len 0
      else (pieces 4 len (engineRead s k.resid (residAt k h c) (4 * len))).map (fun b => BitVec.ofNat 32 (leNat b))
    let e := palExp (mapGet {} (ctxOf s k.ctx).palette k.pal)
    match thin (min k.k len) (((chunkCodes s r p d (ticketOf (coreOf s r) t) len).zip res).map (fun x => thinSum k.fmt e x.1 x.2)) with
    | none => redFailAt (dTag d) 6 s
    | some (entries, next, done) =>
      let s := if k.noresid then s
        else engineWrite k.resid (residAt k (1 - h) c) (4 * done)
          (fun m => storeWrite 64 m (residAt k (1 - h) c) ((next.take done).flatMap (fun w => leBytes 4 w.toNat))) s
      if done < len then redFailAt (dTag d) 6 s else sendContrib (dTag d) c entries (ticketChunk r t d (updTag (dTag d) (fun k => { k with sent := setAdd c k.sent }) s))

def chunkIn (r : CoreRef) (t : BitVec 2) (s : State) : State :=
  match progOf (ctxOf s r.ctx) r.sketch, (ticketOf (coreOf s r) t).out with
  | some p, some d =>
    let j := (ticketOf (coreOf s r) t).chunks
    if dDstKind d != 4 || !(ctxOf s r.ctx).inSlice || (tagOf s (dTag d)).state != .armed then s
    else
      match (contribChunks d)[j]? with
      | none => s
      | some c =>
        let s := meetSource r p d s
        if codesBad s r p d j (chunkLen (tagOf s (dTag d)) c) then
          (if poisonAbsent s p d then updCore r (setTicket t.toNat { result := 1 }) s else coreFault r 0x0B (srcHitAt s r p d) s)
        else thinInto r t p d c s
  | _, _ => s

/-- The engine accepts the next chunk of a contribution once the bucket is ARMED, thins it and updates NEXT (R373, R374). -/
def execChunkThin (c : CoreRef) (t : BitVec 2) (s : State) : Host.Outcome State Fault Refusal := unitOp (wfCore c) (chunkIn c t s)

/-! ### Messages (R371, R377, R378, R389) -/

/-- A message that meets no ARMED bucket of its generation is dropped and counted; ABANDON goes back to its sender. -/
def rejectMsg (pair : Nat) (src : Word64) (t gen : Nat) (s : State) : State :=
  sendTo pair 0 src { kind := 4, body := redHeader 3 gen 2 t 0 0 0 }
    (updTag t (fun k => { k with rejected := stick32 (k.rejected + 1) }) s)

/-- The bucket takes CONTRIB and RESULT of this generation. -/
def armedFor (k : RedTag) (gen : Nat) : Bool := k.state = .armed && k.gen = gen

def contribIn (pair : Nat) (src : Word64) (t gen c : Nat) (entries : List (Nat × BitVec 16)) (poison : Bool) (s : State) : State :=
  let k := tagOf s t
  if !armedFor k gen then rejectMsg pair src t gen s
  else if poison then redFailAt t 7 s
  else if !k.parts.contains src || chunkCount k ≤ c || ownerOf k t c != ownPart s k then s
  else ownerAdd t c (k.parts.idxOf src) entries s

/-- A CONTRIB reaches the owner of its chunk (R377, R389). -/
def execContrib (pair : Nat) (src : Word64) (tag gen chunk : Nat) (entries : List (Nat × BitVec 16)) (poison : Bool) (s : State) :
    Host.Outcome State Fault Refusal :=
  unitOp (wfPair pair && wfRedTag tag) (ringInput (contribIn pair src tag gen chunk entries poison) s)

def resultIn (pair : Nat) (src : Word64) (t gen c : Nat) (entries : List (Nat × Word32)) (poison : Bool) (s : State) : State :=
  let k := tagOf s t
  if !armedFor k gen then rejectMsg pair src t gen s
  else if poison then redFailAt t 7 s
  else if chunkCount k ≤ c then s
  else
    chunkFinal t c (engineWrite k.sum (16384 * c) (sumSpan s k c) (fun m =>
      entries.foldl (fun m e => putWord (16384 * c + 4 * (e.1 % 4096)) e.2 m) (storePaste 64 m (16384 * c) (sumSpan s k c) {})) s)

/-- A participant takes its copy of a RESULT: the whole chunk is written (R378). The flits themselves are forwarded by the link layer. -/
def execResult (pair : Nat) (src : Word64) (tag gen chunk : Nat) (entries : List (Nat × Word32)) (poison : Bool) (s : State) :
    Host.Outcome State Fault Refusal :=
  unitOp (wfPair pair && wfRedTag tag) (ringInput (resultIn pair src tag gen chunk entries poison) s)

def readyIn (src : Word64) (t gen : Nat) (pcrc : Word32) (s : State) : State :=
  let k := tagOf s t
  if !isOpenTag k || src = s.uid then s
  else if k.gen != gen then redFailAt t 2 s
  else if k.pcrc != pcrc then redFailAt t 3 s
  else if !k.parts.contains src then s
  else
    let s := updTag t (fun k => { k with ready := setAdd (k.parts.idxOf src) k.ready }) s
    if (tagOf s t).ready.length + 1 = k.parts.length then updTag t (fun k => { k with state := .armed }) s else s

/-- A READY is matched; with the last one the bucket is ARMED (R371). -/
def execReady (pair : Nat) (src : Word64) (tag gen : Nat) (pcrc : Word32) (s : State) : Host.Outcome State Fault Refusal :=
  unitOp (wfPair pair && wfRedTag tag) (ringInput (readyIn src tag gen pcrc) s)

def abandonIn (t gen : Nat) (s : State) : State :=
  let k := tagOf s t
  if isOpenTag k && k.gen = gen then redFailAt t 5 s
  else if k.state = .failed && k.gen = gen then s
  else updTag t (fun k => { k with rejected := stick32 (k.rejected + 1) }) s

/-- An ABANDON fails a bucket of its generation that is not DONE; any other is counted (R389). Its own cause is not kept: the bucket's is
ABANDONED. -/
def execAbandon (tag gen cause : Nat) (s : State) : Host.Outcome State Fault Refusal :=
  unitOp (wfRedTag tag && cause < 16) (ringInput (abandonIn tag gen) s)

/-! ### Order (R417) -/

/-- The tags that a command names: those of its range, or of its bucket list once that has landed; none known before. -/
def namedTags (c : Cmd) : Option (List Nat) :=
  if pktOpcode c.pkt = 0x70 then
    (if inputReady c then some ((List.range (min (byteField (cmdData c) 0 2) 4096)).map (fun j =>
      bitsOf (byteField (cmdData c) (320 + 32 * j) 2) 11 0)) else none)
  else some ((List.range (pktField c.pkt 10 2)).map (fun i => pktField c.pkt 8 2 + i))

/-- Two commands may name the same tag. -/
def tagsMeet (c d : Cmd) : Bool :=
  match namedTags c, namedTags d with
  | some a, some b => a.any (fun t => b.contains t)
  | _, _ => true

/-- An earlier command of the context on the same tag goes first. -/
def redBehind (s : State) (c : Cmd) : Bool :=
  (olderCmds s c.tag).any (fun d => [0x70, 0x71, 0x72].contains (pktOpcode d.pkt) && pktCtx d.pkt = pktCtx c.pkt &&
    (d.phase = .waiting || d.phase = .released) && tagsMeet c d)

/-- Run a reduction command in its order. -/
def onRed (op tag : Nat) (f : Cmd → State → State) (s : State) : State :=
  onCmd op tag anyPkt (fun c s => if redBehind s c then s else f c s) s

/-! ### RED_OPEN (0x70) -/

/-- The participants of a bucket list. -/
def listParts (b : List Byte) : List Word64 :=
  (pieces 8 (min (byteField b 3 1) 32) (b.drop 64)).map (fun x => BitVec.ofNat 64 (leNat x))

def bucketEntry (b : List Byte) (j : Nat) : List Byte := (b.drop (320 + 32 * j)).take 32
def entryTag (e : List Byte) : Nat := bitsOf (byteField e 0 2) 11 0
def entryGen (e : List Byte) : Nat := bitsOf (byteField e 0 2) 15 12

/-- Offending fields of the header. -/
def listErrs (s : State) (n : Nat) (b : List Byte) : List Nat :=
  let parts := listParts b
  errIf (byteField b 0 2 = 0 || 4096 < byteField b 0 2) 0 ++ errIf (portPairs s ≤ byteField b 2 1) 2 ++
  errIf (byteField b 3 1 < 2 || 32 < byteField b 3 1) 3 ++ errIf ((ctxOf s n).steps.any (fun x => x.step = byteField b 4 4)) 4 ++
  errIf (dirty b 8 64) 8 ++ errIf (!parts.contains s.uid) 64 ++
  (List.range 32).flatMap (fun i =>
    errIf (if i < parts.length then 1 < parts.count (parts.getD i 0) else byteField b (64 + 8 * i) 8 != 0) (64 + 8 * i))

/-- SUM or RESID is an object of the context, SCRATCH or pinned, of at least this size. -/
def redObject (s : State) (n id need : Nat) : Bool :=
  objCtx id = n && (objOf s id).any (fun o => (o.kind = .scratch || 1 ≤ o.pin) && need ≤ o.size)

/-- Offending fields of a bucket entry, the tags of the whole list known. -/
def entryErrs (s : State) (n : Nat) (tags : List Nat) (e : List Byte) : List Nat :=
  let nelem := byteField e 4 4
  let flags := byteField e 10 1
  let resid := byteField e 24 8
  errIf (1 < tags.count (entryTag e)) 0 ++ errIf (!(byteField e 2 1 = 3 || byteField e 2 1 = 4)) 2 ++
  errIf (nelem = 0 || 67108864 < nelem) 4 ++ errIf (byteField e 8 2 = 0 || 1024 < byteField e 8 2) 8 ++ errIf (1 < flags) 10 ++
  errIf (dirty e 11 16) 11 ++ errIf (!redObject s n (byteField e 16 8) (4 * nelem)) 16 ++
  errIf (if bitOf flags 0 then resid != 0
         else !redObject s n resid (64 + 2 * halfBytes nelem) || 1 < byteField (engineRead s resid 0 1) 0 1) 24

/-- The tag is not FREE, or its generation is not the next one. -/
def genBad (s : State) (e : List Byte) : Bool :=
  let k := tagOf s (entryTag e)
  k.state != .free || k.lastGen.any (fun g => entryGen e != (g + 1) % 16)

/-- Open one bucket. -/
def openBucket (n : Nat) (b e : List Byte) (s : State) : State :=
  let t := entryTag e
  let noresid := bitOf (byteField e 10 1) 0
  let old := tagOf s t
  let s := updTag t (fun _ =>
    { state := .open_, gen := entryGen e, lastGen := old.lastGen, rejected := old.rejected, ctx := n, fmt := byteField e 2 1
      pal := byteField e 3 1, nelem := byteField e 4 4, k := byteField e 8 2, noresid := noresid, sum := byteField e 16 8
      resid := byteField e 24 8, ring := byteField b 2 1, parts := listParts b
      pcrc := BitVec.ofNat 32 (crc32c ((b.drop 64).take (8 * byteField b 3 1))), step := byteField b 4 4 }) s
  let use (id : Nat) (s : State) : State := updObj id (fun o => { o with redTags := setAdd t o.redTags }) s
  if noresid then use (byteField e 16 8) s else use (byteField e 24 8) (use (byteField e 16 8) s)

def redOpenCmd (c : Cmd) (s : State) : State :=
  let b := cmdData c
  let n := pktCtx c.pkt
  let es := (List.range (min (byteField b 0 2) 4096)).map (bucketEntry b)
  if !ctxDefined s n then complete c.tag (stInvalidField 2 0) s
  else
    if pktBufLen c.pkt < 320 + 32 * byteField b 0 2 then complete c.tag (stInvalidField 56 0) s
    else
      match firstErr (listErrs s n b ++ pieceErrs 320 32 (fun _ e => entryErrs s n (es.map entryTag) e) es) with
      | some o => complete c.tag (stInvalidField o 1) s
      | none =>
        if !s.red.available then complete c.tag stUnitUnavailable s
        else
          match es.find? (genBad s) with
          | some e => complete c.tag (stTagGeneration (entryTag e)) s
          | none => complete c.tag (stSuccess 0 0 0) (es.foldl (fun s e => openBucket n b e s) s)

/-- RED_OPEN: checked in whole, then every bucket is OPEN (R370). -/
def execRedOpen (tag : Nat) (s : State) : Host.Outcome State Fault Refusal := unitOp true (onRed 0x70 tag redOpenCmd s)

/-! ### RED_CLOSE (0x71), RED_STATUS (0x72) -/

/-- The tag is FREE, with LASTGEN = GEN; its objects lose their protection. -/
def freeTag (t : Nat) (s : State) : State :=
  let k := tagOf s t
  if k.state = .free then s
  else
    { (updTag t (fun _ => { lastGen := some k.gen, rejected := k.rejected }) s) with
      objs := s.objs.map (fun (p : Nat × Obj) => (p.1, { p.2 with redTags := setDel t p.2.redTags })) }

/-- The tags of a range. -/
def tagRange (c : Cmd) : List Nat := (List.range (pktField c.pkt 10 2)).map (fun i => pktField c.pkt 8 2 + i)

def closeTag (n t : Nat) (s : State) : State :=
  let k := tagOf s t
  if k.state = .free || k.ctx != n then s else freeTag t (redFailAt t 8 s)

def redCloseCmd (c : Cmd) (s : State) : State :=
  if !ctxDefined s (pktCtx c.pkt) then complete c.tag (stInvalidField 2 0) s
  else complete c.tag (stSuccess 0 0 0) ((tagRange c).foldl (fun s t => closeTag (pktCtx c.pkt) t s) s)

/-- RED_CLOSE: tags of the context become FREE; open ones fail with CLOSED first (R387). -/
def execRedClose (tag : Nat) (s : State) : Host.Outcome State Fault Refusal := unitOp true (onRed 0x71 tag redCloseCmd s)

def tagStateCode (k : TagState) : Nat :=
  match k with
  | .free => 0
  | .open_ => 1
  | .armed => 2
  | .done => 3
  | .failed => 4

/-- The record of Table 13-8. -/
def redStatusBytes (s : State) (n t : Nat) : List Byte :=
  let k := tagOf s t
  if k.state != .free && k.ctx != n then zeros 2 ++ leBytes 1 5 ++ zeros 29
  else
    padTo 32 (leBytes 2 (t + k.gen * 4096) ++ leBytes 1 (tagStateCode k.state) ++ leBytes 1 k.cause ++ leBytes 1 k.ctx ++
      leBytes 1 k.parts.length ++ leBytes 1 k.ready.length ++ leBytes 1 (k.lastGen.elim 0 (fun g => g + 16)) ++ leBytes 4 k.step ++
      leBytes 4 k.sent.length ++ leBytes 4 k.final.length ++ leBytes 4 k.rejected)

def redStatusCmd (c : Cmd) (s : State) : State :=
  if !ctxDefined s (pktCtx c.pkt) then complete c.tag (stInvalidField 2 0) s
  else reply c 0 ((tagRange c).flatMap (redStatusBytes s (pktCtx c.pkt))) (stSuccess 0 0 0) s

/-- RED_STATUS: one 32-byte record per tag (R388). -/
def execRedStatus (tag : Nat) (s : State) : Host.Outcome State Fault Refusal := unitOp true (onRed 0x72 tag redStatusCmd s)

/-! ### The end of a step (R382, R383) -/

def stepLate (n : Nat) (s : State) : State :=
  settleCtx n (((ctxOf s n).steps.filter (fun x => x.outcome = .pending && x.start + x.redFrames ≤ s.frame.counter.toNat)).foldl
    (fun s x => voidRun n 1 x s) s)

/-- The deadline passes before every bucket of the set is DONE: the step is void (R383). -/
def execRedDeadline (ctx : Nat) (s : State) : Host.Outcome State Fault Refusal := unitOp (wfCtx ctx) (stepLate ctx s)

/-- RESID objects of a set of buckets. -/
def tagResids (s : State) (ts : List Nat) : List Nat := ((ts.filter (fun t => !(tagOf s t).noresid)).map (fun t => (tagOf s t).resid)).dedup

/-- Flip the SEL of a RESID object, by one 64-byte write of its header; a poisoned header is not written (R307). -/
def flipSel (id : Nat) (s : State) : State :=
  let s := meetT2 srcReduction id 0 64 s
  if engineBad s id 0 64 then s
  else engineWrite id 0 64 (fun m => storeWrite 64 m 0 (leBytes 1 (1 - byteField (storeRead m 0 1) 0 1) ++ (storeRead m 0 64).drop 1)) s

/-- The parity flips and so does the SEL of each of these objects that still exists. -/
def flipStep (n : Nat) (ids : List Nat) (s : State) : State :=
  updCtx n (fun c => { c with parity := !c.parity }) (ids.foldl (fun s id => flipSel id s) s)

/-- The oldest step that is REDUCED and whose run has halted commits; it is the one STEP_VOID can revoke unless a later STEP_RUN has started
its run (R382, R384). -/
def commitStep (n : Nat) (s : State) : State :=
  match (ctxOf s n).steps.find? (fun x => x.outcome = .reduced && x.halted) with
  | none => s
  | some x =>
    let s := flipStep n x.resids s
    let later := ((ctxOf s n).steps.dropWhile (fun y => y.tag != x.tag)).length != 1
    updCtx n (fun c => { c with steps := c.steps.filter (fun y => y.tag != x.tag), lastStep := if later then none else some (x.step, x.resids) })
      (complete x.tag (stSuccess x.step (if (ctxOf s n).parity then 1 else 0) 0) s)

/-- The step is REDUCED and its run has halted: it commits, and STEP_RUN completes (R382). -/
def execStepCommit (ctx : Nat) (s : State) : Host.Outcome State Fault Refusal := unitOp (wfCtx ctx) (commitStep ctx s)

end Sys2Proof.Machine
end

