-- ==== Sys2Proof/Machine/Contexts.lean ====
section
/-! DEFINITION. Context commands (R109, R217, R231, R232, R319, R320, R342, Table 15-9). -/

namespace Sys2Proof.Machine

/-! ### CTX_CREATE (0x20) -/

/-- A new context: its parameters, one T1 unit, no other quota, the reset palette and PARITY 0 (Tables 11-1, 15-9). -/
def newCtx (p : PacketBits) : Context :=
  { state := .out, cls := pktField p 8 1, domains := pktField p 9 1, slicePct := pktField p 10 1, waitFrames := pktField p 12 2
    runFrames := pktField p 14 2, quotaT1 := 1 }

def ctxCreateCmd (c : Cmd) (s : State) : State :=
  if ctxDefined s (pktCtx c.pkt) then complete c.tag (stInvalidField 2 0) s
  else complete c.tag (stSuccess 0 0 0) (setCtx (pktCtx c.pkt) (newCtx c.pkt) s)

/-- CTX_CREATE: the context must be FREE; it is OUT (R319). -/
def execCtxCreate (tag : Nat) (s : State) : Host.Outcome State Fault Refusal := unitOp true (onCmd 0x20 tag anyPkt ctxCreateCmd s)

/-! ### CTX_DESTROY (0x21) -/

/-- The last of the context goes: objects, their numbers, reads and imports for them; it is FREE. -/
def finishDestroy (n : Nat) (s : State) : State :=
  let nos := ((objsOf s n).filter (fun p => p.2.kind != .scratch)).map (fun (p : Nat × Obj) => p.2.objNo)
  setCtx n {} (pruneFlight { s with
    objs := s.objs.filter (fun p => objCtx p.1 != n)
    flash := { s.flash with objNos := s.flash.objNos.filter (fun k => !nos.contains k) }
    ring := { s.ring with imports := s.ring.imports.filter (fun i => objCtx i.obj != n) } })

/-- The context's buckets fail as on a context fault, and their tags are FREE (Table 13-9). -/
def freeTagsOf (n : Nat) (s : State) : State :=
  ((s.red.tags.filter (fun t => t.2.state != .free && t.2.ctx = n)).map (fun (t : Nat × RedTag) => t.1)).foldl
    (fun s t => freeTag t (failTag t 11 s)) s

/-- The deletion of every object, and CTX_DESTROY completes, once its tombstones are programmed where it needs any (Table 11-6). A tombstone
needs a module that can write (R271, log entry 28). -/
def destroyObjects (c : Cmd) (s : State) : State :=
  let n := pktCtx c.pkt
  let s := updObjs n (fun _ o => { o with copy := none, redTags := [] }) (dropReads (fun r => match r.why with
    | .fill o _ _ => objCtx o = n
    | _ => false) s)
  let homes := (objsOf s n).filter (fun p => p.2.kind != .scratch)
  if s.flash.readOnly then complete c.tag stProgramFail (finishDestroy n s)
  else if homes.isEmpty then complete c.tag (stSuccess 0 0 0) (finishDestroy n s)
  else keepRunning c homes.length (homes.foldl (fun s p => enqTombstone c.tag n p.1 (p.2.objNo % 32) [(p.2.objNo * 2 ^ 24, 0)] s) s)

/-- Steps 4, 5 and 7 of R340: the context is wiped, and the swap engine zeroes its save area before the objects go (Table 11-6). -/
def destroyNow (c : Cmd) (s : State) : State :=
  let n := pktCtx c.pkt
  let s := breakConns n (freeTagsOf n (dropQueries (fun q => q.ctx = n) (endRun n s)))
  let s := updCtx n (fun x => { wipedCtx x with alloc := [] }) (dropScratch n s)
  updCmd c.tag (fun d => { d with phase := .running, extra := 1 })
    { s with swaps := s.swaps.filter (fun o => o.ctx != n) ++ [{ ctx := n, domain := 0, swapIn := false, wipe := true }] }

/-- Commands of a context that its destruction waits for. -/
def destroyWaits (s : State) (c : Cmd) : Bool :=
  s.host.cmds.any (fun d => d.tag != c.tag && pktOpcode d.pkt != 0x07 && pktCtx d.pkt = pktCtx c.pkt)

/-- End the commands of the context as ABORT would; what ABORT does not end completes first (R342). -/
def tryDestroy (c : Cmd) (s : State) : State :=
  let s := (abortList 2 c.tag (s.host.cmds.filter (fun d => d.tag != c.tag && pktCtx d.pkt = pktCtx c.pkt)) s).1
  if destroyWaits s c then updCmd c.tag (fun d => { d with phase := .ready }) s else destroyNow c s

/-- CTX_DESTROY: the context's commands end, its state is wiped and its objects are deleted (R342, Table 11-6). -/
def execCtxDestroy (tag : Nat) (s : State) : Host.Outcome State Fault Refusal := unitOp true (onCmd 0x21 tag anyPkt tryDestroy s)

/-! ### CTX_QUOTA (0x22) -/

def quotaMask (p : PacketBits) (i : Nat) : Bool := bitOf (pktField p 9 1) i
def newT2 (p : PacketBits) : Nat := pktField p 12 4
def newT3 (p : PacketBits) : Nat := pktField p 16 8

/-- T2 quotas of the other contexts. -/
def otherT2 (s : State) (n : Nat) : Nat :=
  ((s.ctxs.filter (fun p => p.1 != n && p.2.state != .free)).map (fun (p : Nat × Context) => p.2.quotaT2)).foldl (· + ·) 0

/-- A limit on the sum of Table 7-4 breaks, automatic eviction cannot reach a lowered T2 quota, or a lowered T3 or T4 quota is below what is
charged (R215, R217; log entry 94). -/
def quotaBad (s : State) (p : PacketBits) : Bool :=
  let n := pktCtx p
  (quotaMask p 1 && usableT2 s < otherT2 s n + newT2 p) ||
  (quotaMask p 2 && userGranules s < quotaT3Sum s - (ctxOf s n).quotaT3 + newT3 p + s.flash.blockGranules) ||
  (quotaMask p 1 && (evictPick 0 (t2Use s n - newT2 p * 1048576) (evictable s n)).isNone) ||
  (quotaMask p 2 && newT3 p < t3Use s n) || (quotaMask p 3 && pktField p 24 4 < t4Use s n)

/-- The quotas of the packet take effect; a lowered T1 quota waits for the next swap-in of a context that is resident (R217). -/
def applyQuota (c : Cmd) (s : State) : State :=
  let p := c.pkt
  let n := pktCtx p
  if quotaBad s p then complete c.tag stQuota s
  else
    let ids := if quotaMask p 1 then (evictPick 0 (t2Use s n - newT2 p * 1048576) (evictable s n)).getD [] else []
    let s := countFor n { evictions := ids.length } (ids.foldl (fun s id => dropCopyOf id s) s)
    let t1 := pktField p 8 1
    complete c.tag (stSuccess 0 0 0) (updCtx n (fun x =>
      let later := quotaMask p 0 && t1 < x.quotaT1 && isResident x
      { x with
        quotaT1 := if quotaMask p 0 && !later then t1 else x.quotaT1
        lowerT1 := if quotaMask p 0 then (if later then some t1 else none) else x.lowerT1
        quotaT2 := if quotaMask p 1 then newT2 p else x.quotaT2
        quotaT3 := if quotaMask p 2 then newT3 p else x.quotaT3
        quotaT4 := if quotaMask p 3 then pktField p 24 4 else x.quotaT4 }) s)

def ctxQuotaCmd (c : Cmd) (s : State) : State :=
  if !ctxDefined s (pktCtx c.pkt) then complete c.tag (stInvalidField 2 0) s
  else if quotaBad s c.pkt then complete c.tag stQuota s
  else awaitTick c 0 s

/-- CTX_QUOTA: checked now, in effect from the next update point (R217). -/
def execCtxQuota (tag : Nat) (s : State) : Host.Outcome State Fault Refusal := unitOp true (onCmd 0x22 tag anyPkt ctxQuotaCmd s)

/-! ### PROG_LOAD (0x23), CTX_FALLBACK (0x24) -/

/-- An object of the loading context (R204). -/
def ownObject (s : State) (n id : Nat) : Bool := objCtx id = n && (objOf s id).isSome

/-- A slot of a sketch image: pinned in T2, and at level 2 where it has a binding (R232). -/
def sketchObject (s : State) (n id : Nat) : Bool :=
  objCtx id = n && (objOf s id).any (fun o => 1 ≤ o.pin && (o.binding.isNone || o.pin = 2))

/-- The image needs a unit or clusters that the part has not (R7, R8). -/
def needsAbsent (s : State) (h : Header) : Bool := clustersPresent s < h.clusters || (bitOf h.flags 0 && !hasReduction s)

/-- Header fields of a main image that the context forbids: CLUSTERS against DOMAINS and both counts against the declared sketch path (R231,
R320). CLUSTERS beyond the clusters present is no field error (R22). -/
def mainImageErr (s : State) (n : Nat) (b : List Byte) : List Nat :=
  let h := headerOf b
  let x := ctxOf s n
  errIf (h.clusters ≤ clustersPresent s &&
    (clustersOfDomains s x.domains < h.clusters || x.sketch.any (fun d => h.clusters < d.prog.clusters))) 10 ++
  errIf (x.sketch.any (fun d => 100 - d.cores < h.cores)) 12

/-- The image is whole: the context has work for the plan of the command's acceptance (R50). -/
def imageReady (c : Cmd) (s : State) : State :=
  wakeCtx (pktCtx c.pkt) (updCmd c.tag (fun d => { d with phase := .ready }) s)

/-- Every check of PROG_LOAD, in the order of R523: none where the image may be loaded. -/
def progLoadErr (s : State) (c : Cmd) : Option Status :=
  let n := pktCtx c.pkt
  let b := cmdData c
  if !ctxDefined s n then some (stInvalidField 2 0)
  else
    match firstErr (imageErrs { pairs := portPairs s, slotOk := ownObject s n, sketch := false } b b.length ++ mainImageErr s n b) with
    | some o => some (stInvalidField o 1)
    | none => if needsAbsent s (headerOf b) then some stUnsupported else none

def progLoadCmd (c : Cmd) (s : State) : State :=
  match progLoadErr s c with
  | some st => settleCtx (pktCtx c.pkt) (complete c.tag st s)
  | none => imageReady c s

/-- PROG_LOAD: the whole image is checked; the load runs as an execution command (R109, R204, R231, R320, R338). -/
def execProgLoad (tag : Nat) (s : State) : Host.Outcome State Fault Refusal := unitOp true (onCmd 0x23 tag anyPkt progLoadCmd s)

/-- Checks of the packet of a CTX_FALLBACK: a main image, and SKETCH_CORES against it and against the sketch image (R231). The packet counts
before the image (R19). -/
def sketchPacketErr (s : State) (n cores : Nat) (b : List Byte) : Option Status :=
  match (ctxOf s n).prog with
  | none => some (stInvalidField 2 0)
  | some p => if 100 - cores < p.cores || cores < (headerOf b).cores then some (stInvalidField 8 0) else none

/-- Header fields of a sketch image that the main image forbids (R231). -/
def sketchImageErr (s : State) (n : Nat) (b : List Byte) : List Nat :=
  errIf ((headerOf b).clusters ≤ clustersPresent s && (ctxOf s n).prog.any (fun p => p.clusters < (headerOf b).clusters)) 10

/-- CLEAR: the sketch path goes. -/
def fallbackClears (c : Cmd) : Bool := bitOf (pktField c.pkt 9 1) 0

/-- Every check of CTX_FALLBACK. -/
def fallbackErr (s : State) (c : Cmd) : Option Status :=
  let n := pktCtx c.pkt
  let b := cmdData c
  if !ctxDefined s n then some (stInvalidField 2 0)
  else if fallbackClears c then none
  else
    match sketchPacketErr s n (pktField c.pkt 8 1) b with
    | some st => some st
    | none =>
      match firstErr (imageErrs { pairs := portPairs s, slotOk := sketchObject s n, sketch := true } b b.length ++ sketchImageErr s n b) with
      | some o => some (stInvalidField o 1)
      | none => if needsAbsent s (headerOf b) then some stUnsupported else none

def fallbackCmd (c : Cmd) (s : State) : State :=
  match fallbackErr s c with
  | some st => settleCtx (pktCtx c.pkt) (complete c.tag st s)
  | none => imageReady c s

/-- CTX_FALLBACK: declares the sketch path, or clears it (R231, R232). -/
def execCtxFallback (tag : Nat) (s : State) : Host.Outcome State Fault Refusal := unitOp true (onCmd 0x24 tag anyPkt fallbackCmd s)

end Sys2Proof.Machine
end

