-- ==== Sys2Proof/Machine/Objects.lean ====
section
/-! DEFINITION. Object commands (R202-R214, R218, R220, R255, R417, Table 15-10), and what those that wait for an update point do there. -/

namespace Sys2Proof.Machine

/-! ### Order (R417) -/

/-- The command has not taken effect, or still reads what it names. -/
def unsettled (d : Cmd) : Bool :=
  d.phase = .waiting || d.phase = .released || (d.phase = .running && (pktOpcode d.pkt = 0x33 || isQuery (pktOpcode d.pkt)))

/-- OBJ_WRITE, OBJ_EVICT and OBJ_DELETE take effect at update points, in acceptance order there. -/
def atUpdate (c : Cmd) : Bool := [0x32, 0x35, 0x36].contains (pktOpcode c.pkt)

/-- An earlier command on the same object goes first. -/
def objBlocked (s : State) (c : Cmd) : Bool :=
  (olderCmds s c.tag).any (fun d => (isObject (pktOpcode d.pkt) || isQuery (pktOpcode d.pkt)) && cmdObj d = cmdObj c &&
    (unsettled d || (d.phase = .ready && !atUpdate c)))

/-- Run a meaning on the object a command names; a context or object that does not exist makes the packet invalid (R416). -/
def onObj (op tag : Nat) (f : Cmd → Obj → State → State) (s : State) : State :=
  onCmd op tag anyPkt (fun c s =>
    if objBlocked s c then s
    else if !ctxDefined s (pktCtx c.pkt) then complete c.tag (stInvalidField 2 0) s
    else
      match objOf s (cmdObj c) with
      | none => complete c.tag (stInvalidField 8 0) s
      | some o => f c o s) s

/-! ### OBJ_CREATE (0x30) -/

/-- The least object number not in use: SCRATCH objects have one as well (R250). -/
def freeObjNo (s : State) : Nat := ((List.range (s.flash.objNos.length + 1)).find? (fun k => !s.flash.objNos.contains k)).getD 0

def packetKind (p : PacketBits) : ObjKind :=
  match pktField p 14 1 with
  | 0 => .persistent
  | 1 => .scratch
  | _ => .import_

/-- The object a packet creates. -/
def newObj (p : PacketBits) (no : Nat) : Obj :=
  let imp := pktField p 14 1 = 2
  { kind := packetKind p, size := pktField p 16 8, objNo := no, exported := bitOf (pktField p 15 1) 0
    ring := if imp then pktField p 24 1 else 0, peerContext := if imp then pktField p 26 2 else 0
    peerName := if imp then pktField p 28 6 else 0, peerUid := if imp then BitVec.ofNat 64 (pktField p 40 8) else 0 }

/-- A SCRATCH object is its zeroed T2 copy (R203). -/
def createScratch (c : Cmd) (o : Obj) (s : State) : State :=
  match makeRoom (pktCtx c.pkt) (roundUp o.size granuleBytes) s with
  | none => complete c.tag stQuota s
  | some s =>
    complete c.tag (stSuccess 0 0 0) { s with
      objs := mapPut (cmdObj c) { o with copy := some {}, wantT2 := true } s.objs
      flash := { s.flash with objNos := setAdd o.objNo s.flash.objNos } }

/-- A PERSISTENT or IMPORT object exists once its record is programmed (R255, R250). -/
def createHome (c : Cmd) (o : Obj) (s : State) : State :=
  if s.flash.readOnly then complete c.tag stProgramFail s
  else
    keepRunning c 1 (enqRecord c.tag (pktCtx c.pkt) (cmdObj c) o { s with
      objs := mapPut (cmdObj c) o s.objs, flash := { s.flash with objNos := setAdd o.objNo s.flash.objNos } })

def objCreateCmd (c : Cmd) (s : State) : State :=
  let n := pktCtx c.pkt
  let o := newObj c.pkt (freeObjNo s)
  if objBlocked s c then s
  else if !ctxDefined s n then complete c.tag (stInvalidField 2 0) s
  else if (objOf s (cmdObj c)).isSome then complete c.tag (stInvalidField 8 0) s
  else if 65536 ≤ (objsOf s n).length || 1048576 ≤ s.objs.length || 1048576 ≤ o.objNo then complete c.tag stObjectLimit s
  else
    match o.kind with
    | .scratch => createScratch c o s
    | .persistent => createHome c o s
    | .import_ => if (ctxOf s n).quotaT4 < t4Use s n + ceilDiv o.size 1048576 then complete c.tag stQuota s else createHome c o s

/-- OBJ_CREATE (R202, R203, R218, R250). -/
def execObjCreate (tag : Nat) (s : State) : Host.Outcome State Fault Refusal := unitOp true (onCmd 0x30 tag anyPkt objCreateCmd s)

/-! ### OBJ_PLACE (0x31) -/

/-- The placement would remove a copy that is pinned, or that the sketch path relies on, or a SCRATCH copy (R203, R220). -/
def placePinned (s : State) (id : Nat) (o : Obj) (flags : Nat) : Bool :=
  let clears := !bitOf flags 0
  let unbinds := (bitOf flags 1 || bitOf flags 2) && o.binding.isSome
  (clears && (o.kind = .scratch || (o.copy.isSome && 1 ≤ o.pin))) || (unbinds && o.pin = 2) ||
  ((sketchSlots (ctxOf s (objCtx id))).contains id && ((clears && o.copy.isSome) || unbinds))

/-- The placement is taken over: fills start at once, removals wait for the update point (R213). -/
def place (c : Cmd) (o : Obj) (s : State) : State :=
  let id := cmdObj c
  let flags := pktField c.pkt 14 1
  let t2 := bitOf flags 0
  let s := updCmd c.tag (fun d => { d with undo := some (o.wantT2, o.binding, o.pin) }) (keepRunning c 0 s)
  let s := updObj id (fun o => { o with
    wantT2 := t2
    binding := if bitOf flags 1 then some (packetBinding c.pkt) else o.binding
    dropBinding := if bitOf flags 1 then false else o.dropBinding || bitOf flags 2
    dropCopy := !t2 && o.copy.isSome
    fillTags := o.fillTags ++ [c.tag] }) s
  checkPlaced id (if t2 || bitOf flags 1 then startFill id false s else s)

def objPlaceCmd (c : Cmd) (o : Obj) (s : State) : State :=
  let id := cmdObj c
  let n := pktCtx c.pkt
  let flags := pktField c.pkt 14 1
  let b := packetBinding c.pkt
  match if bitOf flags 1 then firstErr (bindingErr s id o b) else none with
  | some e => complete c.tag (stInvalidField e 0) s
  | none =>
    if bitOf flags 1 && t1Size s n < b.t1Addr + pieceSpan b 0 then complete c.tag stQuota s
    else if placePinned s id o flags then complete c.tag stPinned s
    else if (bitOf flags 0 || bitOf flags 1) && o.copy.isNone && (makeRoom n (roundUp o.size granuleBytes) s).isNone then
      complete c.tag stQuota s
    else place c o s

/-- OBJ_PLACE (R211-R213, R218). -/
def execObjPlace (tag : Nat) (s : State) : Host.Outcome State Fault Refusal := unitOp true (onObj 0x31 tag objPlaceCmd s)

/-! ### OBJ_WRITE (0x32) -/

/-- Granules of a context that queued programs will map. -/
def queuedNew (s : State) (n : Nat) : List Nat :=
  (s.flash.progQ.flatMap (fun o => if o.ctx = n && (o.kind = .write || o.kind = .units) then o.ver.slots.map (·.lga) else [])).dedup.filter
    (fun l => noMedia s l)

/-- Granules that a write of these bytes would map. -/
def newGranules (s : State) (o : Obj) (off len : Nat) : Nat :=
  ((segsOf off len).filter (fun g => noMedia s (objLga o g.1) && !writing s (objLga o g.1))).length

/-- The write would take its context past the T3 quota (R218). -/
def t3Bad (s : State) (n : Nat) (o : Obj) (off len : Nat) : Bool :=
  newGranules s o off len != 0 && (ctxOf s n).quotaT3 < t3Use s n + (queuedNew s n).length + newGranules s o off len

def objWriteCmd (c : Cmd) (o : Obj) (s : State) : State :=
  let off := pktField c.pkt 16 8
  let len := pktBufLen c.pkt
  if o.kind = .import_ then complete c.tag (stInvalidField 8 0) s
  else if o.size < off + len then complete c.tag (stInvalidField 16 0) s
  else if o.kind = .persistent && s.flash.readOnly then complete c.tag stProgramFail s
  else if o.kind = .persistent && t3Bad s (pktCtx c.pkt) o off len then complete c.tag stQuota s
  else awaitTick c 0 s

/-- OBJ_WRITE: checked now, written at the first update point (R207). -/
def execObjWrite (tag : Nat) (s : State) : Host.Outcome State Fault Refusal := unitOp true (onObj 0x32 tag objWriteCmd s)

/-- Write any bytes of a T2 copy; a code word that is poisoned and not wholly written stays as it is (R305, R307). -/
def patchCopy (m : Store) (a : Nat) (bs : List Byte) : Store :=
  let x := storeWrite 64 m a bs
  x.poison.foldl (fun y p => { y with cells := cellsWrite y.cells (p * 64) (storeRead m (p * 64) 64) }) x

/-- Code words that a write covers only in part: the writer reads them first (R307). -/
def edgeWords (a n : Nat) : List Nat :=
  if n = 0 then [] else ([a / 64, (a + n - 1) / 64].dedup).filter (fun w => !(a ≤ w * 64 && w * 64 + 64 ≤ a + n))

/-- Host DMA reads the words of a copy that it must change in part (R307, R308). -/
def meetEdges (id a n : Nat) (s : State) : State := (edgeWords a n).foldl (fun s w => meetT2 srcHost id (w * 64) 64 s) s

/-- Of those words, the ones that are poisoned: they are not written (R307). -/
def edgeBad (s : State) (id a n : Nat) : List Nat :=
  (edgeWords a n).filter (fun w => (objOf s id).any (fun o => o.copy.any (fun m => m.data.poison.contains w)))

/-- Status of a write into a copy: a bus error of a partly written word ends it with MEDIA_ERROR (log entry 111). -/
def edgeStatus (a : Nat) (bad : List Nat) : Option Status :=
  match bad with
  | [] => none
  | w :: _ => some (stMediaError ((w * 64 - a) % 2 ^ 32) bad.length)

/-- The update point of an OBJ_WRITE: the copy, where there is one, and the home (R207); a write that is refused changes neither (R218,
R271). -/
def applyWrite (c : Cmd) (s : State) : State :=
  let id := cmdObj c
  let off := pktField c.pkt 16 8
  match objOf s id with
  | none => complete c.tag (stInvalidField 8 0) s
  | some o =>
    let bs := cmdData c
    if o.kind = .persistent && t3Bad s (pktCtx c.pkt) o off bs.length then complete c.tag stQuota s
    else if o.kind = .persistent && s.flash.readOnly then complete c.tag stProgramFail s
    else
      let s := meetEdges id off bs.length s
      let st := edgeStatus off (edgeBad s id off bs.length)
      let s := updObj id (fun o => { o with copy := o.copy.map (fun m => { m with data := patchCopy m.data off bs }) }) s
      if o.kind = .scratch then complete c.tag (st.getD (stSuccess 0 0 0)) s
      else
        let s := updCmd c.tag (fun d => { d with result := st }) (writeHome c.tag (pktCtx c.pkt) id (objLga o) off bs s)
        keepRunning c (progsOf s c.tag) s

/-! ### OBJ_READ (0x33) -/

/-- Granules of a host read that the copy cannot give and the home may: missing ones, and poisoned ones that can be recovered (R312). -/
def fromHome (s : State) (o : Obj) (m : T2Copy) (gs : List Nat) : List Nat :=
  gs.filter (fun g => m.missing.contains g || ((badGranules m).contains g && !unrecoverable s o m g))

def objReadCmd (c : Cmd) (o : Obj) (s : State) : State :=
  let off := pktField c.pkt 16 8
  if o.size < off + pktBufLen c.pkt then complete c.tag (stInvalidField 16 0) s
  else
    match o.copy with
    | some _ =>
      let s := meetT2 srcHost (cmdObj c) off (pktBufLen c.pkt) s
      let m := ((objOf s (cmdObj c)).bind (·.copy)).getD {}
      startHostRead c (fromHome s o m (readGranules c)) { m.data with raw := [] } s
    | none => startHostRead c (readGranules c) {} s

/-- OBJ_READ: the T2 copy where one exists, else the home (R208, R312). -/
def execObjRead (tag : Nat) (s : State) : Host.Outcome State Fault Refusal := unitOp true (onObj 0x33 tag objReadCmd s)

/-! ### OBJ_PIN (0x34) -/

def objPinCmd (c : Cmd) (o : Obj) (s : State) : State :=
  let id := cmdObj c
  let level := pktField c.pkt 14 1
  if (1 ≤ level && !o.wantT2) || (level = 2 && (o.binding.isNone || o.dropBinding)) then complete c.tag (stInvalidField 14 0) s
  else if level < o.pin && ((sketchSlots (ctxOf s (objCtx id))).contains id || !o.redTags.isEmpty) then complete c.tag stPinned s
  else if 1 ≤ level && o.copy.isNone && (makeRoom (pktCtx c.pkt) (roundUp o.size granuleBytes) s).isNone then complete c.tag stQuota s
  else
    let s := updCmd c.tag (fun d => { d with undo := some (o.wantT2, o.binding, o.pin) }) (keepRunning c 0 s)
    let s := updObj id (fun o => { o with pin := level, fillTags := o.fillTags ++ [c.tag] }) s
    checkPlaced id (if 1 ≤ level then startFill id false s else s)

/-- OBJ_PIN (R220, R232). -/
def execObjPin (tag : Nat) (s : State) : Host.Outcome State Fault Refusal := unitOp true (onObj 0x34 tag objPinCmd s)

/-! ### OBJ_EVICT (0x35) -/

/-- The eviction names a copy that is pinned or protected (R203, R220, R232, Table 13-9). -/
def evictPinned (s : State) (id : Nat) (o : Obj) (flags : Nat) : Bool :=
  (bitOf flags 0 && (o.kind = .scratch || 1 ≤ o.pin)) || (bitOf flags 1 && o.pin = 2) ||
  ((sketchSlots (ctxOf s (objCtx id))).contains id && (bitOf flags 0 || bitOf flags 1)) || !o.redTags.isEmpty

/-- The copy has to be programmed: WRITEBACK of a DIRTY copy. -/
def writesBack (o : Obj) (flags : Nat) : Bool := bitOf flags 2 && o.kind = .persistent && o.copy.any (·.dirty)

/-- Granules of a copy that a writeback programs: those that are whole and not poisoned (R209). -/
def backGranules (o : Obj) : List Nat :=
  match o.copy with
  | none => []
  | some m => (List.range (granules o)).filter (fun g => !(badGranules m).contains g && !m.missing.contains g)

/-- The writeback would take its context past the T3 quota, which no cause may (R215). -/
def backBad (s : State) (n : Nat) (o : Obj) : Bool :=
  let k := ((backGranules o).filter (fun g => noMedia s (objLga o g) && !writing s (objLga o g))).length
  k != 0 && (ctxOf s n).quotaT3 < t3Use s n + (queuedNew s n).length + k

/-- Why an eviction that writes back is refused. -/
def backErr (s : State) (n : Nat) (o : Obj) (flags : Nat) : Option Status :=
  if !writesBack o flags then none
  else if s.flash.readOnly then some stProgramFail
  else if backBad s n o then some stQuota
  else none

def objEvictCmd (c : Cmd) (o : Obj) (s : State) : State :=
  let flags := pktField c.pkt 14 1
  if evictPinned s (cmdObj c) o flags then complete c.tag stPinned s
  else
    match backErr s (pktCtx c.pkt) o flags with
    | some st => complete c.tag st s
    | none => awaitTick c 0 (updObj (cmdObj c) (fun o => { o with evict := some (c.tag, flags) }) s)

/-- OBJ_EVICT: in effect from the first update point (R205, R209). -/
def execObjEvict (tag : Nat) (s : State) : Host.Outcome State Fault Refusal := unitOp true (onObj 0x35 tag objEvictCmd s)

/-- The T2 copy stays: KEEP, or an eviction that does not name it. -/
def evictKeeps (flags : Nat) : Bool := bitOf flags 3 || !bitOf flags 0

/-- Status of a writeback that skips poisoned granules (R209). -/
def writebackStatus (bad : List Nat) : Status :=
  match bad with
  | [] => stSuccess 0 0 0
  | g :: _ => stMediaError (g * granuleBytes % 2 ^ 32) bad.length

/-- Program the granules of a copy. -/
def writeback (c : Cmd) (o : Obj) (m : T2Copy) (s : State) : State :=
  (backGranules o).foldl
    (fun s g => enqGranule c.tag (pktCtx c.pkt) (cmdObj c) (objLga o g) (storeSub 64 { m.data with poison := [] } (g * granuleBytes) granuleBytes) s) s

/-- The T1 copies of an object are no longer resident. -/
def evictT1 (o : Obj) : Obj := { o with binding := o.binding.map (fun b => { b with filled := false }) }

/-- No run of the context is in progress (R205). -/
def atPoint (s : State) (n : Nat) : Bool := (ctxOf s n).run.isNone

/-- The T2 copy leaves, or with KEEP, or a pin set since, is CLEAN unless a granule was skipped or a program has changed it since it was programmed (R209, log
entry 109). -/
def dropEvicted (c : Cmd) (flags : Nat) (good : Bool) (o : Obj) : Obj :=
  { o with evict := none, copy := if evictKeeps flags || 1 ≤ o.pin then o.copy.map (fun m => { m with dirty := m.dirty && !(good && m.data.cells = c.home.cells) }) else none }

/-- The programs of a writeback have passed. A copy that is to leave leaves now, or at the first update point at which no run and no hold
keeps it (R205, R221). -/
def finishEvict (c : Cmd) (s : State) : State :=
  let id := cmdObj c
  let flags := pktField c.pkt 14 1
  match objOf s id, c.result with
  | some o, some st =>
    if evictKeeps flags || 1 ≤ o.pin || (atPoint s (pktCtx c.pkt) && !heldNow s id o) then complete c.tag st (updObj id (dropEvicted c flags (st.cls = 0)) s)
    else updCmd c.tag (fun d => { d with moved := c.moved, left := 0, result := c.result }) s
  | _, _ => complete c.tag (stSuccess 0 0 0) s

/-- The update point of an OBJ_EVICT: copies go; a DIRTY copy to be written back stays DIRTY until its programs have passed (R205, R209). -/
def applyEvict (c : Cmd) (s : State) : State :=
  let id := cmdObj c
  let flags := pktField c.pkt 14 1
  let refuse (st : Status) : State := complete c.tag st (updObj id (fun o => { o with evict := none }) s)
  match objOf s id with
  | none => complete c.tag (stInvalidField 8 0) s
  | some o =>
    if evictPinned s id o flags || heldNow s id o then refuse stPinned
    else
      match backErr s (pktCtx c.pkt) o flags with
      | some st => refuse st
      | none =>
        let s1 := updObj id (fun o => if bitOf flags 1 then evictT1 o else o) s
        match writesBack o flags, o.copy with
        | true, some m =>
          let s2 := writeback c o m s1
          let k := progsOf s2 c.tag
          let d := { c with home := m.data, result := some (writebackStatus (sortBy (fun a b => a < b) (badGranules m))), phase := .running, left := k }
          let s3 := updCmd c.tag (fun _ => d) s2
          if k = 0 then finishEvict d s3 else s3
        | _, _ => complete c.tag (stSuccess 0 0 0) (updObj id (fun o =>
            { o with evict := none, copy := if evictKeeps flags then o.copy else none }) s1)

/-! ### OBJ_DELETE (0x36) -/

/-- The sketch path or a reduction tag protects the object (R232, Table 13-9). -/
def deletePinned (s : State) (id : Nat) (o : Obj) : Bool := (sketchSlots (ctxOf s (objCtx id))).contains id || !o.redTags.isEmpty

def objDeleteCmd (c : Cmd) (o : Obj) (s : State) : State :=
  if deletePinned s (cmdObj c) o then complete c.tag stPinned s
  else if o.kind != .scratch && s.flash.readOnly then complete c.tag stProgramFail s
  else awaitTick c 0 (updObj (cmdObj c) (fun o => { o with deleting := some c.tag }) s)

/-- OBJ_DELETE: in effect from the first update point by which earlier commands on the object have completed (R205, R417). -/
def execObjDelete (tag : Nat) (s : State) : Host.Outcome State Fault Refusal := unitOp true (onObj 0x36 tag objDeleteCmd s)

/-- Commands accepted before on the same object are not complete. -/
def deleteWaits (s : State) (c : Cmd) : Bool :=
  (olderCmds s c.tag).any (fun d => (isObject (pktOpcode d.pkt) || isQuery (pktOpcode d.pkt)) && cmdObj d = cmdObj c)

/-- The slots that name an object dangle: identifier 0 names none (R204). -/
def dangle (id : Nat) (p : Program) : Program := { p with slots := p.slots.map (fun i => if i = id then 0 else i) }

/-- The object leaves: its slots dangle, its reads and copies go. -/
def removeObj (id : Nat) (s : State) : State :=
  pruneFlight (updCtx (objCtx id) (fun c => { c with
      prog := c.prog.map (dangle id), sketch := c.sketch.map (fun d => { d with prog := dangle id d.prog }) })
    { (dropReads (readsObj id) s) with
      objs := mapDel id s.objs
      ring := { s.ring with imports := s.ring.imports.filter (fun i => i.obj != id) } })

/-- The update point of an OBJ_DELETE: a tombstone for an object with a home (R255). -/
def applyDelete (c : Cmd) (s : State) : State :=
  let id := cmdObj c
  match objOf s id with
  | none => complete c.tag (stInvalidField 8 0) s
  | some o =>
    if deleteWaits s c then s
    else if deletePinned s id o then complete c.tag stPinned (updObj id (fun o => { o with deleting := none }) s)
    else if o.kind = .scratch then
      complete c.tag (stSuccess 0 0 0) { (removeObj id s) with flash := { (removeObj id s).flash with
        objNos := (removeObj id s).flash.objNos.filter (· != o.objNo) } }
    else if s.flash.readOnly then complete c.tag stProgramFail (updObj id (fun o => { o with deleting := none }) s)
    else
      keepRunning c 1 (updCmd c.tag (fun d => { d with extra := o.objNo })
        (enqTombstone c.tag (pktCtx c.pkt) id (o.objNo % 32) [(o.objNo * 2 ^ 24, 0)] (removeObj id s)))

end Sys2Proof.Machine
end

