-- ==== Sys2Proof/Machine/Batches.lean ====
section
/-! DEFINITION. Execution commands (R381, R384, R423-R425, Table 15-11), and what a tick does to start them (R110, R338). -/

namespace Sys2Proof.Machine

/-! ### Input (R423) -/

/-- Object of a slot of the main image. -/
def mainSlot (s : State) (n i : Nat) : Option Nat := (ctxOf s n).prog.bind (fun p => slotObj s p i)

/-- A slot object may take or give `len` bytes: SCRATCH or pinned, and large enough. -/
def ioOk (s : State) (n i len : Nat) : Bool :=
  (mainSlot s n i).any (fun id => (objOf s id).any (fun o => (o.kind = .scratch || 1 ≤ o.pin) && len ≤ o.size))

/-- The copy would change part of a poisoned code word of the slot-0 object: it is not written, and the command fails (R307, log entry 111). -/
def inputBad (s : State) (n len : Nat) : Option Status := (mainSlot s n 0).bind (fun id => edgeStatus 0 (edgeBad s id 0 len))

/-- Host DMA reads the words of the slot-0 object that it changes in part. -/
def meetInput (n len : Nat) (s : State) : State :=
  match mainSlot s n 0 with
  | none => s
  | some id => meetEdges id 0 len s

/-- Copy the input to offset 0 of the slot-0 object. -/
def copyInput (n : Nat) (bs : List Byte) (s : State) : State :=
  match mainSlot s n 0 with
  | none => s
  | some id => engineWrite id 0 bs.length (fun m => patchCopy m 0 bs) s

/-- The command joins a plan: that of its acceptance, or with input the first that closes after the copy has landed (R50, R423). -/
def joinPlan (c : Cmd) (plan : Nat) (s : State) : State :=
  wakeCtx (pktCtx c.pkt) (updCmd c.tag (fun d => { d with phase := .ready, plan := plan }) s)

/-- An execution command is refused at its unit; its context may be left without work (Table 11-2). -/
def refuseExec (c : Cmd) (st : Status) (s : State) : State := settleCtx (pktCtx c.pkt) (complete c.tag st s)

/-- Release of an execution command with input: its checks, then the copy. `free` says that the units it needs are available (R523). -/
def takeInput (c : Cmd) (free : Bool) (inLen outLen inOff outOff : Nat) (s : State) : State :=
  let n := pktCtx c.pkt
  if (ctxOf s n).prog.isNone then refuseExec c (stInvalidField 2 0) s
  else if inLen != 0 && !ioOk s n 0 inLen then refuseExec c (stInvalidField inOff 0) s
  else if outLen != 0 && !ioOk s n 1 outLen then refuseExec c (stInvalidField outOff 0) s
  else if !free then refuseExec c stUnitUnavailable s
  else if inLen = 0 then joinPlan c c.plan s
  else
    let s := meetInput n inLen s
    let t := copyInput n ((cmdData c).take inLen) s
    match inputBad s n inLen with
    | some st => refuseExec c st t
    | none => joinPlan c (max c.plan (planNow s)) t

def batchCmd (c : Cmd) (s : State) : State := takeInput c true (pktField c.pkt 12 4) (pktField c.pkt 20 4) 12 20 s

/-- BATCH_SUBMIT without PIPE (R423, R424). -/
def execBatchSubmit (tag : Nat) (s : State) : Host.Outcome State Fault Refusal :=
  unitOp true (onCmd 0x40 tag (fun p => !pktPipe p) batchCmd s)

/-- BATCH_SUBMIT with PIPE: after its own run it waits for an answer line that names it (R425). -/
def execBatchSubmitPipe (tag : Nat) (s : State) : Host.Outcome State Fault Refusal := unitOp true (onCmd 0x40 tag pktPipe batchCmd s)

def stepRunCmd (c : Cmd) (s : State) : State :=
  takeInput c s.red.available (pktField c.pkt 16 4) 0 16 16 s

/-- STEP_RUN (R381). -/
def execStepRun (tag : Nat) (s : State) : Host.Outcome State Fault Refusal := unitOp true (onCmd 0x41 tag anyPkt stepRunCmd s)

def stepVoidCmd (c : Cmd) (s : State) : State :=
  if !ctxDefined s (pktCtx c.pkt) then complete c.tag (stInvalidField 2 0) s else awaitTick c 0 s

/-- STEP_VOID: acts at the next frame boundary (R384). -/
def execStepVoid (tag : Nat) (s : State) : Host.Outcome State Fault Refusal := unitOp true (onCmd 0x42 tag anyPkt stepVoidCmd s)

/-- What STEP_VOID does at the boundary: void the running step, revoke the last committed one, or nothing (R384). -/
def applyStepVoid (c : Cmd) (s : State) : State :=
  let n := pktCtx c.pkt
  let k := pktField c.pkt 8 4
  match (ctxOf s n).steps.find? (fun x => x.step = k), (ctxOf s n).lastStep with
  | some x, _ => complete c.tag (stSuccess 1 0 0) (settleCtx n (voidRun n 9 x s))
  | none, some (j, ids) =>
    if j = k then complete c.tag (stSuccess 2 0 0) (updCtx n (fun x => { x with lastStep := none }) (flipStep n ids s))
    else complete c.tag (stSuccess 0 0 0) s
  | none, none => complete c.tag (stSuccess 0 0 0) s

/-! ### Loads (R110, R338, R362) -/

/-- Cores of a program just loaded: the initial T0 image, everything else zero. -/
def loadedCores (p : Program) : SMap Core :=
  (List.range (progCores p)).map (fun i => (i, { t0 := { cells := cellsOf p.dataAddr p.data } }))

/-- A PROG_LOAD runs: the image is in every allocated core; stream connections of the old image are broken. -/
def loadProg (c : Cmd) (s : State) : State :=
  match progLoadErr s c with
  | some st => complete c.tag st s
  | none =>
    let p := programOf (cmdData c)
    complete c.tag (stSuccess 0 0 0) (updCtx (pktCtx c.pkt) (fun x => { x with
      prog := some p, cores := loadedCores p, streamIn := none, streamPart := [] }) (breakConns (pktCtx c.pkt) s))

/-- A CTX_FALLBACK runs: the sketch path is declared, or cleared. -/
def loadSketch (c : Cmd) (s : State) : State :=
  match fallbackErr s c with
  | some st => complete c.tag st s
  | none =>
    let p := programOf (cmdData c)
    complete c.tag (stSuccess 0 0 0) (updCtx (pktCtx c.pkt) (fun x =>
      if fallbackClears c then { x with sketch := none, sketchCores := [] }
      else { x with sketch := some { prog := p, cores := pktField c.pkt 8 1 }, sketchCores := loadedCores p }) s)

/-! ### Starts (R111, R338, R381) -/

/-- A batch's run starts. -/
def startBatch (c : Cmd) (s : State) : State :=
  let frame := s.frame.counter.toNat
  let pipe := pktPipe c.pkt
  startRun (pktCtx c.pkt)
    { kind := if pipe then .pipe else .batch, tag := c.tag, startFrame := frame, seed := BitVec.ofNat 64 (pktField c.pkt 40 8)
      arg0 := BitVec.ofNat 64 (pktField c.pkt 24 8), arg1 := BitVec.ofNat 64 (pktField c.pkt 32 8), nreq := pktField c.pkt 8 2 }
    (updCmd c.tag (fun d => { d with phase := .running, extra := frame }) s)

/-- Buckets a step counts: OPEN or ARMED, of the context and of the step. -/
def stepTags (s : State) (n k : Nat) : List Nat :=
  (s.red.tags.filter (fun t => isOpenTag t.2 && t.2.ctx = n && t.2.step = k)).map (fun (t : Nat × RedTag) => t.1)

/-- A step's run starts: the bucket set is fixed, the step line written and F30 cleared; an empty set is REDUCED at once (R381, R382). -/
def startStep (c : Cmd) (s : State) : State :=
  let n := pktCtx c.pkt
  let k := pktField c.pkt 8 4
  let frame := s.frame.counter.toNat
  let tags := stepTags s n k
  let s := startRun n
    { kind := .step, tag := c.tag, startFrame := frame, seed := BitVec.ofNat 64 (pktField c.pkt 40 8)
      arg0 := BitVec.ofNat 64 (pktField c.pkt 24 8), arg1 := BitVec.ofNat 64 (pktField c.pkt 32 8) }
    (updCmd c.tag (fun d => { d with phase := .running, extra := frame }) s)
  let st : Step := { step := k, tag := c.tag, start := frame, redFrames := pktField c.pkt 12 2, tags := tags, resids := tagResids s tags }
  stepCheck n (writeStep n st false (updCtx n (fun x => { x with lastStep := none, steps := x.steps ++ [st] }) s))

/-- Start an execution command of the host. -/
def startExec (c : Cmd) (s : State) : State :=
  match pktOpcode c.pkt with
  | 0x23 => loadProg c s
  | 0x24 => loadSketch c s
  | 0x40 => startBatch c s
  | _ => startStep c s

end Sys2Proof.Machine
end

