-- ==== Sys2Proof/Machine/Blocks.lean ====
section
/-! DEFINITION. Block commands (R247, R255, R256, R417, Table 15-12). -/

namespace Sys2Proof.Machine

/-- First block and blocks a command names. -/
def blkSpan (c : Cmd) : Nat × Nat := (pktField c.pkt 16 8, pktField c.pkt 24 4)

def blkMeet (a b : Nat × Nat) : Bool := a.1 < b.1 + b.2 && b.1 < a.1 + a.2

/-- An earlier command on the same blocks goes first, unless both only read (R417). -/
def blkBlocked (s : State) (c : Cmd) : Bool :=
  (olderCmds s c.tag).any (fun d => [0x50, 0x51, 0x52].contains (pktOpcode d.pkt) && !(isBlkRead c && isBlkRead d) &&
    blkMeet (blkSpan d) (blkSpan c) && (d.phase = .waiting || d.phase = .released || (d.phase = .running && isBlkRead d)))

/-- Run a meaning on the blocks a command names; the range must still lie in the logical-block space. -/
def onBlk (op tag : Nat) (f : Cmd → State → State) (s : State) : State :=
  onCmd op tag anyPkt (fun c s =>
    if blkBlocked s c then s
    else
      match firstErr (blkErr s c.pkt) with
      | some e => complete c.tag (stInvalidField e 0) s
      | none => if op != 0x50 && s.flash.readOnly then complete c.tag stProgramFail s else f c s) s

/-- BLK_READ (R247, R251, R312). -/
def execBlkRead (tag : Nat) (s : State) : Host.Outcome State Fault Refusal := unitOp true (onBlk 0x50 tag (fun c s => startHostRead c (readGranules c) {} s) s)

def blkWriteCmd (c : Cmd) (s : State) : State :=
  let s := writeHome c.tag 0 0 blkLga ((blkSpan c).1 * 4096) ((cmdData c).take ((blkSpan c).2 * 4096)) s
  keepRunning c (progsOf s c.tag) s

/-- BLK_WRITE: complete when every granule and unit has passed program status (R256). -/
def execBlkWrite (tag : Nat) (s : State) : Host.Outcome State Fault Refusal := unitOp true (onBlk 0x51 tag blkWriteCmd s)

def blkTrimCmd (c : Cmd) (s : State) : State :=
  let g := (blkSpan c).1 / 16
  keepRunning c 1 (enqTombstone c.tag 0 0 (lgaChannel (blkLga g)) [(blkLga g, (blkSpan c).2 / 16)] s)

/-- BLK_TRIM: one tombstone over the granules (R255). -/
def execBlkTrim (tag : Nat) (s : State) : Host.Outcome State Fault Refusal := unitOp true (onBlk 0x52 tag blkTrimCmd s)

/-- BLK_FLUSH: completes at the first frame boundary by which every write accepted before it has completed (R256). -/
def execBlkFlush (tag : Nat) (s : State) : Host.Outcome State Fault Refusal :=
  unitOp true (onCmd 0x53 tag anyPkt (fun c s => awaitTick c 0 s) s)

/-- A write accepted before a BLK_FLUSH is not complete. -/
def flushWaits (s : State) (c : Cmd) : Bool :=
  (olderCmds s c.tag).any (fun d => [0x32, 0x51, 0x52].contains (pktOpcode d.pkt) || (pktOpcode d.pkt = 0x35 && bitOf (pktField d.pkt 14 1) 2))

end Sys2Proof.Machine
end

