-- ==== Sys2Proof/Machine/CoreArray.lean ====
section
/-! DEFINITION. Array instructions at issue: MMA, element-wise, CHAIN; their checks, the scoreboard and the array queue, and the
landing of results (R76, R81, R82, R86, R88, R126, R158, R166, R180). -/

namespace Sys2Proof.Machine

/-- Bank tags as the instructions in flight leave them. -/
def tagsAhead (k : Core) : List Nat :=
  (inFlight k).foldl (fun t o =>
    match o.ins with
    | .mma false f => tagBanks (mmaFp f) t f.bank.toNat (f.cnt1.toNat + 1)
    | .ew _ f => if f.dk = 0 then t else tagBanks f.itype t f.d.toNat (ceilDiv (f.len1.toNat + 1) 1024)
    | _ => t) k.fpTags

/-- A bank of the list does not carry the tag: fault ACC_TYPE (R86). -/
def tagBad (k : Core) (fp : Bool) (bs : List Nat) : List (Nat × Nat) :=
  if bs.any (fun b => (tagsAhead k).contains b != fp) then [(3, 0)] else []

/-- Enter an array instruction into the array: it streams at once, or waits in the queue's one place (R88); at duty 0 none starts (R479). -/
def enqueue (starts : Bool) (o : ArrayOp) (k : Core) : Core :=
  let o := { o with before := writingT0 k }
  if k.streaming.isNone && starts then { k with streaming := some o } else { k with queuedOp := some o }

/-- Issue an array instruction: a third one stalls (R88); `early` faults come before the scoreboard, `late` ones after it. -/
def issueArray (c : CoreRef) (o : ArrayOp) (gens : List (BitVec 2)) (stepG : Bool) (early : List (Nat × Nat)) (held : Bool)
    (late : List (Nat × Nat)) (s : State) : State :=
  let k := coreOf s c
  if k.queuedOp.isSome then s
  else faultOr c early (fun s =>
    if held then s else faultOr c late (fun s => retire c (enqueue (s.power.duty != 0) o (stepGens stepG gens k)) s) s) s

/-- T0 operands of an instruction touch lines a CHAIN in flight will write (R166). -/
def readsHeld (s : State) (c : CoreRef) (o : ArrayOp) : Bool :=
  (opReads o (chainsOf s c)).any (fun p => heldByWrites s c p.1 p.2)

/-! ### MMA -/

/-- An MMA is checked: A, then B, then the accumulator tags; the spec gives no order among program faults of one instruction (log entry
113). -/
def mmaCmd (acc : Bool) (c : CoreRef) (f : MmaF) (s : State) : State :=
  onIssue c (.mma acc f) (fun s =>
    let k := coreOf s c
    let o : ArrayOp := { ins := .mma acc f, a := genAddr k f.ga, b := genAddr k f.gb }
    let bs := (List.range (f.cnt1.toNat + 1)).map (fun i => f.bank.toNat + i)
    issueArray c o [f.ga, f.gb] f.stepG
      (operandBad o.a (mmaALen f) ++ operandBad o.b (mmaBLen f) ++ (if acc then tagBad k (mmaFp f) bs else []))
      (readsHeld s c o || (acc && banksHeld k false bs)) [] s) s

/-- MMA (0x60): a tile into the banks, overwriting (R78). -/
def execMma (c : CoreRef) (f : MmaF) (s : State) : Host.Outcome State Fault Refusal := unitOp (wfCore c) (mmaCmd false c f s)

/-- MMA.ACC (0x61): a tile accumulated into the banks (R79, R86). -/
def execMmaAcc (c : CoreRef) (f : MmaF) (s : State) : Host.Outcome State Fault Refusal := unitOp (wfCore c) (mmaCmd true c f s)

/-! ### Element-wise -/

/-- Generators an element-wise instruction uses. -/
def ewGens (f : EwF) : List (BitVec 2) :=
  (if f.s1k = 0 then [f.s1] else []) ++ (if f.s2k = 0 then [f.s2] else []) ++ (if f.dk = 0 then [f.d] else [])

/-- Banks its operands touch. -/
def ewBanks (f : EwF) : List Nat :=
  let n := ceilDiv (f.len1.toNat + 1) 1024
  (if f.s1k = 1 then (List.range n).map (fun i => f.s1.toNat + i) else []) ++
  (if f.s2k = 1 then (List.range n).map (fun i => f.s2.toNat + i) else [])

/-- A narrow end used through entry PAL has another format: fault PALETTE_FORMAT (R180, R195). -/
def ewPalBad (pal : SMap PalEntry) (op : EwOp) (f : EwF) : List (Nat × Nat) :=
  let fmt := palFmt (mapGet {} pal f.pal.toNat)
  let uses (t : Nat) : Bool := if f.itype then isNarrow t else t = 1
  if op != .scale && ((ewFromT0 f && uses f.tin.toNat && fmt != f.tin.toNat) || (ewToT0 f && uses f.tout.toNat && fmt != f.tout.toNat))
  then [(0xD, 0)] else []

/-- An element-wise instruction issues. Its KREG constant is read now and kept while it is queued or withdrawn (log entry 116). -/
def ewCmd (op : EwOp) (c : CoreRef) (f : EwF) (s : State) : State :=
  onIssue c (.ew op f) (fun s =>
    let k := coreOf s c
    let n := f.len1.toNat + 1
    let o : ArrayOp := { ins := .ew op f, a := if f.s1k = 0 then genAddr k f.s1 else 0, b := if f.s2k = 0 then genAddr k f.s2 else 0
                         x1 := if f.dk = 0 then genAddr k f.d else 0, konst := (readReg k f.kreg).setWidth 32 }
    issueArray c o (ewGens f) f.stepG
      ((if f.s1k = 0 then operandBad o.a (fmtBytes f.tin.toNat n) else []) ++ (if f.s2k = 0 then operandBad o.b (fmtBytes f.tin.toNat n) else []) ++
        (if f.dk = 0 then operandBad o.x1 (roundUp (fmtBytes f.tout.toNat n) 32) else []) ++
        ewPalBad (ctxOf s c.ctx).palette op f ++ tagBad k f.itype (ewBanks f))
      (readsHeld s c o || banksHeld k true (ewBanks f)) [] s) s

/-- Element-wise ADD (0x70) (R99, R127). -/
def execElementwiseAdd (c : CoreRef) (f : EwF) (s : State) : Host.Outcome State Fault Refusal := unitOp (wfCore c) (ewCmd .add c f s)

/-- Element-wise SUB (0x71). -/
def execElementwiseSub (c : CoreRef) (f : EwF) (s : State) : Host.Outcome State Fault Refusal := unitOp (wfCore c) (ewCmd .sub c f s)

/-- Element-wise MUL (0x72). -/
def execElementwiseMul (c : CoreRef) (f : EwF) (s : State) : Host.Outcome State Fault Refusal := unitOp (wfCore c) (ewCmd .mul c f s)

/-- Element-wise MAX (0x73). -/
def execElementwiseMax (c : CoreRef) (f : EwF) (s : State) : Host.Outcome State Fault Refusal := unitOp (wfCore c) (ewCmd .max c f s)

/-- Element-wise MIN (0x74). -/
def execElementwiseMin (c : CoreRef) (f : EwF) (s : State) : Host.Outcome State Fault Refusal := unitOp (wfCore c) (ewCmd .min c f s)

/-- SCALE (0x75): a × 2^(b + p) (R196). -/
def execScale (c : CoreRef) (f : EwF) (s : State) : Host.Outcome State Fault Refusal := unitOp (wfCore c) (ewCmd .scale c f s)

/-- CVT (0x76): conversion between formats (R197). -/
def execCvt (c : CoreRef) (f : EwF) (s : State) : Host.Outcome State Fault Refusal := unitOp (wfCore c) (ewCmd .cvt c f s)

/-! ### CHAIN -/

def chainGens (ch : Chain) (f : ChainF) : List (BitVec 2) :=
  [f.go] ++ (if ch.x1.shape = 0 then [] else [f.gx1]) ++ (if ch.x2.shape = 0 then [] else [f.gx2]) ++
  (if ch.xo.shape = 0 then [] else [f.gxo])

/-- Narrow formats a CHAIN uses through entries, as (format, entry), in the phases it runs: input streams and stages that round
through one (R154, R180); DEQ accepts any format and QUANT ROW uses no entry. -/
def chainPals (ch : Chain) (last : Bool) : List (Nat × Nat) :=
  (if streamRuns ch last 1 && isNarrow ch.x1.fmt then [(ch.x1.fmt, ch.x1.pal)] else []) ++
  (if streamRuns ch last 2 && isNarrow ch.x2.fmt then [(ch.x2.fmt, ch.x2.pal)] else []) ++
  ((preStages ch ++ if last then postStages ch else []).filter (fun g => isNarrow g.ifmt && !(g.typ = 9 && g.mode = 1))).map (fun g => (g.ifmt, g.pal))

/-- The row-set sequence is broken: fault CHAIN_SEQUENCE (R158). -/
def seqBad (v : Store) (ch : Chain) (f : ChainF) : Bool :=
  if (holdIdx ch).isSome then
    let h := holdHead v ch
    let col := if f.first then 0 else h.col
    let n := f.n1.toNat + 1
    (!f.first && (!h.isOpen || h.chain != f.chain.toNat || h.m1 != f.m1.toNat)) || ch.holdRows < f.m1.toNat + 1 ||
    ch.rowN < col + n || (f.last && col + n != ch.rowN)
  else false

/-- A CHAIN issues. With LAST 0 the streams and the main output of the post phase it does not run are checked at their base only, not over
their extent (log entry 119). -/
def chainCmd (c : CoreRef) (f : ChainF) (s : State) : State :=
  onIssue c (.chain f) (fun s =>
    match (chainsOf s c)[f.chain.toNat]? with
    | none => s
    | some ch =>
      let k := coreOf s c
      let o : ArrayOp := { ins := .chain f, a := genAddr k f.go, b := if ch.xo.shape = 0 then 0 else genAddr k f.gxo
                           x1 := if ch.x1.shape = 0 then 0 else genAddr k f.gx1, x2 := if ch.x2.shape = 0 then 0 else genAddr k f.gx2 }
      let bs := (List.range (f.cnt1.toNat + 1)).map (fun i => f.bank.toNat + i)
      let pal := (ctxOf s c.ctx).palette
      issueArray c o (chainGens ch f) f.stepG
        ((chainGens ch f).flatMap (fun g => operandBad (genAddr k g) 0) ++
          (opReads o (chainsOf s c) ++ opWrites o (chainsOf s c)).flatMap (fun p => operandBad p.1 p.2) ++
          (if (chainPals ch f.last).any (fun p => palFmt (mapGet {} pal p.2) != p.1) then [(0xD, 0)] else []) ++
          (if ch.source = 2 then [] else tagBad k (ch.source = 1) bs))
        (readsHeld s c o || (ch.source != 2 && banksHeld k true bs))
        (if seqBad (t0View s c) ch f then [(0xC, ch.holdAddr)] else []) s) s

/-- CHAIN (0x80): drain a tile through a fused chain (R140). -/
def execChain (c : CoreRef) (f : ChainF) (s : State) : Host.Outcome State Fault Refusal := unitOp (wfCore c) (chainCmd c f s)

/-- The streaming array instruction ends (R80, R81); a failed residue check is ARRAY_CHECK and puts the core offline (R97). -/
def execArrayResultLanded (c : CoreRef) (residueFail : Bool) (s : State) : Host.Outcome State Fault Refusal :=
  unitOp (wfCore c) (landArray c residueFail s)

end Sys2Proof.Machine
end

