-- ==== Sys2Proof/Machine/CoreSync.lean ====
section
/-! DEFINITION. MX core instructions of class 0x9: FENCE, barriers and flags (R129, R130). -/

namespace Sys2Proof.Machine

/-! ### Barriers -/

/-- Where the arrivals of a barrier stand: the cluster's, the context's, or the sketch run's. -/
def barrierKey (lc id : Nat) (cross : Bool) : Nat := if cross then 100000 + id else lc * 8 + id

/-- Cores that have arrived at the current use. -/
def arrivals (s : State) (r : CoreRef) (cross : Bool) (id : Nat) : List Nat :=
  let c := ctxOf s r.ctx
  if r.sketch then mapGet [] c.sketchBars (barrierKey (lclusterOf s r) id cross)
  else if cross then mapGet [] c.xbars id
  else mapGet [] (clusterOf s r.ctx (lclusterOf s r)).bars id

def setArrivals (r : CoreRef) (cross : Bool) (id : Nat) (l : List Nat) (s : State) : State :=
  if r.sketch then updCtx r.ctx (fun c => { c with sketchBars := mapSet [] (barrierKey (lclusterOf s r) id cross) l c.sketchBars }) s
  else if cross then updCtx r.ctx (fun c => { c with xbars := mapSet [] id l c.xbars }) s
  else updCluster r.ctx (lclusterOf s r) (fun k => { k with bars := mapSet [] id l k.bars }) s

/-- Participants: the allocated cores of the cluster, or of the context (BAR, XBAR). -/
def participants (s : State) (r : CoreRef) (cross : Bool) : List Nat :=
  match progOf (ctxOf s r.ctx) r.sketch with
  | none => []
  | some p => if cross then List.range (progCores p) else (List.range p.cores).map (fun i => lclusterOf s r * p.cores + i)

/-- Every participant has arrived or has halted. -/
def barrierFull (s : State) (r : CoreRef) (cross : Bool) (l : List Nat) : Bool :=
  (participants s r cross).all (fun i => l.contains i || (coreOf s { r with lcore := i }).phase = .halted)

/-- Complete the current use of a barrier when all have arrived. -/
def barrierCheck (r : CoreRef) (cross : Bool) (id : Nat) (s : State) : State :=
  let l := arrivals s r cross id
  if !l.isEmpty && barrierFull s r cross l then setArrivals r cross id [] s else s

/-- One issue of BAR or XBAR: the first records the arrival; the instruction retires once that use is complete (R130). -/
def barrierCmd (r : CoreRef) (i : CoreInstr) (cross : Bool) (id : Nat) (s : State) : State :=
  onIssue r i (fun s =>
    let s1 := if (coreOf s r).arrived = some (cross, id) then s
      else barrierCheck r cross id (setArrivals r cross id (setAdd r.lcore (arrivals s r cross id))
        (updCore r (fun k => { k with arrived := some (cross, id) }) s))
    if (arrivals s1 r cross id).contains r.lcore then s1 else retire r { coreOf s1 r with arrived := none } s1) s

/-- BAR (0x91): a cluster barrier. -/
def execBar (c : CoreRef) (id : BitVec 3) (s : State) : Host.Outcome State Fault Refusal :=
  unitOp (wfCore c) (barrierCmd c (.bar id) false id.toNat s)

/-- XBAR (0x92): a barrier over all cores of the context. -/
def execXbar (c : CoreRef) (id : BitVec 2) (s : State) : Host.Outcome State Fault Refusal :=
  unitOp (wfCore c) (barrierCmd c (.xbar id) true id.toNat s)

/-! ### FENCE and flags -/

/-- FENCE (0x90): wait until every ticket is idle and every post has been accepted. -/
def execFence (c : CoreRef) (s : State) : Host.Outcome State Fault Refusal :=
  unitOp (wfCore c) (onIssue c .fence (fun s =>
    let k := coreOf s c
    if k.tickets.any (fun t => t.2.out.isSome) || k.postsOut != 0 then s else retire c k s) s)

/-- FSET (0x93): set a flag of the cluster. -/
def execFset (c : CoreRef) (flag : BitVec 5) (s : State) : Host.Outcome State Fault Refusal :=
  unitOp (wfCore c) (onIssue c (.fset flag) (fun s =>
    retire c (coreOf s c) (setFlag c.ctx (lclusterOf s c) flag.toNat true s)) s)

/-- FCLR (0x94): clear a flag of the cluster. -/
def execFclr (c : CoreRef) (flag : BitVec 5) (s : State) : Host.Outcome State Fault Refusal :=
  unitOp (wfCore c) (onIssue c (.fclr flag) (fun s =>
    retire c (coreOf s c) (setFlag c.ctx (lclusterOf s c) flag.toNat false s)) s)

/-- FWAIT (0x95): wait until a flag is set; it stays set. -/
def execFwait (c : CoreRef) (flag : BitVec 5) (s : State) : Host.Outcome State Fault Refusal :=
  unitOp (wfCore c) (onIssue c (.fwait flag) (fun s =>
    if (clusterOf s c.ctx (lclusterOf s c)).flags.getLsbD flag.toNat then retire c (coreOf s c) s else s) s)

end Sys2Proof.Machine
end

