-- ==== Sys2Proof/Machine/CoreControl.lean ====
section
/-! DEFINITION. HALT and YIELD (R111, R130), with the end of a run. -/

namespace Sys2Proof.Machine

/-- Barriers that a halting core may complete: it counts as having reached every later use (R130). -/
def haltBarriers (c : CoreRef) (s : State) : State :=
  (List.range 4).foldl (fun s i => barrierCheck c true i s) ((List.range 8).foldl (fun s i => barrierCheck c false i s) s)

def haltCmd (c : CoreRef) (s : State) : State :=
  onIssue c .halt (fun s =>
    if (inFlight (coreOf s c)).isEmpty then
      skipRest c.ctx (endIfHalted c.ctx (haltBarriers c (updCore c (fun k => { k with phase := .halted }) s)))
    else s) s

/-- HALT (0x01): the core stops for the rest of the run once its array instructions have completed; the run ends with the last
core. -/
def execHalt (c : CoreRef) (s : State) : Host.Outcome State Fault Refusal := unitOp (wfCore c) (haltCmd c s)

/-- YIELD (0x02): the core gives up the rest of its slice, or of its slices of this frame (Table 4-6). -/
def execYield (c : CoreRef) (untilFrame : Bool) (s : State) : Host.Outcome State Fault Refusal :=
  unitOp (wfCore c) (onIssue c (.yield untilFrame) (fun s => skipRest c.ctx (retire c { coreOf s c with phase := .yielded untilFrame } s)) s)

end Sys2Proof.Machine
end

