-- ==== Sys2Proof/Machine/Queries.lean ====
section
/-! DEFINITION. Query commands and the scan units' events (R279-R282, R294-R303, Tables 9-7, 15-13). -/

namespace Sys2Proof.Machine

/-! ### Start -/

/-- The landing window (R295). -/
def windowLen : Nat := 131072

/-- Offending bytes of a query's packet once its descriptor is known (R285, R414, Table 15-13). -/
def queryPktErr (c : Cmd) (d : ScanDesc) : List Nat :=
  let resOff := pktField c.pkt 16 4
  let resLen := pktField c.pkt 20 4
  let need := 576 + (if pktOpcode c.pkt = 0x61 then d.nq * d.k * (if d.wide then 16 else 8) else 0)
  errIf (resOff < scanDescLen d) 16 ++ errIf (resLen < need) 20 ++ errIf (pktBufLen c.pkt < scanDescLen d) 56

/-- A channel with a granule of the query has its scan unit disabled (Table 11-6). -/
def unitMissing (s : State) (d : ScanDesc) (size : Nat) : Bool :=
  (List.range 32).any (fun ch => granulesOn d size ch != 0 && mapGet .enabled s.scan.units ch != .enabled)

/-- Granules of the query's object that involve a die, on a channel, from granule `g` on. -/
def mediaFrom (s : State) (q : Query) (ch g : Nat) : List Nat :=
  match objOf s q.obj with
  | none => []
  | some o =>
    ((mappedLgas s).filter (fun l => l < 2 ^ 60 && l / 2 ^ 24 = o.objNo && l % 2 ^ 24 % 32 = ch && g ≤ l % 2 ^ 24)).map (fun l => l % 2 ^ 24)

/-- The next granule a unit reads on its channel: unmapped granules are skipped (R282). -/
def nextOn (s : State) (q : Query) (ch : Nat) : Option Nat :=
  let last := firstOn q.desc ch + 32 * granulesOn q.desc (querySize s q) ch
  ((mediaFrom s q ch (firstOn q.desc ch + 32 * mapGet 0 q.next ch)).filter (· < last)).foldl
    (fun b g => some (match b with
      | none => g
      | some h => min h g)) none

/-- Step over the unmapped granules of every channel. -/
def settleQuery (s : State) (q : Query) : Query :=
  (List.range 32).foldl (fun q ch =>
    let i := match nextOn s q ch with
      | some g => (g - firstOn q.desc ch) / 32
      | none => granulesOn q.desc (querySize s q) ch
    { q with next := mapSet 0 ch i q.next }) q

/-- An EMBED whose scan is done and which has no batch completes at once. -/
def embedEmpty (s : State) (q : Query) : Bool :=
  q.kind = .embed && q.batches.isEmpty && q.runs = 0 && scanDone q (querySize s q)

/-- Store a query; its context has work where a batch can start, for a plan that closes from now on (R50, R301). -/
def storeQuery (slot : Nat) (had : Bool) (q : Query) (s : State) : State :=
  if embedEmpty s q then finishQuery slot q s
  else
    let s := { s with scan := { s.scan with slots := mapPut slot q s.scan.slots } }
    if !had && (embedBatch s q).isSome then wakeCtx q.ctx (updCmd q.tag (fun d => { d with plan := planNow s }) s) else s

/-- The lowest free query slot. -/
def freeSlot (s : State) : Option Nat := (List.range 4).find? (fun i => (mapFind i s.scan.slots).isNone)

/-! ### Reads (R279, R299) -/

/-- The context of a query is resident: it does not pause (R295). -/
def queryAwake (s : State) (q : Query) : Bool := isResident (ctxOf s q.ctx) && !(ctxOf s q.ctx).alloc.isEmpty

/-- A unit may take a query's next granule: the context holds its allocation (R295), PACE and the window have room (R299, R301). -/
def scanReady (s : State) (q : Query) (ch : Nat) : Bool :=
  queryAwake s q && mapGet .enabled s.scan.units ch = .enabled &&
  (q.desc.pace = 0 || mapGet 0 q.paced ch < q.desc.pace) && (q.kind != .embed || q.batches.length + q.runs < windowBatches q.desc)

/-- The granule that a read fetches for a query. -/
def queryGranule (tag : Nat) (r : ReadOp) : Option Nat :=
  match r.why with
  | .query t g => if t = tag then some g else none
  | _ => none

/-- A scan unit waits for a read on its channel: it works on one granule at a time. -/
def unitReads (s : State) (ch : Nat) : Bool :=
  s.flash.readQ.any (fun r => readChannel r = ch && (match r.why with
    | .query _ _ => true
    | _ => false))

/-- The slots in the order in which a unit serves them: round robin after the one served last (R299). -/
def slotTurns (s : State) (ch : Nat) : List Nat :=
  let k := mapGet 3 s.scan.turn ch
  [(k + 1) % 4, (k + 2) % 4, (k + 3) % 4, k % 4]

/-- The flash translation layer issues the next read for a channel's scan unit (R279, R299). -/
def issueOn (s : State) (ch : Nat) : State :=
  if unitReads s ch then s
  else
    let ready (slot : Nat) : Option (Nat × Query × Nat) := (mapFind slot s.scan.slots).bind (fun q =>
      if scanReady s q ch then (nextOn s q ch).map (fun g => (slot, q, g)) else none)
    match (slotTurns s ch).findSome? ready with
    | none => s
    | some (slot, q, g) =>
      match objOf s q.obj with
      | none => s
      | some o =>
        enqRead (objLga o g) (.query q.tag g) { s with scan := { s.scan with
          slots := mapPut slot { q with paced := mapSet 0 ch (mapGet 0 q.paced ch + 1) q.paced } s.scan.slots
          turn := mapSet 3 ch slot s.scan.turn } }

/-- Issue the reads that the scan units of every channel can take. -/
def issueQueries (s : State) : State :=
  if s.scan.slots.isEmpty then s else startReads ((List.range 32).foldl issueOn s)

/-! ### The commands -/

/-- Everything that refuses a query before its first read. -/
def queryErr (kind : QueryKind) (s : State) (c : Cmd) : Option Status :=
  let n := pktCtx c.pkt
  let b := cmdData c
  let d := scanDescOf b
  match objOf s (cmdObj c) with
  | none => some (stInvalidField 8 0)
  | some o =>
    if o.kind != .persistent then some (stInvalidField 8 0)
    else if kind = .embed && (ctxOf s n).prog.isNone then some (stInvalidField 2 0)
    else
      match firstErr (queryPktErr c d) with
      | some e => some (stInvalidField e 0)
      | none =>
        match firstErr (scanDescErr kind o.size b) with
        | some e => some (stInvalidField e 1)
        | none =>
          if (ctxOf s n).alloc.isEmpty then some stNoAllocation
          else if t1Size s n < d.landOff + windowLen then some stQuota
          else if unitMissing s d o.size then some stUnitUnavailable
          else none

def queryCmd (kind : QueryKind) (c : Cmd) (s : State) : State :=
  if objBlocked s c then s
  else if !ctxDefined s (pktCtx c.pkt) then complete c.tag (stInvalidField 2 0) s
  else
    match queryErr kind s c, freeSlot s with
    | some st, _ => complete c.tag st s
    | none, none => s
    | none, some slot =>
      let q : Query := { tag := c.tag, ctx := pktCtx c.pkt, obj := cmdObj c, kind := kind, desc := scanDescOf (cmdData c)
                         resOff := pktField c.pkt 16 4, resLen := pktField c.pkt 20 4, arg := BitVec.ofNat 64 (pktField c.pkt 24 8)
                         seed := BitVec.ofNat 64 (pktField c.pkt 40 8) }
      issueQueries (storeQuery slot false (settleQuery s q) (keepRunning c 0 s))

/-- SCAN (R300). -/
def execScan (tag : Nat) (s : State) : Host.Outcome State Fault Refusal := unitOp true (onCmd 0x60 tag anyPkt (queryCmd .scan) s)

/-- VSEARCH (R291, R300). -/
def execVsearch (tag : Nat) (s : State) : Host.Outcome State Fault Refusal := unitOp true (onCmd 0x61 tag anyPkt (queryCmd .vsearch) s)

/-- EMBED (R301). -/
def execEmbed (tag : Nat) (s : State) : Host.Outcome State Fault Refusal := unitOp true (onCmd 0x62 tag anyPkt (queryCmd .embed) s)

/-! ### A granule -/

/-- Pages marked bad: those of data codewords 0-15, and of metadata codewords 16-19 (R297). -/
def badPagesOf (m : Store) (codewords : List Nat) : List Nat :=
  (List.range 4).filter (fun p => m.poison.any (fun w => w / 4 = p) || codewords.any (fun w => w = 16 + p || (w < 16 && w / 4 = p)))

/-- What a unit delivers into the landing window after a granule: a SCAN's records, or a VSEARCH channel's candidates (R294, R295). -/
def landingBytes (old new : Query) (ch : Nat) (last : Bool) : List Byte :=
  match new.kind with
  | .scan => (new.out.drop old.out.length).flatten
  | .vsearch => if last then (List.range new.desc.nq).flatMap (fun i => (mapGet [] new.cands (ch * 16 + i)).flatMap (fun c => candEntry true (some c))) else []
  | .embed => []

/-- Write landed bytes in whole lines at a place of the window that the spec leaves open (log entry 24). -/
def landWindow (q : Query) (bs : List Byte) (s : State) : State :=
  if bs = [] then s
  else
    let bs := padTo (roundUp bs.length 64) bs
    let bs := bs.take windowLen
    let room := (windowLen - bs.length) / 64 + 1
    bump (t1Write q.ctx 0 (q.desc.landOff + 64 * ((Config.free64 s.nonce).toNat % room)) bs s)

/-- Metadata codewords that the read could not decode: those pages of the granule's place hold nothing any more (R254). -/
def metaLost (lga : Nat) (codewords : List Nat) (s : State) : State :=
  match mapFind lga s.flash.map with
  | none => s
  | some l =>
    let ps := (List.range 4).filter (fun p => codewords.contains (16 + p))
    if ps.isEmpty then s
    else updSuper l.ch l.die l.super (fun x => { x with vers := x.vers.map (fun (v : Nat × Version) =>
      (v.1, if v.1 = l.pos then { v.2 with metaBad := ps.foldl (fun m p => setAdd p m) v.2.metaBad } else v.2)) }) s

/-- What the decoded codewords of a granule tell: uncorrectable ones, or those that needed soft decoding. -/
def scanResult (codewords soft : List Nat) : ReadResult :=
  if codewords.any (· < 16) then .uncorrectable (codewords.filter (· < 16)) else if soft.isEmpty then .clean else .soft soft

/-- A granule that a unit has read passes through it: as it stood when its read began (R281); one that was unmapped then is skipped (R282). -/
def scanPage (slot ch g : Nat) (q : Query) (o : Obj) (r : ReadOp) (codewords soft : List Nat) (s : State) : State :=
  let res := scanResult codewords soft
  let had := (embedBatch s q).isSome
  let s := metaLost r.lga codewords (readFound r.lga res { s with flash := { s.flash with readQ := s.flash.readQ.filter (fun x => x.id != r.id) } })
  let data := readData r res
  let q1 := if r.dies.isEmpty then q else scanGranule ch g o.size data (badPagesOf data codewords) q
  let q2 := settleQuery s { q1 with next := mapSet 0 ch ((g - firstOn q.desc ch) / 32 + 1) q1.next }
  storeQuery slot had q2 (landWindow q (landingBytes q q2 ch (granulesOn q.desc o.size ch ≤ mapGet 0 q2.next ch)) s)

def pageScan (slot ch : Nat) (codewords soft : List Nat) (s : State) : State :=
  match mapFind slot s.scan.slots with
  | none => s
  | some q =>
    match objOf s q.obj, s.flash.readQ.find? (fun r => r.started && readChannel r = ch && (queryGranule q.tag r).isSome) with
    | some o, some r =>
      if queryAwake s q && flashOn s then flashGo ch (issueQueries (scanPage slot ch ((queryGranule q.tag r).getD 0) q o r codewords soft s)) else s
    | _, _ => s

/-- A decoded granule passes through a scan unit (R281-R297). -/
def execPageScanned (slot ch : Nat) (r : PageRead) (s : State) : Host.Outcome State Fault Refusal :=
  unitOp (slot < 4 && wfCh ch) (pageScan slot ch r.bad r.soft s)

def mergeDone (slot : Nat) (s : State) : State :=
  match mapFind slot s.scan.slots with
  | none => s
  | some q => if q.kind != .embed && scanDone q (querySize s q) && isResident (ctxOf s q.ctx) then finishQuery slot q s else s

/-- The merge of a SCAN or VSEARCH ends, and its answer is written (R294-R296). -/
def execQueryMergeComplete (slot : Nat) (s : State) : Host.Outcome State Fault Refusal := unitOp (slot < 4) (mergeDone slot s)

/-! ### Service -/

/-- A query command that waits for a slot and has a granule on the channel. -/
def queryWaits (s : State) (ch : Nat) (c : Cmd) : Bool :=
  isQuery (pktOpcode c.pkt) && (c.phase = .waiting || c.phase = .released) && c.staged.isSome &&
  granulesOn (scanDescOf (cmdData c)) (((objOf s (cmdObj c)).map (·.size)).getD 0) ch != 0

/-- End the queries with a granule on a channel: ABORTED (R303). One that still waits for a slot is ended as well, once its descriptor has
landed. -/
def cancelOn (ch : Nat) (s : State) : State :=
  let s := (s.host.cmds.filter (queryWaits s ch)).foldl (fun s c => complete c.tag (stAborted 3 0 0) s) s
  (s.scan.slots.filter (fun p => granulesOn p.2.desc (querySize s p.2) ch != 0)).foldl (fun s p =>
    match cmdOf s p.2.tag with
    | none => s
    | some c => abortStarted c (stAborted 3 0 0) s) s

def unitMode (ch mode : Nat) (s : State) : State :=
  let u : UnitState := if mode = 0 then .enabled else if mode = 1 then .service else .stopped
  let s := { s with scan := { s.scan with units := mapSet .enabled ch u s.scan.units } }
  if mode = 0 then issueQueries s else flashGo ch (issueQueries (cancelOn ch (if mode = 1 then s else logEvent 9 2 0 0 ch 0 0 0 s)))

/-- A scan unit is disabled for service or stopped by a fault, or enabled again (R303, Table 11-6, Table 19-6). -/
def execScanUnitDisabledForService (ch mode : Nat) (s : State) : Host.Outcome State Fault Refusal :=
  unitOp (wfCh ch && mode < 3) (unitMode ch mode s)

end Sys2Proof.Machine
end

