-- ==== Sys2Proof/Machine/Media.lean ====
section
/-! DEFINITION. The flash translation layer's events: programs, erases, folding, merging, garbage collection, wear levelling, refresh,
patrol, suspension and RAW_READ (R240-R278). None of them happens while D3 is off (R23). -/

namespace Sys2Proof.Machine

/-! ### Commands that program (R52, R256, R271) -/

/-- Bytes a command's program writes. -/
def progBytes (o : ProgOp) : Nat :=
  match o.kind with
  | .write => 65536
  | .units => 4096 * o.ver.slots.length
  | _ => 0

/-- The last program of a command has ended. -/
def finishProg (c : Cmd) (s : State) : State :=
  match c.result with
  | some st =>
    if st.cls = 5 || st = stProgramFail then
      let s := if pktOpcode c.pkt = 0x21 then finishDestroy (pktCtx c.pkt) s else s
      complete c.tag { st with r2 := c.moved % 2 ^ 32 } (updObj (cmdObj c) (fun o =>
        if o.evict.any (fun e => e.1 = c.tag) then { o with evict := none } else o) s)
    else if pktOpcode c.pkt = 0x35 then finishEvict c s
    else complete c.tag st s
  | none =>
    match pktOpcode c.pkt with
    | 0x21 => complete c.tag (stSuccess 0 0 0) (finishDestroy (pktCtx c.pkt) s)
    | 0x36 => complete c.tag (stSuccess 0 0 0) { s with flash := { s.flash with objNos := s.flash.objNos.filter (· != c.extra) } }
    | _ => complete c.tag (stSuccess 0 0 0) s

/-- One program of a command has passed. -/
def progStep (o : ProgOp) (s : State) : State :=
  match cmdOf s o.tag with
  | none => s
  | some c =>
    let d := { c with moved := c.moved + progBytes o, left := c.left - 1 }
    if c.left ≤ 1 then finishProg d s else updCmd o.tag (fun _ => d) s

/-- A command that writes to T3 ends with PROGRAM_FAIL: what no die holds is not programmed, and it completes when the programs on dies have
ended (R271). -/
def failWrite (s : State) (tag : Nat) : State :=
  match cmdOf s tag with
  | none => s
  | some c =>
    let s := dropPrograms (fun p => p.tag = tag) s
    let d := { c with result := some stProgramFail, left := progsOf s tag }
    if progsOf s tag = 0 then finishProg d s else updCmd tag (fun _ => d) s

/-! ### Failing blocks (R270, R271) -/

/-- Block of a superblock on a plane. -/
def blockOf (x : Super) (n plane : Nat) : Nat := mapGet n x.blocks plane

/-- Number of a block in the bad-block list: die * 5,120 + plane * 1,280 + block. -/
def blockNo (ch die plane b : Nat) : Nat := dieKey ch die * 5120 + plane * 1280 + b

/-- Spare blocks of a plane that no list or superblock names. -/
def freeSpares (s : State) (ch die plane : Nat) : List Nat :=
  (List.range 38).map (· + 1242) |>.filter (fun b => !s.flash.badBlocks.contains (blockNo ch die plane b) &&
    (dieSupers s ch die).all (fun p => mapGet 0 p.2.blocks plane != b && mapGet 0 p.2.spares plane != b))

/-- Superblocks in service no longer hold the user capacity with the reserves of R261. -/
def tooFew (s : State) : Bool :=
  (32 * diesPerChannel s * 1242 - retiredSupers s - 32 * diesPerChannel s * 24) * 1536 < userGranules s

/-- The module becomes read-only: every write to T3 in progress fails. -/
def goReadOnly (s : State) : State :=
  if s.flash.readOnly || !tooFew s then s
  else
    let tags := ((s.flash.progQ.filter (fun o => o.tag != 0)).map (·.tag)).dedup
    tags.foldl failWrite { s with flash := { s.flash with readOnly := true } }

/-- A block of a superblock fails: on which plane the spec leaves open (log entry 2). Its number joins the bad-block list in embedded flash; a
spare block takes its place from the next erase on, or the superblock is retired. Either way it is emptied. -/
def retireBlock (ch die n : Nat) (s : State) : State :=
  let plane := (Config.free64 s.nonce).toNat % 4
  let b := blockNo ch die plane (blockOf (superOf s ch die n) n plane)
  let s := bump (addRecord badBlockRegion [badBlockWord b] { s with flash := { s.flash with badBlocks := s.flash.badBlocks ++ [b] } })
  let spare := (freeSpares s ch die plane).head?
  goReadOnly (updSuper ch die n (fun x => { x with
    state := if spare.isNone then .retired else .closed, wanted := some .refresh
    spares := match spare with
      | none => x.spares
      | some k => mapPut plane k x.spares }) s)

/-! ### Programs (R256-R258, R261, R263, R265, R270) -/

def dropProg (id : Nat) (s : State) : State := { s with flash := { s.flash with progQ := s.flash.progQ.filter (fun p => p.id != id) } }

/-- The versions a program writes, in the order of their positions. -/
def progVersions (o : ProgOp) (pseq : Nat) : List Version :=
  if progSlc o.kind then [{ o.ver with pseq := pseq }] else o.copies.map (fun c => { c.ver with pseq := pseq })

/-- Positions a program takes: one in SLC mode, the wordline of the four planes in QLC mode (R242). -/
def progWidth (k : ProgKind) : Nat := if progSlc k then 1 else 4

/-- The superblock holds what the program wrote. -/
def putVersions (ch die n : Nat) (o : ProgOp) (vs : List Version) (s : State) : State :=
  updSuper ch die n (fun x =>
    let next := x.next + progWidth o.kind
    { x with
      state := if superCap x.slc ≤ next && x.state = .open_ then .closed else x.state
      next := next, vers := vs.zipIdx.foldl (fun m v => mapPut (x.next + v.2) v.1 m) x.vers }) s

/-- Places of what a program wrote. -/
def progPlaces (o : ProgOp) (die n next : Nat) : List Loc :=
  (List.range (if progSlc o.kind then 1 else o.copies.length)).map (fun i => { ch := o.ch, die := die, super := n, pos := next + i })

/-- A program passes status: its places hold it, the map moves, the command goes on. -/
def progPass (o : ProgOp) (die n : Nat) (s : State) : State :=
  let ls := progPlaces o die n (superOf s o.ch die n).next
  let s := putVersions o.ch die n o (progVersions o s.flash.seq) (drawSeq (dropProg o.id s))
  let s := { s with flash := { s.flash with
    bytesFlash := s.flash.bytesFlash + 65536 * progWidth o.kind, bytesHost := s.flash.bytesHost + progBytes o } }
  progStep o (programEffect o ls s)

/-- What a failed target holds is copied again, each granule from its source where that still stands (R265). -/
def recopy (s : State) (c : Copy) : Copy :=
  match ((versionAt s c.src).bind (·.source)).bind (versionAt s) with
  | some w => if w.slots = c.ver.slots then { c with ver := { c.ver with data := w.data } } else c
  | none => c

/-- A program fails status: the block is retired and what its superblock holds is copied again, with the program in flight, to a fresh
target; a failed SLC program goes to another die. -/
def progFail (o : ProgOp) (die n : Nat) (s : State) : State :=
  let again (p : ProgOp) : ProgOp := if p.id = o.id then { p with on := none, avoid := if progSlc p.kind then some die else p.avoid } else p
  let s := logEvent 8 1 0 0 o.ch (dieKey o.ch die) n 0 { s with flash := { s.flash with
    programFails := s.flash.programFails + 1, progQ := s.flash.progQ.map again } }
  let s := retireBlock o.ch die n s
  enqCopies (.relocate .refresh) o.ch (some die) ((gather s (liveIn s o.ch die n)).map (recopy s)) s

def programDone (id die : Nat) (pass : Bool) (s : State) : State :=
  match s.flash.progQ.find? (fun o => o.id = id) with
  | none => s
  | some o =>
    match o.on with
    | none => s
    | some (d, n) =>
      if d != die || (dieOf s o.ch die).suspended || !flashOn s then s
      else
        let s := updDie o.ch die (fun x => { x with work := none }) s
        flashGo o.ch (if pass then progPass o die n s else progFail o die n s)

/-- The program on a die ends (R256, R270). -/
def execFlashProgramComplete (id die : Nat) (pass : Bool) (s : State) : Host.Outcome State Fault Refusal :=
  unitOp (die < 48) (programDone id die pass s)

/-! ### Erases (R266, R267, R270) -/

/-- An erased superblock: its wear rises by 10 after QLC mode and by 1 after SLC mode, and its spare blocks take their places. -/
def erasedSuper (x : Super) : Super :=
  { wear := x.wear + (if x.slc then 1 else 10), blocks := x.spares.foldl (fun m p => mapPut p.1 p.2 m) x.blocks }

/-- The superblock that wear levelling emptied is erased: its target takes nothing more, and the next one may start. -/
def levelDone (ch die n : Nat) (s : State) : State :=
  if (dieOf s ch die).level = some n then
    updDie ch die (fun d => { d with level := none }) { s with flash := { s.flash with supers := s.flash.supers.map (fun (p : Nat × Super) =>
      (p.1, if p.1 / 1242 = dieKey ch die && p.2.state = .open_ && p.2.use = .level then { p.2 with state := .closed } else p.2)) } }
  else s

def eraseDone (ch die n : Nat) (pass : Bool) (s : State) : State :=
  if (dieOf s ch die).work = some (.erase n) && !(dieOf s ch die).suspended && flashOn s then
    let s := updDie ch die (fun d => { d with work := none }) s
    flashGo ch (levelDone ch die n
      (if pass then updSuper ch die n erasedSuper s
       else
        let s := retireBlock ch die n (logEvent 8 1 1 0 ch (dieKey ch die) n 0 { s with flash := { s.flash with eraseFails := s.flash.eraseFails + 1 } })
        updSuper ch die n (fun x => if x.state = .retired then { x with vers := [], wanted := none } else erasedSuper x) s))
  else s

/-- A superblock erase ends; a failed block is replaced by a spare (R266, R270). -/
def execFlashEraseComplete (ch die super : Nat) (pass : Bool) (s : State) : Host.Outcome State Fault Refusal :=
  unitOp (wfSuper ch die super) (eraseDone ch die super pass s)

/-! ### Suspension (R59) -/

def suspendDie (ch die : Nat) (s : State) : State :=
  if readQueuedFor s (dieKey ch die) && (dieOf s ch die).work.isSome && flashOn s then
    startReads (updDie ch die (fun d => { d with suspended := true }) s)
  else s

/-- A die suspends its program or erase for the reads queued for it, which start (R59). -/
def execProgramEraseSuspend (ch die : Nat) (s : State) : Host.Outcome State Fault Refusal := unitOp (wfDie ch die) (suspendDie ch die s)

/-! ### Reads -/

/-- The object whose home a logical granule address is. -/
def objAtLga (s : State) (lga : Nat) : Option (Nat × Obj) := s.objs.find? (fun p => p.2.kind = .persistent && p.2.objNo = lga / 2 ^ 24)

/-- A folded granule has been read back: the map moves, unless the copy cannot be decoded (R258). -/
def verifyDone (src dst : Loc) (merged : Bool) (r : ReadResult) (s : State) : State :=
  let s := foundAt dst.ch 0 (fun u => some (dst, u)) r (countReads [dst] s)
  match r, versionAt s dst with
  | .uncorrectable _, _ => s
  | _, none => s
  | _, some v => landCopy src dst v merged s

/-- The data of a die read goes where it was asked for: a fill takes the writes in progress with it, so that the copy equals the home. -/
def deliverRead (x : ReadOp) (r : ReadResult) (s : State) : State :=
  match x.why with
  | .verify src dst merged => verifyDone src dst merged r s
  | .fill obj g _ => let s := readFound x.lga r s; landGranule obj g (toLines (homeNew s x.lga)) s
  | .host tag g => landHost tag g (toLines (readData x r)) (readFound x.lga r s)
  | .serveImport port req g =>
    let m := readData x r
    answerImport port req (storeRead m 0 (((objAtLga s x.lga).map (fun p => granuleLen p.2 g)).getD granuleBytes)) (!m.poison.isEmpty)
      false (readFound x.lga r s)
  | .query _ _ => s

/-- A read ends on its dies; those for a query end as a scanned page. -/
def readDone (id : Nat) (r : ReadResult) (s : State) : State :=
  match s.flash.readQ.find? (fun x => x.id = id) with
  | none => s
  | some x =>
    if !x.started || !flashOn s || (match x.why with
      | .query _ _ => true
      | _ => false) then s
    else flashGo (readChannel x) (deliverRead x r { s with flash := { s.flash with readQ := s.flash.readQ.filter (fun y => y.id != id) } })

/-- A die read ends: its granule goes where it was asked for (R59, R208, R258, R269, R364). -/
def execFlashReadComplete (id : Nat) (r : ReadResult) (s : State) : Host.Outcome State Fault Refusal := unitOp true (readDone id r s)

/-! ### Folding, merging, collection (R252, R258, R261-R268) -/

/-- Live versions in the SLC superblocks of a die that nothing copies yet, oldest PSEQ first. -/
def slcLive (s : State) (ch die : Nat) : List (Loc × Version) :=
  sortBy (fun a b => a.2.pseq < b.2.pseq)
    (((dieSupers s ch die).filter (fun p => p.2.slc)).flatMap (fun p => (liveIn s ch die p.1).filter (fun v => !(copiesOf s v).isEmpty)))

def foldDie (ch die : Nat) (s : State) : State :=
  let cs := (gather s (slcLive s ch die)).take 4
  if cs.length = 4 && flashOn s then flashGo ch (enqCopies .fold ch none cs s) else s

/-- FOLD: four SLC granules of a die, oldest PSEQ first, go to a QLC program (R258). -/
def execFold (ch die : Nat) (s : State) : Host.Outcome State Fault Refusal := unitOp (wfDie ch die) (foldDie ch die s)

/-- Units the overlay map holds (R252). -/
def overlayCap (s : State) : Nat := if isQ96 s then 2 ^ 27 else 2 ^ 28

def mergeStep (lga : Nat) (s : State) : State :=
  let k := (overlayUnits s lga).length
  if k != 0 && (8 ≤ k || 3 * overlayCap s ≤ 4 * s.flash.overlay.length) && flashOn s then enqMerge lga s else s

/-- OVERLAY_MERGE: at 8 units, or when the overlay map is 75 % full (R252). -/
def execOverlayMerge (lga : Nat) (s : State) : Host.Outcome State Fault Refusal := unitOp true (mergeStep lga s)

/-- The victim: the closed QLC superblock with the fewest live versions, the lower number among equals (R262). -/
def victim (s : State) (ch die : Nat) : Option Nat :=
  ((dieSupers s ch die).filter (fun p => p.2.state = .closed && !p.2.slc && p.2.wanted.isNone)).foldl
    (fun b p => match b with
      | none => some p.1
      | some x => if (liveIn s ch die p.1).length < (liveIn s ch die x).length then some p.1 else some x) none

def collect (ch die : Nat) (s : State) : State :=
  if 64 ≤ erasedCount s ch die || !flashOn s then s
  else
    match victim s ch die with
    | none => flashGo ch s
    | some n => flashGo ch (emptySuper .collect ch die n s)

/-- GARBAGE_COLLECTION: below 64 erased superblocks a victim is emptied and erased; below 40 its programs are urgent (Table 8-8, R262,
R263). -/
def execGarbageCollection (ch die : Nat) (s : State) : Host.Outcome State Fault Refusal := unitOp (wfDie ch die) (collect ch die s)

/-- Wear of every superblock of a die. -/
def dieWear (s : State) (ch die : Nat) : List Nat := (List.range 1242).map (fun n => (mapGet ({} : Super) (dieSupers s ch die) n).wear)

/-- The closed superblock with the least wear. -/
def leastWorn (s : State) (ch die : Nat) : Option Nat :=
  ((dieSupers s ch die).filter (fun p => p.2.state = .closed && p.2.wanted.isNone)).foldl
    (fun b p => match b with
      | none => some p.1
      | some x => if p.2.wear < (superOf s ch die x).wear then some p.1 else some x) none

def levelWear (ch die : Nat) (s : State) : State :=
  let w := dieWear s ch die
  if w.foldl max 0 - w.foldl min (w.foldl max 0) ≤ 1500 || (dieOf s ch die).level.isSome || !flashOn s then s
  else
    match leastWorn s ch die with
    | none => s
    | some n => flashGo ch (emptySuper .level ch die n (updDie ch die (fun d => { d with level := some n }) s))

/-- WEAR_LEVELLING: at a span of more than 1,500 the least worn superblock moves to the most worn free one, one at a time (R267). -/
def execWearLevelling (ch die : Nat) (s : State) : Host.Outcome State Fault Refusal := unitOp (wfDie ch die) (levelWear ch die s)

def countRefresh (cause : Nat) (s : State) : State :=
  let r := s.flash.refreshes
  { s with flash := { s.flash with refreshes :=
      (r.1 + (if cause = 0 then 1 else 0), r.2.1 + (if cause = 1 then 1 else 0), r.2.2 + (if cause = 2 then 1 else 0)) } }

/-- Reads after which a superblock is refreshed (R268). -/
def readLimit (slc : Bool) : Nat := if slc then 400000 else 40000

/-- The superblock is due for a refresh for this cause. -/
def refreshDue (x : Super) (cause : Nat) : Bool := if cause = 0 then readLimit x.slc ≤ x.reads else x.due.contains cause

def refreshSuper (ch die n cause : Nat) (s : State) : State :=
  let x := superOf s ch die n
  if (x.state = .open_ || x.state = .closed) && x.wanted.isNone && refreshDue x cause && flashOn s then
    flashGo ch (emptySuper .refresh ch die n (countRefresh cause s))
  else s

/-- REFRESH, by cause: 0 reads, 1 errors found by the patrol, 2 soft decoding (R268). -/
def execRefresh (ch die super cause : Nat) (s : State) : Host.Outcome State Fault Refusal :=
  unitOp (wfSuper ch die super && cause < 3) (refreshSuper ch die super cause s)

/-- The patrol reads one wordline of an idle die: a read, and what it finds makes the superblock due (R268). -/
def patrol (ch die n : Nat) (errorsHigh soft : Bool) (s : State) : State :=
  if (superOf s ch die n).vers.isEmpty || !dieFree s (dieKey ch die) || !flashOn s then s
  else
    let l : Loc := { ch := ch, die := die, super := n, pos := 0 }
    let s := countReads [l] s
    let s := if soft then markSoft ch [(l, 0)] s else s
    if errorsHigh then updSuper ch die n (fun x => { x with due := setAdd 1 x.due }) s else s

/-- PATROL_READ (R268). -/
def execPatrolRead (ch die super : Nat) (errorsHigh soft : Bool) (s : State) : Host.Outcome State Fault Refusal :=
  unitOp (wfSuper ch die super) (patrol ch die super errorsHigh soft s)

/-- The controllers train again after a temperature change of 20 °C (R244). -/
def execOnfiRetraining (s : State) : Host.Outcome State Fault Refusal :=
  unitOp true (if s.power.d3 then { s with flash := { s.flash with trained := true } } else s)

/-! ### RAW_READ (R242, R246, R254, R272, Table 15-14). Which block belongs to which superblock is log entry 11. -/

/-- Bytes RAW_READ returns. -/
def rawLen (c : Cmd) : Nat := if bitOf (pktField c.pkt 16 1) 0 then 18432 else 16384

/-- The superblock that a block of a plane belongs to. -/
def superAt (s : State) (ch die plane block : Nat) : Option Nat :=
  match (dieSupers s ch die).find? (fun p => blockOf p.2 p.1 plane = block) with
  | some p => some p.1
  | none => if block < 1242 && blockOf (superOf s ch die block) block plane = block then some block else none

/-- The granule position and the page of the granule that a page address names (R242). -/
def rawPlace (x : Super) (plane page : Nat) : Nat × Nat := if x.slc then (page, plane) else (page / 4 * 4 + plane, page % 4)

/-- One 4 KiB codeword as the media holds it: encrypted (R462). -/
def cipherUnit (s : State) (v : Version) (w : Nat) : List Byte :=
  let t := v.slots[(if v.kind = .overlay then w else 0)]?.getD { lga := 0, seq := 0 }
  Config.xts s.sec.kgen t.lga (if v.kind = .overlay then t.unit else w) (storeRead v.data (w * 4096) 4096)

/-- The page's data with uncorrectable codewords zeroed, and where they are. -/
def rawData (s : State) (v : Version) (pg : Nat) : List Byte × Option (Nat × Nat) :=
  let bad := (List.range 4).filter (fun i => v.data.poison.contains (pg * 4 + i))
  ((List.range 4).flatMap (fun i => if bad.contains i then zeros 4096 else padTo 4096 ((cipherUnit s v (pg * 4 + i)).take 4096)),
   bad.head?.map (fun i => (i * 4096, bad.length * 64)))

def verKindCode (k : VerKind) : Nat :=
  match k with
  | .granule => 0
  | .overlay => 1
  | .tombstone => 2
  | .objRecord => 3
  | .checkpoint => 4
  | .cleanMarker => 5

/-- A field of each of four slots. -/
def slotBytes (n : Nat) (v : Version) (f : Slot → Nat) : List Byte :=
  (List.range 4).flatMap (fun j => leBytes n ((v.slots[j]?.map f).getD 0))

/-- The metadata of a page (Table 8-6). -/
def metaBytes (v : Version) (pg : Nat) : List Byte :=
  let units := match v.kind with
    | .overlay => (v.slots.zipIdx.map (fun p => p.1.unit * 16 ^ p.2)).foldl (· + ·) 0
    | .tombstone => v.slots.length
    | _ => 0
  let b := leBytes 2 0x5846 ++ leBytes 1 (verKindCode v.kind) ++ leBytes 1 (pg + bit v.copied 2) ++ leBytes 4 units ++ leBytes 8 v.pseq ++
    (if v.kind = .granule then leBytes 8 (slotSeq v 0) ++ zeros 24 else slotBytes 8 v (·.seq)) ++ slotBytes 8 v (·.lga) ++
    slotBytes 4 v (·.count) ++ zeros 28
  b ++ leBytes 4 (crc32c b)

/-- Bytes of a page that the spec does not give: undecoded, parity or unprogrammed. -/
def rawFree (s : State) (k n : Nat) (v : List Byte) : List Byte := padTo n ((Config.rawPage s.nonce k v).take n)

/-- The spare of a page: four parity fields, the metadata, and its parity (R246, log entry 110). A metadata codeword that cannot be decoded is
zeroed. -/
def spareBytes (s : State) (k : Nat) (v : Version) (pg : Nat) : List Byte :=
  rawFree s k 1856 [] ++ (if v.metaBad.contains pg then zeros 128 else metaBytes v pg) ++ rawFree s (k + 1) 64 []

/-- The page of a version, as RAW_READ delivers it. -/
def rawPageRead (c : Cmd) (k pg : Nat) (v : Version) (s : State) : State :=
  let s1 := bump s
  if bitOf (pktField c.pkt 16 1) 1 then
    reply c 0 (rawFree s k (rawLen c) (storeRead v.data (pg * 16384) 16384)) (stSuccess 0 0 0) s1
  else
    let r := rawData s v pg
    reply c 0 ((r.1 ++ spareBytes s k v pg).take (rawLen c)) (readStatus (stSuccess 0 0 0) 0 r.2) s1

def rawReadCmd (c : Cmd) (s : State) : State :=
  let ch := pktField c.pkt 8 1
  let die := pktField c.pkt 9 1
  let plane := pktField c.pkt 10 1
  let block := pktField c.pkt 12 2
  let page := pktField c.pkt 14 2
  let n := superAt s ch die plane block
  let x : Super := (n.map (superOf s ch die)).getD {}
  if x.slc && 383 < page then complete c.tag (stInvalidField 14 0) s
  else if !dieFree s (dieKey ch die) || !flashOn s then s
  else if n.any (fun k => (dieOf s ch die).work = some (.erase k)) then flashGo ch (complete c.tag stBusyErase s)
  else
    let p := rawPlace x plane page
    let k := (((dieKey ch die * 4 + plane) * 1280 + block) * 1536 + page) * 2
    flashGo ch (match mapFind p.1 x.vers with
      | none => reply c 0 (rawFree s k (rawLen c) []) (stSuccess 0 0 0) (bump s)
      | some v => rawPageRead c k p.2 v (countReads [{ ch := ch, die := die, super := n.getD 0, pos := p.1 }] s))

/-- RAW_READ: one page of one plane (R242, R272). -/
def execRawRead (tag : Nat) (s : State) : Host.Outcome State Fault Refusal := unitOp true (onCmd 0x79 tag anyPkt rawReadCmd s)

end Sys2Proof.Machine
end

