-- ==== Sys2Proof/Machine/Prefetch.lean ====
section
/-! DEFINITION. The prefetch engine's events (R212, R223-R225, R311). -/

namespace Sys2Proof.Machine

/-- Add a mask to the need set of an object (R229). -/
def addNeed (id : Nat) (m : Mask) : List (Nat × Mask) → List (Nat × Mask)
  | [] => [(id, m)]
  | p :: l => if p.1 = id then (id, p.2 ||| m) :: l else p :: addNeed id m l

/-- An accepted post: its mask joins the need sets before the snapshot, the object is held, and what it lacks is read (R224, R229). -/
def takePost (n : Nat) (p : Post) (s : State) : State :=
  match objOf s p.obj with
  | none => s
  | some o =>
    let s := if s.frame.snapDone then s else updCtx n (fun c => { c with needs := addNeed p.obj p.mask c.needs }) s
    let s := updObj p.obj (fun o => { o with
      held := true, posted := true, posts := o.posts + 1, lastUse := s.frame.counter.toNat
      started := o.started || objResident o || readBegun s p.obj }) s
    if objResident o || (o.posted && s.inFlight.contains p.obj) then s else startFill p.obj true s

def acceptPost (n lc : Nat) (s : State) : State :=
  match (clusterOf s n lc).posts with
  | [] => s
  | p :: l =>
    if 8192 ≤ s.inFlight.length then s
    else
      let s := updCluster n lc (fun k => { k with posts := l }) s
      takePost n p (updCore p.core (fun k => { k with postsOut := k.postsOut - 1 }) s)

/-- The engine accepts the oldest post of a cluster's queue (R224). -/
def execPostAccepted (ctx lcluster : Nat) (s : State) : Host.Outcome State Fault Refusal :=
  unitOp (wfCtx ctx && lcluster < 250) (acceptPost ctx lcluster s)

/-- Fills that wait for room are tried again (R223). -/
def execFillRetry (ctx : Nat) (s : State) : Host.Outcome State Fault Refusal := unitOp (wfCtx ctx) (retryFills ctx s)

/-- Something asks for the binding's copies: a placement or pin that waits, a post, or a pin of level 2. -/
def bindingAsked (o : Obj) : Bool := !o.fillTags.isEmpty || o.posted || o.pin = 2

/-- The gather engine has filled a T1 binding from T2 (R212). -/
def execGatherFillComplete (obj : Nat) (s : State) : Host.Outcome State Fault Refusal :=
  unitOp true (if (objOf s obj).any bindingAsked then fillBinding obj s else s)

/-- Read a poisoned granule of a CLEAN copy again, with the priority of a post where one names the object (R311). -/
def repairGranule (id g : Nat) (s : State) : State :=
  match objOf s id with
  | none => s
  | some o =>
    if o.copy.any (fun c => (badGranules c).contains g && !unrecoverable s o c g && !c.missing.contains g) && !importRefused s o then
      issueMissing id o.posted (updObj id (fun o => { o with copy := o.copy.map (fun c => { c with missing := setAdd g c.missing }) }) s)
    else s

/-- GRANULE_REPAIR (R311). -/
def execGranuleRepair (obj granule : Nat) (s : State) : Host.Outcome State Fault Refusal := unitOp true (repairGranule obj granule s)

end Sys2Proof.Machine
end

