-- ==== Sys2Proof/Machine/Slices.lean ====
section
/-! DEFINITION. The scheduler within a frame: placement, victims and the swap engine (R323-R330), the deadline snapshot (R229-R235), slices
(R331-R335), and the faults of time (R339, R425). -/

namespace Sys2Proof.Machine

/-! ### Placement (R323-R325) -/

/-- The domain is powered and not being powered off. -/
def domainUp (s : State) (d : Nat) : Bool := mapGet .off s.power.compute d = .on && s.power.domOff.all (fun p => p.1 != d)

/-- Domains a context holds, or takes when the swap engine reaches it. -/
def domainsOf (c : Context) : List Nat := c.alloc ++ c.place

/-- Contexts that keep or take domains: resident and not being swapped out, or placed by a plan. -/
def staying (s : State) : SMap Context := s.ctxs.filter (fun p => (isResident p.2 && p.2.state != .swappingOut) || !p.2.place.isEmpty)

/-- Contexts that count against the 32: those, and any that DOMAIN_CONTROL is swapping out. The place of a victim goes to the context it
made room for, whose swap-in follows in the same queue (R323, R329). -/
def residents (s : State) : Nat := (staying s).length + (s.ctxs.filter (fun p => p.2.state = .swappingOut && p.2.evacuating)).length

/-- Contexts on a domain. -/
def onDomain (s : State) (d : Nat) : SMap Context := (staying s).filter (fun p => (domainsOf p.2).contains d)

/-- T1 quota that a placed context will have: a lowered one counts from its swap-in (R217). -/
def placedT1 (c : Context) : Nat := c.lowerT1.getD c.quotaT1

/-- A slice of a shared domain is at least 40 µs (R324). -/
def sliceLong (s : State) (pct : Nat) : Bool := 4000 ≤ pct * s.frame.effPeriod

/-- The domain can take the context. -/
def domainFits (s : State) (c : Context) (d : Nat) : Bool :=
  let l := onDomain s d
  domainUp s d && l.length < 4 && ((l.map (fun (p : Nat × Context) => p.2.slicePct)).foldl (· + ·) c.slicePct) ≤ 100 &&
  ((l.map (fun (p : Nat × Context) => if p.2.place.isEmpty then p.2.quotaT1 else placedT1 p.2)).foldl (· + ·) (placedT1 c)) ≤ 64 &&
  (l.isEmpty || (sliceLong s c.slicePct && l.all (fun p => sliceLong s p.2.slicePct)))

/-- Clusters of a domain without an offline core (R96). -/
def onlineClusters (s : State) (d : Nat) : Nat := ((domainClusters s d).filter (fun k => !clusterOffline s k)).length

/-- The domains a context is placed on: the lowest that fit; where those have too few clusters for its image, those with the most. -/
def chooseDomains (s : State) (c : Context) : Option (List Nat) :=
  let fit := ((List.range (computeDomains s)).map (· + 5)).filter (domainFits s c)
  let need := (c.prog.map (·.clusters)).getD 0
  let total (l : List Nat) : Nat := (l.map (onlineClusters s)).foldl (· + ·) 0
  let low := fit.take c.domains
  let most := sortBy (fun a b => a < b) ((sortBy (fun a b => onlineClusters s b < onlineClusters s a) fit).take c.domains)
  if fit.length < c.domains then none
  else if need ≤ total low then some low
  else if need ≤ total most then some most
  else none

/-- The T2 quota covers the save area beside what is already charged (R216). -/
def saveFits (s : State) (n : Nat) : Bool :=
  let c := ctxOf s n
  t2Use s n - saveArea c + (184 * c.domains + 1) * 1048576 ≤ c.quotaT2 * 1048576

/-- Where a waiting context would be placed. -/
def placeAt (s : State) (n : Nat) : Option (List Nat) :=
  if residents s < 32 && saveFits s n then chooseDomains s (ctxOf s n) else none

/-- Swap operations of a context, domain by domain. -/
def swapOps (n : Nat) (ds : List Nat) (inward : Bool) : List SwapOp := ds.map (fun d => { ctx := n, domain := d, swapIn := inward })

/-- The swap engine reaches a context that a plan placed: its domains are assigned. Charges on other domains lapse (R335), a lowered T1 quota
takes effect (R217). -/
def beginSwapIn (s : State) : State :=
  match s.swaps.head? with
  | none => s
  | some o =>
    if o.swapIn && !(ctxOf s o.ctx).place.isEmpty then
      updCtx o.ctx (fun c => { c with
        state := .swappingIn, alloc := c.place, place := [], quotaT1 := placedT1 c, lowerT1 := none
        charges := c.charges.filter (fun p => c.place.contains p.1), credits := c.credits.filter (fun p => c.place.contains p.1) }) s
    else s

/-- Place a context: its swap-ins queue behind the swap-outs that make room for it (R329). -/
def swapInAt (n : Nat) (ds : List Nat) (s : State) : State :=
  let s := updCtx n (fun c => { c with place := ds }) s
  beginSwapIn { s with swaps := s.swaps ++ swapOps n ds true }

/-- Swap a context out, for a victim or for DOMAIN_CONTROL. -/
def swapOut (evac : Bool) (n : Nat) (s : State) : State :=
  let s := leaveSlice n s
  let ds := (ctxOf s n).alloc
  { (updCtx n (fun c => { c with state := .swappingOut, cut := false, evacuating := evac }) s) with swaps := s.swaps ++ swapOps n ds false }

/-! ### Victims (R328) -/

/-- Frame in which an awaited event is due; 65,535 frames stand for never. -/
def dueFrame (c : Context) : Nat := if c.waitFrames = 65535 then 2 ^ 70 else c.blockedAt + c.waitFrames

/-- Victims for a context of class `cls`, in the order they are taken. -/
def candidates (s : State) (cls : Nat) : List Nat :=
  (sortBy (fun (a b : Nat × Context) => a.2.cls < b.2.cls || (a.2.cls = b.2.cls && (dueFrame b.2 < dueFrame a.2 ||
      (dueFrame a.2 = dueFrame b.2 && b.1 < a.1))))
    (s.ctxs.filter (fun p => p.2.state = .blocked && p.2.cls ≤ cls))).map (fun (p : Nat × Context) => p.1)

/-- Take victims in order until the context can be placed: the state with their swap-outs issued, and the place. -/
def takeVictims (n : Nat) : List Nat → State → Option (State × List Nat)
  | [], s => (placeAt s n).map (fun ds => (s, ds))
  | v :: l, s =>
    match placeAt s n with
    | some ds => some (s, ds)
    | none => takeVictims n l (swapOut false v s)

/-- Place one waiting context, or leave it OUT. -/
def placeCtx (n : Nat) (s : State) : State :=
  match takeVictims n (candidates s (ctxOf s n).cls) s with
  | some (t, ds) => swapInAt n ds t
  | none => s

/-- Acceptance order of the oldest command released to a context. -/
def oldestWork (s : State) (n : Nat) : Nat := (s.host.cmds.takeWhile (fun c => !wantsRun s n c)).length

/-- Contexts that wait, in the order they are placed (R325); not before a save area is zeroed (R340). -/
def waitingCtxs (s : State) : List Nat :=
  (sortBy (fun (a b : Nat × Context) => b.2.cls < a.2.cls || (a.2.cls = b.2.cls && oldestWork s a.1 < oldestWork s b.1))
    (s.ctxs.filter (fun p => p.2.state = .out && p.2.place.isEmpty && !p.2.wiping && hasWork s p.1))).map (fun (p : Nat × Context) => p.1)

/-- Slices of the next frame: resident contexts by CLASS and number, none on a domain that is being powered off (R331, Table 11-6). -/
def planOf (s : State) : List Nat :=
  (sortBy (fun (a b : Nat × Context) => b.2.cls < a.2.cls || (a.2.cls = b.2.cls && a.1 < b.1))
    ((staying s).filter (fun p => p.2.state != .teardown && p.2.state != .destroying &&
      (domainsOf p.2).all (fun d => s.power.domOff.all (fun q => q.1 != d))))).map (fun (p : Nat × Context) => p.1)

def awake (s : State) : Bool := s.host.devState = .ready

def closePlan (s : State) : State :=
  if s.frame.planClosed then s
  else
    let s := if awake s then (waitingCtxs s).foldl (fun s n => placeCtx n s) s else s
    { s with frame := { s.frame with planClosed := true, plan := if awake s then planOf s else [] }
             ef := if s.power.d1 then suspendErase s.ef else s.ef }

/-- The frame plan closes: waiting contexts are placed, victims chosen and swaps issued (R325-R331). The firmware has suspended any erase of
the embedded flash (R60, R438). -/
def execFramePlanClose (s : State) : Host.Outcome State Fault Refusal := unitOp true (closePlan s)

/-! ### The deadline snapshot (R51, R228-R235) -/

/-- Requests that an object of their need set, or a post still in a queue, marks (R229, R230). -/
def markedMask (s : State) (n : Nat) : Mask :=
  let c := ctxOf s n
  let m := c.needs.foldl (fun (m : Mask) p => if (objOf s p.1).any objResident then m else m ||| p.2) 0
  c.clusters.foldl (fun m k => k.2.posts.foldl (fun m p => m ||| p.mask) m) m

/-- Decide the requests of one context. -/
def decideCtx (n : Nat) (s : State) : State :=
  let c := ctxOf s n
  let mask := markedMask s n
  let k := countMask 256 mask
  let s := countFor n (if c.sketch.isSome then { sketch := k } else { missed := k }) s
  let s := { s with logs := { s.logs with cur := { s.logs.cur with requests := s.logs.cur.requests + (c.run.map (·.nreq)).getD 0 } } }
  match c.state with
  | .runnable => applyDecision n mask s.frame.counter.toNat s
  | .blocked => applyDecision n mask s.frame.counter.toNat s
  | .out => updCtx n (fun c => { c with decisionDue := some (mask, s.frame.counter.toNat) }) s
  | .swappingIn => updCtx n (fun c => { c with decisionDue := some (mask, s.frame.counter.toNat) }) s
  | .swappingOut => updCtx n (fun c => { c with decisionDue := some (mask, s.frame.counter.toNat) }) s
  | _ => s

def snapshot (s : State) : State :=
  if s.frame.snapDone then s
  else
    let s := if awake s then (s.ctxs.map (fun (p : Nat × Context) => p.1)).foldl (fun s n => decideCtx n s) s else s
    { s with frame := { s.frame with snapDone := true } }

/-- The snapshot and the decisions of the frame (R51, R230, R234). -/
def execDeadlineSnapshot (s : State) : Host.Outcome State Fault Refusal := unitOp true (snapshot s)

/-! ### Slices (R61, R130, R331-R335) -/

/-- Two contexts share a domain. -/
def sharesDomain (s : State) (a b : Nat) : Bool := (ctxOf s a).alloc.any (fun d => (ctxOf s b).alloc.contains d)

/-- Slices before this one in the frame, on a shared domain, of contexts that are not skipped (R333). -/
def earlierSlice (s : State) (n : Nat) : Bool :=
  (s.frame.slices.takeWhile (· != n)).any (fun m => sharesDomain s n m && (ctxOf s m).state = .runnable)

/-- An instruction that cannot be preempted still runs on the core: the array streams, or an atomic run goes on (R61, R131). -/
def coreBusy (k : Core) : Bool := k.streaming.isSome || (k.atom != 0 && k.phase = .running)

/-- One still runs on some core of the context. -/
def stillBusy (c : Context) : Bool := c.cores.any (fun k => coreBusy k.2) || c.sketchCores.any (fun k => coreBusy k.2)

/-- The slice may start: it is planned, its context is RUNNABLE and loaded, and the domains are free: no other slice goes on there, and no
instruction of an earlier one (R61). -/
def sliceReady (s : State) (n : Nat) : Bool :=
  awake s && s.frame.slices.contains n && (ctxOf s n).state = .runnable && !(ctxOf s n).inSlice && !earlierSlice s n &&
  s.swaps.all (fun o => o.ctx != n) &&
  !s.ctxs.any (fun p => p.1 != n && (p.2.inSlice || stillBusy p.2) && sharesDomain s n p.1)

/-- The context has its domains to itself. -/
def aloneOn (s : State) (n : Nat) : Bool := (ctxOf s n).alloc.all (fun d => (onDomain s d).all (fun p => p.1 = n))

/-- Planned length of a context's slice, ns: the whole frame for a context alone on its domains (R331). -/
def sliceNs (s : State) (n : Nat) : Nat :=
  if aloneOn s n then s.frame.effPeriod * 1000 else (ctxOf s n).slicePct * s.frame.effPeriod * 10

/-- A charge or credit is used up by a slice of `len` ns, but for the part of a charge that exceeds it (R61). -/
def chargeLeft (len : Nat) (c : Int) : Int := min 0 (c + len)

/-- Add up charges and credits by domain. -/
def addCharges (a b : SMap Int) : SMap Int := b.foldl (fun m p => mapSet 0 p.1 (mapGet 0 m p.1 + p.2) m) a

/-- The queued array instruction starts where none streams. -/
def startQueued (k : Core) : Core := if k.streaming.isNone then { k with streaming := k.queuedOp, queuedOp := none } else k

/-- A core goes on with its slice; at duty 0 its withdrawn array instruction still waits (R479). -/
def resumeCore (starts : Bool) (k : Core) : Core :=
  let k := match k.phase with
    | .yielded _ => { k with phase := .running }
    | _ => k
  if starts then startQueued k else k

/-- The duty is no longer 0: the array instructions that wait in a running slice start (R479, R481). -/
def endDutyZero (s : State) : State :=
  { s with ctxs := mapVals (fun (c : Context) =>
      if c.inSlice && !c.cut then { c with cores := mapVals startQueued c.cores, sketchCores := mapVals startQueued c.sketchCores } else c) s.ctxs }

/-- A slice uses up what its context owes or is owed, but not the credit for this very slice's displacement. -/
def startSlice (n : Nat) (s : State) : State :=
  if sliceReady s n then
    let len := sliceNs s n
    updCtx n (fun c => { c with
      inSlice := true, cut := false, cores := mapVals (resumeCore (s.power.duty != 0)) c.cores, sketchCores := mapVals (resumeCore (s.power.duty != 0)) c.sketchCores
      charges := addCharges ((mapVals (chargeLeft len) c.charges).filter (fun p => p.2 != 0)) c.credits, credits := [] })
      { s with frame := { s.frame with slices := s.frame.slices.filter (· != n) } }
  else s

/-- A planned slice begins (R332): yielded cores and withdrawn array instructions go on. -/
def execSliceStart (ctx : Nat) (s : State) : Host.Outcome State Fault Refusal := unitOp (wfCtx ctx) (startSlice ctx s)

/-- The context whose slice follows on a domain. -/
def displaced (s : State) (d : Nat) : Option Nat :=
  s.frame.slices.find? (fun m => (ctxOf s m).alloc.contains d && (ctxOf s m).state = .runnable)

/-- Charge the overrun to the context on a domain, and credit it to the context whose slice it displaced there, for the slice after. -/
def chargeOverrun (n overrun : Nat) (s : State) (d : Nat) : State :=
  let t := updCtx n (fun c => { c with charges := addCharges c.charges [(d, -(overrun : Int))] }) s
  match displaced s d with
  | some m => updCtx m (fun c => { c with credits := addCharges c.credits [(d, (overrun : Int))] }) t
  | none => t

/-- The slice of a context ends, or has been cut by the tick, and its instruction overran by so many ns (R61, R62). -/
def endSlice (n overrun : Nat) (s : State) : State :=
  if !((ctxOf s n).inSlice || (ctxOf s n).cut) then s
  else
    let s := updCtx n (fun c => { c with cut := false }) (leaveSlice n s)
    let s := if overrun = 0 then s else (ctxOf s n).alloc.foldl (chargeOverrun n overrun) s
    { s with logs := { s.logs with cur := { s.logs.cur with overrun := max s.logs.cur.overrun (overrun / 100) } } }

/-- A slice ends; an overrun is charged, and credited to the context it displaced (R61, R130, R335). -/
def execSliceEnd (ctx overrunNs : Nat) (s : State) : Host.Outcome State Fault Refusal := unitOp (wfCtx ctx) (endSlice ctx overrunNs s)

/-! ### The swap engine (R326-R330, Table 11-5) -/

/-- Power off the domains whose DOMAIN_CONTROL has passed its second tick and that no context holds any more (Table 11-6); their
memories are gone, and their scrub engines start again when they return (R316). -/
def offReady (s : State) : State :=
  (s.power.domOff.filter (fun p => 2 ≤ p.2.2 && s.ctxs.all (fun c => !((isResident c.2 && c.2.alloc.contains p.1) || c.2.place.contains p.1)))).foldl (fun s p =>
    let s := restartEngines 1 (fun u => 5 + u / 10 = p.1) s
    complete p.2.1 (stSuccess 0 0 0) { s with
      power := { s.power with
        compute := mapSet .off p.1 .off s.power.compute, domOff := s.power.domOff.filter (fun q => q.1 != p.1) }
      idle := s.idle.filter (fun q => 5 + q.1 / 10 != p.1) }) s

/-- A context's last domain has been saved. -/
def savedOut (n : Nat) (s : State) : State :=
  if s.swaps.any (fun o => o.ctx = n) || (ctxOf s n).state != .swappingOut then s
  else offReady (updCtx n (fun c => { c with state := .out, saved := true, alloc := [], evacuating := false }) s)

def swapDone (saveError : Bool) (s : State) : State :=
  let s := beginSwapIn s
  match s.swaps with
  | [] => s
  | o :: l =>
    if o.wipe then s
    else if o.swapIn && saveError && (ctxOf s o.ctx).saved then
      contextFault o.ctx 0x20 0xFFFFFFFF (logEvent 4 2 0x20 o.ctx o.domain 0 0 0 s)
    else beginSwapIn (savedOut o.ctx { s with swaps := l })

/-- The swap engine has moved one domain; an uncorrectable code word of the save area faults the context (R326, Table 11-5). -/
def execSwapDomainComplete (saveError : Bool) (s : State) : Host.Outcome State Fault Refusal := unitOp true (swapDone saveError s)

/-- The save area has been zeroed: the context may be placed again, or its destruction goes on with its objects (R340 step 7, Table 11-6). -/
def wiped (n : Nat) (s : State) : State :=
  match s.swaps with
  | o :: l =>
    if o.wipe && o.ctx = n then
      let s := beginSwapIn (updCtx n (fun c => { c with wiping := false, saved := false }) { s with swaps := l })
      match s.host.cmds.find? (fun c => pktOpcode c.pkt = 0x21 && pktCtx c.pkt = n && c.extra = 1) with
      | some c => destroyObjects c s
      | none => s
    else s
  | [] => s

def execTeardownComplete (ctx : Nat) (s : State) : Host.Outcome State Fault Refusal := unitOp (wfCtx ctx) (wiped ctx s)

/-! ### Faults of time -/

/-- A run has not halted in RUN_FRAMES ticks (R339). -/
def runLate (n : Nat) (s : State) : State :=
  if (ctxOf s n).run.any (fun u => (ctxOf s n).runFrames ≤ u.ticks) then contextFault n 0x21 0xFFFFFFFF (logEvent 1 2 0x21 n 0 0 0 0 s) else s

def execRunTimeout (ctx : Nat) (s : State) : Host.Outcome State Fault Refusal := unitOp (wfCtx ctx) (runLate ctx s)

/-- A PIPE batch has waited RUN_FRAMES since its run started: only that batch ends (R425). -/
def pipeLate (tag : Nat) (s : State) : State :=
  match cmdOf s tag with
  | none => s
  | some c =>
    let x := ctxOf s (pktCtx c.pkt)
    if pipeWaiting c && !x.run.any (fun u => u.tag = tag) && c.extra + x.runFrames ≤ s.frame.counter.toNat then
      faultCmd 0x21 0xFFFFFFFF c s
    else s

def execPipeBatchTimeout (tag : Nat) (s : State) : Host.Outcome State Fault Refusal := unitOp true (pipeLate tag s)

end Sys2Proof.Machine
end

