-- ==== Sys2Proof/Machine/Sleep.lean ====
section
/-! DEFINITION. Sleep states (R485-R489, Tables 18-3, 18-4), DOMAIN_CONTROL (R476, Table 11-6) and the events of power (R481, R484,
R499, R500). -/

namespace Sys2Proof.Machine

/-! ### SLEEP (0x0B) -/

def isLevel (n : Nat) (p : PacketBits) : Bool := pktField p 8 1 = n

/-- S0 again: at once from S0 and S1; from S2 at the tick after the exit. -/
def wakeCmd (c : Cmd) (s : State) : State :=
  if inS2 s then startWake (keepRunning c 0 { s with power := { s.power with wakeTag := c.tag } })
  else complete c.tag (stSuccess 0 0 0) (leaveS1 s)

/-- SLEEP with LEVEL 0 (R485, R486). -/
def execSleepS0 (tag : Nat) (s : State) : Host.Outcome State Fault Refusal := unitOp true (onCmd 0x0B tag (isLevel 0) wakeCmd s)

/-- Ask for S1 or S2: at once where the module is there already; S1 from S2 starts with the exit. -/
def sleepCmd (level : Nat) (c : Cmd) (s : State) : State :=
  if s.host.devState = .sleep && s.host.sleepLevel = level && !s.power.waking && !s.power.woken then complete c.tag (stSuccess 0 0 0) s
  else
    startWake (keepRunning c 0
      { s with power := { s.power with sleepReq := some (c.tag, level, BitVec.ofNat 32 (pktField c.pkt 12 4)) } })

/-- SLEEP with LEVEL 1: entry waits for a tick that meets R485. -/
def execSleepS1 (tag : Nat) (s : State) : Host.Outcome State Fault Refusal := unitOp true (onCmd 0x0B tag (isLevel 1) (sleepCmd 1) s)

/-- SLEEP with LEVEL 2. -/
def execSleepS2 (tag : Nat) (s : State) : Host.Outcome State Fault Refusal := unitOp true (onCmd 0x0B tag (isLevel 2) (sleepCmd 2) s)

/-- SLEEP with LEVEL 3: the other commands end; the checkpoint and the power-down follow its window (R420, R489). -/
def execSleepS3 (tag : Nat) (s : State) : Host.Outcome State Fault Refusal :=
  unitOp true (onCmd 0x0B tag (isLevel 3) (fun c s => endWith c 8 s) s)

/-! ### Entry -/

/-- Conditions of R485 on a sleep request. -/
def sleepMay (s : State) (tag level : Nat) : Bool :=
  (s.host.devState = .ready || (inS1 s && level = 2)) && s.ctxs.all (fun p => p.2.run.isNone) &&
  s.host.cmds.all (fun c => c.tag = tag || c.phase = .waiting) && (level = 1 || s.red.tags.all (fun t => !isOpenTag t.2))

/-- Every domain of the context keeps its cluster SRAM. -/
def retainsAll (retain : Word32) (c : Context) : Bool := c.alloc.all (fun d => retain.getLsbD (d - 5))

/-- A context as entry to S2 leaves it: retained, or saved and OUT (R487). -/
def saveForS2 (retain : Word32) (c : Context) : Context :=
  if !isResident c || (retainsAll retain c && (c.state = .runnable || c.state = .blocked)) then { c with inSlice := false, place := [] }
  else { c with inSlice := false, alloc := [], place := [], evacuating := false, state := if c.state = .destroying then .destroying else .out
                saved := c.saved || c.state = .runnable || c.state = .blocked || c.state = .swappingOut }

def enterS2 (retain : Word32) (s : State) : State :=
  let on := (s.power.compute.filter (fun p => p.2 = .on)).map (fun (p : Nat × DomState) => p.1)
  let s := { s with ctxs := mapVals (saveForS2 retain) s.ctxs, swaps := s.swaps.filter (·.wipe) }
  let s := restartEngines 0 (fun _ => true) (restartEngines 1 (fun _ => true) s)
  { s with
    host := { s.host with devState := .sleep, sleepLevel := 2 }
    power := { s.power with
      sleepOn := on.filter (fun d => !retain.getLsbD (d - 5))
      compute := (s.power.compute.filter (fun p => p.2 = .on && retain.getLsbD (p.1 - 5))).map (fun (p : Nat × DomState) => (p.1, DomState.retained)) }
    idle := s.idle.filter (fun q => retain.getLsbD (q.1 / 10)) }

def sleepNow (s : State) : State :=
  match s.power.sleepReq with
  | none => s
  | some (tag, level, retain) =>
    if sleepMay s tag level then
      let s := { s with power := { s.power with sleepReq := none } }
      complete tag (stSuccess 0 0 0)
        (if level = 1 then { s with host := { s.host with devState := .sleep, sleepLevel := 1 } } else enterS2 retain s)
    else s

/-- At a tick that meets the conditions of R485 the module enters S1 or S2, and the SLEEP completes. -/
def execSleepEntry (s : State) : Host.Outcome State Fault Refusal := unitOp true (sleepNow s)

/-- Watchdog registers at their reset values; what D0 keeps stays (Table 16-6). -/
def resetWatchdog (e : Ef) : Ef :=
  { e with wdtEnable := false, wdtLock := false, periodMs := 2000, kicked := 0, late := 0, remainingMs := 0 }

/-- D1–D29 lose power: easels closed, compute domains off, PG_OUT deasserted; the PCIe link and the host registers are gone. -/
def mainOff (s : State) : State :=
  let s := closeAllEasels (engineLost s)
  { s with
    pcie := {}
    power := { s.power with
      pgOut := false, d1 := false, d2 := false, d3 := false, d4 := false, compute := [], domOn := [], domOff := [], lastKnown := mgmtShown s } }

/-- Counts since manufacture: flash health, then lifetime temperatures (R499, R500). -/
def healthCounts (s : State) : List Nat :=
  let f := s.flash
  [f.programFails, f.eraseFails, f.mediaErrors, f.softDecodes, f.refreshes.1, f.refreshes.2.1, f.refreshes.2.2, f.bytesHost, f.bytesFlash] ++
  (List.range 32).map (mapGet 0 f.chMedia) ++ (List.range 32).map (mapGet 0 f.chSoft) ++
  (List.range 4).map (fun i => (s.power.lifeMax.getD i 0).toNat) ++ [s.power.throttleUs, s.power.thermalFaults]

/-- Save the counts to the configuration records: eight records of eleven counts. -/
def saveHealth (s : State) : State :=
  let l := healthCounts s
  let s := (List.range 8).foldl (fun s i => cfgPut (cfgHealth i) (((l.drop (11 * i)).take 11).map (BitVec.ofNat 64)) s) s
  { s with logs := { s.logs with savedHealth := l } }

/-- The counts as the configuration records hold them; none where no save stands. -/
def listedHealth (s : State) : List Nat :=
  if cfgHas s (cfgHealth 0) then
    ((List.range 8).flatMap (fun i => ((cfgGet s (cfgHealth i)).getD (List.replicate 11 0)).map (·.toNat))).take 79
  else []

/-- A list of counts by channel. -/
def chCounts (l : List Nat) : SMap Nat := (l.zipIdx.map (fun p => (p.2, p.1))).filter (fun p => p.2 != 0)

/-- The counts as the last save left them. -/
def restoreHealth (s : State) : State :=
  let g (i : Nat) : Nat := s.logs.savedHealth.getD i 0
  let l := s.logs.savedHealth
  { s with
    flash := { s.flash with
      programFails := g 0, eraseFails := g 1, mediaErrors := g 2, softDecodes := g 3, refreshes := (g 4, g 5, g 6), bytesHost := g 7
      bytesFlash := g 8, chMedia := chCounts ((l.drop 9).take 32), chSoft := chCounts ((l.drop 41).take 32) }
    power := { s.power with
      lifeMax := (List.range 4).map (fun i => BitVec.ofNat 8 (g (73 + i))), throttleUs := g 77, thermalFaults := g 78 } }

/-- The counts are saved every hour (R499). -/
def execHealthCountSave (s : State) : Host.Outcome State Fault Refusal := unitOp true (saveHealth s)

/-- What a start-up knows of an object with a home: its table entry, no copy, placement or pin (R209). -/
def homeObj (o : Obj) : Obj :=
  { kind := o.kind, size := o.size, objNo := o.objNo, exported := o.exported, ring := o.ring, peerContext := o.peerContext, peerName := o.peerName
    peerUid := o.peerUid }

/-- A superblock and a die that take a page of the checkpoint: any idle one (log entry 91). -/
def ckptPlace (s : State) : Option (Nat × Nat × Nat) :=
  let ds := (List.range (32 * diesPerChannel s)).filterMap (fun i =>
    let ch := i / diesPerChannel s
    let die := i % diesPerChannel s
    if (dieOf s ch die).work.isNone && 24 < erasedCount s ch die then (targetSuper s ch die .record).map (fun n => (ch, die, n)) else none)
  ds[(Config.free64 s.nonce).toNat % max 1 ds.length]?

/-- Program a system page in an SLC superblock. -/
def putSystem (kind : VerKind) (lga : Nat) (s : State) : Option (Loc × Nat × State) :=
  (ckptPlace s).map (fun p =>
    let x := superOf s p.1 p.2.1 p.2.2
    let v : Version := { kind := kind, slots := [{ lga := lga, seq := s.flash.seq }], pseq := s.flash.seq + 1 }
    ({ ch := p.1, die := p.2.1, super := p.2.2, pos := x.next }, s.flash.seq + 1,
     bump (updSuper p.1 p.2.1 p.2.2 (fun x => { x with
       state := if superCap true ≤ x.next + 1 then .closed else .open_, slc := true, next := x.next + 1, vers := mapPut x.next v x.vers })
       (drawSeq (drawSeq s)))))

/-- The checkpoint is programmed to SLC superblocks and its clean marker after it (R276); what its pages hold is kept beside them. -/
def putCkpt (s : State) : State :=
  match (putSystem .checkpoint (2 ^ 61 + 2) s).bind (fun p => putSystem .cleanMarker (2 ^ 61 + 3) p.2.2) with
  | none => s
  | some (l, pseq, t) =>
    let k : Ckpt := { map := s.flash.map, overlay := s.flash.overlay, objs := mapVals homeObj (s.objs.filter (fun p => p.2.kind != .scratch))
                      supers := mapVals (fun x => { x with vers := [] }) t.flash.supers, marker := l, pseq := pseq }
    { t with flash := { t.flash with ckpt := some k } }

/-- Write the checkpoint and its clean marker; the counts are saved with it (R276, R499). -/
def writeCheckpoint (s : State) : State := saveHealth (putCkpt s)

/-- S3 is reached: the checkpoint stands, D1–D29 are off (R276, R450, R489). -/
def reachS3 (s : State) : State :=
  if s.power.s3Flush then
    let s := mainOff (writeCheckpoint s)
    { s with
      power := { s.power with s3Flush := false, s3 := true }
      host := { s.host with devState := .sleep, sleepLevel := 3 }
      ef := resetWatchdog s.ef }
  else s

def execS3Reached (s : State) : Host.Outcome State Fault Refusal := unitOp true (reachS3 s)

/-- The domains that S2 took down are up again. -/
def domainsBack (p : Power) : Power :=
  { p with waking := false, sleepOn := []
           compute := p.sleepOn.foldl (fun m d => mapPut d DomState.on m) (mapVals (fun _ => DomState.on) p.compute) }

/-- The exit from S2 ends: domains and retained contexts are back; READY follows at the next tick (R486). -/
def exitS2 (s : State) : State :=
  if inS2 s && s.power.waking then
    { s with power := { domainsBack s.power with woken := true } }
  else s

def execSleepExitComplete (s : State) : Host.Outcome State Fault Refusal := unitOp true (exitS2 s)

/-! ### DOMAIN_CONTROL (0x0C) -/

def domOf (c : Cmd) : Nat := pktField c.pkt 8 1

/-- A DOMAIN_CONTROL of this domain is in progress. -/
def domBusy (s : State) (d : Nat) : Bool := s.power.domOff.any (fun p => p.1 = d) || s.power.domOn.any (fun p => p.1 = d)

def domOffCmd (c : Cmd) (s : State) : State :=
  let d := domOf c
  if domBusy s d || inS2 s then s
  else if mapGet .off s.power.compute d = .off then complete c.tag (stSuccess 0 0 0) s
  else keepRunning c 0 { s with power := { s.power with domOff := s.power.domOff ++ [(d, c.tag, s.frame.counter.toNat - c.frame)] } }

/-- DOMAIN_CONTROL with ACTION 0: no slice is planned on the domain; FRAME_TICK ends what still runs at the second tick, and the domain
powers off when no context holds it (Table 11-6, R343). -/
def execDomainControlOff (tag : Nat) (s : State) : Host.Outcome State Fault Refusal :=
  unitOp true (onCmd 0x0C tag (fun p => pktField p 9 1 = 0) domOffCmd s)

def domOnCmd (c : Cmd) (s : State) : State :=
  let d := domOf c
  if domBusy s d || inS2 s then s
  else if mapGet .off s.power.compute d != .off then complete c.tag (stSuccess 0 0 0) s
  else keepRunning c 0 { s with power := { s.power with domOn := s.power.domOn ++ [(d, c.tag, false)] } }

/-- DOMAIN_CONTROL with ACTION 1: the domain powers up and its T0 and T1 are zeroed (R476). -/
def execDomainControlOn (tag : Nat) (s : State) : Host.Outcome State Fault Refusal :=
  unitOp true (onCmd 0x0C tag (fun p => pktField p 9 1 = 1) domOnCmd s)

/-- The domain is in regulation and zeroed: FRAME_TICK completes its DOMAIN_CONTROL (R476). -/
def execDomainPowerUpComplete (dom : Nat) (s : State) : Host.Outcome State Fault Refusal :=
  unitOp (5 ≤ dom && dom ≤ 29)
    { s with power := { s.power with domOn := s.power.domOn.map (fun p => if p.1 = dom then (p.1, p.2.1, true) else p) } }

/-! ### The power cap within a frame (R481) -/

/-- LIMITED: the duty was below 16 at some time in the frame. -/
def setDuty (d : Nat) (p : Power) : Power := { p with duty := d, dutyMin := min p.dutyMin d }

def windowEnd (avgW : Nat) (s : State) : State :=
  if s.power.capW < avgW && 1 ≤ s.power.duty then { s with power := setDuty (max 1 (s.power.duty - 1)) s.power } else s

/-- A 100 µs window whose average exceeds CAP_W lowers the duty by one, to a minimum of 1 (R481). -/
def execPowerWindowEnd (avgW : Nat) (s : State) : Host.Outcome State Fault Refusal := unitOp true (windowEnd avgW s)

def powerSampled (w : Nat) (s : State) : State :=
  let p := s.power
  if 4000 < w && p.duty != 0 then { s with power := { setDuty 0 p with lastDuty := p.duty, trips := stick32 (p.trips + 1) } }
  else if w < p.capW && p.duty = 0 then endDutyZero { s with power := { p with duty := p.lastDuty } }
  else s

/-- A 1 µs sample above 4,000 W sets the duty to 0 and is counted; one below CAP_W restores the last duty that was not 0 (R481). -/
def execPowerSample (watts : Nat) (s : State) : Host.Outcome State Fault Refusal := unitOp true (powerSampled watts s)

/-! ### FAULT (R484, Table 14-4) -/

/-- The module goes into FAULT: D2–D29 are off and every easel closes; D0 and D1 stay, and only a reset leaves it. -/
def enterFault (cause : Nat) (s : State) : State :=
  let s := closeAllEasels (engineLost s)
  { s with
    host := { s.host with devState := .fault, faultCause := cause, sleepLevel := 0, progress := 0 }
    power := { s.power with
      d2 := false, d3 := false, d4 := false, pgOut := false, compute := [], domOn := [], domOff := [], waking := false, woken := false } }

/-- D1 is powered, and the module is not in FAULT already, which only a reset leaves. -/
def canFault (s : State) : Bool := s.power.d1 && s.host.devState != .fault

/-- 110 °C on the die or 100 °C on HBM held for 10 ms: FAULT THERMAL (R484). -/
def execThermalFault (s : State) : Host.Outcome State Fault Refusal :=
  unitOp true (if canFault s then
    enterFault 4 (logEvent 15 3 4 0 0 0 0 0 { s with power := { s.power with thermalFaults := s.power.thermalFaults + 1 } }) else s)

/-- A main-rail or converter fault that PG_IN does not report: FAULT POWER (R484). -/
def execPowerFault (s : State) : Host.Outcome State Fault Refusal :=
  unitOp true (if canFault s then enterFault 5 (logEvent 15 3 5 0 0 0 0 0 s) else s)

/-- The processor has that duty: SP1 serves the contexts, SP2 to SP5 the flash translation layer (Table 1-4). -/
def hasDuty (sp : Nat) (d : Duty) : Bool :=
  match d with
  | .context _ => sp = 1
  | .flashMap => 2 ≤ sp && sp ≤ 5
  | _ => true

/-- Percentage complete: any value (log entry 2). -/
def freeProgress (s : State) : State := bump { s with host := { s.host with progress := (Config.free64 s.nonce).toNat % 101 } }

/-- What a firmware exception does to the duty it strikes (Table 10-3). -/
def firmwareStruck (sp : Nat) (d : Duty) (s : State) : State :=
  match d with
  | .restartable => logBy sp 13 0 0 0 0 0 s
  | .context n => contextFault n 0x22 0xFFFFFFFF (logBy sp 13 2 0x22 n 0 0 s)
  | .flashMap =>
    let s := logBy sp 13 0 5 0 0 0 s
    if s.host.devState = .booting || s.host.devState = .gesso then s
    else freeProgress { s with host := { s.host with devState := .rebuilding, sleepLevel := 0 }, flash := { s.flash with ckpt := none }
                               power := if inS2 s then domainsBack s.power else s.power }
  | .module => enterFault 3 (logBy sp 13 3 3 0 0 0 s)

/-! ### Temperatures and health (R499, R500) -/

/-- 15 minutes have passed: the maxima enter history slot 0 (R500). -/
def execTemperatureHistoryInterval (s : State) : Host.Outcome State Fault Refusal :=
  unitOp true { s with power := { s.power with history := (s.power.tempMax :: s.power.history).take 96, tempMax := [] } }

end Sys2Proof.Machine
end

