-- ==== Sys2Proof/Machine/Efc.lean ====
section
/-! DEFINITION. The embedded-flash controller (R434-R443, Tables 16-3, 16-4), the watchdog (R448-R450, Table 16-6) and the scrub engines
(R313-R316), with the accesses of the supervisor processors to their address space (R428). -/

namespace Sys2Proof.Machine

/-! ### The lock -/

/-- OWNER: a processor takes the free lock by its own number and frees its own lock by 0xF (R441). -/
def lockWrite (sp : Nat) (v : BitVec 4) (e : Ef) : Ef :=
  if (e.owner = 15 && v.toNat = sp) || (e.owner = sp && v = 15) then { e with owner := v.toNat } else e

def execEfcLock (sp : Nat) (owner : BitVec 4) (s : State) : Host.Outcome State Fault Refusal :=
  unitOp (wfSp sp) (if s.power.d1 then { s with ef := lockWrite sp owner s.ef } else s)

/-! ### Commands. A command that is accepted clears DONE, REFUSED and CAUSE; one that is refused sets REFUSED and its lowest cause. -/

/-- Word address in the OTP row: WORD [11:3] (Table 16-4). -/
def otpIndex (w : BitVec 20) : Nat := w.toNat % 512

/-- Row of Table 16-3a, from 0, that holds a sector. -/
def sectorRow (n : Nat) : Nat :=
  if n < 1792 then 0 else if n < 3584 then 1 else if n < 3840 then 2 else if n < 3872 then 3 else if n < 4000 then 4
  else if n < 4064 then 5 else 6

/-- OTP words that OTP_LOCK closes (R451). -/
def otpClosed (s : State) (i : Nat) : Bool := otpWord s 346 = 0 && (i < 72 || (336 ≤ i && i < 344))

def guardHit (s : State) : Bool := s.ef.stallGuard && s.ef.guarded

/-- A bit of the word, or of its check byte, would rise; a poisoned word has every bit at 0 (R431, R434). -/
def bitRise (old new : Word64) (poisoned : Bool) : Bool :=
  poisoned || (old != erasedWord && ((new &&& ~~~old) != 0 || (Config.checkByte new &&& ~~~(Config.checkByte old)) != 0))

/-- Causes that refuse a PROGRAM (Tables 16-3, 16-4). -/
def programCauses (s : State) (w : BitVec 20) (otp : Bool) (data : Word64) : List Nat :=
  errIf s.ef.busy 1 ++
  errIf (if otp then bitRise (otpWord s (otpIndex w)) data false else bitRise (efWord s w.toNat) data (s.ef.poisoned.contains w.toNat)) 2 ++
  errIf (s.ef.suspended && !otp && w.toNat / 256 = s.ef.eraseSec) 3 ++
  errIf (if otp then otpClosed s (otpIndex w) else s.ef.protect.getLsbD (sectorRow (w.toNat / 256))) 6 ++ errIf (guardHit s) 7

def eraseCauses (s : State) (w : BitVec 20) (otp : Bool) : List Nat :=
  errIf s.ef.busy 1 ++ errIf s.ef.suspended 4 ++ errIf (otp || s.ef.protect.getLsbD (sectorRow (w.toNat / 256))) 6 ++ errIf (guardHit s) 7

def efcRefuse (cause : Nat) (e : Ef) : Ef := { e with refused := true, done := false, cause := cause }

/-- Answer a command of the lock's owner: refused with the lowest cause, or started. -/
def efcAnswer (sp : Nat) (causes : List Nat) (start : Ef → Ef) (s : State) : State :=
  if !s.power.d1 || s.ef.owner != sp then s
  else
    match firstErr causes with
    | some k => { s with ef := efcRefuse k s.ef }
    | none => { s with ef := start { s.ef with refused := false, done := false, cause := 0 } }

/-- The address and data registers (0x08–0x10). -/
def efcRegs (w : BitVec 20) (otp : Bool) (s : State) : State :=
  if s.power.d1 then { s with ef := { s.ef with word := w, otpSel := otp } } else s

def efcData (d : Word64) (s : State) : State := if s.power.d1 then { s with ef := { s.ef with data := d } } else s

/-- PROGRAM of the word that the registers hold. -/
def efcProgram (sp : Nat) (s : State) : State :=
  efcAnswer sp (programCauses s s.ef.word s.ef.otpSel s.ef.data) (fun e => { e with
    busy := true, activeOp := 1, actWord := if e.otpSel then otpIndex e.word else e.word.toNat, actOtp := e.otpSel, actData := e.data }) s

/-- PROGRAM (R434): the word is programmed when EF_OPERATION_DONE comes. -/
def execEfProgram (sp : Nat) (word : BitVec 20) (otp : Bool) (data : Word64) (s : State) : Host.Outcome State Fault Refusal :=
  unitOp (wfSp sp) (efcProgram sp (efcData data (efcRegs word otp s)))

/-- ERASE of the sector that the registers address. -/
def efcErase (sp : Nat) (s : State) : State :=
  efcAnswer sp (eraseCauses s s.ef.word s.ef.otpSel) (fun e => { e with busy := true, activeOp := 2, eraseSec := e.word.toNat / 256 }) s

/-- ERASE of a sector (R437); an OTP address is refused with PROTECTED. -/
def execEfErase (sp : Nat) (word : BitVec 20) (otp : Bool) (s : State) : Host.Outcome State Fault Refusal :=
  unitOp (wfSp sp) (efcErase sp (efcRegs word otp s))

/-- A fetch or read of the array by a processor, at the word address `w` (Table 16-3): it stalls on a busy array and suspends an erase where
AUTO_SUSPEND is set; a read of the suspended sector is a bus error of that processor, whose duty is restarted (R438, R439). -/
def arrayStall (s : State) : State :=
  let e := { s.ef with guarded := s.ef.guarded || s.ef.busy }
  { s with ef := if e.autoSuspend then suspendErase e else e }

/-- The word lies in the sector whose erase is suspended (R438). -/
def inSuspended (s : State) (w : Nat) : Bool := s.ef.suspended && w / 256 = s.ef.eraseSec

def arrayFetch (sp w : Nat) (s : State) : State :=
  if inSuspended (arrayStall s) w then firmwareStruck sp .restartable (arrayStall s) else arrayStall s

/-- SUSPEND of the active erase. -/
def efcSuspend (sp : Nat) (s : State) : State := efcAnswer sp (errIf (s.ef.busy && !eraseActive s.ef) 1 ++ errIf (!s.ef.busy) 5) suspendErase s

/-- The active erase is suspended: by the command SUSPEND of the lock's owner, or by a processor's access to the array (R437). -/
def execEfSuspend (x : Suspender) (s : State) : Host.Outcome State Fault Refusal :=
  unitOp (wfSuspender x) (match x with
    | .fetch sp w => if s.power.d1 then arrayFetch sp w.toNat s else s
    | .command sp => efcSuspend sp s)

/-- RESUME of the suspended erase. -/
def efcResume (sp : Nat) (s : State) : State :=
  efcAnswer sp (errIf s.ef.busy 1 ++ errIf (!s.ef.busy && !s.ef.suspended) 5 ++ errIf (guardHit s) 7)
    (fun e => { e with busy := true, activeOp := 2, suspended := false }) s

/-- RESUME the suspended erase (R438). -/
def execEfResume (sp : Nat) (s : State) : Host.Outcome State Fault Refusal := unitOp (wfSp sp) (efcResume sp s)

/-- Start the oldest POISON that waits, once the array is idle (R436). -/
def startPoison (e : Ef) : Ef :=
  match e.poisonDue with
  | [] => e
  | w :: l => if e.busy || e.suspended then e else { e with busy := true, activeOp := 5, actWord := w, actOtp := false, poisonDue := l }

/-- POISON of the word that the registers address. -/
def efcPoison (sp : Nat) (s : State) : State :=
  efcAnswer sp (errIf s.ef.otpSel 6) (fun e => startPoison { e with poisonDue := e.poisonDue ++ [e.word.toNat] }) s

/-- POISON a word of the main array; the OTP row is never poisoned (R436). -/
def execEfPoison (sp : Nat) (word : BitVec 20) (otp : Bool) (s : State) : Host.Outcome State Fault Refusal :=
  unitOp (wfSp sp) (efcPoison sp (efcRegs word otp s))

/-- A write of EFC_CMD: OP 0, 6 and 7 are ignored (R440, Table 16-4). -/
def efcCmd (sp op : Nat) (s : State) : State :=
  match op with
  | 1 => efcProgram sp s
  | 2 => efcErase sp s
  | 3 => efcSuspend sp s
  | 4 => efcResume sp s
  | 5 => efcPoison sp s
  | _ => s

/-! ### Operations end -/

/-- The word that a program or POISON leaves. -/
def landWord (s : State) : State :=
  if s.ef.activeOp = 5 then
    { (setEf s.ef.actWord 0 s) with ef := { (setEf s.ef.actWord 0 s).ef with
        poisoned := setAdd s.ef.actWord s.ef.poisoned, raw := s.ef.raw.filter (fun p => p.1 != s.ef.actWord) } }
  else if s.ef.actOtp then setOtp s.ef.actWord s.ef.actData s
  else setEf s.ef.actWord s.ef.actData s

/-- A word that fails verification holds a free value (log entry 2). -/
def failWord (s : State) : State :=
  if s.ef.actOtp then bump (setOtp s.ef.actWord (Config.free64 s.nonce) s) else bump (setEf s.ef.actWord (Config.free64 s.nonce) s)

def opDone (fail : Bool) (s : State) : State :=
  if !s.ef.busy then s
  else
    let t := if s.ef.activeOp = 2 then efEraseSectors s.ef.eraseSec (s.ef.eraseSec + 1) s
      else if fail && s.ef.activeOp = 1 then failWord s else landWord s
    { t with ef := startPoison { t.ef with
        busy := false, activeOp := 0, progFail := t.ef.progFail || (fail && s.ef.activeOp = 1), done := true } }

/-- A program or an erase completes: DONE, with PROG_FAIL for a word that fails verification (R434, R438, R440). -/
def execEfOperationDone (verifyFail : Bool) (s : State) : Host.Outcome State Fault Refusal := unitOp true (opDone verifyFail s)

/-- An abandoned erase leaves its sector partly erased: bits may have risen, words may be uncorrectable; which is open (R443, log
entry 2). -/
def tornSector (s : State) : State :=
  let ws := (List.range 256).map (fun i => s.ef.eraseSec * 256 + i)
  bump (ws.foldl (fun t w =>
    let t := setEf w (efWord s w ||| Config.free64 (s.nonce * 4096 + w)) t
    if Config.freeBool (s.nonce * 4096 + w) then { t with ef := { t.ef with poisoned := setAdd w t.ef.poisoned } } else t) s)

/-- The array at a reset: a word program in progress ends, an erase is abandoned (R449). -/
def settleArray (s : State) : State :=
  let s1 := if s.ef.busy && s.ef.activeOp != 2 then landWord s else s
  if eraseActive s.ef || s.ef.suspended then tornSector s1 else s1

/-! ### The watchdog -/

/-- Bits of the processors that have kicked. -/
def kickBit (sp : Nat) : Byte := (1 : Byte) <<< sp

def kick (sp : Nat) (e : Ef) : Ef :=
  let k := e.kicked ||| kickBit sp
  if k = 0xFF then { e with kicked := 0, remainingMs := e.periodMs } else { e with kicked := k }

/-- KEY 0xA5 kicks for the writing processor; eight kicks reload the counter (R448). -/
def execWdtKick (sp : Nat) (key : Byte) (s : State) : Host.Outcome State Fault Refusal :=
  unitOp (wfSp sp) (if s.power.d1 && key = 0xA5 then { s with ef := kick sp s.ef } else s)

/-- Half the period has elapsed: the processors that have not kicked are recorded in LATE, and SP7 logs them (R448). -/
def halfPeriod (s : State) : State :=
  if s.power.d1 && s.ef.wdtEnable then
    let late := ~~~s.ef.kicked
    let t := { s with ef := { s.ef with late := late, remainingMs := s.ef.periodMs / 2 } }
    if late = 0 then t
    else { t with logs := logAdd { seq := 0, frame := t.frame.counter.toNat, resets := t.power.resets, source := 14, sp := 7, severity := 0
                                   code := 0, inst := late.toNat } t.logs }
  else s

def execWdtHalfPeriod (s : State) : Host.Outcome State Fault Refusal := unitOp true (halfPeriod s)

/-! ### Scrub engines (R313-R317) -/

/-- The memory of the engine is there, powered and not in self-refresh, and the embedded-flash array is at rest (R315, R316). -/
def engineRuns (s : State) (g u : Nat) : Bool :=
  match g with
  | 0 => stackFitted s u && s.power.d4 && !inS2 s
  | 1 => u < clustersPresent s && mapGet .off s.power.compute (5 + u / 10) = .on
  | 2 => s.power.d1
  | _ => s.power.d1 && !s.ef.busy && !s.ef.suspended

/-- The word the outside names lies in the engine's memory; where the spec lays none out, any place is allowed (log entry 97). -/
def liesThere (s : State) (g u : Nat) (m : CodeMemory) : Bool :=
  match g, m with
  | 0, .t2 id => (objOf s id).any (fun o => o.copy.isSome)
  | 0, .staging tag => (cmdOf s tag).isSome
  | 1, .t1 n lc => (allocClusters s n)[lc]? = some u
  | 1, .t0 c => (allocClusters s c.ctx).contains u && (physOf s c).1 = u
  | 1, .banks c => (allocClusters s c.ctx).contains u && (physOf s c).1 = u
  | 1, .istore c => (allocClusters s c.ctx).contains u && (physOf s c).1 = u
  | _, _ => false

/-- The code word that lies at the engine's address. -/
def engineWord (s : State) (g u : Nat) (lies : Option (CodeMemory × Nat)) : CodeMemory × Nat :=
  let p := (engineOf s g u).1
  match g with
  | 2 => (.control, p)
  | 3 => if p < 1048576 then (.embedded false, p) else (.embedded true, p - 1048576)
  | _ =>
    match lies.filter (fun x => liesThere s g u x.1) with
    | some x => x
    | none => if g = 0 then (.hbm u, p) else (.idle u, p)

/-- The firmware handles a corrected word by its region (R442): an image slot is logged by the processor that serves the embedded flash
and left as it is; a data-region sector is copied and erased. -/
def efCorrected (m : CodeMemory) (w : Nat) (s : State) : State :=
  match m with
  | .embedded false => if w < 3584 * 256 then logBy 7 7 0 7 0 0 w s else if w < 4064 * 256 then rewriteSector (w / 256) s else s
  | _ => s

/-- What the code finds in a word. -/
def wordFinds (s : State) (m : CodeMemory) (w : Nat) : CodeState :=
  match (rawOf s m).find? (fun p => p.1 = w) with
  | some p => codeFinds (wordKind m w) p.2
  | none => .good

/-- A memory whose words have a poison state that a reader writes itself: not the instruction stores and the banks (R305), nor the
embedded flash, whose controller programs it (R436). -/
def keepsPoison (m : CodeMemory) (w : Nat) : Bool :=
  match m with
  | .istore _ => false
  | .banks _ => false
  | .embedded _ => false
  | .idle _ => clusterKind w = 1 || clusterKind w = 4
  | _ => true

/-- Write the poison state into a code word. -/
def poisonWord (m : CodeMemory) (w : Nat) (s : State) : State :=
  match m with
  | .t0 c => updCore c (fun k => { k with t0 := storeMeet [w] k.t0 }) s
  | .t1 n lc => updCluster n lc (fun k => { k with t1 := storeMeet [w] k.t1 }) s
  | .t2 id => updObj id (fun o => { o with copy := o.copy.map (fun c => { c with data := storeMeet [w] c.data }) }) s
  | .hbm k => { s with hbmRest := mapSet {} k (storeMeet [w] (mapGet {} s.hbmRest k)) s.hbmRest }
  | .staging tag => updCmd tag (fun c => { c with home := storeMeet [w] c.home }) s
  | .idle k => { s with idle := mapSet {} k (storeMeet [w] (mapGet {} s.idle k)) s.idle }
  | .control => { s with ctrl := storeMeet [w] s.ctrl }
  | _ => s

def stick16 (n : Nat) : Nat := min n 0xFFFF

/-- The controller's registers note a word read with an error (Table 16-4). -/
def noteEfRead (m : CodeMemory) (w : Nat) (uncorr : Bool) (s : State) : State :=
  match m with
  | .embedded otp =>
    { s with ef := { s.ef with
        corrected := if uncorr then s.ef.corrected else stick16 (s.ef.corrected + 1)
        uncorrectable := if uncorr then stick16 (s.ef.uncorrectable + 1) else s.ef.uncorrectable
        errWord := w, errOtp := otp, errUncorr := uncorr } }
  | _ => s

/-- A word of the main array found uncorrectable is poisoned by the controller itself (R436). -/
def efPoisonDue (m : CodeMemory) (w : Nat) (s : State) : State :=
  match m with
  | .embedded false => { s with ef := startPoison { s.ef with poisonDue := s.ef.poisonDue ++ [w] } }
  | _ => s

/-! ### Accesses of the supervisor processors (R306-R308, R310, R428) -/

/-- Row of Table 16-1, from 1, that an address lies in; 0 for none. -/
def spRow (a : Nat) : Nat :=
  if a < 0x800000 then 1 else if a < 0x801000 then 2
  else if 0x1000000 ≤ a && a < 0x1000100 then 3 else if 0x1001000 ≤ a && a < 0x1001100 then 4
  else if 0x10000000 ≤ a && a < 0x12000000 then 5 else if 0xFFFF0000 ≤ a && a < 0x100000000 then 6 else 0

/-- Table 16-1 allows the access; control SRAM takes 8-byte stores only (R306), the mask ROM fetches while the module boots. -/
def spAllowed (s : State) (x : SpAccess) : Bool :=
  match x with
  | .load a n => [1, 2, 3, 4, 5].contains (spRow a) && spRow (a + n - 1) = spRow a
  | .fetch a => spRow a = 1 || spRow a = 5 || (spRow a = 6 && s.host.devState = .booting)
  | .store a bs => spRow a = 3 || spRow a = 4 || (spRow a = 5 && bs.length = 8 && a % 8 = 0)

/-- A processor reads a word of the embedded flash: a corrected one is reported to the firmware, an uncorrectable one logged (R308, R442). -/
def readEfWord (otp : Bool) (w : Nat) (s : State) : State :=
  match wordFinds s (.embedded otp) w with
  | .good => s
  | .correctable => efCorrected (.embedded otp) w (noteEfRead (.embedded otp) w false s)
  | .uncorrectable => efPoisonDue (.embedded otp) w (meetPlain (.embedded otp) srcFirmware [w] (noteEfRead (.embedded otp) w true s))

/-- The read of an embedded-flash word is a bus error. -/
def efWordBad (s : State) (otp : Bool) (w : Nat) : Bool :=
  wordFinds s (.embedded otp) w = .uncorrectable || (!otp && (s.ef.poisoned.contains w || inSuspended s w))

/-- A processor reads `n` bytes at `a`: the state, and whether it met a bus error (R308, R310). -/
def spRead (a n : Nat) (s : State) : State × Bool :=
  match spRow a with
  | 1 =>
    let ws := (List.range (ceilDiv (a + n) 8 - a / 8)).map (· + a / 8)
    let s := arrayStall s
    (ws.foldl (fun s w => readEfWord false w s) s, ws.any (efWordBad s false))
  | 2 =>
    let ws := (List.range (ceilDiv (a + n) 8 - a / 8)).map (· + a / 8 - 0x100000)
    (ws.foldl (fun s w => readEfWord true w s) s, ws.any (efWordBad s true))
  | 5 => let s := meetCtrl (a - 0x10000000) n s; (s, storeHit 8 s.ctrl (a - 0x10000000) n)
  | _ => (s, false)

/-- The embedded-flash controller's registers as a processor reads them (Table 16-4). -/
def efcReg (s : State) (off : Nat) : Nat :=
  let e := s.ef
  match off with
  | 0x00 => e.owner
  | 0x08 => e.word.toNat * 2 ^ 3 + bit e.otpSel 23
  | 0x0C => e.data.toNat % 2 ^ 32
  | 0x10 => e.data.toNat / 2 ^ 32
  | 0x14 => bit e.busy 0 + e.activeOp % 8 * 2 + bit e.suspended 4 + bit e.done 5 + bit e.refused 6 + e.cause % 8 * 2 ^ 7 + bit e.guarded 10 +
      bit e.progFail 11 + (if e.suspended then e.suspSector % 4096 * 2 ^ 12 else 0)
  | 0x18 => bit e.autoSuspend 0 + bit e.stallGuard 1
  | 0x1C => e.protect.toNat
  | 0x20 => e.corrected + e.uncorrectable * 2 ^ 16
  | 0x24 => e.errWord % 2 ^ 20 * 2 ^ 3 + bit e.errOtp 23 + bit e.errUncorr 24
  | _ => 0

/-- The watchdog's registers (Table 16-6). -/
def wdtReg (s : State) (off : Nat) : Nat :=
  let e := s.ef
  match off with
  | 0x00 => bit e.wdtEnable 0 + bit e.wdtLock 1
  | 0x04 => e.periodMs
  | 0x0C => e.kicked.toNat + e.late.toNat * 2 ^ 8 + e.remainingMs % 65536 * 2 ^ 16
  | 0x10 => bit e.expired 0 + e.missing.toNat * 2 ^ 8 + bit e.efOp 16
  | _ => 0

/-- A dword that a processor stores to the controller (Table 16-4). -/
def efcStore (sp off v : Nat) (s : State) : State :=
  let e := s.ef
  match off with
  | 0x00 => { s with ef := lockWrite sp (BitVec.ofNat 4 v) e }
  | 0x04 => efcCmd sp (v % 8) s
  | 0x08 => efcRegs (BitVec.ofNat 20 (v / 8)) (bitOf v 23) s
  | 0x0C => efcData (BitVec.ofNat 64 (e.data.toNat / 2 ^ 32 * 2 ^ 32 + v)) s
  | 0x10 => efcData (BitVec.ofNat 64 (e.data.toNat % 2 ^ 32 + v * 2 ^ 32)) s
  | 0x14 => { s with ef := { e with done := e.done && !bitOf v 5, refused := e.refused && !bitOf v 6, progFail := e.progFail && !bitOf v 11 } }
  | 0x18 => { s with ef := { e with autoSuspend := bitOf v 0, stallGuard := bitOf v 1 } }
  | 0x1C => { s with ef := { e with protect := e.protect ||| BitVec.ofNat 7 v } }
  | _ => s

/-- A dword that a processor stores to the watchdog (Table 16-6). -/
def wdtStore (sp off v : Nat) (s : State) : State :=
  let e := s.ef
  match off with
  | 0x00 =>
    if e.wdtLock then s
    else { s with ef := { e with
        wdtEnable := bitOf v 0, wdtLock := bitOf v 1, remainingMs := if bitOf v 0 && !e.wdtEnable then e.periodMs else e.remainingMs } }
  | 0x04 => if e.wdtLock || v % 65536 < 10 || 10000 < v % 65536 then s else { s with ef := { e with periodMs := v % 65536 } }
  | 0x08 => if v % 256 = 0xA5 then { s with ef := kick sp e } else s
  | _ => s

/-- A store of one or two whole dwords to the registers, in ascending order; any other is ignored (R18). -/
def regStore (sp a : Nat) (bs : List Byte) (s : State) : State :=
  let one (a v : Nat) (s : State) : State := if spRow a = 3 then efcStore sp (a % 256) v s else wdtStore sp (a % 256) v s
  if a % 4 = 0 && bs.length = 4 then one a (leNat bs) s
  else if a % 4 = 0 && bs.length = 8 then one (a + 4) (leNat (bs.drop 4)) (one a (leNat (bs.take 4)) s)
  else s

/-- What a processor reads in a word of the OTP row: DEVICE_SEED reads 0 once the mask ROM has left boot (R451). -/
def otpSeen (s : State) (i : Nat) : Word64 := if 336 ≤ i && i < 344 && s.host.devState != .booting then 0 else otpWord s i

/-- An access of a supervisor processor, and whether it raises a firmware exception. -/
def spAccess (sp : Nat) (x : SpAccess) (s : State) : State × Bool :=
  if !spAllowed s x then (s, true)
  else
    match x with
    | .load a n => spRead a n s
    | .fetch a => spRead (a / 32 * 32) 32 s
    | .store a bs => if spRow a = 5 then ({ s with ctrl := storeWrite 8 s.ctrl (a - 0x10000000) bs }, false) else (regStore sp a bs s, false)

/-- A supervisor exception: its duty is restarted, its context faults, the map is rebuilt, or the module goes into FAULT (R310). With an
access, the processor makes it, and the exception is raised only where the access does (R306, R308, R428). -/
def execFirmwareException (sp : Nat) (x : SpEvent) (s : State) : Host.Outcome State Fault Refusal :=
  unitOp (wfSp sp && wfDuty x.duty)
    (let r := match x.access with
       | some x => if s.power.d1 then spAccess sp x s else (s, false)
       | none => (s, true)
     if r.2 && s.power.d1 && s.host.devState != .fault && hasDuty sp x.duty then firmwareStruck sp x.duty r.1 else r.1)

/-! ### What a scrub engine does -/

/-- A correctable word: written back corrected and counted, unless the engine only reads or a write of another class overtook it
(R313-R315). -/
def scrubFix (g : Nat) (m : CodeMemory) (w : Nat) (overtaken : Bool) (s : State) : State :=
  if g = 3 then efCorrected m w (noteEfRead m w false s)
  else if overtaken then s
  else updGroup g (fun x => { x with corrected := stick32 (x.corrected + 1) }) (updRaw m (fun r => r.filter (fun p => p.1 != w)) s)

/-- An uncorrectable word: entered in the log once, with no requester, and poisoned and counted where its memory has the state. -/
def scrubBad (g : Nat) (m : CodeMemory) (w : Nat) (overtaken : Bool) (s : State) : State :=
  if overtaken then s
  else if keepsPoison m w then updGroup g (fun x => { x with poisoned := stick32 (x.poisoned + 1) }) (poisonWord m w (logWord m 0 w s))
  else if (rawOf s m).contains (w, .known) then s
  else efPoisonDue m w (meetPlain m 0 [w] (noteEfRead m w true s))

/-- What the engine does with the word it read. -/
def scrubWord (g : Nat) (m : CodeMemory) (w : Nat) (overtaken : Bool) (s : State) : State :=
  match wordFinds s m w with
  | .good => s
  | .correctable => scrubFix g m w overtaken s
  | .uncorrectable => scrubBad g m w overtaken s

/-- The engine goes on to the next address; after the last one its pass is complete, `ms` after it began. -/
def scrubAdvance (g u ms : Nat) (s : State) : State :=
  let e := engineOf s g u
  updGroup g (fun x =>
    if engineWords g ≤ e.1 + 1 then { x with engines := mapSet (0, 0) u (0, e.2 + 1) x.engines, lastMs := ms }
    else { x with engines := mapSet (0, 0) u (e.1 + 1, e.2) x.engines }) s

/-- A scrub engine reads the next code word of its pass: a correctable one is written back corrected, an uncorrectable one poisoned and
logged, unless a write of another class overtakes the write-back (R313, R314). -/
def execScrubAccess (group unit : Nat) (lies : Option (CodeMemory × Nat)) (overtaken : Bool) (ms : Nat) (s : State) :
    Host.Outcome State Fault Refusal :=
  unitOp (wfEngine group unit)
    (if (mapGet {} s.scrub group).enable && engineRuns s group unit then
      scrubAdvance group unit ms (scrubWord group (engineWord s group unit lies).1 (engineWord s group unit lies).2 overtaken s)
     else s)

end Sys2Proof.Machine
end

