-- ==== Sys2Proof/Machine/Reset.lean ====
section
/-! DEFINITION. Resets and start-up (R46, R273-R277, R395, R447, R458-R466, R471, R473-R477, R490-R494, R511). -/

namespace Sys2Proof.Machine

/-! ### The persistent error log and the intent of a transition -/

/-- Waiting error-log entries are programmed; entries erased with their sector leave the list (R498). -/
def saveErrors (s : State) : State :=
  let s := (s.logs.errors.filter (fun e => !e.persistent)).foldl (fun s e => programEntry e s) s
  { s with logs := { s.logs with errors := listedErrors s } }

/-- An intent as its record holds it: state, level, destroy, sanitise, array erase, owner (R470 step 1). -/
def intentWords (i : Intent) : List Word64 :=
  [BitVec.ofNat 64 (lifecycleCode i.target + rdpCode i.rdp * 256 + bit i.destroy 16 + bit i.sanitise 17 + bit i.wipeArray 18 + bit i.owner.isSome 19)] ++
  wordsOf 8 (i.owner.getD (zeros 64))

def intentOfWords (ws : List Word64) : Intent :=
  let v := (ws.headD 0).toNat
  { target := lifecycleOf (v % 256), rdp := rdpOf (v / 256 % 256), destroy := bitOf v 16, sanitise := bitOf v 17, wipeArray := bitOf v 18
    owner := if bitOf v 19 then some (bytesOf ((ws.drop 1).take 8)) else none }

/-- Steps 3 to 5 of a transition: keys, owner, level, state, pending erase, the lifecycle word, the completion word (R470). -/
def intentSteps (i : Intent) (s : State) : State :=
  let s := if i.destroy then cfgDrop cfgKeys s else s
  let s := match i.owner with
    | some d => cfgPut cfgOwner (wordsOf 8 d) s
    | none => cfgDrop cfgOwner s
  let s := if i.rdp = .sealed then (if cfgHas s cfgSealed then s else cfgAdd cfgSealed [] s) else s
  let s := if i.rdp = .fixed then setOtp 344 0 s else s
  let s := if i.target = .retired then setOtp 345 0 s else s
  let s := if i.sanitise && !cfgHas s cfgSanitise then cfgAdd cfgSanitise [] s else s
  let s := if i.wipeArray && !cfgHas s cfgErase then cfgAdd cfgErase [] s else s
  cfgPut cfgDone [] (cfgAppend cfgLifecycle (BitVec.ofNat 64 (lifecycleCode i.target)) s)

/-! ### What a reset leaves (R368, R403, R471, R477, R490) -/

/-- Parameters, quotas and parity of a context outlast a reset; what lies in T1, T2 and the cores does not (R209, R471). -/
def resetCtx (c : Context) : Context :=
  if c.state = .free then {}
  else { state := .out, cls := c.cls, domains := c.domains, slicePct := c.slicePct, waitFrames := c.waitFrames, runFrames := c.runFrames
         quotaT1 := c.lowerT1.getD c.quotaT1, quotaT2 := c.quotaT2, quotaT3 := c.quotaT3, quotaT4 := c.quotaT4, parity := c.parity }

/-- An erase that was cut holds no valid data and is erased again before use (Table 8-10). -/
def resetSuper (x : Super) : Super := if x.state = .erasing then { x with state := .closed, wanted := some .refresh, vers := [] } else x

/-- A program that was cut on a die has used its positions, which hold nothing (Table 8-10). -/
def tornProgram (m : SMap Super) (o : ProgOp) : SMap Super :=
  match o.on with
  | none => m
  | some (die, n) =>
    let x := mapGet {} m (superKey o.ch die n)
    let next := x.next + progWidth o.kind
    mapPut (superKey o.ch die n) { x with next := next, state := if superCap x.slc ≤ next && x.state = .open_ then .closed else x.state } m

/-- The media keep what is programmed; the map, the queues and the training are gone (R273). -/
def resetFlash (f : Flash) : Flash :=
  { f with map := [], overlay := [], supers := mapVals resetSuper (f.progQ.foldl tornProgram f.supers), dies := [], progQ := [], readQ := []
           objNos := [], slcCapacity := 0, trained := false, credit := [], seq := 1 }

/-- The controller's and the watchdog's registers at their reset values; the array, the OTP row and what D0 keeps stay. -/
def resetEf (e : Ef) : Ef :=
  { words := e.words, poisoned := e.poisoned, otp := e.otp, raw := e.raw, otpRaw := e.otpRaw, expired := e.expired, missing := e.missing, efOp := e.efOp }

def resetPower (p : Power) : Power :=
  { standby := p.standby, pgIn := p.pgIn, perst := p.perst, mateHeld := p.mateHeld, pgOut := p.pgOut, d1 := p.d1, d2 := p.d2, d3 := p.d3
    d4 := p.d4, compute := p.compute, lifeMax := p.lifeMax, throttleUs := p.throttleUs, thermalFaults := p.thermalFaults
    resetCause := p.resetCause, resets := p.resets }

/-- Entries that reached the embedded flash stay (R498). -/
def resetLogs (l : Logs) : Logs :=
  { errors := l.errors.filter (·.persistent), nextSeq := l.nextSeq, savedHealth := l.savedHealth }

/-- Everything volatile is gone, whatever the cause: the module is at the start of its start-up sequence. -/
def wipeVolatile (s : State) : State :=
  let s := closeAllEasels (settleArray s)
  { s with
    pcie := {}, arb := {}, swaps := [], objs := [], inFlight := [], scan := {}, red := {}, ctrl := {}, scrub := []
    host := { hostOut := s.host.hostOut }
    frame := { counter := s.frame.counter }
    power := { resetPower s.power with lastKnown := mgmtShown s }
    sec := { s.sec with intent := none, identity := false }
    ctxs := (mapVals resetCtx s.ctxs).filter (fun p => p.2.state != .free)
    flash := resetFlash s.flash
    ring := { out := s.ring.out }
    ef := resetEf s.ef
    logs := resetLogs s.logs }

/-- A reset with its cause (R490): RESETS counts it, the counts are those last saved (R499), a new challenge is drawn (R468). -/
def resetWith (cause : Nat) (s : State) : State :=
  let s := { s with ef := { s.ef with expired := cause = 5 } }
  let s := restoreHealth (wipeVolatile s)
  drawChallenge { s with power := { s.power with resetCause := cause, resets := stick32 (s.power.resets + 1) } }

/-- D1–D29 lose power. -/
def domainsOff (s : State) : State :=
  { s with power := { s.power with pgOut := false, d1 := false, d2 := false, d3 := false, d4 := false, compute := [] } }

/-! ### Power and its loss -/

/-- Standby power is applied: D0 starts, the frame counter is 0 and the cause is POWER_ON; RESETS counts from here (R46, R473, R490). -/
def powerUp (s : State) : State :=
  let s := domainsOff (resetWith 0 s)
  { s with power := { s.power with standby := true, resets := 0, lastKnown := [] }, frame := {} , ef := { s.ef with missing := 0, efOp := false } }

def execPowerOn (s : State) : Host.Outcome State Fault Refusal := unitOp true (powerUp s)

/-- Loss of standby power removes every domain at once (R473). -/
def standbyGone (s : State) : State :=
  let s := domainsOff (wipeVolatile s)
  { s with power := { s.power with standby := false } }

def execStandbyLoss (s : State) : Host.Outcome State Fault Refusal := unitOp true (standbyGone s)

/-- D1 loses its main rail: every domain but D0 is off, and the module resets with cause MAIN_LOSS. No checkpoint stands outside S3, so the next
start is a full scan (R276, Table 18-6). In S3 it has no effect. -/
def loseMain (s : State) : State :=
  if s.power.standby && s.power.d1 then
    domainsOff (resetWith 1 s)
  else s

/-- PG_IN is deasserted, or the main rail leaves its limits, while D1 is powered (R474). -/
def execMainLoss (s : State) : Host.Outcome State Fault Refusal :=
  unitOp true (if s.power.d1 then { (loseMain s) with power := { (loseMain s).power with pgIn := false } } else s)

/-- MATE# is deasserted: easels close, D1–D29 go off, and the event counts as a main loss (R511). -/
def execMateDeasserted (s : State) : Host.Outcome State Fault Refusal :=
  unitOp true { (loseMain s) with power := { (loseMain s).power with mateHeld := false } }

/-- MATE# has been asserted for 100 ms (R511). -/
def execMateHeld (s : State) : Host.Outcome State Fault Refusal :=
  unitOp true { s with power := { s.power with mateHeld := s.power.mateHeld || s.power.standby } }

/-! ### Reset sources of the link (Table 18-5) -/

def perstPin (v : Bool) (s : State) : State :=
  if !s.power.standby then { s with power := { s.power with perst := v } }
  else if s.power.s3 then
    (if v || !s.power.perst then { s with power := { s.power with perst := v } }
     else { (resetWith 8 s) with power := { (resetWith 8 s).power with perst := false } })
  else if v && !s.power.perst then { (resetWith 2 s) with power := { (resetWith 2 s).power with perst := true } }
  else { s with power := { s.power with perst := v } }

/-- PERST#: its assertion outside S3 resets the module; its deassertion in S3 is an S3 exit (R490). -/
def execPerst (asserted : Bool) (s : State) : Host.Outcome State Fault Refusal := unitOp true (perstPin asserted s)

/-- The PCIe link can be up: D1 is powered and PERST# is not asserted. -/
def linkThere (s : State) : Bool := s.power.d1 && !s.power.perst

/-- A PCIe hot reset (R490). -/
def execHotReset (s : State) : Host.Outcome State Fault Refusal := unitOp true (if linkThere s then resetWith 3 s else s)

/-- A PCIe link-down event (R490). -/
def execLinkDown (s : State) : Host.Outcome State Fault Refusal := unitOp true (if linkThere s then resetWith 4 s else s)

/-- The watchdog reaches 0: the expiry, the processors missing and EF_OP are kept in D0, and the module resets (R448, R449). -/
def wdtReset (s : State) : State :=
  if s.power.d1 && s.ef.wdtEnable then
    resetWith 5 { s with ef := { s.ef with missing := ~~~s.ef.kicked, efOp := s.ef.busy || s.ef.suspended } }
  else s

def execWdtExpiry (s : State) : Host.Outcome State Fault Refusal := unitOp true (wdtReset s)

/-! ### Start-up (Table 18-7) -/

/-- What the records of the embedded flash say of the part, as boot reads them: repairs, bad blocks, error log, saved counts, protection
level, lifecycle state, keys, owner and what is pending (R95, R270, R452, R463-R467, R498, R499). -/
def loadRecords (s : State) : State :=
  let keys := (cfgGet s cfgKeys).getD []
  { s with
    phys := repairMap s
    flash := { s.flash with badBlocks := listedBlocks s }
    logs := { s.logs with errors := listedErrors s, savedHealth := listedHealth s }
    sec := { s.sec with
      rdp := if otpWord s 344 = 0 then .fixed else if cfgHas s cfgSealed then .sealed else .open_
      lifecycle := if otpWord s 345 = 0 then .retired else lifecycleOf (((cfgLast s cfgLifecycle).getD 0).toNat)
      kgen := ((cfgLast s cfgKgen).getD 0).toNat
      keyHeld := !keys.isEmpty && (keys.take 9).all (· != 0)
      owner := (cfgGet s cfgOwner).map (fun ws => bytesOf (ws.take 8))
      sanitise := cfgHas s cfgSanitise
      wipeArray := cfgHas s cfgErase } }

/-- A boot that finds an intent without its completion word repeats the steps of the transition (R470). -/
def resumeIntent (s : State) : State :=
  match cfgGet s cfgIntent with
  | some ws => if cfgHas s cfgDone then s else intentSteps (intentOfWords ws) s
  | none => s

/-- The mask ROM erases the main array after SEALED to OPEN, the configuration records last (R454). -/
def eraseArray (s : State) : State :=
  if s.sec.wipeArray then { s with ef := { s.ef with words := [], poisoned := [], raw := [] }, sec := { s.sec with otpSeq := 0 } }
  else s

/-- A self-test outcome of one failing row (R95): the spare is switched in, or the core is offline. -/
def selfTest (s : State) (f : Nat × Nat) : State :=
  let k := mapGet {} s.phys f.1
  let k1 : PhysCore := if k.spare.isNone then { k with spare := some (f.2 % 16) } else { k with offline := true }
  let s := if k.spare.isNone then recordRepair f.1 (f.2 % 16) s else s
  logBy 0 16 0 0 0 (f.1 / 100 + f.1 % 100 * 65536) 0 { s with phys := mapSet {} f.1 k1 s.phys }

/-- The array self-test: every core is judged anew (R95, R97). -/
def selfTests (rows : List (Nat × Nat)) (s : State) : State :=
  rows.foldl selfTest s

/-- States that need media keys (R470, Table 17-6). -/
def needsKeys (l : Lifecycle) : Bool := l = .provisioned || l = .deployed || l = .service

/-- New media keys are drawn at the first boot in a state that needs keys and has none (R465, R470). -/
def makeKeys (s : State) : State :=
  if needsKeys s.sec.lifecycle && !s.sec.keyHeld then
    let g := s.sec.kgen + 1
    let s := cfgPut cfgKeys ((List.range 9).map (fun i => Config.wrappedKey g i ||| 1)) (cfgAppend cfgKgen (BitVec.ofNat 64 g) s)
    { s with sec := { s.sec with keyHeld := true, kgen := g } }
  else s

/-- The image the boot loader starts: the highest SEQ among the committed images that verify (R447). -/
def bootSlot (s : State) : Option Nat :=
  match slotValid s 0, slotValid s 1 with
  | true, true => some (if slotSeqNo s 0 < slotSeqNo s 1 then 1 else 0)
  | true, false => some 0
  | false, true => some 1
  | false, false => none

/-- The image starts: watchdog, PROTECT and the record of an expiry (R441, R449, R450). -/
def startImage (slot : Nat) (s : State) : State :=
  let s := { s with
    ef := { s.ef with activeSlot := some slot, wdtEnable := true, wdtLock := true, periodMs := 500, remainingMs := 500
                      protect := s.ef.protect ||| ((1 : BitVec 7) <<< slot) } }
  if s.ef.expired then
    saveErrors (logBy 0 14 0 0 0 (s.ef.missing.toNat + bit s.ef.efOp 16) 0 s)
  else s

/-- A step of start-up fails: FAULT with its cause. -/
def startFault (cause inst : Nat) (s : State) : State := enterFault cause (logBy 0 13 3 cause 0 inst 0 s)

/-- Every domain of the part is powered (R476, R477). -/
def allDomains (s : State) : State :=
  { s with red := { s.red with available := hasReduction s }, power := { s.power with
      d2 := true, d3 := true, d4 := true, pgOut := true, compute := (List.range (computeDomains s)).map (fun i => (5 + i, DomState.on)) } }

/-- The identity chains of every fitted pair are read (R347, R348). -/
def readChains (s : State) : State :=
  (List.range (portPairs s)).foldl (fun s p => updPair p (fun x => { x with state := .identifying }) s) s

def startWith (r : StartReport) (s : State) : State :=
  let s := { s with ctrl := {}, power := { s.power with pgIn := true, d1 := true }, sec := { s.sec with identity := true } }
  let s := makeKeys (loadRecords (eraseArray (resumeIntent (loadRecords s))))
  match bootSlot s with
  | none => startFault 1 0 s
  | some slot =>
    let s := startImage slot s
    if r.variantBad then startFault 1 0 s
    else
      let s := selfTests r.failRows (allDomains s)
      if r.hbmBad then startFault 6 0 s
      else if r.mediaBad then startFault 2 (r.mediaUnit / 3 + r.mediaUnit % 3 * 65536) s
      else freeProgress { (readChains s) with
        host := { (readChains s).host with devState := .gesso }, flash := { (readChains s).flash with trained := true } }

/-- The start trigger: standby and MATE# stand, PG_IN is asserted and PERST# is not (R493, R511). -/
def mayStart (s : State) : Bool := s.power.standby && s.power.mateHeld && !s.power.perst && !s.power.s3 && s.host.devState = .booting

/-- Start-up from the start trigger to the end of HBM training (Table 18-7). -/
def execStartUp (r : StartReport) (s : State) : Host.Outcome State Fault Refusal := unitOp true (if mayStart s then startWith r s else s)

/-- Every location of R471 is zero and no code word is poisoned: DEV_STATE leaves GESSO for REBUILDING (R472). -/
def execGessoPassComplete (s : State) : Host.Outcome State Fault Refusal :=
  unitOp true (if s.host.devState = .gesso then freeProgress { s with host := { s.host with devState := .rebuilding }, hbmRest := [], idle := [] } else s)

/-! ### The map (R273, R277) -/

/-- One candidate wins over another: the higher SEQ, then the higher PSEQ. -/
def candBeats (a b : Nat × Nat) : Bool := b.1 < a.1 || (a.1 = b.1 && b.2 < a.2)

/-- Put a place under a key if it beats the one there. -/
def candPut {β : Type} (k : Nat) (rank : Nat × Nat) (v : β) (m : SMap ((Nat × Nat) × β)) : SMap ((Nat × Nat) × β) :=
  match mapFind k m with
  | none => mapPut k (rank, v) m
  | some old => if candBeats rank old.1 then mapPut k (rank, v) m else m

/-- Versions that have valid metadata on all four pages: the candidates (R254, R273 step 1). -/
def goodVersions (s : State) : List (Loc × Version) := (allVersions s).filter (fun p => p.2.metaBad.isEmpty)

/-- The highest SEQ of a tombstone found that covers an address. -/
def scanTomb (s : State) (lga : Nat) : Nat :=
  ((goodVersions s).flatMap (fun p => if p.2.kind = .tombstone then (p.2.slots.filter (fun t => slotCovers t lga)).map (·.seq) else [])).foldl max 0

/-- Winning granule versions by address, with their ranks (R273 steps 1-3). -/
def scanBases (s : State) : SMap ((Nat × Nat) × Loc) :=
  let all : SMap ((Nat × Nat) × Loc) := (goodVersions s).foldl (fun m p =>
    if p.2.kind = .granule then p.2.slots.foldl (fun m t => candPut t.lga (t.seq, p.2.pseq) p.1 m) m else m) []
  all.filter (fun e => scanTomb s e.1 ≤ e.2.1.1)

/-- Winning overlay units (R273 step 4). -/
def scanUnits (s : State) (bases : SMap ((Nat × Nat) × Loc)) : SMap ((Nat × Nat) × (Loc × Nat)) :=
  let all : SMap ((Nat × Nat) × (Loc × Nat)) := (goodVersions s).foldl (fun m p =>
    if p.2.kind = .overlay then
      p.2.slots.zipIdx.foldl (fun m t => candPut (t.1.lga * 16 + t.1.unit) (t.1.seq, p.2.pseq) (p.1, t.2) m) m
    else m) []
  all.filter (fun e => ((mapFind (e.1 / 16) bases).map (fun b => b.1.1)).getD 0 < e.2.1.1 && scanTomb s (e.1 / 16) < e.2.1.1)

/-- Objects of the records with no later tombstone (R273 step 5). Without media keys no record can be read (R466). -/
def scanObjs (s : State) : SMap Obj :=
  if s.sec.keyHeld then
    (goodVersions s).foldl (fun m p =>
      if p.2.kind = .objRecord && scanTomb s ((recordObj p.2).2.objNo * 2 ^ 24) < slotSeq p.2 0 then mapPut (recordObj p.2).1 (recordObj p.2).2 m else m) []
  else []

/-- The highest sequence number on the media. -/
def topSeq (s : State) : Nat :=
  (goodVersions s).foldl (fun n p => max (max n p.2.pseq) ((p.2.slots.map (·.seq)).foldl max 0)) 0

def rebuildMap (s : State) : State :=
  let bases := scanBases s
  { s with flash := { s.flash with
      map := mapVals (fun (b : (Nat × Nat) × Loc) => b.2) bases
      overlay := mapVals (fun (b : (Nat × Nat) × (Loc × Nat)) => b.2) (scanUnits s bases)
      seq := max s.flash.seq (topSeq s + 1) } }

/-! ### The image's requests (R458) -/

def vendorSlots (s : State) : List Nat := (List.range 8).filter (fun k => !keySlotEmpty s k)

/-- Slots an image asks to revoke, but its own. -/
def revokeAsk (s : State) (slot : Nat) : List Nat :=
  (List.range 8).filter (fun k => bitOf (fwHeader s slot).revoke k && k != (fwHeader s slot).keySlot)

def applyRevoke (slot : Nat) (s : State) : State :=
  let ks := revokeAsk s slot
  if ks.isEmpty then s
  else if (vendorSlots s).all (fun k => keyRevoked s k || ks.contains k) then logBy 7 13 0 0 0 0 0 s
  else ks.foldl (fun s k => setOtp (72 + k) 0 s) s

/-- SVN words up to the image's SVN (R458 step 2). -/
def applySvn (slot : Nat) (s : State) : State :=
  if (fwHeader s slot).raise then
    ((List.range (fwHeader s slot).svn).filter (fun i => minSvn s ≤ i)).foldl (fun t i => setOtp (80 + i) 0 t) s
  else s

/-- The first time the module reaches READY on an image, its requests are applied, revocations first. -/
def applyRequests (s : State) : State :=
  match s.ef.activeSlot with
  | none => s
  | some slot =>
    if slotSeqNo s slot = s.sec.otpSeq then s
    else
      let n := slotSeqNo s slot
      let s := applySvn slot (applyRevoke slot s)
      { s with sec := { s.sec with otpSeq := n } }

/-! ### READY -/

def reachReady (s : State) : State :=
  let s := applyRequests s
  { s with
    host := { s.host with devState := .ready, progress := 0 }
    frame := { s.frame with wasReady := true }
    flash := { s.flash with slcCapacity := slcTarget s } }

/-- Wordlines whose metadata codewords fail after three retries: what they hold is not found again (R277). -/
def loseWordlines (ls : List (Nat × Nat × Nat × Nat)) (s : State) : State :=
  ls.foldl (fun s l => updSuper l.1 l.2.1 l.2.2.1 (fun x => { x with vers := x.vers.map (fun (v : Nat × Version) =>
    (v.1, if v.1 = l.2.2.2 then { v.2 with metaBad := [0, 1, 2, 3] } else v.2)) }) s) s

/-- The checkpoint is used: its clean marker is the page with the highest PSEQ found, and what it lists as erased is still erased (R277). -/
def ckptHolds (s : State) (k : Ckpt) : Bool :=
  (versionAt s k.marker).any (fun v => v.kind = .cleanMarker && v.pseq = k.pseq && v.metaBad.isEmpty) &&
  (allVersions s).all (fun p => p.2.pseq ≤ k.pseq) &&
  s.flash.supers.all (fun p => (mapFind p.1 k.supers).any (fun x => x.state != .erased) || (p.2.vers.isEmpty && p.2.next = 0))

/-- Objects as the map's completion leaves them: without media keys no record can be read (R466). -/
def homeObjs (s : State) (k : Option Ckpt) : SMap Obj :=
  match k with
  | some k => if s.sec.keyHeld then k.objs else []
  | none => scanObjs s

/-- The map as the checkpoint holds it. -/
def loadCkpt (k : Ckpt) (s : State) : State :=
  { s with flash := { s.flash with
      map := k.map, overlay := k.overlay, seq := k.pseq + 1
      supers := s.flash.supers.map (fun (p : Nat × Super) => (p.1, { (mapGet p.2 k.supers p.1) with vers := p.2.vers })) } }

/-- The map is complete, and the checkpoint is used up: a loss of power from now on finds none (R276). -/
def mapDone (ms : Nat) (unreadable : List (Nat × Nat × Nat × Nat)) (s : State) : State :=
  if s.host.devState = .rebuilding && !s.sec.sanitise then
    if s.frame.wasReady then reachReady (rebuildMap (loseWordlines unreadable s))
    else
      let k := s.flash.ckpt.filter (ckptHolds s)
      let s := match k with
        | some k => loadCkpt k s
        | none => rebuildMap (loseWordlines unreadable s)
      let objs := homeObjs s k
      reachReady { s with
        objs := objs
        flash := { s.flash with
          objNos := objs.map (fun (p : Nat × Obj) => p.2.objNo), ckpt := none
          lastStart := if k.isSome then 0 else 1, lastStartMs := ms } }
  else s

/-- The map is complete, by the checkpoint or by the full scan: DEV_STATE becomes READY (R277). A rebuild that a firmware exception asked for
keeps the objects and their copies (Table 10-3). -/
def execMapRecoveryComplete (r : MapReport) (s : State) : Host.Outcome State Fault Refusal := unitOp true (mapDone r.ms r.unreadable s)

/-- A superblock as the sanitising erase leaves it: every programmed one is erased (R466). -/
def sanitised (x : Super) : Super :=
  if x.state = .retired then { x with vers := [], wanted := none } else if x.vers.isEmpty && x.state = .erased then x else erasedSuper x

def sanitiseDone (s : State) : State :=
  if s.host.devState = .rebuilding && s.sec.sanitise then
    let s := cfgDrop cfgSanitise s
    reachReady (bump { s with
      sec := { s.sec with sanitise := false }
      objs := [], ctxs := []
      flash := { s.flash with
        map := [], overlay := [], objNos := [], blockGranules := 0, supers := mapVals sanitised s.flash.supers, ckpt := none
        lastStart := 2, lastStartMs := (Config.free64 s.nonce).toNat % 2 ^ 32 } })
  else s

/-- The sanitising erase is complete: the map, the objects, the block space and the contexts start empty (R466). -/
def execSanitisingEraseComplete (s : State) : Host.Outcome State Fault Refusal := unitOp true (sanitiseDone s)

end Sys2Proof.Machine
end

