-- ==== Sys2Proof/Machine/Frame.lean ====
section
/-! DEFINITION. The frame tick (R37-R53, R64, R178, R189, R205, R213, R217, R227, R331, R338, R371, R425, R476, R480, R500-R506). The
boundary acts in this order: what completes in the closing frame, the frame's statistics, the counter, the status-write window, a reset or
power-down that waits for it, then the tick's own effects, updates and starts, which belong to the opening frame. -/

namespace Sys2Proof.Machine

/-! ### What completes in the closing frame (R52, R256, R342, R384) -/

/-- A command that waits for ticks or update points. -/
def awaits (op : Nat) (c : Cmd) : Bool := pktOpcode c.pkt = op && c.phase = .ready

def closeCmd (s : State) (c : Cmd) : State :=
  if awaits 0x42 c then applyStepVoid c s
  else if awaits 0x53 c && !flushWaits s c then complete c.tag (stSuccess 0 0 0) s
  else if awaits 0x21 c then tryDestroy c s
  else s

/-- Apply a step to the commands outstanding now that still are when their turn comes. -/
def eachCmd (f : State → Cmd → State) (s : State) : State :=
  s.host.cmds.foldl (fun s c => match cmdOf s c.tag with
    | none => s
    | some d => f s d) s

/-! ### Statistics of the frame (R501, R502, R504) -/

def sumRec (a b : FrameRec) : FrameRec :=
  { a with sketch := a.sketch + b.sketch, missed := a.missed + b.missed, evictions := a.evictions + b.evictions, dropped := a.dropped + b.dropped
           saturated := a.saturated + b.saturated, nanQuant := a.nanQuant + b.nanQuant, constCh := a.constCh + b.constCh
           requests := a.requests + b.requests, commands := a.commands + b.commands }

/-- The record of frame `n`: `done` records completed in it, HELD after its window. -/
def closedRec (s : State) (n done held : Nat) : FrameRec :=
  { s.logs.cur with
    frame := n, commands := done, held := held, dutyMin := s.power.dutyMin
    flags := bit s.frame.lockedAll 0 + bit s.frame.slewAny 1 + bit (s.power.dutyMin < 16) 2 + 128 }

/-- What the frame delivered. -/
def effOf (x : TickSample) (us : Nat) : EffBlock :=
  { frames := 1, elapsedUs := us, arith := x.arithOps, hbm := x.hbmBytes, flash := x.flashBytes, ring := x.ringBytes, host := x.hostBytes
    scan := x.scanBytes, energy := x.energyMj }

/-- Sum of two lists of counts. -/
def sumLists (a b : List Nat) : List Nat := (List.range (max a.length b.length)).map (fun i => a.getD i 0 + b.getD i 0)

def sumEff (a b : EffBlock) : EffBlock :=
  { frames := a.frames + b.frames, elapsedUs := a.elapsedUs + b.elapsedUs, arith := sumLists a.arith b.arith, hbm := a.hbm + b.hbm
    flash := a.flash + b.flash, ring := a.ring + b.ring, host := a.host + b.host, scan := a.scan + b.scan, energy := a.energy + b.energy }

def closeStats (x : TickSample) (n done held us : Nat) (s : State) : State :=
  let r := closedRec s n done held
  { s with
    logs := { s.logs with
      cur := {}, recs := (r :: s.logs.recs).take 256, totals := sumRec s.logs.totals r, frames := s.logs.frames + 1
      lastFrame := effOf x us, accum := sumEff s.logs.accum (effOf x us) }
    frame := { s.frame with lockedAll := s.frame.locked, slewAny := s.frame.slewing } }

/-! ### After the window (R420, R470) -/

/-- The checkpoint before a reset, where there is a map to save. -/
def saveMap (s : State) : State := if s.frame.wasReady && s.power.d3 then writeCheckpoint s else s

/-- The transition of an accepted LIFECYCLE (R470 steps 1-5). -/
def applyIntent (i : Intent) (s : State) : State :=
  let s := if i.destroy then { s with flash := { s.flash with ckpt := none } } else saveMap s
  let s := intentSteps i (cfgPut cfgIntent (intentWords i) (cfgDrop cfgDone s))
  { s with
    sec := { s.sec with
      lifecycle := i.target, rdp := i.rdp, owner := i.owner, keyHeld := s.sec.keyHeld && !i.destroy
      sanitise := s.sec.sanitise || i.sanitise, wipeArray := i.wipeArray, intent := none }
    flash := { s.flash with readOnly := s.flash.readOnly && i.target != .retired } }

/-- The reset or power-down that waited for its status-write window. -/
def afterWin (s : State) : State :=
  match s.power.afterWindow with
  | none => s
  | some 8 => { s with power := { s.power with afterWindow := none, s3Flush := true } }
  | some 7 =>
    match s.sec.intent with
    | some i => resetWith 7 (applyIntent i s)
    | none => resetWith 7 s
  | some k => resetWith k (saveMap s)

/-! ### The power manager (R480, R500) -/

/-- The largest duty within the cap; none where there is none. -/
def fitDuty (cap avg comp idle dutySum elapsed : Int) : Option Nat :=
  (((List.range 16).map (· + 1)).filter (fun (d : Nat) => (comp - idle) * d * elapsed ≤ (cap - (avg - comp) - idle) * max dutySum elapsed)).getLast?

/-- The hottest die sensor of a reading. -/
def dieTempOf (x : TickSample) : Byte := x.temps.getD 0 0x80

def tickDuty (x : TickSample) (p : Power) : Nat × Bool :=
  let e : Nat := max 1 x.elapsed
  let fit := fitDuty p.capW x.avgW x.computeW x.idleW x.dutySum e
  let d := min (fit.getD 1) (p.duty + 2)
  (if (p.throttleC : Int) ≤ (dieTempOf x).toInt then max 1 (min d (p.duty - 1)) else d, fit.isNone)

/-- The higher of two temperatures. -/
def hotter (a b : Byte) : Byte := if a.toInt < b.toInt then b else a

def hottest (l : List Byte) : Byte := l.foldl hotter 0x80

/-- Die, HBM, flash and coolant outlet of a reading. -/
def tempNow (t : List Byte) : List Byte := [t.getD 0 0x80, hottest ((t.drop 4).take 16), hottest ((t.drop 20).take 32), t.getD 3 0x80]

def maxTemps (a b : List Byte) : List Byte := (List.range 4).map (fun i => hotter (a.getD i 0x80) (b.getD i 0x80))

/-- A reading of the sensors: an unfitted stack reads 0x80 (R28, Table 19-4). -/
def fittedTemps (s : State) (t : List Byte) : List Byte :=
  ((t.take 52).zipIdx).map (fun p => if 4 ≤ p.2 && p.2 < 20 && !stackFitted s (p.2 - 4) then 0x80 else p.1)

/-- Set the duty and report the last frame's power and temperatures. -/
def tickPower (x : TickSample) (us : Nat) (s : State) : State :=
  let p := s.power
  let d := tickDuty x p
  let low : Bool := p.dutyMin < 16
  let ts := fittedTemps s x.temps
  endDutyZero { s with power := { p with
      duty := d.1, overCap := d.2, dutyMin := d.1, limited := low
      limitedFrames := stick32 (p.limitedFrames + (if low then 1 else 0))
      frameAvgW := x.avgW, peakW := x.peakW, computeW := x.computeW, idleW := x.idleW, dieTemp := dieTempOf x, hbmTemp := (tempNow ts).getD 1 0x80
      temps := ts, tempMax := maxTemps p.tempMax (tempNow ts), lifeMax := maxTemps p.lifeMax (tempNow ts)
      throttleUs := p.throttleUs + (if (p.throttleC : Int) ≤ (dieTempOf x).toInt then us else 0) } }

/-! ### Features that wait for their tick (R39-R41, R317, R483, R506) -/

/-- The command sets the FRAME feature, and was accepted in frame `n` or before. -/
def frameCmd (n : Nat) (c : Cmd) : Bool := pktOpcode c.pkt = 3 && pktField c.pkt 8 1 = 0x10 && c.frame ≤ n

/-- A FRAME change accepted in frame n takes effect at the tick that opens frame n + 2, whether or not it has been released (R40, R41). -/
def applyFrame (c : Cmd) (s : State) : State :=
  let d := featDw c.pkt 0
  let f := s.frame
  complete c.tag (stSuccess 0 0 0) { s with frame := { f with
    own := bitsOf d 14 0, effPct := bitsOf d 22 16
    period := if c.phase = .ready then f.period else bitsOf d 14 0, pct := if c.phase = .ready then f.pct else bitsOf d 22 16 } }

def tickFeature (s : State) (c : Cmd) : State :=
  let d := featDw c.pkt
  if 2 ≤ s.frame.counter.toNat && frameCmd (s.frame.counter.toNat - 2) c then applyFrame c s
  else if awaits 0x78 c then
    complete c.tag (stSuccess 0 0 0) (updGroup (pktField c.pkt 8 1) (fun g =>
      { g with enable := pktField c.pkt 9 1 = 1, period := pktField c.pkt 12 4 }) s)
  else if !awaits 0x03 c then s
  else
    match pktField c.pkt 8 1 with
    | 0x16 =>
      complete c.tag (stSuccess 0 0 0) { s with power := { s.power with capW := bitsOf (d 0) 11 0, throttleC := bitsOf (d 5) 23 16 } }
    | 0x17 =>
      complete c.tag (stSuccess 0 0 0) { s with logs := { s.logs with
        basisRef := bitOf (d 0) 0, accum := if bitOf (d 0) 1 then {} else s.logs.accum } }
    | _ => s

/-! ### The tick on the rings (R40, R43, R358) -/

/-- The own period that the next frame will have: every change accepted in the frame that has closed takes effect there (R40). -/
def nextOwn (s : State) : Nat :=
  (s.host.cmds.filter (frameCmd (s.frame.counter.toNat - 1))).foldl (fun _ c => bitsOf (featDw c.pkt 0) 14 0) s.frame.own

/-- The period a source has announced for a frame. -/
def knownPeriod (f : FrameUnit) (n : Nat) : Option Nat := (f.known.find? (fun k => k.1 = n)).map (·.2)

/-- Period in force in the opening frame: the one announced for it, even where the master has since been lost (R40); else the last one while
the module follows a source, and its own while it free-runs or is the master (R39, R45). -/
def tickPeriod (f : FrameUnit) : Nat := (knownPeriod f f.counter.toNat).getD (if f.sourceValid then f.effPeriod else f.own)

def masters (s : State) (p : Nat) : Bool := s.frame.masterRings.getLsbD p && p < portPairs s

/-- Send the tick both ways on every ring the module masters. -/
def sendTicks (s : State) : State :=
  let next := if s.frame.sourceValid then (knownPeriod s.frame (s.frame.counter.toNat + 1)).getD s.frame.announced else nextOwn s
  ((List.range 16).filter (masters s)).foldl (fun s p =>
    let f := tickFlit (tickBytes s.frame.counter.toNat s.frame.effPeriod next p 0 s.uid 0)
    sendNow (2 * p + 1) f (sendNow (2 * p) f s)) s

def tickFrame (x : TickSample) (s : State) : State :=
  { s with frame := { s.frame with
      effPeriod := tickPeriod s.frame, known := s.frame.known.filter (fun k => s.frame.counter.toNat < k.1), planClosed := false, snapDone := false, slices := s.frame.plan, plan := []
      lockErr := if s.frame.sourceValid then x.lockErr else s.frame.lockErr } }

/-- OPEN buckets send READY at every tick (R371). -/
def sendReadies (s : State) : State :=
  (s.red.tags.filter (fun t => t.2.state = .open_)).foldl (fun s t =>
    sendRed t.1 (otherParts s t.2) (redHeader 0 t.2.gen 0 t.1 0 0 t.2.pcrc.toNat) s) s

/-! ### Domains and contexts at a tick (R329, R338, R343, R476, Table 11-6) -/

/-- A run still going at the second tick of its domain's DOMAIN_CONTROL is stopped, and its context swapped out. -/
def evacuate (s : State) (n : Nat) : State :=
  let c := ctxOf s n
  let s := match c.run with
    | none => s
    | some u =>
      match if u.kind = .stream then none else cmdOf s u.tag with
      | some d => abortStarted d (stAborted 3 0 0) s
      | none => settleCtx n (endRun n s)
  swapOut true n s

def tickDomains (s : State) : State :=
  let s := { s with power := { s.power with domOff := s.power.domOff.map (fun p => (p.1, p.2.1, p.2.2 + 1)) } }
  let due := (s.power.domOff.filter (fun p => 2 ≤ p.2.2)).map (fun (p : Nat × Nat × Nat) => p.1)
  let ns := ((staying s).filter (fun p => (p.2.state = .runnable || p.2.state = .blocked) && p.2.alloc.any (fun d => due.contains d))).map
    (fun (p : Nat × Context) => p.1)
  let s := offReady (ns.foldl evacuate s)
  (s.power.domOn.filter (fun p => p.2.2)).foldl (fun s p =>
    complete p.2.1 (stSuccess 0 0 0) { s with power := { s.power with
      compute := mapPut p.1 DomState.on s.power.compute, domOn := s.power.domOn.filter (fun q => q.1 != p.1) } }) s

/-- A swap-in is done, or its last operation is under way and ends within F+10 µs (R329). -/
def arrives (s : State) (n : Nat) : Bool :=
  match s.swaps.filter (fun o => o.ctx = n) with
  | [] => true
  | [_] => s.swaps.head?.any (fun o => o.ctx = n)
  | _ => false

/-- A context at the tick: residency after a swap-in, the decision that waited for it, the end of a teardown. -/
def tickCtx (s : State) (n : Nat) : State :=
  let c := ctxOf s n
  match c.state with
  | .swappingIn =>
    if arrives s n then
      let s := updCtx n (fun c => { c with
        state := if hasWork s n || c.run.isSome then .runnable else .blocked, blockedAt := s.frame.counter.toNat, decisionDue := none }) s
      match c.decisionDue with
      | some (m, f) => applyDecision n m f s
      | none => s
    else s
  | .teardown => offReady (updCtx n (fun c => { c with state := .out, alloc := [] }) s)
  | _ => s

def ctxNums (s : State) : List Nat := s.ctxs.map (fun (p : Nat × Context) => p.1)

/-- The slice of a context ends with the frame; the tick cuts it while an instruction still runs (R62). What it was credited for a displaced
slice counts from now on. -/
def endFrameSlice (s : State) (n : Nat) : State :=
  updCtx n (fun c => { c with
    cut := (c.cut || (ctxOf s n).inSlice) && stillBusy c, charges := addCharges c.charges c.credits, credits := []
    run := c.run.map (fun u => { u with ticks := u.ticks + 1 }) }) (leaveSlice n s)

/-- Slices end with the frame; a core that waits for the next frame goes on in its next slice (R62, R130). -/
def endSlices (s : State) : State := (ctxNums s).foldl endFrameSlice s

/-! ### Posts and queries at a tick (R227, R230, R299) -/

/-- The posts of the frame for this object are dropped: none of their reads has started. -/
def postIdle (o : Obj) : Bool := o.posted && !o.started

/-- Posts end with the frame: what has not started is dropped and counted; needs and holds end (R227, R229). -/
def tickPosts (s : State) : State :=
  let s := (s.objs.filter (fun p => postIdle p.2)).foldl (fun s p => countFor (objCtx p.1) { dropped := p.2.posts } s) s
  let s := dropReads (fun r => readPost r && !r.started) s
  let s := { s with
    ring := { s.ring with imports := s.ring.imports.filter (fun i => !(i.post && i.tag = 0 && i.sent = 0)) }
    ctxs := mapVals (fun (c : Context) => { c with needs := [] }) s.ctxs
    objs := mapVals (fun (o : Obj) => { o with waiting := o.waiting && (needsT2 o || !o.posted), held := false, posted := false, posts := 0, started := false }) s.objs }
  let again := (s.objs.filter (fun p => needsT2 p.2 && p.2.copy.any (fun c => !c.missing.isEmpty))).map (fun (p : Nat × Obj) => p.1)
  startReads (pruneFlight (again.foldl (fun s id => issueMissing id false s) s))

/-- PACE counts granules by frame (R299). -/
def tickQueries (s : State) : State :=
  issueQueries { s with scan := { s.scan with slots := mapVals (fun q => { q with paced := [] }) s.scan.slots } }

/-! ### Update points (R178, R189, R205, R207, R209, R213, R217) -/

/-- Copies and bindings that a placement gave up leave at the update point (R213). -/
def dropGiven (s : State) (id : Nat) : State :=
  match objOf s id with
  | none => s
  | some o =>
    if !atPoint s (objCtx id) then s
    else
      let s := if o.dropBinding then updObj id (fun o => { o with binding := none, dropBinding := false }) s else s
      if !o.dropCopy then s
      else if o.wantT2 || o.pin != 0 || o.copy.all (·.dirty) then updObj id (fun o => { o with dropCopy := false }) s
      else if heldNow s id o || o.binding.any (fun b => !b.filled && !o.dropBinding) then s
      else dropCopyOf id s

/-- A placement that gave up a binding or a copy may be complete with it. -/
def settleGiven (s : State) (id : Nat) : State := checkPlaced id (dropGiven s id)

/-- The palette of one context (R189, R194). -/
def tickPalette (s : State) (n : Nat) : State :=
  if atPoint s n then
    let l := (ctxOf s n).palette.map (fun (p : Nat × PalEntry) => (p.1, palUpdate p.2))
    countFor n { constCh := (l.filter (fun p => p.2.2)).length } (updCtx n (fun c => { c with palette := l.map (fun p => (p.1, p.2.1)) }) s)
  else s

/-- A written palette word: the RW fields, CONST kept, history and SAT_COUNT cleared (R178). -/
def storePal (w : Nat) (p : PalEntry) : PalEntry :=
  { word := BitVec.ofNat 32 (w % 2 ^ 26 + p.word.toNat / 2 ^ 26 % 2 * 2 ^ 26), satCount := 0, slots := [], pending := none }

/-- Store the words of a palette write. -/
def writePalette (c : Cmd) (s : State) : State :=
  let first := pktField c.pkt 12 2
  updCtx (pktCtx c.pkt) (fun x => { x with
    palette := (palWords c).zipIdx.foldl (fun m w => mapSet {} (first + w.2) (storePal w.1 (mapGet {} m (first + w.2))) m) x.palette }) s

/-- A palette write that waits for its update point; no memory that S2 switches off holds a palette (R178, R486). -/
def paletteWrite (c : Cmd) : Bool := awaits 0x03 c && pktField c.pkt 8 1 = 0x11

def updateCmd (s : State) (c : Cmd) : State :=
  if !atPoint s (pktCtx c.pkt) then s
  else if paletteWrite c then complete c.tag (stSuccess 0 0 0) (writePalette c s)
  else if awaits 0x22 c then applyQuota c s
  else if awaits 0x32 c then applyWrite c s
  else if awaits 0x35 c then applyEvict c s
  else if pktOpcode c.pkt = 0x35 && c.phase = .running && c.left = 0 then finishEvict c s
  else if awaits 0x36 c then applyDelete c s
  else s

/-! ### Starts (R110, R301, R338, R363) -/

/-- The context can start a run now. -/
def mayRun (s : State) (n : Nat) : Bool :=
  let c := ctxOf s n
  (c.state = .runnable || c.state = .blocked) && c.run.isNone && s.host.devState = .ready &&
  c.alloc.all (fun d => s.power.domOff.all (fun p => p.1 != d))

/-- The oldest command that wants a run of the context. -/
def nextWork (s : State) (n : Nat) : Option Cmd := s.host.cmds.find? (wantsRun s n)

/-- It has joined the plan of this frame or an earlier one. -/
def startsNow (s : State) (c : Cmd) : Bool :=
  c.plan ≤ s.frame.counter.toNat && (!isExecution (pktOpcode c.pkt) || c.phase = .ready)

/-- A batch of an EMBED starts its run: its records lie in the landing window (R301, log entry 24). -/
def startEmbed (c : Cmd) (slot : Nat) (q : Query) (b : List (List Byte)) (s : State) : State :=
  let off := q.desc.landOff + q.started % windowBatches q.desc * batchBytes q.desc
  let bs := b.flatten
  let q := { q with started := q.started + 1, runs := q.runs + 1, batches := q.batches.tail }
  startRun q.ctx
    { kind := .embed, tag := c.tag, startFrame := s.frame.counter.toNat, seed := q.seed, arg0 := BitVec.ofNat 64 off, arg1 := q.arg, nreq := b.length }
    (t1Write q.ctx 0 off (padTo (roundUp bs.length 64) bs)
      (updCmd c.tag (fun d => { d with plan := planNow s }) { s with scan := { s.scan with slots := mapPut slot q s.scan.slots } }))

/-- Input on receive streams that came before this frame starts a run (R363). -/
def startStream (n : Nat) (s : State) : State :=
  match (ctxOf s n).streamIn with
  | none => s
  | some i =>
    if i.frame < s.frame.counter.toNat then
      startRun n { kind := .stream, startFrame := s.frame.counter.toNat, seed := i.seed, arg0 := BitVec.ofNat 64 i.streams
                   arg1 := BitVec.ofNat 64 i.bytes, mark := i.mark } (updCtx n (fun c => { c with streamIn := none }) s)
    else s

def startWork (n : Nat) (s : State) : State :=
  match nextWork s n with
  | none => startStream n s
  | some c =>
    if !startsNow s c then s
    else if isExecution (pktOpcode c.pkt) then startExec c s
    else
      match queryOf s c.tag with
      | none => s
      | some (slot, q) =>
        match embedBatch s q with
        | none => s
        | some b => startEmbed c slot q b s

/-- One start of a context at a tick. -/
def tickStart (s : State) (n : Nat) : State := if mayRun s n then settleCtx n (startWork n s) else s

/-! ### The tick -/

/-- The exit from S2 has ended: READY, and the SLEEP that asked for it completes (Table 18-4). -/
def tickWake (s : State) : State :=
  if s.power.woken then
    let t := s.power.wakeTag
    let s := { s with power := { s.power with woken := false, wakeTag := 0 }, host := { s.host with devState := .ready, sleepLevel := 0 } }
    if t = 0 then s else complete t (stSuccess 0 0 0) s
  else s

/-- Contexts, objects and runs work: READY or S1. -/
def serving (s : State) : Bool := s.host.devState = .ready || inS1 s

def tickWork (s : State) : State :=
  if serving s then
    let s := tickQueries (tickPosts (endSlices (beginSwapIn s)))
    let s := (ctxNums s).foldl tickCtx (tickDomains s)
    let s := eachCmd updateCmd ((ctxNums s).foldl tickPalette s)
    let s := (s.objs.map (fun (p : Nat × Obj) => p.1)).foldl settleGiven s
    let s := (ctxNums s).foldl tickStart s
    { s with frame := { s.frame with slices := s.frame.slices.filter (fun n => isResident (ctxOf s n)) } }
  else if inS2 s then eachCmd (fun s c => if paletteWrite c then updateCmd s c else s) s
  else s

def tickHeartbeat (s : State) : State :=
  if s.host.enable && s.host.hbEnable then { s with host := { s.host with hbCount := s.host.hbCount + 1 } } else s

/-- The opening frame. -/
def openFrame (x : TickSample) (us : Nat) (s : State) : State :=
  let s := saveErrors { s with ef := { s.ef with guarded := false } }
  let s := tickPower x us (eachCmd tickFeature s)
  let s := tickWake (tickFrame x s)
  let s := tickWork (tickHeartbeat (askStreams (sendReadies (sendTicks s))))
  startPrograms { s with flash := { s.flash with slcCapacity := slcTarget s } }

def countFrameOf (s : State) : State := { s with frame := { s.frame with counter := s.frame.counter + 1 } }

def tick (x : TickSample) (s : State) : State :=
  if !s.power.standby then s
  else if !s.power.d1 || s.power.s3 then countFrameOf s
  else
    let s := x.upsets.foldl (fun s u => applyUpset u s) s
    let n := s.frame.counter.toNat
    let us := s.frame.effPeriod
    let s := if serving s then eachCmd closeCmd s else s
    let done := (s.host.done.filter (fun r => r.kind = 0)).length
    let s := writeWindow (countFrameOf s)
    let s := afterWin (closeStats x n done s.host.heldRecs.length us s)
    if s.host.devState = .booting then s else openFrame x us s

/-- FRAME_TICK (R49). -/
def execFrameTick (x : TickSample) (s : State) : Host.Outcome State Fault Refusal := unitOp true (tick x s)

end Sys2Proof.Machine
end

