-- ==== Sys2Proof/Machine/Dispatch.lean ====
section
/-! DEFINITION. One arm per command: its meaning, or its name where it has none yet. -/

namespace Sys2Proof.Machine

/-- The effect of a command on everything but the queue. -/
def exec (i : Instr) (s : State) : Host.Outcome State Fault Refusal :=
  match i with
  | .powerOn => Sys2Proof.Machine.execPowerOn s
  | .standbyLoss => Sys2Proof.Machine.execStandbyLoss s
  | .mainLoss => Sys2Proof.Machine.execMainLoss s
  | .mateDeasserted => Sys2Proof.Machine.execMateDeasserted s
  | .mateHeld => Sys2Proof.Machine.execMateHeld s
  | .perst asserted => Sys2Proof.Machine.execPerst asserted s
  | .hotReset => Sys2Proof.Machine.execHotReset s
  | .linkDown => Sys2Proof.Machine.execLinkDown s
  | .startUp r => Sys2Proof.Machine.execStartUp r s
  | .gessoPassComplete => Sys2Proof.Machine.execGessoPassComplete s
  | .mapRecoveryComplete r => Sys2Proof.Machine.execMapRecoveryComplete r s
  | .sanitisingEraseComplete => Sys2Proof.Machine.execSanitisingEraseComplete s
  | .configWrite f => Sys2Proof.Machine.execConfigWrite f s
  | .hostDmaError tag offset => Sys2Proof.Machine.execHostDmaError tag offset s
  | .poisonedTlpReceived tag => Sys2Proof.Machine.execPoisonedTlpReceived tag s
  | .go value => Sys2Proof.Machine.execGo value s
  | .packetAcceptance => Sys2Proof.Machine.execPacketAcceptance s
  | .frameLoRead => Sys2Proof.Machine.execFrameLoRead s
  | .frameWideRead => Sys2Proof.Machine.execFrameWideRead s
  | .statusRingEnable value => Sys2Proof.Machine.execStatusRingEnable value s
  | .hbEnableWrite value => Sys2Proof.Machine.execHbEnableWrite value s
  | .bar0RegisterWrite offset size value => Sys2Proof.Machine.execBar0RegisterWrite offset size value s
  | .commandRelease => Sys2Proof.Machine.execCommandRelease s
  | .identify tag => Sys2Proof.Machine.execIdentify tag s
  | .getLog tag => Sys2Proof.Machine.execGetLog tag s
  | .setFeatureFrame tag => Sys2Proof.Machine.execSetFeatureFrame tag s
  | .setFeaturePalette tag => Sys2Proof.Machine.execSetFeaturePalette tag s
  | .setFeatureBlockSpace tag => Sys2Proof.Machine.execSetFeatureBlockSpace tag s
  | .setFeatureRing tag => Sys2Proof.Machine.execSetFeatureRing tag s
  | .setFeatureArbitration tag => Sys2Proof.Machine.execSetFeatureArbitration tag s
  | .setFeaturePowerCap tag => Sys2Proof.Machine.execSetFeaturePowerCap tag s
  | .setFeatureEfficiencyBasis tag => Sys2Proof.Machine.execSetFeatureEfficiencyBasis tag s
  | .getFeature tag => Sys2Proof.Machine.execGetFeature tag s
  | .fwDownload tag => Sys2Proof.Machine.execFwDownload tag s
  | .fwCommit tag => Sys2Proof.Machine.execFwCommit tag s
  | .fwCommitReset tag => Sys2Proof.Machine.execFwCommitReset tag s
  | .abortOne tag => Sys2Proof.Machine.execAbortOne tag s
  | .abortContext tag => Sys2Proof.Machine.execAbortContext tag s
  | .abortAll tag => Sys2Proof.Machine.execAbortAll tag s
  | .lifecycle tag => Sys2Proof.Machine.execLifecycle tag s
  | .attest tag => Sys2Proof.Machine.execAttest tag s
  | .portControlDisable tag => Sys2Proof.Machine.execPortControlDisable tag s
  | .portDrainEnd pair => Sys2Proof.Machine.execPortDrainEnd pair s
  | .portControlEnable tag => Sys2Proof.Machine.execPortControlEnable tag s
  | .sleepS0 tag => Sys2Proof.Machine.execSleepS0 tag s
  | .sleepS1 tag => Sys2Proof.Machine.execSleepS1 tag s
  | .sleepS2 tag => Sys2Proof.Machine.execSleepS2 tag s
  | .sleepS3 tag => Sys2Proof.Machine.execSleepS3 tag s
  | .sleepEntry => Sys2Proof.Machine.execSleepEntry s
  | .s3Reached => Sys2Proof.Machine.execS3Reached s
  | .s2Wake vc => Sys2Proof.Machine.execS2Wake vc s
  | .domainControlOff tag => Sys2Proof.Machine.execDomainControlOff tag s
  | .domainControlOn tag => Sys2Proof.Machine.execDomainControlOn tag s
  | .domainPowerUpComplete dom => Sys2Proof.Machine.execDomainPowerUpComplete dom s
  | .ctxCreate tag => Sys2Proof.Machine.execCtxCreate tag s
  | .ctxDestroy tag => Sys2Proof.Machine.execCtxDestroy tag s
  | .ctxQuota tag => Sys2Proof.Machine.execCtxQuota tag s
  | .progLoad tag => Sys2Proof.Machine.execProgLoad tag s
  | .ctxFallback tag => Sys2Proof.Machine.execCtxFallback tag s
  | .objCreate tag => Sys2Proof.Machine.execObjCreate tag s
  | .objPlace tag => Sys2Proof.Machine.execObjPlace tag s
  | .objWrite tag => Sys2Proof.Machine.execObjWrite tag s
  | .objRead tag => Sys2Proof.Machine.execObjRead tag s
  | .objPin tag => Sys2Proof.Machine.execObjPin tag s
  | .objEvict tag => Sys2Proof.Machine.execObjEvict tag s
  | .objDelete tag => Sys2Proof.Machine.execObjDelete tag s
  | .batchSubmit tag => Sys2Proof.Machine.execBatchSubmit tag s
  | .batchSubmitPipe tag => Sys2Proof.Machine.execBatchSubmitPipe tag s
  | .stepRun tag => Sys2Proof.Machine.execStepRun tag s
  | .stepVoid tag => Sys2Proof.Machine.execStepVoid tag s
  | .blkRead tag => Sys2Proof.Machine.execBlkRead tag s
  | .blkWrite tag => Sys2Proof.Machine.execBlkWrite tag s
  | .blkTrim tag => Sys2Proof.Machine.execBlkTrim tag s
  | .blkFlush tag => Sys2Proof.Machine.execBlkFlush tag s
  | .scan tag => Sys2Proof.Machine.execScan tag s
  | .vsearch tag => Sys2Proof.Machine.execVsearch tag s
  | .embed tag => Sys2Proof.Machine.execEmbed tag s
  | .redOpen tag => Sys2Proof.Machine.execRedOpen tag s
  | .redClose tag => Sys2Proof.Machine.execRedClose tag s
  | .redStatus tag => Sys2Proof.Machine.execRedStatus tag s
  | .scrubSet tag => Sys2Proof.Machine.execScrubSet tag s
  | .rawRead tag => Sys2Proof.Machine.execRawRead tag s
  | .frameTick x => Sys2Proof.Machine.execFrameTick x s
  | .statusReadbackComplete => Sys2Proof.Machine.execStatusReadbackComplete s
  | .heartbeatDue => Sys2Proof.Machine.execHeartbeatDue s
  | .framePlanClose => Sys2Proof.Machine.execFramePlanClose s
  | .deadlineSnapshot => Sys2Proof.Machine.execDeadlineSnapshot s
  | .reportPoint => Sys2Proof.Machine.execReportPoint s
  | .tickReceived pair p => Sys2Proof.Machine.execTickReceived pair p s
  | .tickLoss => Sys2Proof.Machine.execTickLoss s
  | .sliceStart ctx => Sys2Proof.Machine.execSliceStart ctx s
  | .sliceEnd ctx overrunNs => Sys2Proof.Machine.execSliceEnd ctx overrunNs s
  | .swapDomainComplete saveError => Sys2Proof.Machine.execSwapDomainComplete saveError s
  | .runTimeout ctx => Sys2Proof.Machine.execRunTimeout ctx s
  | .pipeBatchTimeout tag => Sys2Proof.Machine.execPipeBatchTimeout tag s
  | .teardownComplete ctx => Sys2Proof.Machine.execTeardownComplete ctx s
  | .powerWindowEnd avgW => Sys2Proof.Machine.execPowerWindowEnd avgW s
  | .powerSample watts => Sys2Proof.Machine.execPowerSample watts s
  | .thermalFault => Sys2Proof.Machine.execThermalFault s
  | .powerFault => Sys2Proof.Machine.execPowerFault s
  | .firmwareException sp x => Sys2Proof.Machine.execFirmwareException sp x s
  | .wdtKick sp key => Sys2Proof.Machine.execWdtKick sp key s
  | .wdtHalfPeriod => Sys2Proof.Machine.execWdtHalfPeriod s
  | .wdtExpiry => Sys2Proof.Machine.execWdtExpiry s
  | .efcLock sp owner => Sys2Proof.Machine.execEfcLock sp owner s
  | .efProgram sp word otp data => Sys2Proof.Machine.execEfProgram sp word otp data s
  | .efErase sp word otp => Sys2Proof.Machine.execEfErase sp word otp s
  | .efSuspend x => Sys2Proof.Machine.execEfSuspend x s
  | .efResume sp => Sys2Proof.Machine.execEfResume sp s
  | .efPoison sp word otp => Sys2Proof.Machine.execEfPoison sp word otp s
  | .efOperationDone verifyFail => Sys2Proof.Machine.execEfOperationDone verifyFail s
  | .nop c => Sys2Proof.Machine.execNop c s
  | .halt c => Sys2Proof.Machine.execHalt c s
  | .yield c untilFrame => Sys2Proof.Machine.execYield c untilFrame s
  | .atom c n1 => Sys2Proof.Machine.execAtom c n1 s
  | .add c rd rs1 rs2 => Sys2Proof.Machine.execAdd c rd rs1 rs2 s
  | .sub c rd rs1 rs2 => Sys2Proof.Machine.execSub c rd rs1 rs2 s
  | .and c rd rs1 rs2 => Sys2Proof.Machine.execAnd c rd rs1 rs2 s
  | .or c rd rs1 rs2 => Sys2Proof.Machine.execOr c rd rs1 rs2 s
  | .xor c rd rs1 rs2 => Sys2Proof.Machine.execXor c rd rs1 rs2 s
  | .shl c rd rs1 rs2 => Sys2Proof.Machine.execShl c rd rs1 rs2 s
  | .shr c rd rs1 rs2 => Sys2Proof.Machine.execShr c rd rs1 rs2 s
  | .sra c rd rs1 rs2 => Sys2Proof.Machine.execSra c rd rs1 rs2 s
  | .mul c rd rs1 rs2 => Sys2Proof.Machine.execMul c rd rs1 rs2 s
  | .min c rd rs1 rs2 => Sys2Proof.Machine.execMin c rd rs1 rs2 s
  | .max c rd rs1 rs2 => Sys2Proof.Machine.execMax c rd rs1 rs2 s
  | .slt c rd rs1 rs2 => Sys2Proof.Machine.execSlt c rd rs1 rs2 s
  | .sltu c rd rs1 rs2 => Sys2Proof.Machine.execSltu c rd rs1 rs2 s
  | .mfs c rd n => Sys2Proof.Machine.execMfs c rd n s
  | .mfa c rd g => Sys2Proof.Machine.execMfa c rd g s
  | .addi c rd rs1 imm => Sys2Proof.Machine.execAddi c rd rs1 imm s
  | .andi c rd rs1 imm => Sys2Proof.Machine.execAndi c rd rs1 imm s
  | .ori c rd rs1 imm => Sys2Proof.Machine.execOri c rd rs1 imm s
  | .xori c rd rs1 imm => Sys2Proof.Machine.execXori c rd rs1 imm s
  | .shli c rd rs1 imm => Sys2Proof.Machine.execShli c rd rs1 imm s
  | .shri c rd rs1 imm => Sys2Proof.Machine.execShri c rd rs1 imm s
  | .srai c rd rs1 imm => Sys2Proof.Machine.execSrai c rd rs1 imm s
  | .li c rd imm => Sys2Proof.Machine.execLi c rd imm s
  | .lui c rd rs1 imm => Sys2Proof.Machine.execLui c rd rs1 imm s
  | .slti c rd rs1 imm => Sys2Proof.Machine.execSlti c rd rs1 imm s
  | .sltui c rd rs1 imm => Sys2Proof.Machine.execSltui c rd rs1 imm s
  | .beq c rs1 rs2 tgt => Sys2Proof.Machine.execBeq c rs1 rs2 tgt s
  | .bne c rs1 rs2 tgt => Sys2Proof.Machine.execBne c rs1 rs2 tgt s
  | .blt c rs1 rs2 tgt => Sys2Proof.Machine.execBlt c rs1 rs2 tgt s
  | .bge c rs1 rs2 tgt => Sys2Proof.Machine.execBge c rs1 rs2 tgt s
  | .bltu c rs1 rs2 tgt => Sys2Proof.Machine.execBltu c rs1 rs2 tgt s
  | .bgeu c rs1 rs2 tgt => Sys2Proof.Machine.execBgeu c rs1 rs2 tgt s
  | .dbnz c rs1 tgt => Sys2Proof.Machine.execDbnz c rs1 tgt s
  | .jmp c tgt => Sys2Proof.Machine.execJmp c tgt s
  | .call c tgt => Sys2Proof.Machine.execCall c tgt s
  | .jr c rs1 => Sys2Proof.Machine.execJr c rs1 s
  | .ret c => Sys2Proof.Machine.execRet c s
  | .ldl c q g stepG => Sys2Proof.Machine.execLdl c q g stepG s
  | .stl c q g stepG => Sys2Proof.Machine.execStl c q g stepG s
  | .seta c rs g field => Sys2Proof.Machine.execSeta c rs g field s
  | .ldma c f => Sys2Proof.Machine.execLdma c f s
  | .cdma c q t => Sys2Proof.Machine.execCdma c q t s
  | .dmaTransferComplete c t => Sys2Proof.Machine.execDmaTransferComplete c t s
  | .waitd c rd t => Sys2Proof.Machine.execWaitd c rd t s
  | .preq c rs q => Sys2Proof.Machine.execPreq c rs q s
  | .mma c f => Sys2Proof.Machine.execMma c f s
  | .mmaAcc c f => Sys2Proof.Machine.execMmaAcc c f s
  | .arrayResultLanded c residueFail => Sys2Proof.Machine.execArrayResultLanded c residueFail s
  | .elementwiseAdd c f => Sys2Proof.Machine.execElementwiseAdd c f s
  | .elementwiseSub c f => Sys2Proof.Machine.execElementwiseSub c f s
  | .elementwiseMul c f => Sys2Proof.Machine.execElementwiseMul c f s
  | .elementwiseMax c f => Sys2Proof.Machine.execElementwiseMax c f s
  | .elementwiseMin c f => Sys2Proof.Machine.execElementwiseMin c f s
  | .scale c f => Sys2Proof.Machine.execScale c f s
  | .cvt c f => Sys2Proof.Machine.execCvt c f s
  | .chain c f => Sys2Proof.Machine.execChain c f s
  | .fence c => Sys2Proof.Machine.execFence c s
  | .bar c id => Sys2Proof.Machine.execBar c id s
  | .xbar c id => Sys2Proof.Machine.execXbar c id s
  | .fset c flag => Sys2Proof.Machine.execFset c flag s
  | .fclr c flag => Sys2Proof.Machine.execFclr c flag s
  | .fwait c flag => Sys2Proof.Machine.execFwait c flag s
  | .postAccepted ctx lcluster => Sys2Proof.Machine.execPostAccepted ctx lcluster s
  | .fillRetry ctx => Sys2Proof.Machine.execFillRetry ctx s
  | .flashReadComplete id r => Sys2Proof.Machine.execFlashReadComplete id r s
  | .flashProgramComplete id die pass => Sys2Proof.Machine.execFlashProgramComplete id die pass s
  | .flashEraseComplete ch die super pass => Sys2Proof.Machine.execFlashEraseComplete ch die super pass s
  | .fold ch die => Sys2Proof.Machine.execFold ch die s
  | .overlayMerge lga => Sys2Proof.Machine.execOverlayMerge lga s
  | .garbageCollection ch die => Sys2Proof.Machine.execGarbageCollection ch die s
  | .wearLevelling ch die => Sys2Proof.Machine.execWearLevelling ch die s
  | .refresh ch die super cause => Sys2Proof.Machine.execRefresh ch die super cause s
  | .patrolRead ch die super errorsHigh soft => Sys2Proof.Machine.execPatrolRead ch die super errorsHigh soft s
  | .scrubAccess group unit lies overtaken ms => Sys2Proof.Machine.execScrubAccess group unit lies overtaken ms s
  | .granuleRepair obj granule => Sys2Proof.Machine.execGranuleRepair obj granule s
  | .pageScanned slot ch r => Sys2Proof.Machine.execPageScanned slot ch r s
  | .queryMergeComplete slot => Sys2Proof.Machine.execQueryMergeComplete slot s
  | .connectorPresenceChange connector => Sys2Proof.Machine.execConnectorPresenceChange connector s
  | .identityRetry pair => Sys2Proof.Machine.execIdentityRetry pair s
  | .identityCheckComplete pair dn up => Sys2Proof.Machine.execIdentityCheckComplete pair dn up s
  | .easelOpen pair => Sys2Proof.Machine.execEaselOpen pair s
  | .linkUp pair hopDn hopUp => Sys2Proof.Machine.execLinkUp pair hopDn hopUp s
  | .linkLeavesUp port => Sys2Proof.Machine.execLinkLeavesUp port s
  | .flitReceived port f => Sys2Proof.Machine.execFlitReceived port f s
  | .nakReceived port n => Sys2Proof.Machine.execNakReceived port n s
  | .linkFault pair ms => Sys2Proof.Machine.execLinkFault pair ms s
  | .discover port uid pri => Sys2Proof.Machine.execDiscover port uid pri s
  | .discoveryComplete pair members closed => Sys2Proof.Machine.execDiscoveryComplete pair members closed s
  | .streamConnect pair src m => Sys2Proof.Machine.execStreamConnect pair src m s
  | .streamDataReceived ctx stream offset data poison last mark seed => Sys2Proof.Machine.execStreamDataReceived ctx stream offset data poison last mark seed s
  | .streamCompletionReceived c t => Sys2Proof.Machine.execStreamCompletionReceived c t s
  | .streamTimeout c t => Sys2Proof.Machine.execStreamTimeout c t s
  | .importRequestReceived port ctx name granule req => Sys2Proof.Machine.execImportRequestReceived port ctx name granule req s
  | .importDataReceived obj granule data poison error => Sys2Proof.Machine.execImportDataReceived obj granule data poison error s
  | .importTimeout obj granule => Sys2Proof.Machine.execImportTimeout obj granule s
  | .ready pair src tag gen pcrc => Sys2Proof.Machine.execReady pair src tag gen pcrc s
  | .chunkThin c t => Sys2Proof.Machine.execChunkThin c t s
  | .contrib pair src tag gen chunk entries poison => Sys2Proof.Machine.execContrib pair src tag gen chunk entries poison s
  | .result pair src tag gen chunk entries poison => Sys2Proof.Machine.execResult pair src tag gen chunk entries poison s
  | .abandon tag gen cause => Sys2Proof.Machine.execAbandon tag gen cause s
  | .redDeadline ctx => Sys2Proof.Machine.execRedDeadline ctx s
  | .stepCommit ctx => Sys2Proof.Machine.execStepCommit ctx s
  | .easelClosed pair => Sys2Proof.Machine.execEaselClosed pair s
  | .programEraseSuspend ch die => Sys2Proof.Machine.execProgramEraseSuspend ch die s
  | .hostDmaComplete tag data => Sys2Proof.Machine.execHostDmaComplete tag data s
  | .gatherFillComplete obj => Sys2Proof.Machine.execGatherFillComplete obj s
  | .sleepExitComplete => Sys2Proof.Machine.execSleepExitComplete s
  | .onfiRetraining => Sys2Proof.Machine.execOnfiRetraining s
  | .temperatureHistoryInterval => Sys2Proof.Machine.execTemperatureHistoryInterval s
  | .healthCountSave => Sys2Proof.Machine.execHealthCountSave s
  | .scanUnitDisabledForService ch mode => Sys2Proof.Machine.execScanUnitDisabledForService ch mode s

end Sys2Proof.Machine
end

