-- ==== Sys2Proof/Safety.lean ====
section
/-! DEFINITION. What the statements say of a run: which state a command finds its unit in, and what a command leaves alone. -/

namespace Sys2Proof.Machine

/-! ### MX cores -/

/-- A core instruction touches its own core and nothing else: no other core, no other context, nothing of its context but the core
tables, no other part of the module. -/
def OnlyCoreChanges (c : CoreRef) (s t : State) : Prop :=
  t = { s with ctxs := t.ctxs } ∧
  (∀ n, n ≠ c.ctx → ctxOf t n = ctxOf s n) ∧
  ctxOf t c.ctx = { ctxOf s c.ctx with cores := (ctxOf t c.ctx).cores, sketchCores := (ctxOf t c.ctx).sketchCores } ∧
  (∀ r, r ≠ c → coreOf t r = coreOf s r)

/-- The core issues this instruction, and the instruction after it is in the image (R116). -/
def IssuesInside (s : State) (c : CoreRef) (i : CoreInstr) : Prop :=
  wfCore c = true ∧ issues s c i = true ∧ (coreOf s c).pc + 1 < codeLen s c

/-- The instruction retires: the next PC in order, one instruction of an atomic run used up (R131). -/
def coreNext (k : Core) : Core := { k with pc := k.pc + 1, atom := k.atom - 1 }

/-- A scalar instruction writes one register: `v` to g`rd`, g0 discards it (Table 4-1); every other register, generator, bank, line
and ticket of the core stays. -/
def WritesRegister (c : CoreRef) (rd : BitVec 5) (v : Word64) (s t : State) : Prop :=
  OnlyCoreChanges c s t ∧
  coreOf t c = { coreNext (coreOf s c) with regs := (coreOf t c).regs } ∧
  (∀ n, readReg (coreOf t c) n = if n = rd ∧ n ≠ 0 then v else readReg (coreOf s c) n)

/-- A program fault is in the error log, or counted among the entries that found no room (R497, R498). -/
def FaultLogged (n cause : Nat) (s t : State) : Prop :=
  (∃ e ∈ t.logs.errors, e.source = 1 ∧ e.code = cause ∧ e.ctx = n) ∨ s.logs.lost < t.logs.lost

/-- A program fault has struck the context of a core (R137, R340): the event stands in the error log or in its count of lost entries
(R498); the run, the programs and the arrivals are gone; the context is in TEARDOWN; every command of the context but CTX_DESTROY
and ABORT has left the outstanding work. -/
def ContextFaulted (n cause : Nat) (s t : State) : Prop :=
  FaultLogged n cause s t ∧ (ctxOf t n).run = none ∧ (ctxOf t n).prog = none ∧ (ctxOf t n).state = .teardown ∧
  (∀ c ∈ t.host.cmds, faultEnds n c = false)

/-! ### Host commands -/

/-- The accepted command `c` with this tag and opcode has reached its unit: it is released, its input has landed, host DMA can run
where it has a buffer (R394), its entry list is sound (R414), the memories it needs are awake (R277, R486), and no earlier SET_FEATURE of
the same feature is still to be taken up (R417). -/
def AtUnit (s : State) (op tag : Nat) (c : Cmd) : Prop :=
  cmdOf s tag = some c ∧ pktOpcode c.pkt = op ∧ c.phase = .released ∧ inputReady c = true ∧
  (pktBufKind c.pkt = 0 ∨ dmaReady s = true) ∧ unitAwake s c.pkt = true ∧ listErr c = none ∧ featureBehind s c = false

end Sys2Proof.Machine
end

