-- ==== Sys2Proof/Certificates/Slice0/Obligations.lean ====
section
/-! DEFINITION. The statements for the provers: what the rules of the spec say of the commands. -/

open Sys2Proof Sys2Proof.Machine

namespace Sys2Proof.Claims

/-! ### Vocabulary of the MX core statements -/

/-- The scalar instruction of a function. -/
def scalarCommand : AluOp → CoreRef → BitVec 5 → BitVec 5 → BitVec 5 → Instr
  | .add => .add | .sub => .sub | .and => .and | .or => .or | .xor => .xor | .shl => .shl | .shr => .shr | .sra => .sra
  | .mul => .mul | .min => .min | .max => .max | .slt => .slt | .sltu => .sltu

/-- Results of Table 4-7 over the integers that the registers stand for. -/
def scalarResult (op : AluOp) (a b : Word64) : Word64 :=
  match op with
  | .add => BitVec.ofNat 64 (a.toNat + b.toNat)
  | .sub => BitVec.ofInt 64 (a.toInt - b.toInt)
  | .and => BitVec.ofNat 64 (a.toNat &&& b.toNat)
  | .or => BitVec.ofNat 64 (a.toNat ||| b.toNat)
  | .xor => BitVec.ofNat 64 (a.toNat ^^^ b.toNat)
  | .shl => BitVec.ofNat 64 (a.toNat * 2 ^ (b.toNat % 64))
  | .shr => BitVec.ofNat 64 (a.toNat / 2 ^ (b.toNat % 64))
  | .sra => BitVec.ofInt 64 (a.toInt / 2 ^ (b.toNat % 64))
  | .mul => BitVec.ofNat 64 (a.toNat * b.toNat)
  | .min => BitVec.ofInt 64 (min a.toInt b.toInt)
  | .max => BitVec.ofInt 64 (max a.toInt b.toInt)
  | .slt => if a.toInt < b.toInt then 1 else 0
  | .sltu => if a.toNat < b.toNat then 1 else 0

/-- The scalar instruction of an immediate function. -/
def immediateCommand : AluIOp → CoreRef → BitVec 5 → BitVec 5 → Word32 → Instr
  | .addi => .addi | .andi => .andi | .ori => .ori | .xori => .xori | .shli => .shli | .shri => .shri | .srai => .srai
  | .lui => .lui | .slti => .slti | .sltui => .sltui

/-- Results of Table 4-7 with an immediate: IMM is sign-extended, a shift takes IMM[5:0]. -/
def immediateResult (op : AluIOp) (a : Word64) (imm : Word32) : Word64 :=
  let b : Word64 := BitVec.ofInt 64 imm.toInt
  match op with
  | .addi => scalarResult .add a b
  | .andi => scalarResult .and a b
  | .ori => scalarResult .or a b
  | .xori => scalarResult .xor a b
  | .shli => scalarResult .shl a b
  | .shri => scalarResult .shr a b
  | .srai => scalarResult .sra a b
  | .lui => BitVec.ofNat 64 (imm.toNat * 2 ^ 32 + a.toNat % 2 ^ 32)
  | .slti => scalarResult .slt a b
  | .sltui => scalarResult .sltu a b

/-- The branch of a comparison. -/
def branchCommand : BrOp → CoreRef → BitVec 5 → BitVec 5 → Word32 → Instr
  | .beq => .beq | .bne => .bne | .blt => .blt | .bge => .bge | .bltu => .bltu | .bgeu => .bgeu

/-- When a branch of Table 4-9 is taken. -/
def branchTaken (op : BrOp) (a b : Word64) : Prop :=
  match op with
  | .beq => a.toNat = b.toNat
  | .bne => a.toNat ≠ b.toNat
  | .blt => a.toInt < b.toInt
  | .bge => b.toInt ≤ a.toInt
  | .bltu => a.toNat < b.toNat
  | .bgeu => b.toNat ≤ a.toNat

/-- The core only moves to another instruction of its image. -/
def JumpsTo (c : CoreRef) (pc : Nat) (s t : State) : Prop :=
  OnlyCoreChanges c s t ∧ coreOf t c = { coreOf s c with pc := pc, atom := (coreOf s c).atom - 1 }

/-- An operand in T0: on a 32-byte line, wholly below 0x2_0000 (R118). -/
def OperandFits (a n : Nat) : Prop := a % 32 = 0 ∧ a + n ≤ 0x20000

/-- Where STEP is set each generator of the list steps once, and no other generator changes (R118). -/
def GeneratorsStep (stepG : Bool) (gs : List (BitVec 2)) (k k' : Core) : Prop :=
  ∀ g, genOf k' g = if stepG = true ∧ g ∈ gs then genStep (genOf k g) else genOf k g

/-- Every byte from `a` reads as in `bs`, every other byte as before. -/
def BytesWritten (m m' : Store) (a : Nat) (bs : List Byte) : Prop :=
  ∀ x, storeByte m' x = if a ≤ x ∧ x < a + bs.length then bs.getD (x - a) 0 else storeByte m x

/-- The element-wise instruction of an operation. -/
def elementwiseCommand : EwOp → CoreRef → EwF → Instr
  | .add => .elementwiseAdd | .sub => .elementwiseSub | .mul => .elementwiseMul | .max => .elementwiseMax | .min => .elementwiseMin
  | .scale => .scale | .cvt => .cvt

/-- An array instruction issues: it streams at once where the array is idle and the duty is not 0, and takes the queue's one place
otherwise (R88, R479), with the transfers into T0 that are outstanding now (R90); the generators it names step (R126); nothing else
changes. -/
def EntersTheArray (c : CoreRef) (o : ArrayOp) (gs : List (BitVec 2)) (stepG : Bool) (s t : State) : Prop :=
  OnlyCoreChanges c s t ∧
  coreOf t c = { coreNext (coreOf s c) with
    gens := (coreOf t c).gens
    streaming := if (coreOf s c).streaming = none ∧ s.power.duty ≠ 0 then some { o with before := writingT0 (coreOf s c) } else (coreOf s c).streaming
    queuedOp := if (coreOf s c).streaming = none ∧ s.power.duty ≠ 0 then none else some { o with before := writingT0 (coreOf s c) } } ∧
  GeneratorsStep stepG gs (coreOf s c) (coreOf t c)

/-- The operands of an element-wise instruction that lie in T0 fit, and its bank operands carry its type (R86, R118). -/
def ElementwiseOperandsFit (k : Core) (f : EwF) : Prop :=
  (f.s1k = 0 → OperandFits (genAddr k f.s1) (fmtBytes f.tin.toNat (f.len1.toNat + 1))) ∧
  (f.s2k = 0 → OperandFits (genAddr k f.s2) (fmtBytes f.tin.toNat (f.len1.toNat + 1))) ∧
  (f.dk = 0 → OperandFits (genAddr k f.d) (roundUp (fmtBytes f.tout.toNat (f.len1.toNat + 1)) 32)) ∧
  (∀ b ∈ ewBanks f, (tagsAhead k).contains b = f.itype)

/-- The array operation an element-wise instruction enters: addresses and constant as read at issue. -/
def elementwiseOp (op : EwOp) (k : Core) (f : EwF) : ArrayOp :=
  { ins := .ew op f, a := if f.s1k = 0 then genAddr k f.s1 else 0, b := if f.s2k = 0 then genAddr k f.s2 else 0
    x1 := if f.dk = 0 then genAddr k f.d else 0, konst := (readReg k f.kreg).setWidth 32 }

/-- The array operation a CHAIN enters. -/
def chainOp (ch : Chain) (k : Core) (f : ChainF) : ArrayOp :=
  { ins := .chain f, a := genAddr k f.go, b := if ch.xo.shape = 0 then 0 else genAddr k f.gxo
    x1 := if ch.x1.shape = 0 then 0 else genAddr k f.gx1, x2 := if ch.x2.shape = 0 then 0 else genAddr k f.gx2 }

/-- No code word of these bytes of T0 holds an uncorrectable raw error (R304, R308). -/
def T0Sound (s : State) (c : CoreRef) (a n : Nat) : Prop := rawBad 1 32 (coreOf s c).t0 a n = []

/-- The streaming instruction meets no poison and no uncorrectable word (R308, R310). -/
def OperandsSound (s : State) (c : CoreRef) (o : ArrayOp) : Prop :=
  (∀ r ∈ opReads o (chainsOf s c), T0Sound s c r.1 r.2) ∧ opPoison s c o = [] ∧ opBankBad s c o = []

/-- Another core of the main program goes on: it has executed neither HALT nor YIELD. -/
def AnotherGoesOn (s : State) (c : CoreRef) (p : Program) : Prop :=
  ∃ i, i < progCores p ∧ ({ ctx := c.ctx, sketch := false, lcore := i } : CoreRef) ≠ c ∧
    coreRests (coreOf s { ctx := c.ctx, sketch := false, lcore := i }) = false

/-- The banks from `b` that a count field less one names. -/
def bankGroup (b cnt1 : BitVec 2) : List Nat := (List.range (cnt1.toNat + 1)).map (fun i => b.toNat + i)

/-- Only one cluster's flags, and the core that set them, change. -/
def OnlyFlagsChange (c : CoreRef) (s t : State) : Prop :=
  t = { s with ctxs := t.ctxs } ∧ (∀ n, n ≠ c.ctx → ctxOf t n = ctxOf s n) ∧
  ctxOf t c.ctx = { ctxOf s c.ctx with cores := (ctxOf t c.ctx).cores, sketchCores := (ctxOf t c.ctx).sketchCores
                                       clusters := (ctxOf t c.ctx).clusters } ∧
  (∀ r, r ≠ c → coreOf t r = coreOf s r) ∧ coreOf t c = coreNext (coreOf s c) ∧
  (∀ lc, clusterOf t c.ctx lc = if lc = lclusterOf s c then { clusterOf s c.ctx lc with flags := (clusterOf t c.ctx lc).flags }
    else clusterOf s c.ctx lc)

/-- Rows that a transfer writes do not meet. -/
def RowsApart (ls : NewLines) : Prop := ls.Pairwise (fun a b => a.1 + a.2.length ≤ b.1 ∨ b.1 + b.2.length ≤ a.1)

/-- Every row reads as written and every byte outside the rows as before. -/
def RowsWritten (m m' : Store) (ls : NewLines) : Prop :=
  (∀ l ∈ ls, ∀ i, i < l.2.length → storeByte m' (l.1 + i) = l.2.getD i 0) ∧
  (∀ x, (∀ l ∈ ls, x < l.1 ∨ l.1 + l.2.length ≤ x) → storeByte m' x = storeByte m x)

/-! ### Vocabulary of the host, power and control statements -/

/-- The command leaves the outstanding work and its completion record, with this status, waits for the next window; nothing else of
the host interface changes (R52, R404). -/
def CommandCompletes (c : Cmd) (st : Status) (s t : State) : Prop :=
  t.host = { s.host with cmds := s.host.cmds.filter (fun d => d.tag != c.tag), done := s.host.done ++ [recordOf s c st []] }

/-- Only the host interface changes. -/
def OnlyHostChanges (s t : State) : Prop := t = { s with host := t.host }

/-- The bytes go to the command's buffer, piece by piece from `off`, and the command is left to complete with `st` when the last write has
been issued (HOST_DMA_COMPLETE); nothing else of the host interface changes. -/
def RepliesWith (c : Cmd) (off : Nat) (bs : List Byte) (st : Status) (s t : State) : Prop :=
  t.host = { s.host with
    cmds := s.host.cmds.map (fun d => if d.tag = c.tag then { d with phase := .finishing, result := some st, moved := d.moved + bs.length } else d)
    hostOut := s.host.hostOut ++ (splitWrite (bufPieces c) off bs).map (fun w => ({ addr := w.1, data := w.2 } : HostWrite)) }

/-- The command waits with its unit for a tick. -/
def WaitsForTick (c : Cmd) (s t : State) : Prop :=
  ∃ at_, t.host = { s.host with cmds := s.host.cmds.map (fun d => if d.tag = c.tag then { d with phase := .ready, extra := at_ } else d) }

/-- What a reset leaves (R46, R399, R403, R468, R471, R490): BOOTING with its cause counted, no command, record, object, swap, bucket,
query or flash operation, no map, the host registers, the configuration header and the weights at their reset values, a fresh challenge
of 32 bytes; the frame counter, the lifecycle, the part and the queue of this model stay. -/
def ResetLeaves (cause : Nat) (s t : State) : Prop :=
  t.host = { hostOut := t.host.hostOut } ∧ t.pcie = {} ∧ t.arb = {} ∧ t.objs = [] ∧ t.swaps = [] ∧ t.inFlight = [] ∧ t.red = {} ∧
  t.scan = {} ∧ t.scrub = [] ∧ t.ctrl = {} ∧ t.flash.map = [] ∧ t.flash.overlay = [] ∧ t.flash.progQ = [] ∧ t.flash.readQ = [] ∧
  t.ring.pairs = [] ∧ (∀ n, (ctxOf t n).run = none ∧ (ctxOf t n).prog = none ∧ (ctxOf t n).cores = [] ∧ (ctxOf t n).clusters = []) ∧
  t.power.resetCause = cause ∧ t.power.resets = min (s.power.resets + 1) 0xFFFFFFFF ∧ t.frame = { counter := s.frame.counter } ∧
  t.sec.challenge.length = 32 ∧ t.sec.lifecycle = s.sec.lifecycle ∧ t.part = s.part ∧ t.uid = s.uid ∧ t.pending = s.pending

/-- D1 to D29 have no power. -/
def MainDomainsOff (t : State) : Prop :=
  t.power.d1 = false ∧ t.power.d2 = false ∧ t.power.d3 = false ∧ t.power.d4 = false ∧ t.power.compute = [] ∧ t.power.pgOut = false

/-- The state in which the boot loader chooses an image: the records are read, an interrupted transition is ended, a pending erase is done and
missing keys are drawn (R447, R454, R465, R470, R493). -/
def bootState (s : State) : State :=
  makeKeys (loadRecords (eraseArray (resumeIntent (loadRecords
    { s with ctrl := {}, power := { s.power with pgIn := true, d1 := true }, sec := { s.sec with identity := true } }))))

/-- The copied packet as an accepted command: device tag, frame, the plan it joins (R50), and for a LIFECYCLE the challenge in force (R468). -/
def acceptedCmd (s : State) : Cmd :=
  { tag := s.host.nextTag, pkt := s.host.goCopy, frame := s.frame.counter.toNat, plan := planNow s
    challenge := if pktOpcode s.host.goCopy = 0x08 then s.sec.challenge else [] }

/-- The copied packet has its device tag and waits; acceptance goes on to the refusals that need no unit (R399, R523). -/
def packetTaken (s : State) : State :=
  { s with host := { s.host with
    nextTag := tagAfter s.host.nextTag, devTag := s.host.nextTag, taskState := .accepted
    cmds := s.host.cmds ++ [acceptedCmd s] } }

/-- A processor owns the embedded-flash controller, which has power (R441). -/
def OwnsEfc (sp : Nat) (s : State) : Prop := sp < 8 ∧ s.power.d1 = true ∧ s.ef.owner = sp

/-- Only the embedded-flash block changes. -/
def OnlyEfChanges (s t : State) : Prop := t = { s with ef := t.ef }

/-- The commands that an ABORT selects, without itself. -/
def selected (pick : Cmd → Cmd → Bool) (c : Cmd) (s : State) : List Cmd := s.host.cmds.filter (fun d => d.tag != c.tag && pick c d)

/-- The word of a chunk of input. -/
def chunkWord (c : Cmd) (i : Nat) : Word64 := BitVec.ofNat 64 (byteField (cmdData c) (8 * i) 8)

/-- No other command has been started: ending the rest of the outstanding work ends every one of them (R420). -/
def OthersWait (tag : Nat) (s : State) : Prop := ∀ d ∈ s.host.cmds, d.tag ≠ tag → notStarted d = true ∧ pktOpcode d.pkt ≠ 0x07

/-- The command joins a plan (R50, R423): its work waits, and a BLOCKED context is RUNNABLE (Table 11-3). -/
def JoinsPlan (c : Cmd) (plan : Cmd → Nat) (s t : State) : Prop :=
  t.host = { s.host with cmds := s.host.cmds.map (fun d => if d.tag = c.tag then { d with phase := .ready, plan := plan d } else d) } ∧
  (∀ n, n ≠ pktCtx c.pkt → ctxOf t n = ctxOf s n) ∧
  ctxOf t (pktCtx c.pkt) = { ctxOf s (pktCtx c.pkt) with
    state := if (ctxOf s (pktCtx c.pkt)).state = .blocked then .runnable else (ctxOf s (pktCtx c.pkt)).state }

/-- The command waits as `d`, and whatever happens to the rest of the module until `may` holds, the point `act` at which its unit takes it up then
completes it with SUCCESS, and `post` says what it does (R41, R178, R205, R256, R411). -/
def TakenUpLater (c d : Cmd) (act : State → Cmd → State) (may : State → Prop) (post : State → State → Prop) (t : State) : Prop :=
  cmdOf t c.tag = some d ∧
    ∀ u, cmdOf u c.tag = some d → may u → CommandCompletes c (stSuccess 0 0 0) u (act u d) ∧ post u (act u d)

/-- When the last program of a command passes on its die, the command completes with SUCCESS (R255, R256). -/
def LastProgramCompletes (c : Cmd) : Prop :=
  ∀ (u : State) (d : Cmd) (o : ProgOp) (die n : Nat), cmdOf u c.tag = some d → d.pkt = c.pkt → d.left ≤ 1 → d.result = none →
    u.flash.progQ.find? (fun p => p.id = o.id) = some o → o.tag = c.tag → o.on = some (die, n) → die < 48 →
    (dieOf u o.ch die).suspended = false → flashOn u = true →
    ∃ v, exec (.flashProgramComplete o.id die true) u = .next v ∧ CommandCompletes d (stSuccess 0 0 0) u v

/-- The command of this tag is released. -/
def Released (c : Cmd) (t : State) : Prop := ∃ d, cmdOf t c.tag = some d ∧ d.phase = .released

/-- A command that waits under this tag, with its packet, in this phase. -/
def StandsAs (c : Cmd) (ph : CmdPhase) (t : State) : Prop := ∃ d, cmdOf t c.tag = some d ∧ d.pkt = c.pkt ∧ d.phase = ph

/-- The command's programs, reads or fills are under way. -/
def StaysRunning (c : Cmd) (left : Nat) (s t : State) : Prop :=
  t.host = { s.host with cmds := s.host.cmds.map (fun d => if d.tag = c.tag then { d with phase := .running, left := left } else d) }

/-- The command has reached its unit, no earlier command on its object goes first (R417), and its context and object exist. -/
def AtObject (s : State) (op tag : Nat) (c : Cmd) (o : Obj) : Prop :=
  AtUnit s op tag c ∧ objBlocked s c = false ∧ ctxDefined s (pktCtx c.pkt) = true ∧ objOf s (cmdObj c) = some o

/-- The block command has reached its unit, no earlier command on its blocks goes first, and its range is sound (R247, R417). -/
def AtBlocks (s : State) (op tag : Nat) (c : Cmd) : Prop := AtUnit s op tag c ∧ blkBlocked s c = false ∧ blkErr s c.pkt = []

/-- The granule of the logical-block space holds one of the command's blocks. -/
def blockGranule (c : Cmd) (g : Nat) : Prop := (blkSpan c).1 < g * 16 + 16 ∧ g * 16 < (blkSpan c).1 + (blkSpan c).2


/-! ### Vocabulary of the ring and reduction statements -/

/-- One pair takes the value `x`, and no other part of the ring changes. -/
def PairBecomes (p : Nat) (x : Pair) (s t : State) : Prop :=
  t.ring = { s.ring with pairs := t.ring.pairs } ∧ pairOf t p = x ∧ ∀ q, q ≠ p → pairOf t q = pairOf s q

/-- A pair whose connector changed reads its chains again: with its easel CLOSED it is identifying, else the checks are repeated. -/
def chainsReadAgain (x : Pair) : Pair :=
  match x.easel with
  | .closed => if x.state = .fault then x else { x with state := .identifying }
  | _ => { x with recheck := true }

/-- The port has sent these flits after what it had sent before. -/
def PortSends (n : Nat) (l : List Flit) (s t : State) : Prop := (portOf t n).out = (portOf s n).out ++ l

/-- No pair but this one changes, and nothing outside the ring. -/
def OnlyPairChanges (p : Nat) (s t : State) : Prop := t = { s with ring := t.ring } ∧ ∀ q, q ≠ p → pairOf t q = pairOf s q

/-- A way round the ring from this module to a member is whole, in this direction, and the pair is not being disabled (R352, R365). -/
def WayTo (s : State) (p : Nat) (u : Word64) (dn : Bool) : Prop := shortest s p u = some dn ∧ (pairOf s p).draining = none

/-- The event stands in the error log, or is counted among the entries that found no room (R498). -/
def EventLogged (source : Nat) (s t : State) : Prop := (∃ e ∈ t.logs.errors, e.source = source) ∨ s.logs.lost < t.logs.lost

/-- One reduction tag takes the value `k`; no other tag changes. -/
def TagBecomes (tg : Nat) (k : RedTag) (s t : State) : Prop := tagOf t tg = k ∧ ∀ u, u ≠ tg → tagOf t u = tagOf s u

/-- Words `ws` (index, value) of a chunk that begins at `a` read as given, the other bytes of its `n` as zero, and the bytes outside as
before. -/
def ChunkWritten (m m' : Store) (a n : Nat) (ws : List (Nat × Word32)) : Prop :=
  (∀ w ∈ ws, storeRead m' (a + 4 * w.1) 4 = leBytes 4 w.2.toNat) ∧
  (∀ b, a ≤ b → b < a + n → (∀ w ∈ ws, b < a + 4 * w.1 ∨ a + 4 * w.1 + 4 ≤ b) → storeByte m' b = 0) ∧
  (∀ b, b < a ∨ a + n ≤ b → storeByte m' b = storeByte m b)


/-! ### Vocabulary of the whole-machine statements -/

/-- The memories that outlive a reset, and the control SRAM, are in canonical form: one entry a word, a superblock or a byte, in rising order. -/
def Canonical (s : State) : Prop :=
  Memory.wf s.ctrl ∧ mapWf s.ef.words = true ∧ mapWf s.ef.otp = true ∧ mapWf s.flash.supers = true

end Sys2Proof.Claims

open Sys2Proof.Claims

/-- A step is the command at the front of the queue, run on the state with the queue's rest; an empty queue leaves the state as it is
(the model's choice, log entry 16). -/
def Obligations.StepRunsTheFrontCommand : Prop :=
  (∀ (s : State) (c : Instr) (rest : List Instr), s.pending = c :: rest → step s = exec c { s with pending := rest }) ∧
  (∀ s : State, s.pending = [] → step s = .next s)

/-- R115, Table 4-7: a scalar instruction that its core issues writes the result of its function, over the integers the two source
registers stand for, to RD; an immediate instruction, and LI, do so with IMM sign-extended; g0 discards it; nothing else of the module
changes but the core's PC and atomic count. -/
def Obligations.ScalarInstructionWritesItsResult : Prop :=
  (∀ (op : AluOp) (c : CoreRef) (rd rs1 rs2 : BitVec 5) (s : State), IssuesInside s c (.alu op rd rs1 rs2) →
    ∃ t, exec (scalarCommand op c rd rs1 rs2) s = .next t ∧
      WritesRegister c rd (scalarResult op (readReg (coreOf s c) rs1) (readReg (coreOf s c) rs2)) s t) ∧
  (∀ (op : AluIOp) (c : CoreRef) (rd rs1 : BitVec 5) (imm : Word32) (s : State), IssuesInside s c (.alui op rd rs1 imm) →
    ∃ t, exec (immediateCommand op c rd rs1 imm) s = .next t ∧
      WritesRegister c rd (immediateResult op (readReg (coreOf s c) rs1) imm) s t) ∧
  (∀ (c : CoreRef) (rd : BitVec 5) (imm : Word32) (s : State), IssuesInside s c (.li rd imm) →
    ∃ t, exec (.li c rd imm) s = .next t ∧ WritesRegister c rd (BitVec.ofInt 64 imm.toInt) s t)

/-- R139, R117: MFS writes a special register to RD: s1 ALLOC and s4 NREQ by their fields, s2 the frame counter, s6 and s7 the run's
arguments, s0 with CORE, CLUSTER and DOMAIN in their fields, s3 with bits [63:32] zero; it uses up one free value of the model's own.
MFA writes ADDR of a generator. -/
def Obligations.MfsAndMfaReadTheirRegisters : Prop :=
  (∀ (c : CoreRef) (rd : BitVec 5) (n : BitVec 3) (s : State) (p : Program) (u : Run), IssuesInside s c (.mfs rd n) →
    progOf (ctxOf s c.ctx) c.sketch = some p → (ctxOf s c.ctx).run = some u →
    ∃ t v, exec (.mfs c rd n) s = .next t ∧ WritesRegister c rd v { s with nonce := s.nonce + 1 } t ∧
      (n = 0 → bitsOf v.toNat 6 0 = (physOf s c).2 % 128 ∧
        ((physOf s c).2 < 100 → (physOf s c).1 < 250 → bitsOf v.toNat 15 8 = (physOf s c).1 ∧
          bitsOf v.toNat 20 16 = 5 + (physOf s c).1 / 10)) ∧
      (n = 1 → c.lcore < 65536 → p.clusters * p.cores < 65536 → p.clusters < 256 → bitsOf v.toNat 15 0 = c.lcore ∧
        bitsOf v.toNat 31 16 = p.clusters * p.cores ∧ bitsOf v.toNat 47 40 = p.clusters ∧ bitsOf v.toNat 63 48 = c.ctx) ∧
      (n = 2 → v = s.frame.counter) ∧ (n = 4 → u.nreq < 512 → bitsOf v.toNat 8 0 = u.nreq ∧ bitOf v.toNat 9 = c.sketch) ∧ (n = 3 → v.toNat < 2 ^ 32) ∧ (n = 6 → v = u.arg0) ∧ (n = 7 → v = u.arg1)) ∧
  (∀ (c : CoreRef) (rd : BitVec 5) (g : BitVec 2) (s : State), IssuesInside s c (.mfa rd g) →
    ∃ t, exec (.mfa c rd g) s = .next t ∧ WritesRegister c rd (BitVec.ofNat 64 (genOf (coreOf s c) g).addr.toNat) s t)

/-- Table 4-9: a branch goes to PC + TGT where its comparison holds and to the next instruction where it does not; DBNZ decrements RS1
and branches while the new value is not 0; JMP goes to TGT; JR goes to the index in RS1; CALL pushes PC + 1 and jumps to TGT while fewer than
eight entries stand on the return stack; RET pops the newest entry and jumps to it. Nothing else changes, wherever the target is inside the
image. -/
def Obligations.BranchesCallsAndReturns : Prop :=
  (∀ (op : BrOp) (c : CoreRef) (rs1 rs2 : BitVec 5) (tgt : Word32) (s : State), wfCore c = true → issues s c (.br op rs1 rs2 tgt) = true →
    (branchTaken op (readReg (coreOf s c) rs1) (readReg (coreOf s c) rs2) →
      ∀ pc : Nat, (pc : Int) = (coreOf s c).pc + tgt.toInt → pc < codeLen s c →
        ∃ t, exec (branchCommand op c rs1 rs2 tgt) s = .next t ∧ JumpsTo c pc s t) ∧
    (¬ branchTaken op (readReg (coreOf s c) rs1) (readReg (coreOf s c) rs2) → (coreOf s c).pc + 1 < codeLen s c →
      ∃ t, exec (branchCommand op c rs1 rs2 tgt) s = .next t ∧ JumpsTo c ((coreOf s c).pc + 1) s t)) ∧
  (∀ (c : CoreRef) (rs1 : BitVec 5) (tgt : Word32) (s : State) (pc : Nat), wfCore c = true → issues s c (.dbnz rs1 tgt) = true → rs1 ≠ 0 →
    ((pc : Int) = if readReg (coreOf s c) rs1 = 1 then ((coreOf s c).pc : Int) + 1 else (coreOf s c).pc + tgt.toInt) → pc < codeLen s c →
    ∃ t, exec (.dbnz c rs1 tgt) s = .next t ∧ OnlyCoreChanges c s t ∧
      coreOf t c = { coreOf s c with regs := (coreOf t c).regs, pc := pc, atom := (coreOf s c).atom - 1 } ∧
      (∀ n, readReg (coreOf t c) n = if n = rs1 then BitVec.ofInt 64 ((readReg (coreOf s c) rs1).toInt - 1) else readReg (coreOf s c) n)) ∧
  (∀ (c : CoreRef) (tgt : Word32) (s : State), wfCore c = true → issues s c (.jmp tgt) = true → tgt.toNat < codeLen s c →
    ∃ t, exec (.jmp c tgt) s = .next t ∧ JumpsTo c tgt.toNat s t) ∧
  (∀ (c : CoreRef) (rs1 : BitVec 5) (s : State), wfCore c = true → issues s c (.jr rs1) = true →
    (readReg (coreOf s c) rs1).toNat < codeLen s c →
    ∃ t, exec (.jr c rs1) s = .next t ∧ JumpsTo c (readReg (coreOf s c) rs1).toNat s t) ∧
  (∀ (c : CoreRef) (tgt : Word32) (s : State), wfCore c = true → issues s c (.call tgt) = true → (coreOf s c).stack.length < 8 →
    tgt.toNat < codeLen s c →
    ∃ t, exec (.call c tgt) s = .next t ∧ OnlyCoreChanges c s t ∧
      coreOf t c = { coreOf s c with stack := ((coreOf s c).pc + 1) :: (coreOf s c).stack, pc := tgt.toNat, atom := (coreOf s c).atom - 1 }) ∧
  (∀ (c : CoreRef) (s : State) (back : Nat) (older : List Nat), wfCore c = true → issues s c .ret = true →
    (coreOf s c).stack = back :: older → back < codeLen s c →
    ∃ t, exec (.ret c) s = .next t ∧ OnlyCoreChanges c s t ∧
      coreOf t c = { coreOf s c with stack := older, pc := back, atom := (coreOf s c).atom - 1 })

/-- R116, R137, R340: a CALL with eight entries on the return stack or a RET with none stops the core with STACK (6), a JR whose target
is at or beyond CODE_LEN and execution past the last instruction (shown on NOP) with PC_RANGE (5): the context faults. -/
def Obligations.StackAndPcRangeFault : Prop :=
  (∀ (c : CoreRef) (tgt : Word32) (s : State), wfCore c = true → issues s c (.call tgt) = true → 8 ≤ (coreOf s c).stack.length →
    ∃ t, exec (.call c tgt) s = .next t ∧ ContextFaulted c.ctx 6 s t) ∧
  (∀ (c : CoreRef) (s : State), wfCore c = true → issues s c .ret = true → (coreOf s c).stack = [] →
    ∃ t, exec (.ret c) s = .next t ∧ ContextFaulted c.ctx 6 s t) ∧
  (∀ (c : CoreRef) (rs1 : BitVec 5) (s : State), wfCore c = true → issues s c (.jr rs1) = true →
    codeLen s c ≤ (readReg (coreOf s c) rs1).toNat →
    ∃ t, exec (.jr c rs1) s = .next t ∧ ContextFaulted c.ctx 5 s t) ∧
  (∀ (c : CoreRef) (s : State), wfCore c = true → issues s c .nop = true → codeLen s c ≤ (coreOf s c).pc + 1 →
    ∃ t, exec (.nop c) s = .next t ∧ ContextFaulted c.ctx 5 s t)

/-- R113, R131, R130, R333: NOP changes nothing but the PC; ATOM opens an atomic run of N instructions, N in its field plus 1; YIELD ends the
core's part of the slice, or of the frame; where every other core of the main program has executed HALT or YIELD, the rest of the slice is
skipped. -/
def Obligations.NopAtomAndYield : Prop :=
  (∀ (c : CoreRef) (s : State), IssuesInside s c .nop →
    ∃ t, exec (.nop c) s = .next t ∧ JumpsTo c ((coreOf s c).pc + 1) s t) ∧
  (∀ (c : CoreRef) (n1 : BitVec 5) (s : State), IssuesInside s c (.atom n1) →
    ∃ t, exec (.atom c n1) s = .next t ∧ OnlyCoreChanges c s t ∧
      coreOf t c = { coreOf s c with pc := (coreOf s c).pc + 1, atom := n1.toNat + 1 }) ∧
  (∀ (c : CoreRef) (f : Bool) (p : Program) (s : State), IssuesInside s c (.yield f) → (ctxOf s c.ctx).prog = some p →
    (AnotherGoesOn s c p → ∃ t, exec (.yield c f) s = .next t ∧ OnlyCoreChanges c s t ∧
      coreOf t c = { coreNext (coreOf s c) with phase := .yielded f }) ∧
    ((∀ r : CoreRef, r ≠ c → r.ctx = c.ctx → (progOf (ctxOf s c.ctx) r.sketch).any (fun q => r.lcore < progCores q) = true →
        coreRests (coreOf s r) = true) → ((ctxOf s c.ctx).run.any (·.sketch) = true → (ctxOf s c.ctx).sketch.isSome = true) →
      ∃ t, exec (.yield c f) s = .next t ∧ (ctxOf t c.ctx).inSlice = false ∧ (coreOf t c).phase = .yielded f ∧
        (coreOf t c).pc = (coreOf s c).pc + 1 ∧ (ctxOf t c.ctx).run = (ctxOf s c.ctx).run))

/-- R111, R130, Table 4-6: HALT stops the core once its array instructions have completed. While another core of the main run has not
halted, the run goes on, and where one has not yielded either nothing but the core and the barriers changes; when every other core of the
main run, and of a sketch run in progress, has halted, the run ends, and the batch it served, where no object is named for its answer, completes
with its record. -/
def Obligations.HaltStopsTheCoreAndTheLastHaltEndsTheRun : Prop :=
  ∀ (c : CoreRef) (s : State) (p : Program) (u : Run), wfCore c = true → issues s c .halt = true → inFlight (coreOf s c) = [] →
    (ctxOf s c.ctx).prog = some p → (ctxOf s c.ctx).run = some u →
    ((∃ i, i < progCores p ∧ ({ ctx := c.ctx, sketch := false, lcore := i } : CoreRef) ≠ c ∧
        (coreOf s { ctx := c.ctx, sketch := false, lcore := i }).phase ≠ .halted) →
      ∃ t, exec (.halt c) s = .next t ∧ (coreOf t c).phase = .halted ∧ (ctxOf t c.ctx).run.isSome = true ∧
        (AnotherGoesOn s c p → t = { s with ctxs := t.ctxs } ∧ (∀ n, n ≠ c.ctx → ctxOf t n = ctxOf s n) ∧
          coreOf t c = { coreOf s c with phase := .halted } ∧ (∀ r, r ≠ c → coreOf t r = coreOf s r) ∧
          (ctxOf t c.ctx).inSlice = (ctxOf s c.ctx).inSlice)) ∧
    ((∀ r : CoreRef, r ≠ c → r.ctx = c.ctx → (r.sketch = true → u.sketch = true) →
        (progOf (ctxOf s c.ctx) r.sketch).any (fun q => r.lcore < progCores q) = true → (coreOf s r).phase = .halted) →
      ∃ t, exec (.halt c) s = .next t ∧ (ctxOf t c.ctx).run = none ∧
        (u.kind = .batch → slotObj s p 1 = none → (cmdOf s u.tag).isSome = true →
          cmdOf t u.tag = none ∧ ∃ r ∈ t.host.done, r.tag = u.tag))

/-- R118, R136: LDL reads the 32-byte line at its generator's address into its quad and STL stores its quad there; the generator steps
where STEP is set. LDL waits for no line in flight and changes no memory (it uses up one free value of the model's own, for a line that a
transfer is writing, R134); STL changes the 32 bytes of the line and no other byte, register or bank. -/
def Obligations.LineLoadAndStore : Prop :=
  (∀ (c : CoreRef) (q : BitVec 3) (g : BitVec 2) (st : Bool) (s : State), IssuesInside s c (.ldl q g st) →
    OperandFits (genAddr (coreOf s c) g) 32 → heldByWrites s c (genAddr (coreOf s c) g) 32 = false →
    T0Sound s c (genAddr (coreOf s c) g) 32 → storeHit 32 (t0View s c) (genAddr (coreOf s c) g) 32 = false →
    ∃ t, exec (.ldl c q g st) s = .next t ∧ OnlyCoreChanges c { s with nonce := s.nonce + 1 } t ∧
      coreOf t c = { coreNext (coreOf s c) with regs := (coreOf t c).regs, gens := (coreOf t c).gens } ∧
      GeneratorsStep st [g] (coreOf s c) (coreOf t c) ∧
      (∀ w, w < 4 → quadReg q w ≠ 0 → readReg (coreOf t c) (quadReg q w) =
        BitVec.ofNat 64 (byteField (storeRead (t0View s c) (genAddr (coreOf s c) g) 32) (8 * w) 8)) ∧
      (∀ n, (∀ w, w < 4 → n ≠ quadReg q w) → readReg (coreOf t c) n = readReg (coreOf s c) n)) ∧
  (∀ (c : CoreRef) (q : BitVec 3) (g : BitVec 2) (st : Bool) (s : State), IssuesInside s c (.stl q g st) →
    OperandFits (genAddr (coreOf s c) g) 32 → heldByReads s c (genAddr (coreOf s c) g) 32 = false →
    ∃ t, exec (.stl c q g st) s = .next t ∧ OnlyCoreChanges c s t ∧
      coreOf t c = { coreNext (coreOf s c) with gens := (coreOf t c).gens, t0 := (coreOf t c).t0 } ∧
      GeneratorsStep st [g] (coreOf s c) (coreOf t c) ∧
      BytesWritten (coreOf s c).t0 (coreOf t c).t0 (genAddr (coreOf s c) g) (quadLine (coreOf s c) q))

/-- R117: SETA writes BASE, INC0, CNT0, INC1 or CNT1 (FIELD 0 to 4) of a generator from RS and sets ADDR = BASE and I0 = I1 = 0; no other
generator and nothing else changes. -/
def Obligations.SetaRestartsItsGenerator : Prop :=
  ∀ (c : CoreRef) (rs : BitVec 5) (g : BitVec 2) (field : BitVec 3) (s : State), field.toNat ≤ 4 → IssuesInside s c (.seta rs g field) →
    ∃ t, exec (.seta c rs g field) s = .next t ∧ OnlyCoreChanges c s t ∧
      coreOf t c = { coreNext (coreOf s c) with gens := (coreOf t c).gens } ∧
      (∀ h, h ≠ g → genOf (coreOf t c) h = genOf (coreOf s c) h) ∧
      (genOf (coreOf t c) g).addr = (genOf (coreOf t c) g).base ∧ (genOf (coreOf t c) g).i0 = 0 ∧ (genOf (coreOf t c) g).i1 = 0 ∧
      (genOf (coreOf t c) g).base = (if field = 0 then BitVec.ofNat 32 (readReg (coreOf s c) rs).toNat else (genOf (coreOf s c) g).base) ∧
      (genOf (coreOf t c) g).inc0 = (if field = 1 then BitVec.ofNat 32 (readReg (coreOf s c) rs).toNat else (genOf (coreOf s c) g).inc0) ∧
      (genOf (coreOf t c) g).cnt0 = (if field = 2 then BitVec.ofNat 16 (readReg (coreOf s c) rs).toNat else (genOf (coreOf s c) g).cnt0) ∧
      (genOf (coreOf t c) g).inc1 = (if field = 3 then BitVec.ofNat 32 (readReg (coreOf s c) rs).toNat else (genOf (coreOf s c) g).inc1) ∧
      (genOf (coreOf t c) g).cnt1 = (if field = 4 then BitVec.ofNat 16 (readReg (coreOf s c) rs).toNat else (genOf (coreOf s c) g).cnt1)

/-- R119: LDMA copies LINES lines: T0 to T0 (ranges apart), the banks to T0, and T0 to the banks, whose touched banks take the tag INT32
or FP32; every other byte and bank word stays. It uses up one free value of the model's own. -/
def Obligations.LdmaMovesLines : Prop :=
  ∀ (c : CoreRef) (f : LdmaF) (s : State), IssuesInside s c (.ldma f) →
    (f.dir ≠ 1 → OperandFits (genAddr (coreOf s c) f.sg) (ldmaLines f * 32) ∧ T0Sound s c (genAddr (coreOf s c) f.sg) (ldmaLines f * 32) ∧
      storeHit 32 (t0View s c) (genAddr (coreOf s c) f.sg) (ldmaLines f * 32) = false) →
    (f.dir.toNat ≤ 1 → OperandFits (genAddr (coreOf s c) f.dg) (ldmaLines f * 32)) →
    (f.dir = 0 → genAddr (coreOf s c) f.sg + ldmaLines f * 32 ≤ genAddr (coreOf s c) f.dg ∨
      genAddr (coreOf s c) f.dg + ldmaLines f * 32 ≤ genAddr (coreOf s c) f.sg) →
    (f.dir = 1 → rawWords 3 (coreOf s c).bankRaw (f.bank.toNat * 1024) (f.bank.toNat * 1024 + ldmaLines f * 8) = []) →
    ldmaHeld s c f = false →
    ∃ t, exec (.ldma c f) s = .next t ∧ OnlyCoreChanges c { s with nonce := s.nonce + 1 } t ∧
      coreOf t c = { coreNext (coreOf s c) with gens := (coreOf t c).gens, t0 := (coreOf t c).t0, banks := (coreOf t c).banks
                                                fpTags := (coreOf t c).fpTags, bankRaw := (coreOf t c).bankRaw } ∧
      (f.dir.toNat ≤ 1 → (coreOf t c).bankRaw = (coreOf s c).bankRaw) ∧
      GeneratorsStep f.stepG ((ldmaRanges (coreOf s c) f).map (·.1)) (coreOf s c) (coreOf t c) ∧
      (f.dir = 0 → (coreOf t c).banks = (coreOf s c).banks ∧ (coreOf t c).fpTags = (coreOf s c).fpTags ∧
        BytesWritten (coreOf s c).t0 (coreOf t c).t0 (genAddr (coreOf s c) f.dg)
          ((List.range (ldmaLines f)).flatMap (fun i => storeRead (t0View s c) (genAddr (coreOf s c) f.sg + 32 * i) 32))) ∧
      (f.dir = 1 → (coreOf t c).banks = (coreOf s c).banks ∧ (coreOf t c).fpTags = (coreOf s c).fpTags ∧
        BytesWritten (coreOf s c).t0 (coreOf t c).t0 (genAddr (coreOf s c) f.dg)
          ((List.range (ldmaLines f * 8)).flatMap (fun i => leBytes 4 (mapGet 0 (coreOf s c).banks (f.bank.toNat * 1024 + i)).toNat))) ∧
      (2 ≤ f.dir.toNat → (coreOf t c).t0 = (coreOf s c).t0 ∧
        (∀ w, mapGet 0 (coreOf t c).banks w =
          if f.bank.toNat * 1024 ≤ w ∧ w < f.bank.toNat * 1024 + ldmaLines f * 8 then
            BitVec.ofNat 32 (leNat (storeRead (t0View s c) (genAddr (coreOf s c) f.sg + 4 * (w - f.bank.toNat * 1024)) 4))
          else mapGet 0 (coreOf s c).banks w) ∧
        (∀ b, (coreOf t c).fpTags.contains b =
          if b ∈ ldmaBanks f then decide (f.dir = 3) else (coreOf s c).fpTags.contains b))

/-- R76, R118: an operand of LDL, STL, MMA or MMA.ACC (A, the first checked) that is no multiple of 32 stops the core with OPERAND_ALIGN
(1), and one that passes 0x2_0000 with OPERAND_ADDRESS (2): the context faults. -/
def Obligations.OperandFaultsStopTheCore : Prop :=
  (∀ (c : CoreRef) (q : BitVec 3) (g : BitVec 2) (st : Bool) (s : State), wfCore c = true →
    (issues s c (.ldl q g st) = true →
      (genAddr (coreOf s c) g % 32 ≠ 0 → ∃ t, exec (.ldl c q g st) s = .next t ∧ ContextFaulted c.ctx 1 s t) ∧
      (genAddr (coreOf s c) g % 32 = 0 → 0x20000 < genAddr (coreOf s c) g + 32 →
        ∃ t, exec (.ldl c q g st) s = .next t ∧ ContextFaulted c.ctx 2 s t)) ∧
    (issues s c (.stl q g st) = true →
      (genAddr (coreOf s c) g % 32 ≠ 0 → ∃ t, exec (.stl c q g st) s = .next t ∧ ContextFaulted c.ctx 1 s t) ∧
      (genAddr (coreOf s c) g % 32 = 0 → 0x20000 < genAddr (coreOf s c) g + 32 →
        ∃ t, exec (.stl c q g st) s = .next t ∧ ContextFaulted c.ctx 2 s t))) ∧
  (∀ (acc : Bool) (c : CoreRef) (f : MmaF) (s : State), wfCore c = true → issues s c (.mma acc f) = true →
    (coreOf s c).queuedOp = none →
    (genAddr (coreOf s c) f.ga % 32 ≠ 0 →
      ∃ t, exec (if acc then .mmaAcc c f else .mma c f) s = .next t ∧ ContextFaulted c.ctx 1 s t) ∧
    (genAddr (coreOf s c) f.ga % 32 = 0 → 0x20000 < genAddr (coreOf s c) f.ga + mmaALen f →
      ∃ t, exec (if acc then .mmaAcc c f else .mma c f) s = .next t ∧ ContextFaulted c.ctx 2 s t))

/-- R88, R126: an MMA, MMA.ACC or element-wise instruction or a CHAIN whose operands pass their checks and are not held by an instruction
in flight enters the array with the addresses its generators hold, and steps them. -/
def Obligations.ArrayInstructionsEnterTheArray : Prop :=
  (∀ (acc : Bool) (c : CoreRef) (f : MmaF) (s : State), IssuesInside s c (.mma acc f) → (coreOf s c).queuedOp = none →
    OperandFits (genAddr (coreOf s c) f.ga) (mmaALen f) → OperandFits (genAddr (coreOf s c) f.gb) (mmaBLen f) →
    (acc = true → (∀ b ∈ bankGroup f.bank f.cnt1, (tagsAhead (coreOf s c)).contains b = mmaFp f) ∧
      banksHeld (coreOf s c) false (bankGroup f.bank f.cnt1) = false) →
    readsHeld s c { ins := .mma acc f, a := genAddr (coreOf s c) f.ga, b := genAddr (coreOf s c) f.gb } = false →
    ∃ t, exec (if acc then .mmaAcc c f else .mma c f) s = .next t ∧
      EntersTheArray c { ins := .mma acc f, a := genAddr (coreOf s c) f.ga, b := genAddr (coreOf s c) f.gb } [f.ga, f.gb] f.stepG s t) ∧
  (∀ (op : EwOp) (c : CoreRef) (f : EwF) (s : State), IssuesInside s c (.ew op f) → (coreOf s c).queuedOp = none →
    ElementwiseOperandsFit (coreOf s c) f → ewPalBad (ctxOf s c.ctx).palette op f = [] →
    readsHeld s c (elementwiseOp op (coreOf s c) f) = false → banksHeld (coreOf s c) true (ewBanks f) = false →
    ∃ t, exec (elementwiseCommand op c f) s = .next t ∧
      EntersTheArray c (elementwiseOp op (coreOf s c) f) (ewGens f) f.stepG s t) ∧
  (∀ (c : CoreRef) (f : ChainF) (s : State) (ch : Chain), IssuesInside s c (.chain f) → (coreOf s c).queuedOp = none →
    (chainsOf s c)[f.chain.toNat]? = some ch →
    (∀ g ∈ chainGens ch f, OperandFits (genAddr (coreOf s c) g) 0) →
    (∀ r ∈ opReads (chainOp ch (coreOf s c) f) (chainsOf s c) ++ opWrites (chainOp ch (coreOf s c) f) (chainsOf s c), OperandFits r.1 r.2) →
    (∀ r ∈ chainPals ch f.last, palFmt (mapGet {} (ctxOf s c.ctx).palette r.2) = r.1) →
    (ch.source ≠ 2 → (∀ b ∈ bankGroup f.bank f.cnt1, (tagsAhead (coreOf s c)).contains b = decide (ch.source = 1)) ∧
      banksHeld (coreOf s c) true (bankGroup f.bank f.cnt1) = false) →
    readsHeld s c (chainOp ch (coreOf s c) f) = false → seqBad (t0View s c) ch f = false →
    ∃ t, exec (.chain c f) s = .next t ∧ EntersTheArray c (chainOp ch (coreOf s c) f) (chainGens ch f) f.stepG s t)

/-- R70, R78, R79, R85, R81: when an integer MMA lands, word m × N + n of its bank group is the sum over k of A(m, k) × B(k, n), added to the
old word in accumulate mode, modulo 2^32; no other bank word, no T0 byte and no register changes; the queued instruction streams next in
the slice while the duty is not 0. A failed residue check (R97) takes the core offline and faults the context with ARRAY_CHECK (4). -/
def Obligations.IntegerMmaLands : Prop :=
  (∀ (acc : Bool) (c : CoreRef) (f : MmaF) (a b : Nat) (w : List Nat) (s : State), wfCore c = true →
    (coreOf s c).streaming = some { ins := .mma acc f, a := a, b := b, before := w } → mmaFp f = false →
    OperandsSound s c { ins := .mma acc f, a := a, b := b, before := w } →
    ∃ t, exec (.arrayResultLanded c false) s = .next t ∧ t = { s with ctxs := t.ctxs, logs := t.logs, nonce := s.nonce + 1 } ∧
      (∀ n, n ≠ c.ctx → ctxOf t n = ctxOf s n) ∧ (∀ r, r ≠ c → coreOf t r = coreOf s r) ∧
      coreOf t c = { coreOf s c with
        banks := (coreOf t c).banks, fpTags := (coreOf t c).fpTags, bankRaw := (coreOf t c).bankRaw
        streaming := if (ctxOf s c.ctx).inSlice = true ∧ s.power.duty ≠ 0 then (coreOf s c).queuedOp else none
        queuedOp := if (ctxOf s c.ctx).inSlice = true ∧ s.power.duty ≠ 0 then none else (coreOf s c).queuedOp } ∧
      (∀ m n, m ≤ f.m1.toNat → n ≤ f.n1.toNat →
        mapGet 0 (coreOf t c).banks (f.bank.toNat * 1024 + m * (f.n1.toNat + 1) + n) =
          BitVec.ofInt 32 ((if acc then (mapGet 0 (coreOf s c).banks (f.bank.toNat * 1024 + m * (f.n1.toNat + 1) + n)).toInt else 0) +
            ∑ k ∈ Finset.range (f.k1.toNat + 1), codeInt (mmaAFmt f) (mmaA (t0ViewOp s c { ins := .mma acc f, a := a, b := b, before := w }) f a m k) *
              codeInt (mmaBFmt f) (mmaB (t0ViewOp s c { ins := .mma acc f, a := a, b := b, before := w }) f b k n))) ∧
      (∀ w, w < f.bank.toNat * 1024 ∨ f.bank.toNat * 1024 + (f.m1.toNat + 1) * (f.n1.toNat + 1) ≤ w →
        mapGet 0 (coreOf t c).banks w = mapGet 0 (coreOf s c).banks w) ∧
      (acc = false → ∀ i ∈ bankGroup f.bank f.cnt1, (coreOf t c).fpTags.contains i = false)) ∧
  (∀ (c : CoreRef) (o : ArrayOp) (s : State), wfCore c = true → (coreOf s c).streaming = some o → (ctxOf s c.ctx).state = .runnable →
    ∃ t, exec (.arrayResultLanded c true) s = .next t ∧ ContextFaulted c.ctx 4 s t ∧
      (mapGet {} t.phys ((physOf s c).1 * 100 + (physOf s c).2)).offline = true)

/-- R129, R114, R130: FENCE retires once every ticket is idle and every post has been accepted; FSET and FCLR set and clear one flag of the
core's cluster; FWAIT retires while its flag is 1, which stays 1, and waits while it is 0. The first issue of BAR or XBAR records the core's
arrival: while another participant has neither arrived nor halted, the core waits with its PC in place; when all others have, the use completes:
no arrival stands any more and the core goes on. -/
def Obligations.FenceFlagsAndBarriers : Prop :=
  (∀ (c : CoreRef) (s : State), IssuesInside s c .fence → (∀ t ∈ (coreOf s c).tickets, t.2.out = none) → (coreOf s c).postsOut = 0 →
    ∃ t, exec (.fence c) s = .next t ∧ JumpsTo c ((coreOf s c).pc + 1) s t) ∧
  (∀ (c : CoreRef) (flag : BitVec 5) (s : State), IssuesInside s c (.fset flag) →
    ∃ t, exec (.fset c flag) s = .next t ∧ OnlyFlagsChange c s t ∧
      (∀ i, i < 32 → (clusterOf t c.ctx (lclusterOf s c)).flags.getLsbD i =
        (decide (i = flag.toNat) || (clusterOf s c.ctx (lclusterOf s c)).flags.getLsbD i))) ∧
  (∀ (c : CoreRef) (flag : BitVec 5) (s : State), IssuesInside s c (.fclr flag) →
    ∃ t, exec (.fclr c flag) s = .next t ∧ OnlyFlagsChange c s t ∧
      (∀ i, i < 32 → (clusterOf t c.ctx (lclusterOf s c)).flags.getLsbD i =
        (decide (i ≠ flag.toNat) && (clusterOf s c.ctx (lclusterOf s c)).flags.getLsbD i))) ∧
  (∀ (c : CoreRef) (flag : BitVec 5) (s : State), IssuesInside s c (.fwait flag) →
    ((clusterOf s c.ctx (lclusterOf s c)).flags.getLsbD flag.toNat = true →
      ∃ t, exec (.fwait c flag) s = .next t ∧ JumpsTo c ((coreOf s c).pc + 1) s t) ∧
    ((clusterOf s c.ctx (lclusterOf s c)).flags.getLsbD flag.toNat = false → exec (.fwait c flag) s = .next s)) ∧
  (∀ (cross : Bool) (c : CoreRef) (id : Nat) (i : Instr) (ci : CoreInstr) (s : State),
    ((cross = false ∧ ∃ n : BitVec 3, n.toNat = id ∧ i = .bar c n ∧ ci = .bar n) ∨
      (cross = true ∧ ∃ n : BitVec 2, n.toNat = id ∧ i = .xbar c n ∧ ci = .xbar n)) →
    IssuesInside s c ci → (coreOf s c).arrived = none →
    ((∃ j ∈ participants s c cross, j ≠ c.lcore ∧ j ∉ arrivals s c cross id ∧ (coreOf s { c with lcore := j }).phase ≠ .halted) →
      ∃ t, exec i s = .next t ∧ coreOf t c = { coreOf s c with arrived := some (cross, id) } ∧ c.lcore ∈ arrivals t c cross id) ∧
    ((∀ j ∈ participants s c cross, j ≠ c.lcore → j ∈ arrivals s c cross id ∨ (coreOf s { c with lcore := j }).phase = .halted) →
      ∃ t, exec i s = .next t ∧ coreOf t c = { coreNext (coreOf s c) with arrived := none } ∧ arrivals t c cross id = []))

/-- R120-R124: a CDMA whose descriptor passes its checks, on an idle ticket, starts its transfer: the ticket is outstanding with the
descriptor; where an end has no present T2 copy the ticket completes ABSENT at once, where its stream or its engine cannot serve it it completes
CANCELLED, and no data moves. WAITD waits while its ticket is
outstanding and then writes the ticket's last result to RD. -/
def Obligations.ClusterDmaStartsUnderItsTicket : Prop :=
  (∀ (c : CoreRef) (q : BitVec 3) (n : BitVec 2) (s : State) (p : Program), IssuesInside s c (.cdma q n) →
    progOf (ctxOf s c.ctx) c.sketch = some p → (ticketOf (coreOf s c) n).out = none →
    cdmaBad s c p (quadDesc (coreOf s c) q) = [] →
    (cdmaAtOnce s p (quadDesc (coreOf s c) q) = none →
      ∃ t, exec (.cdma c q n) s = .next t ∧ OnlyCoreChanges c s { t with objs := s.objs } ∧
        coreOf t c = { coreNext (forgetTicket n (coreOf s c)) with tickets := (coreOf t c).tickets } ∧
        (ticketOf (coreOf t c) n).out = some (quadDesc (coreOf s c) q) ∧ (ticketOf (coreOf t c) n).lines = 0 ∧
        (∀ m, m ≠ n → ticketOf (coreOf t c) m = ticketOf (coreOf s c) m)) ∧
    (∀ res, cdmaAtOnce s p (quadDesc (coreOf s c) q) = some res →
      ∃ t, exec (.cdma c q n) s = .next t ∧ OnlyCoreChanges c s t ∧
        coreOf t c = { coreNext (coreOf s c) with tickets := (coreOf t c).tickets } ∧ ticketOf (coreOf t c) n = { result := res }) ∧
    (endAbsent s p (quadDesc (coreOf s c) q) = true → dDstKind (quadDesc (coreOf s c) q) < 3 → cdmaAtOnce s p (quadDesc (coreOf s c) q) = some 1) ∧
    (dDstKind (quadDesc (coreOf s c) q) = 3 → (streamDisabled s p (quadDesc (coreOf s c) q) = true ∨ routeCut s p (quadDesc (coreOf s c) q) = true) →
      cdmaAtOnce s p (quadDesc (coreOf s c) q) = some 2) ∧
    (dDstKind (quadDesc (coreOf s c) q) = 4 → s.red.available = false → cdmaAtOnce s p (quadDesc (coreOf s c) q) = some 2)) ∧
  (∀ (c : CoreRef) (rd : BitVec 5) (n : BitVec 2) (s : State), IssuesInside s c (.waitd rd n) →
    ((ticketOf (coreOf s c) n).out = none →
      ∃ t, exec (.waitd c rd n) s = .next t ∧ WritesRegister c rd (BitVec.ofNat 64 (ticketOf (coreOf s c) n).result) s t) ∧
    ((ticketOf (coreOf s c) n).out.isSome = true → exec (.waitd c rd n) s = .next s))

/-- R121, R124, R206: when a transfer whose source holds no error completes, its rows stand at the destination (the core's T0, its cluster's T1, or the object's T2
copy, which becomes DIRTY), no other byte there changes, and the ticket is idle with result DONE. -/
def Obligations.TransferCompletionWritesItsRows : Prop :=
  ∀ (c : CoreRef) (n : BitVec 2) (s : State) (p : Program) (d : Desc), wfCore c = true →
    progOf (ctxOf s c.ctx) c.sketch = some p → (ticketOf (coreOf s c) n).out = some d → (ticketOf (coreOf s c) n).lines = 0 →
    (ctxOf s c.ctx).inSlice = true → meetSource c p d s = s → srcPoison s c p d = false → dstLines s c p d ≠ [] →
    (goodLines (dstLines s c p d)).any (lineHeld s c d) = false → RowsApart (dstRows s c p d) →
    (dDstKind d = 0 →
      ∃ t, exec (.dmaTransferComplete c n) s = .next t ∧ OnlyCoreChanges c s t ∧ ticketOf (coreOf t c) n = { result := 0 } ∧
        RowsWritten (coreOf s c).t0 (coreOf t c).t0 (dstRows s c p d)) ∧
    (dDstKind d = 1 →
      ∃ t, exec (.dmaTransferComplete c n) s = .next t ∧ t = { s with ctxs := t.ctxs } ∧ ticketOf (coreOf t c) n = { result := 0 } ∧
        (coreOf t c).t0 = (coreOf s c).t0 ∧ (∀ r, r ≠ c → coreOf t r = coreOf s r) ∧
        RowsWritten (t1Of s c.ctx (lclusterOf s c)) (t1Of t c.ctx (lclusterOf s c)) (dstRows s c p d) ∧
        (∀ lc, lc ≠ lclusterOf s c → clusterOf t c.ctx lc = clusterOf s c.ctx lc)) ∧
    (∀ id o m, dDstKind d = 2 → slotObj s p (dDstSlot d) = some id → objOf s id = some o → o.copy = some m →
      ∃ t m', exec (.dmaTransferComplete c n) s = .next t ∧ OnlyCoreChanges c s { t with objs := s.objs } ∧
        ticketOf (coreOf t c) n = { result := 0 } ∧ objOf t id = some { o with copy := some m' } ∧ m'.dirty = true ∧
        RowsWritten m.data m'.data (dstRows s c p d) ∧ (∀ j, j ≠ id → objOf t j = objOf s j))

/-- R125: PREQ enters a post of the slot's object with the quad's mask at the end of the cluster's post queue, which holds fewer than 64;
a slot at or beyond SLOTS is DMA_DESCRIPTOR (7) and a dangling slot OBJECT_SLOT (9). -/
def Obligations.PreqPostsItsObject : Prop :=
  ∀ (c : CoreRef) (rs : BitVec 5) (q : BitVec 3) (s : State) (p : Program), progOf (ctxOf s c.ctx) c.sketch = some p →
    (∀ id, IssuesInside s c (.preq rs q) → slotObj s p (readReg (coreOf s c) rs).toNat = some id →
      (clusterOf s c.ctx (lclusterOf s c)).posts.length < 64 →
      ∃ t, exec (.preq c rs q) s = .next t ∧ t = { s with ctxs := t.ctxs } ∧
        coreOf t c = { coreNext (coreOf s c) with postsOut := (coreOf s c).postsOut + 1 } ∧ (∀ r, r ≠ c → coreOf t r = coreOf s r) ∧
        clusterOf t c.ctx (lclusterOf s c) = { clusterOf s c.ctx (lclusterOf s c) with
          posts := (clusterOf s c.ctx (lclusterOf s c)).posts ++ [{ obj := id, mask := quadMask (coreOf s c) q, core := c }] } ∧
        (∀ lc, lc ≠ lclusterOf s c → clusterOf t c.ctx lc = clusterOf s c.ctx lc)) ∧
    (wfCore c = true → issues s c (.preq rs q) = true → p.slots.length ≤ (readReg (coreOf s c) rs).toNat →
      ∃ t, exec (.preq c rs q) s = .next t ∧ ContextFaulted c.ctx 7 s t) ∧
    (wfCore c = true → issues s c (.preq rs q) = true → (readReg (coreOf s c) rs).toNat < p.slots.length →
      slotObj s p (readReg (coreOf s c) rs).toNat = none →
      ∃ t, exec (.preq c rs q) s = .next t ∧ ContextFaulted c.ctx 9 s t)

/-! ### Power, reset and start-up -/

/-- R46, R474, R490, R511, R448, Table 18-5: each reset source leaves the reset state with its cause: main loss and MATE# 1 (with D1 to
D29 off), PERST# asserted 2, hot reset 3, link down 4, watchdog 5 (with the processors that had not kicked), PERST# deasserted in S3 8. -/
def Obligations.ResetSourcesLeaveTheResetState : Prop :=
  (∀ s : State, s.power.standby = true → s.power.d1 = true →
    (∃ t, exec .mainLoss s = .next t ∧ ResetLeaves 1 s t ∧ MainDomainsOff t ∧ t.power.pgIn = false) ∧
    (∃ t, exec .mateDeasserted s = .next t ∧ ResetLeaves 1 s t ∧ MainDomainsOff t ∧ t.power.mateHeld = false)) ∧
  (∀ s : State, s.power.standby = true → s.power.s3 = false → s.power.perst = false →
    ∃ t, exec (.perst true) s = .next t ∧ ResetLeaves 2 s t ∧ t.power.perst = true) ∧
  (∀ s : State, s.power.standby = true → s.power.s3 = true → s.power.perst = true →
    ∃ t, exec (.perst false) s = .next t ∧ ResetLeaves 8 s t ∧ t.power.perst = false ∧ t.power.s3 = false) ∧
  (∀ s : State, s.power.d1 = true → s.power.perst = false →
    (∃ t, exec .hotReset s = .next t ∧ ResetLeaves 3 s t) ∧ (∃ t, exec .linkDown s = .next t ∧ ResetLeaves 4 s t)) ∧
  (∀ s : State, s.power.d1 = true → s.ef.wdtEnable = true →
    ∃ t, exec .wdtExpiry s = .next t ∧ ResetLeaves 5 s t ∧ t.ef.expired = true ∧ t.ef.missing = ~~~s.ef.kicked)

/-- R46, R473, R490: when standby power is applied D0 starts with the frame counter 0, RESETS 0 and cause POWER_ON, D1 to D29 without
power; its loss takes every domain; MATE# asserted for 100 ms with standby power is noted and changes nothing else. -/
def Obligations.StandbyPowerComesAndGoes : Prop :=
  (∀ s : State, ∃ t, exec .powerOn s = .next t ∧ t.power.standby = true ∧ t.power.resets = 0 ∧ t.power.resetCause = 0 ∧ t.frame = {} ∧
    t.host.devState = .booting ∧ t.host.cmds = [] ∧ t.objs = [] ∧ MainDomainsOff t ∧ t.uid = s.uid) ∧
  (∀ s : State, ∃ t, exec .standbyLoss s = .next t ∧ t.power.standby = false ∧ t.host.cmds = [] ∧ t.objs = [] ∧ MainDomainsOff t) ∧
  (∀ s : State, exec .mateHeld s = .next { s with power := { s.power with mateHeld := s.power.mateHeld || s.power.standby } })

/-- R447, R493, R494, R472, R277, R466, Table 18-7: at the start trigger D1 starts; with no image that verifies, or a wrong variant, the module is
in FAULT with cause 1; a stack that fails training gives 6 and a package that fails its test 2, with D2 to D29 off again; otherwise every domain
of the part is on and DEV_STATE is GESSO. The end of the gesso pass is REBUILDING; the map then comes from the checkpoint while its clean marker
holds, and otherwise from the versions on the media, and DEV_STATE is READY; a sanitising erase leaves an empty map, no object, no context and no block space, and READY. -/
def Obligations.StartUpReachesReadyOrFault : Prop :=
  (∀ (r : StartReport) (s : State), mayStart s = true →
    ∃ t, exec (.startUp r) s = .next t ∧ t.power.d1 = true ∧ t.power.pgIn = true ∧ t.sec.identity = true ∧
      t.frame.counter = s.frame.counter ∧ t.uid = s.uid ∧
      (bootSlot (bootState s) = none → t.host.devState = .fault ∧ t.host.faultCause = 1 ∧ t.power.d2 = false) ∧
      (∀ slot, bootSlot (bootState s) = some slot → t.ef.activeSlot = some slot ∧ t.ef.wdtEnable = true ∧ t.ef.periodMs = 500 ∧
        (r.variantBad = true → t.host.devState = .fault ∧ t.host.faultCause = 1) ∧
        (r.variantBad = false → r.hbmBad = true → t.host.devState = .fault ∧ t.host.faultCause = 6 ∧ t.power.d2 = false) ∧
        (r.variantBad = false → r.hbmBad = false → r.mediaBad = true → t.host.devState = .fault ∧ t.host.faultCause = 2 ∧ t.power.d2 = false) ∧
        (r.variantBad = false → r.hbmBad = false → r.mediaBad = false → t.host.devState = .gesso ∧ t.flash.trained = true ∧ t.power.d2 = true ∧
          t.power.d3 = true ∧ t.power.d4 = true ∧ t.power.pgOut = true ∧
          (∀ d, 5 ≤ d → d < 5 + computeDomains s → mapGet DomState.off t.power.compute d = .on)))) ∧
  (∀ s : State, s.host.devState = .gesso →
    ∃ t n, exec .gessoPassComplete s = .next t ∧ n ≤ 100 ∧
      t = { s with host := { s.host with devState := .rebuilding, progress := n }, nonce := s.nonce + 1, hbmRest := [], idle := [] }) ∧
  (∀ (ms : Nat) (ls : List (Nat × Nat × Nat × Nat)) (s : State), s.host.devState = .rebuilding → s.sec.sanitise = false →
    ∃ t, exec (.mapRecoveryComplete ⟨ms, ls⟩) s = .next t ∧ t.host = { s.host with devState := .ready, progress := 0 } ∧
      t.frame = { s.frame with wasReady := true } ∧ t.ctxs = s.ctxs ∧ t.power = s.power ∧
      ((s.frame.wasReady = true ∨ s.flash.ckpt.filter (ckptHolds s) = none) →
        t.flash.map = mapVals (fun b => b.2) (scanBases (loseWordlines ls s)) ∧ t.flash.supers = (loseWordlines ls s).flash.supers) ∧
      (s.frame.wasReady = true → t.objs = s.objs) ∧
      (s.frame.wasReady = false → t.flash.ckpt = none ∧
        (s.flash.ckpt.filter (ckptHolds s) = none → t.objs = scanObjs (loseWordlines ls s) ∧ t.flash.lastStart = 1) ∧
        (∀ k, s.flash.ckpt = some k → ckptHolds s k = true → t.flash.map = k.map ∧ t.flash.overlay = k.overlay ∧
          t.objs = (if s.sec.keyHeld = true then k.objs else []) ∧ t.flash.lastStart = 0))) ∧
  (∀ s : State, s.host.devState = .rebuilding → s.sec.sanitise = true →
    ∃ t, exec .sanitisingEraseComplete s = .next t ∧ t.host = { s.host with devState := .ready, progress := 0 } ∧ t.sec.sanitise = false ∧
      t.flash.map = [] ∧ t.flash.overlay = [] ∧ t.flash.blockGranules = 0 ∧ t.objs = [] ∧ t.ctxs = [] ∧ t.power = s.power)

/-! ### Sleep and power -/

/-- R485-R489, Table 18-3: SLEEP with LEVEL 0 completes at once outside S2, leaving S1, and starts the exit in S2; LEVEL 1 and 2 complete at
once in their own state and ask for entry outside it, which the entry event grants where no run is in progress and no other command has been
released; LEVEL 3 completes and ends every command that waits, and its power-down follows the next window. At a tick that meets R485 the
module enters the state and the SLEEP completes. S3 has D1 to D29 off and the checkpoint written. The exit from S2 ends with the domains it
had powered back on; a ring message on VC 1 to 3 starts it. -/
def Obligations.SleepStates : Prop :=
  (∀ (tag : Nat) (c : Cmd) (s : State), AtUnit s 0x0B tag c →
    (pktField c.pkt 8 1 = 0 → inS2 s = false → ∃ t, exec (.sleepS0 tag) s = .next t ∧ OnlyHostChanges s t ∧ cmdOf t tag = none ∧
      t.host.done = s.host.done ++ [recordOf s c (stSuccess 0 0 0) []] ∧
      t.host.devState = (if inS1 s then .ready else s.host.devState)) ∧
    (pktField c.pkt 8 1 = 0 → inS2 s = true → ∃ t, exec (.sleepS0 tag) s = .next t ∧ t.power = { s.power with waking := true, wakeTag := c.tag } ∧
      t = { s with host := t.host, power := t.power }) ∧
    (pktField c.pkt 8 1 = 1 → inS1 s = false → inS2 s = false → ∃ t, exec (.sleepS1 tag) s = .next t ∧
      t.power = { s.power with sleepReq := some (c.tag, 1, BitVec.ofNat 32 (pktField c.pkt 12 4)) } ∧ t = { s with host := t.host, power := t.power }) ∧
    (pktField c.pkt 8 1 = 2 → inS2 s = false → ∃ t, exec (.sleepS2 tag) s = .next t ∧
      t.power = { s.power with sleepReq := some (c.tag, 2, BitVec.ofNat 32 (pktField c.pkt 12 4)) } ∧ t = { s with host := t.host, power := t.power }) ∧
    (s.power.waking = false → s.power.woken = false →
      (pktField c.pkt 8 1 = 1 → inS1 s = true → ∃ t, exec (.sleepS1 tag) s = .next t ∧ OnlyHostChanges s t ∧ CommandCompletes c (stSuccess 0 0 0) s t) ∧
      (pktField c.pkt 8 1 = 2 → inS2 s = true → ∃ t, exec (.sleepS2 tag) s = .next t ∧ OnlyHostChanges s t ∧ CommandCompletes c (stSuccess 0 0 0) s t)) ∧
    (∀ (level : Nat) (i : Instr), (level = 1 ∧ i = .sleepS1 tag) ∨ (level = 2 ∧ i = .sleepS2 tag) → pktField c.pkt 8 1 = level →
      s.host.devState = .ready → (∀ p ∈ s.ctxs, p.2.run = none) → (∀ d ∈ s.host.cmds, d.tag ≠ tag → d.phase = .waiting) →
      (level = 2 → ∀ k ∈ s.red.tags, isOpenTag k.2 = false) →
      ∃ t u, exec i s = .next t ∧ exec .sleepEntry t = .next u ∧ u.host.devState = .sleep ∧ u.host.sleepLevel = level ∧ cmdOf u tag = none ∧
        u.host.done = s.host.done ++ [recordOf s c (stSuccess 0 0 0) []]) ∧
    (pktField c.pkt 8 1 = 3 → (∀ d ∈ s.host.cmds, d.tag ≠ tag → notStarted d = true ∧ pktOpcode d.pkt ≠ 0x07) →
      ∃ t, exec (.sleepS3 tag) s = .next t ∧ t.power = { s.power with afterWindow := some 8 } ∧
        ((∀ d ∈ s.host.cmds, isExecution (pktOpcode d.pkt) = false ∧ pktOpcode d.pkt ≠ 0x08) → t = { s with host := t.host, power := t.power }) ∧
        t.host.cmds = [] ∧ t.host.done.head? = (s.host.done ++ [recordOf s c (stSuccess 0 0 0) []]).head?)) ∧
  (∀ (tag level : Nat) (retain : Word32) (s : State), s.power.sleepReq = some (tag, level, retain) → sleepMay s tag level = true →
    ∃ t, exec .sleepEntry s = .next t ∧ t.host.devState = .sleep ∧ t.host.sleepLevel = (if level = 1 then 1 else 2) ∧
      t.power.sleepReq = none ∧ cmdOf t tag = none) ∧
  (∀ s : State, s.power.s3Flush = true → ∃ t, exec .s3Reached s = .next t ∧ t.host.devState = .sleep ∧ t.host.sleepLevel = 3 ∧
    t.power.s3 = true ∧ t.power.s3Flush = false ∧ ((putCkpt s).flash.ckpt.isSome = true → t.flash.ckpt = (putCkpt s).flash.ckpt) ∧ MainDomainsOff t) ∧
  (∀ s : State, inS2 s = true → s.power.waking = true → ∃ t, exec .sleepExitComplete s = .next t ∧ t = { s with power := t.power } ∧
    t.power.waking = false ∧ t.power.woken = true ∧ (∀ d ∈ s.power.sleepOn, mapGet DomState.off t.power.compute d = .on)) ∧
  (∀ (vc : Nat) (s : State), inS2 s = true → 1 ≤ vc → vc ≤ 3 → exec (.s2Wake vc) s = .next { s with power := { s.power with waking := true } })

/-- R476, Table 11-6: DOMAIN_CONTROL on a domain that has the state asked for completes at once; else it waits with the domain noted, for the
ticks that end its runs or for the end of its power-up, which DOMAIN_POWER_UP_COMPLETE reports; the tick after the second, with no context on the
domain, switches it off and completes, and the tick after the power-up switches it on and completes. -/
def Obligations.DomainControl : Prop :=
  (∀ (tag : Nat) (c : Cmd) (s : State), AtUnit s 0x0C tag c → domBusy s (domOf c) = false → inS2 s = false →
    (pktField c.pkt 9 1 = 0 →
      (mapGet DomState.off s.power.compute (domOf c) = .off → ∃ t, exec (.domainControlOff tag) s = .next t ∧ OnlyHostChanges s t ∧ CommandCompletes c (stSuccess 0 0 0) s t) ∧
      (mapGet DomState.off s.power.compute (domOf c) ≠ .off → ∃ t, exec (.domainControlOff tag) s = .next t ∧
        t = { s with host := t.host, power := { s.power with domOff := s.power.domOff ++ [(domOf c, c.tag, s.frame.counter.toNat - c.frame)] } } ∧
        (c.frame < s.frame.counter.toNat → s.power.domOff = [] → s.power.domOn = [] →
          (∀ p ∈ s.ctxs, p.2.place.contains (domOf c) = false ∧ (isResident p.2 = true → p.2.alloc.contains (domOf c) = false)) →
          CommandCompletes c (stSuccess 0 0 0) t (tickDomains t) ∧
            mapGet DomState.off (tickDomains t).power.compute (domOf c) = .off))) ∧
    (pktField c.pkt 9 1 = 1 →
      (mapGet DomState.off s.power.compute (domOf c) ≠ .off → ∃ t, exec (.domainControlOn tag) s = .next t ∧ OnlyHostChanges s t ∧ CommandCompletes c (stSuccess 0 0 0) s t) ∧
      (mapGet DomState.off s.power.compute (domOf c) = .off → ∃ t, exec (.domainControlOn tag) s = .next t ∧
        t = { s with host := t.host, power := { s.power with domOn := s.power.domOn ++ [(domOf c, c.tag, false)] } } ∧
        (5 ≤ domOf c → domOf c ≤ 29 → s.power.domOff = [] → s.power.domOn = [] →
          ∃ u, exec (.domainPowerUpComplete (domOf c)) t = .next u ∧ CommandCompletes c (stSuccess 0 0 0) u (tickDomains u) ∧
            mapGet DomState.off (tickDomains u).power.compute (domOf c) = .on)))) ∧
  (∀ (d : Nat) (s : State), 5 ≤ d → d ≤ 29 → ∃ t, exec (.domainPowerUpComplete d) s = .next t ∧ t = { s with power := { s.power with domOn := t.power.domOn } } ∧
    (∀ tag b, (d, tag, b) ∈ s.power.domOn → (d, tag, true) ∈ t.power.domOn) ∧
    (∀ e tag b, e ≠ d → ((e, tag, b) ∈ s.power.domOn ↔ (e, tag, b) ∈ t.power.domOn)))

/-- R481, R499, R500: a 100 µs window above CAP_W lowers the duty by one, to no less than 1; a sample above 4,000 W sets it to 0, keeps the
duty it had and counts, and one below CAP_W restores that duty; the interval's maxima enter history slot 0 of at most 96; the hour saves the
health counts. Nothing else changes. -/
def Obligations.PowerCapAndHealthRecords : Prop :=
  (∀ (w : Nat) (s : State), s.power.capW < w → 1 ≤ s.power.duty → ∃ t, exec (.powerWindowEnd w) s = .next t ∧
    t = { s with power := { s.power with duty := max 1 (s.power.duty - 1), dutyMin := min s.power.dutyMin (max 1 (s.power.duty - 1)) } }) ∧
  (∀ (w : Nat) (s : State), w ≤ s.power.capW → exec (.powerWindowEnd w) s = .next s) ∧
  (∀ (w : Nat) (s : State), 4000 < w → s.power.duty ≠ 0 → ∃ t, exec (.powerSample w) s = .next t ∧
    t = { s with power := { s.power with duty := 0, dutyMin := 0, lastDuty := s.power.duty, trips := min (s.power.trips + 1) 0xFFFFFFFF } }) ∧
  (∀ (w : Nat) (s : State), w < s.power.capW → s.power.duty = 0 → ∃ t, exec (.powerSample w) s = .next t ∧
    t = { s with power := { s.power with duty := s.power.lastDuty }, ctxs := t.ctxs } ∧
    (∀ r : CoreRef, coreOf t r = if (ctxOf s r.ctx).inSlice = true ∧ (ctxOf s r.ctx).cut = false then startQueued (coreOf s r) else coreOf s r)) ∧
  (∀ s : State, ∃ t, exec .temperatureHistoryInterval s = .next t ∧ t = { s with power := { s.power with history := t.power.history, tempMax := [] } } ∧
    t.power.history.length ≤ 96 ∧ t.power.history.head? = some s.power.tempMax) ∧
  (∀ s : State, ∃ t, exec .healthCountSave s = .next t ∧ t = { s with ef := t.ef, logs := { s.logs with savedHealth := t.logs.savedHealth } } ∧
    t.logs.savedHealth.length = 79 ∧ t.logs.savedHealth[0]? = some s.flash.programFails ∧ t.logs.savedHealth[1]? = some s.flash.eraseFails ∧
    t.logs.savedHealth[78]? = some s.power.thermalFaults)

/-- R484, R306, R310, Tables 10-3 and 14-4: an over-temperature, a rail fault and an exception of a module duty put the module into FAULT with
causes 4, 5 and 3: D2 to D29 off, D1 on; an exception of a context duty (SP1) faults the context with 0x22, one of a restartable duty is logged,
and one of the flash map (SP2 to SP5) asks for a rebuild. A processor's aligned 8-byte store writes the control SRAM; a store there of another
length or alignment is a bus error: its duty restarts and memory stays. -/
def Obligations.FaultsStopTheModule : Prop :=
  (∀ s : State, s.power.d1 = true → s.host.devState ≠ .fault →
    (∃ t, exec .thermalFault s = .next t ∧ t.host.devState = .fault ∧ t.host.faultCause = 4 ∧ t.power.d1 = true ∧ t.power.d2 = false ∧
      t.power.d3 = false ∧ t.power.d4 = false ∧ t.power.compute = [] ∧ t.power.thermalFaults = s.power.thermalFaults + 1 ∧ t.frame.counter = s.frame.counter) ∧
    (∃ t, exec .powerFault s = .next t ∧ t.host.devState = .fault ∧ t.host.faultCause = 5 ∧ t.power.d1 = true ∧ t.power.d2 = false ∧
      t.power.d3 = false ∧ t.power.d4 = false ∧ t.power.compute = [] ∧ t.power.thermalFaults = s.power.thermalFaults ∧ t.frame.counter = s.frame.counter)) ∧
  (∀ (sp : Nat) (s : State), sp < 8 → s.power.d1 = true → s.host.devState = .ready →
    (∃ t, exec (.firmwareException sp ⟨.restartable, none⟩) s = .next t ∧ t = { s with logs := t.logs } ∧ EventLogged 13 s t) ∧
    (2 ≤ sp → sp ≤ 5 → ∃ t n, exec (.firmwareException sp ⟨.flashMap, none⟩) s = .next t ∧ n ≤ 100 ∧ EventLogged 13 s t ∧
      t = { s with host := { s.host with devState := .rebuilding, sleepLevel := 0, progress := n }, logs := t.logs
                   flash := { s.flash with ckpt := none }, nonce := s.nonce + 1 }) ∧
    (∃ t, exec (.firmwareException sp ⟨.module, none⟩) s = .next t ∧ t.host.devState = .fault ∧ t.host.faultCause = 3 ∧ t.power.d2 = false) ∧
    (∀ n, sp = 1 → 1 ≤ n → n ≤ 255 → isResident (ctxOf s n) = true → (ctxOf s n).state ≠ .destroying →
      ∃ t, exec (.firmwareException sp ⟨.context n, none⟩) s = .next t ∧ (ctxOf t n).state = .teardown ∧ (ctxOf t n).run = none ∧
        (∀ c ∈ t.host.cmds, faultEnds n c = false))) ∧
  (∀ (sp a : Nat) (bs : List Byte) (s : State), sp < 8 → s.power.d1 = true → s.host.devState = .ready → 0x10000000 ≤ a → a < 0x12000000 →
    (a % 8 = 0 → bs.length = 8 → ∃ t, exec (.firmwareException sp ⟨.restartable, some (.store a bs)⟩) s = .next t ∧ t = { s with ctrl := t.ctrl } ∧
      BytesWritten s.ctrl t.ctrl (a - 0x10000000) bs) ∧
    ((a % 8 ≠ 0 ∨ bs.length ≠ 8) → ∃ t, exec (.firmwareException sp ⟨.restartable, some (.store a bs)⟩) s = .next t ∧ t = { s with logs := t.logs } ∧
      EventLogged 13 s t))

/-! ### Embedded flash, watchdog, scrub -/

/-- R441, R434, R437, R438, R436: a processor takes the free lock and frees its own, and no other write changes it. The owner's accepted
PROGRAM, once done, leaves DATA in its word and no other word changed, and where its word fails verification sets PROG_FAIL; an ERASE leaves its
sector's 256 words erased and no other word changed; SUSPEND, or a processor's access with AUTO_SUSPEND, and RESUME stop and go on with the active
erase; a POISON, once done, leaves its word poisoned, and one of the OTP row is refused with cause 6. A command while BUSY is refused with cause 1
and starts nothing. -/
def Obligations.EmbeddedFlashController : Prop :=
  (∀ (sp : Nat) (v : BitVec 4) (s : State), sp < 8 → s.power.d1 = true →
    exec (.efcLock sp v) s = .next { s with ef := { s.ef with owner :=
      if s.ef.owner = 15 ∧ v.toNat = sp then sp else if s.ef.owner = sp ∧ v.toNat = 15 then 15 else s.ef.owner } }) ∧
  (∀ (sp : Nat) (w : BitVec 20) (otp : Bool) (d : Word64) (s : State), OwnsEfc sp s → programCauses s w otp d = [] → s.ef.poisonDue = [] →
    ∃ t u, exec (.efProgram sp w otp d) s = .next t ∧ OnlyEfChanges s t ∧ t.ef.busy = true ∧ t.ef.words = s.ef.words ∧ t.ef.otp = s.ef.otp ∧
      exec (.efOperationDone false) t = .next u ∧ OnlyEfChanges s u ∧ u.ef.busy = false ∧ u.ef.done = true ∧ u.ef.refused = false ∧
      (otp = false → (∀ x, efWord u x = if x = w.toNat then d else efWord s x) ∧ u.ef.otp = s.ef.otp) ∧
      (otp = true → (∀ x, otpWord u x = if x = w.toNat % 512 then d else otpWord s x) ∧ u.ef.words = s.ef.words)) ∧
  (∀ (sp : Nat) (w : BitVec 20) (s : State), OwnsEfc sp s → eraseCauses s w false = [] → s.ef.poisonDue = [] →
    ∃ t u, exec (.efErase sp w false) s = .next t ∧ OnlyEfChanges s t ∧ t.ef.busy = true ∧ t.ef.words = s.ef.words ∧
      exec (.efOperationDone false) t = .next u ∧ OnlyEfChanges s u ∧ u.ef.busy = false ∧ u.ef.done = true ∧ u.ef.otp = s.ef.otp ∧
      (∀ x, efWord u x = if x / 256 = w.toNat / 256 then BitVec.allOnes 64 else efWord s x)) ∧
  (∀ (sp : Nat) (s : State), OwnsEfc sp s → s.ef.busy = true → s.ef.activeOp = 2 →
    (∃ t, exec (.efSuspend (.command sp)) s = .next t ∧ OnlyEfChanges s t ∧ t.ef.busy = false ∧ t.ef.suspended = true ∧ t.ef.suspSector = s.ef.eraseSec ∧
      t.ef.words = s.ef.words ∧ t.ef.otp = s.ef.otp) ∧
    (∀ w : BitVec 20, s.ef.autoSuspend = true → w.toNat / 256 ≠ s.ef.eraseSec → ∃ t, exec (.efSuspend (.fetch sp w)) s = .next t ∧ OnlyEfChanges s t ∧
      t.ef.busy = false ∧ t.ef.suspended = true ∧ t.ef.guarded = true ∧ t.ef.words = s.ef.words ∧ t.ef.otp = s.ef.otp)) ∧
  (∀ (sp : Nat) (w : BitVec 20) (otp : Bool) (d : Word64) (s : State), OwnsEfc sp s → programCauses s w otp d = [] → s.ef.poisonDue = [] →
    ∃ t u, exec (.efProgram sp w otp d) s = .next t ∧ exec (.efOperationDone true) t = .next u ∧ u = { s with ef := u.ef, nonce := s.nonce + 1 } ∧
      u.ef.busy = false ∧ u.ef.done = true ∧ u.ef.progFail = true ∧
      (otp = false → u.ef.otp = s.ef.otp ∧ ∀ x, x ≠ w.toNat → efWord u x = efWord s x) ∧
      (otp = true → u.ef.words = s.ef.words ∧ ∀ x, x ≠ w.toNat % 512 → otpWord u x = otpWord s x)) ∧
  (∀ (sp : Nat) (w : BitVec 20) (s : State), OwnsEfc sp s →
    ∃ t, exec (.efPoison sp w true) s = .next t ∧ OnlyEfChanges s t ∧ t.ef.refused = true ∧ t.ef.cause = 6 ∧ t.ef.words = s.ef.words ∧
      t.ef.poisoned = s.ef.poisoned ∧ t.ef.otp = s.ef.otp) ∧
  (∀ (sp : Nat) (s : State), OwnsEfc sp s → s.ef.busy = false → s.ef.suspended = true → guardHit s = false →
    ∃ t, exec (.efResume sp) s = .next t ∧ OnlyEfChanges s t ∧ t.ef.busy = true ∧ t.ef.activeOp = 2 ∧ t.ef.suspended = false ∧
      t.ef.words = s.ef.words ∧ t.ef.otp = s.ef.otp) ∧
  (∀ (sp : Nat) (w : BitVec 20) (s : State), OwnsEfc sp s → s.ef.busy = false → s.ef.suspended = false → s.ef.poisonDue = [] →
    ∃ t u, exec (.efPoison sp w false) s = .next t ∧ OnlyEfChanges s t ∧ t.ef.busy = true ∧
      exec (.efOperationDone false) t = .next u ∧ OnlyEfChanges s u ∧ u.ef.poisoned.contains w.toNat = true ∧
      (∀ x, efWord u x = if x = w.toNat then 0 else efWord s x) ∧ u.ef.otp = s.ef.otp) ∧
  (∀ (sp : Nat) (w : BitVec 20) (otp : Bool) (d : Word64) (s : State), OwnsEfc sp s → s.ef.busy = true →
    ∃ t, exec (.efProgram sp w otp d) s = .next t ∧ OnlyEfChanges s t ∧ t.ef.refused = true ∧ t.ef.cause = 1 ∧ t.ef.words = s.ef.words ∧
      t.ef.otp = s.ef.otp ∧ t.ef.activeOp = s.ef.activeOp)

/-- R448: KEY 0xA5 records the writing processor; when all eight have kicked, the record clears and the counter reloads; any other KEY does
nothing. At half the period the processors that have not kicked are recorded in LATE, and logged if there are any. -/
def Obligations.WatchdogKicks : Prop :=
  (∀ (sp : Nat) (s : State), sp < 8 → s.power.d1 = true →
    ∃ t, exec (.wdtKick sp 0xA5) s = .next t ∧ OnlyEfChanges s t ∧ t.ef.words = s.ef.words ∧
      ((∀ i, i < 8 → i ≠ sp → s.ef.kicked.getLsbD i = true) → t.ef.kicked = 0 ∧ t.ef.remainingMs = s.ef.periodMs) ∧
      ((∃ i, i < 8 ∧ i ≠ sp ∧ s.ef.kicked.getLsbD i = false) → t.ef.remainingMs = s.ef.remainingMs ∧
        ∀ i, i < 8 → t.ef.kicked.getLsbD i = (decide (i = sp) || s.ef.kicked.getLsbD i))) ∧
  (∀ (sp : Nat) (key : Byte) (s : State), sp < 8 → key ≠ 0xA5 → exec (.wdtKick sp key) s = .next s) ∧
  (∀ s : State, s.power.d1 = true → s.ef.wdtEnable = true →
    ∃ t, exec .wdtHalfPeriod s = .next t ∧ t = { s with ef := { s.ef with late := ~~~s.ef.kicked, remainingMs := s.ef.periodMs / 2 }, logs := t.logs } ∧
      (s.ef.kicked = 0xFF → t.logs = s.logs))

/-- R305, R313, R314, R316: the scrub engine of the control SRAM reads the code word at its own address and goes on to the next; after the last it
starts again at the lowest with one pass more, whose time it notes. A correctable word is written back corrected and counted, an uncorrectable one
poisoned, counted and logged, unless a write overtakes it; a good word stays. Nothing else of the module changes. -/
def Obligations.ScrubEngineRepairsOrPoisons : Prop :=
  ∀ (lies : Option (CodeMemory × Nat)) (overtaken : Bool) (ms p passes : Nat) (s : State), (mapGet {} s.scrub 2).enable = true →
    s.power.d1 = true → engineOf s 2 0 = (p, passes) →
    ∃ t, exec (.scrubAccess 2 0 lies overtaken ms) s = .next t ∧ t = { s with ctrl := t.ctrl, scrub := t.scrub, logs := t.logs } ∧
      t.ctrl.cells = s.ctrl.cells ∧
      engineOf t 2 0 = (if 4194304 ≤ p + 1 then (0, passes + 1) else (p + 1, passes)) ∧
      (mapGet {} t.scrub 2).lastMs = (if 4194304 ≤ p + 1 then ms else (mapGet {} s.scrub 2).lastMs) ∧
      (∀ g, g ≠ 2 → mapGet {} t.scrub g = mapGet {} s.scrub g) ∧
      (wordFinds s .control p = .good ∨ overtaken = true → t.ctrl = s.ctrl ∧ t.logs = s.logs ∧
        (mapGet {} t.scrub 2).corrected = (mapGet {} s.scrub 2).corrected ∧ (mapGet {} t.scrub 2).poisoned = (mapGet {} s.scrub 2).poisoned) ∧
      (wordFinds s .control p = .correctable → overtaken = false → t.logs = s.logs ∧ wordFinds t .control p = .good ∧
        t.ctrl.poison = s.ctrl.poison ∧ (mapGet {} t.scrub 2).corrected = min ((mapGet {} s.scrub 2).corrected + 1) 0xFFFFFFFF) ∧
      (wordFinds s .control p = .uncorrectable → overtaken = false → storeHit 8 t.ctrl (p * 8) 8 = true ∧ EventLogged 6 s t ∧
        (mapGet {} t.scrub 2).poisoned = min ((mapGet {} s.scrub 2).poisoned + 1) 0xFFFFFFFF)

/-! ### Host interface -/

/-- R392-R394, R396, R397, R398, R403, Table 14-4: a configuration write changes its own fields (AER bits clear by writing 1, POWER_STATE takes D0
and D3hot only, BAR0 keeps its 1 MiB alignment); with Memory Space Enable a host write stores TASK_PKT while no packet is BUSY (a dword written reads
back), GO acts, BASE and LOG2_SIZE are written only while the ring is disabled, HEAD only below the ring's size, and 0x114 by its fields. -/
def Obligations.ConfigurationAndRegisterAccess : Prop :=
  (∀ (v : BitVec 16) (s : State), exec (.configWrite (.command v)) s =
    .next { s with pcie := { s.pcie with mse := v.getLsbD 1, bme := v.getLsbD 2 } }) ∧
  (∀ (v : BitVec 2) (s : State), exec (.configWrite (.powerState v)) s =
    .next { s with pcie := { s.pcie with d3hot := if v = 0 then false else if v = 3 then true else s.pcie.d3hot } }) ∧
  (∀ (v : Byte) (s : State), exec (.configWrite (.interruptLine v)) s = .next { s with pcie := { s.pcie with intLine := v } }) ∧
  (∀ (v : Word64) (s : State), ∃ t, exec (.configWrite (.bar0 v)) s = .next t ∧ t = { s with pcie := { s.pcie with bar0 := t.pcie.bar0 } } ∧
    t.pcie.bar0.toNat = v.toNat / 2 ^ 20 * 2 ^ 20 + 4) ∧
  (∀ (v : BitVec 16) (s : State), exec (.configWrite (.deviceControl v)) s =
    .next { s with pcie := { s.pcie with devCtl := v, relaxed := v.getLsbD 4, extTag := v.getLsbD 8 } }) ∧
  (∀ (v : Bool) (s : State), exec (.configWrite (.tenBitTag v)) s = .next { s with pcie := { s.pcie with tenBitTag := v } }) ∧
  (∀ (w : Word32) (s : State),
    (∃ t, exec (.configWrite (.aerUncor w)) s = .next t ∧ t = { s with pcie := { s.pcie with aerUncor := t.pcie.aerUncor } } ∧
      ∀ i, t.pcie.aerUncor.getLsbD i = (s.pcie.aerUncor.getLsbD i && !w.getLsbD i)) ∧
    (∃ t, exec (.configWrite (.aerCor w)) s = .next t ∧ t = { s with pcie := { s.pcie with aerCor := t.pcie.aerCor } } ∧
      ∀ i, t.pcie.aerCor.getLsbD i = (s.pcie.aerCor.getLsbD i && !w.getLsbD i))) ∧
  (∀ (off n : Nat) (v : Word64) (s : State), s.pcie.mse = false → exec (.bar0RegisterWrite off n v) s = .next s) ∧
  (∀ (off : Nat) (v : Word64) (s : State), s.pcie.mse = true → off % 4 = 0 → off < 0x40 → s.host.taskState ≠ .busy →
    ∃ t, exec (.bar0RegisterWrite off 4 v) s = .next t ∧ t = { s with host := { s.host with taskPkt := t.host.taskPkt } } ∧
      (∀ o, o % 4 = 0 → o < 0x40 → bar0Read t o = if o = off then v.toNat % 2 ^ 32 else bar0Read s o)) ∧
  (∀ (off n : Nat) (v : Word64) (s : State), s.pcie.mse = true → n ≤ 8 → off + n ≤ 0x40 → s.host.taskState = .busy →
    exec (.bar0RegisterWrite off n v) s = .next s) ∧
  (∀ (v : Word64) (s : State), s.pcie.mse = true →
    exec (.bar0RegisterWrite 0x40 4 v) s = exec (.go (BitVec.ofNat 32 (v.toNat % 2 ^ 32))) s ∧
    exec (.bar0RegisterWrite 0x100 4 v) s =
      .next (if s.host.enable then s else { s with host := { s.host with baseLo := BitVec.ofNat 20 (v.toNat % 2 ^ 32 / 4096) } }) ∧
    exec (.bar0RegisterWrite 0x104 4 v) s =
      .next (if s.host.enable then s else { s with host := { s.host with baseHi := BitVec.ofNat 32 v.toNat } }) ∧
    exec (.bar0RegisterWrite 0x108 4 v) s =
      .next (if s.host.enable then s else { s with host := { s.host with log2Size := v.toNat % 32 } }) ∧
    exec (.bar0RegisterWrite 0x110 4 v) s =
      .next (if v.toNat % 2 ^ 18 < 2 ^ s.host.log2Size then { s with host := { s.host with head := v.toNat % 2 ^ 18 } } else s)) ∧
  (∀ (v : Word64) (s : State), s.pcie.mse = true → ∃ t, exec (.bar0RegisterWrite 0x114 4 v) s = .next t ∧ OnlyHostChanges s t ∧
    t.host.hbEnable = v.getLsbD 2 ∧ t.host.overflow = (s.host.overflow && !v.getLsbD 1) ∧
    (v.getLsbD 0 = false → t.host.enable = false) ∧ (v.getLsbD 0 = true → s.host.enable = true → t.host.enable = true ∧ t.host.tail = s.host.tail) ∧
    (v.getLsbD 0 = true → s.host.enable = false → t.host.enable = decide (11 ≤ s.host.log2Size ∧ s.host.log2Size ≤ 18)) ∧
    (v.toNat / 2 ^ 8 % 2 ^ 16 ≠ 0 → t.host.hbInterval = v.toNat / 2 ^ 8 % 2 ^ 16) ∧
    t.host.cmds = s.host.cmds ∧ t.host.done = s.host.done ∧ t.host.taskPkt = s.host.taskPkt)

/-- R47: a host read of FRAME_LO captures all 64 bits of the counter and returns their low half, the 8-byte read captures and returns them all;
FRAME_HI reads the upper half of the last capture, and no register write changes the capture. -/
def Obligations.FrameCounterReads : Prop :=
  (∀ s : State, s.pcie.mse = true → exec .frameLoRead s = .next { s with
    frame := { s.frame with capture := s.frame.counter }, host := { s.host with readData := BitVec.ofNat 64 (s.frame.counter.toNat % 2 ^ 32) } }) ∧
  (∀ s : State, s.pcie.mse = true → exec .frameWideRead s = .next { s with
    frame := { s.frame with capture := s.frame.counter }, host := { s.host with readData := s.frame.counter } }) ∧
  (∀ s : State, s.pcie.mse = true → ∃ t, exec .frameLoRead s = .next t ∧ bar0Read t 0x208 = s.frame.counter.toNat / 2 ^ 32) ∧
  (∀ s : State, bar0Read s 0x208 = s.frame.capture.toNat / 2 ^ 32) ∧
  (∀ (off n : Nat) (v : Word64) (s : State), ∃ t, exec (.bar0RegisterWrite off n v) s = .next t ∧ t.frame = s.frame)

/-- R18: a BAR0 offset outside TASK_PKT, the registers of Table 14-4 and CAP0 to CAP7 reads as 0, and a write there changes nothing, the PCIe error
bits included. -/
def Obligations.UndefinedOffsetsReadZero : Prop :=
  ∀ (off : Nat) (v : Word64) (s : State), 0x40 ≤ off → (off < 0x300 ∨ 0x320 ≤ off) →
    off ∉ [0x40, 0x44, 0x48, 0x4C, 0x100, 0x104, 0x108, 0x10C, 0x110, 0x114, 0x118, 0x11C, 0x200, 0x204, 0x208] →
    bar0Read s off = 0 ∧ exec (.bar0RegisterWrite off 4 v) s = .next s

/-- R398-R401: a write of GO with bit 0 copies TASK_PKT and sets BUSY unless the window is BUSY; the copied packet is rejected with the lowest
REASON that applies (1 the module holds 1,024 commands and this is no ABORT, 2 the ring is disabled, 3 BOOTING or GESSO, 4 Bus Master Enable
is 0), and otherwise accepted with the next device tag, which skips 0, and waits unless acceptance itself completes it. -/
def Obligations.GoAndPacketAcceptance : Prop :=
  (∀ (v : Word32) (s : State), s.pcie.mse = true → v.getLsbD 0 = true →
    exec (.go v) s = .next (if s.host.taskState = .busy then s else
      { s with host := { s.host with goCopy := s.host.taskPkt, taskState := .busy, goSeq := s.host.goSeq + 1 } })) ∧
  (∀ s : State, s.host.taskState = .busy → rejectReason s s.host.goCopy ≠ 0 →
    exec .packetAcceptance s = .next { s with host := { s.host with taskState := .rejected, reason := rejectReason s s.host.goCopy } }) ∧
  (∀ (s : State) (p : PacketBits), (1024 ≤ outstanding s → pktOpcode p ≠ 7 → rejectReason s p = 1) ∧
    (outstanding s < 1024 → s.host.enable = false → rejectReason s p = 2) ∧
    (outstanding s < 1024 → s.host.enable = true → (s.host.devState = .booting ∨ s.host.devState = .gesso) → rejectReason s p = 3) ∧
    (outstanding s < 1024 → s.host.enable = true → s.host.devState = .ready → s.pcie.bme = false → rejectReason s p = 4) ∧
    (outstanding s < 1024 → s.host.enable = true → s.host.devState = .ready → s.pcie.bme = true → rejectReason s p = 0)) ∧
  (∀ s : State, s.host.taskState = .busy → rejectReason s s.host.goCopy = 0 →
    ∃ t, exec .packetAcceptance s = .next t ∧ t.host.taskState = .accepted ∧ t.host.devTag = s.host.nextTag ∧
      t.host.nextTag = (if s.host.nextTag + 1 = 2 ^ 32 then 1 else s.host.nextTag + 1) ∧ t.frame = s.frame ∧ t.flash = s.flash ∧ t.objs = s.objs ∧
      (packetRefusal (packetTaken s) s.host.nextTag s.host.goCopy = none → acceptStatus (packetTaken s) s.host.nextTag s.host.goCopy = none →
        t.host.cmds = s.host.cmds ++ [acceptedCmd s] ∧ t.host.done = s.host.done) ∧
      (∀ st, packetRefusal (packetTaken s) s.host.nextTag s.host.goCopy = some st → cmdOf s s.host.nextTag = none → cmdOf t s.host.nextTag = none ∧
        ∃ r, t.host.done = s.host.done ++ [r] ∧ r.tag = s.host.nextTag ∧ r.status = st) ∧
      (∀ c ∈ s.host.cmds, c.tag ≠ s.host.nextTag → c ∈ t.host.cmds))

/-- R403, R405, R407, R53: ENABLE set from 0 to 1 with LOG2_SIZE 11 to 18 restarts the ring, and is ignored with another size; HB_ENABLE set
from 0 to 1 starts a fresh interval; the read-back moves TAIL past the records written, PHASE toggling at the wrap; a due heartbeat is dropped
where it would leave fewer than two free slots and is otherwise written behind the other records or held for the next window. -/
def Obligations.StatusRingRegistersAndHeartbeat : Prop :=
  (∀ (v : Word32) (s : State), s.pcie.mse = true → v.getLsbD 0 = true → s.host.enable = false →
    (11 ≤ s.host.log2Size → s.host.log2Size ≤ 18 → ∃ t, exec (.statusRingEnable v) s = .next t ∧ OnlyHostChanges s t ∧ t.host.enable = true ∧
      t.host.tail = 0 ∧ t.host.head = 0 ∧ t.host.phase = true ∧ t.host.hbCount = 0 ∧ t.host.hbEnable = v.getLsbD 2 ∧
      t.host.hostOut = s.host.hostOut ∧ t.host.done = s.host.done ∧ t.host.heldRecs = s.host.heldRecs) ∧
    (s.host.log2Size < 11 ∨ 18 < s.host.log2Size → ∃ t, exec (.statusRingEnable v) s = .next t ∧ OnlyHostChanges s t ∧ t.host.enable = false)) ∧
  (∀ (v : Word32) (s : State), s.pcie.mse = true → v.getLsbD 0 = true → s.host.enable = true → v.getLsbD 2 = true → s.host.hbEnable = false →
    ∃ t, exec (.hbEnableWrite v) s = .next t ∧ OnlyHostChanges s t ∧ t.host.hbEnable = true ∧ t.host.hbCount = 0 ∧ t.host.enable = true ∧
      t.host.tail = s.host.tail ∧ t.host.head = s.host.head ∧ t.host.phase = s.host.phase) ∧
  (∀ s : State, s.host.tail < 2 ^ s.host.log2Size → s.host.written < 2 ^ s.host.log2Size →
    exec .statusReadbackComplete s = .next { s with host := { s.host with
      tail := (s.host.tail + s.host.written) % 2 ^ s.host.log2Size, written := 0
      phase := if 2 ^ s.host.log2Size ≤ s.host.tail + s.host.written then !s.host.phase else s.host.phase } }) ∧
  (∀ s : State, s.host.enable = true → s.host.hbEnable = true → s.host.hbInterval ≤ s.host.hbCount →
    (freeSlots s.host < 3 → exec .heartbeatDue s = .next { s with host := { s.host with hbCount := 0 } }) ∧
    (3 ≤ freeSlots s.host → ringOpen s = true → s.host.heldRecs = [] → s.host.winRecs < windowRecords s.pcie →
      s.host.winBytes + 32 ≤ windowBytes s.pcie →
      ∃ t w, exec .heartbeatDue s = .next t ∧ OnlyHostChanges s t ∧ t.host.hbCount = 0 ∧ t.host.written = s.host.written + 1 ∧
        t.host.hostOut = s.host.hostOut ++ [w] ∧ w.data.length = 32 ∧
        w.addr = ringBase s.host + 32 * ((s.host.tail + s.host.written) % 2 ^ s.host.log2Size)) ∧
    (3 ≤ freeSlots s.host → ringOpen s = false →
      ∃ t r, exec .heartbeatDue s = .next t ∧ t = { s with host := { s.host with hbCount := 0, heldRecs := s.host.heldRecs ++ [r] } } ∧
        r.kind = 2 ∧ r.deferred = true))

/-- R54, R55: a report point takes the records of finished ABORTs and of the commands they ended out of the completions that wait, and writes or
holds them; in a frame of 2,500 µs or less there is none. -/
def Obligations.ReportPointWritesAbortRecords : Prop :=
  (∀ s : State, 2500 < s.frame.effPeriod →
    ∃ t, exec .reportPoint s = .next t ∧ OnlyHostChanges s t ∧ t.host.cmds = s.host.cmds ∧
      t.host.done = s.host.done.filter (fun r => !(abortRecords s).contains r) ∧
      (ringOpen s = false → t.host.hostOut = s.host.hostOut ∧ t.host.heldRecs.length = s.host.heldRecs.length + (abortRecords s).length)) ∧
  (∀ s : State, s.frame.effPeriod ≤ 2500 → exec .reportPoint s = .next s)

/-- R395, R309, R423: a failed host DMA ends its command with HOST_DMA_ERROR at its offset; poisoned input ends it with MEDIA_ERROR and sets the
AER bits; a finished transfer of input stages the buffer's bytes, padded with zeros, and the last write of a result completes the command. -/
def Obligations.HostDmaOutcomes : Prop :=
  (∀ (tag off : Nat) (c : Cmd) (s : State), cmdOf s tag = some c → transfers s c = true → off < 2 ^ 32 →
    ∃ t, exec (.hostDmaError tag off) s = .next t ∧
      t = { s with host := t.host, pcie := { s.pcie with aerUncor := t.pcie.aerUncor }, sec := { s.sec with challenge := t.sec.challenge }, nonce := t.nonce } ∧
      (pktOpcode c.pkt ≠ 0x08 → t.sec = s.sec) ∧ CommandCompletes c { cls := 3, code := 4, r0 := off } s t) ∧
  (∀ (tag : Nat) (c : Cmd) (s : State), cmdOf s tag = some c → dmaReady s = true → needsInput c = true →
    (∃ t, exec (.poisonedTlpReceived tag) s = .next t ∧
      t = { s with host := t.host, pcie := t.pcie, sec := { s.sec with challenge := t.sec.challenge }, nonce := t.nonce } ∧
      (pktOpcode c.pkt ≠ 0x08 → t.sec = s.sec) ∧
      CommandCompletes c { cls := 3, code := 1 } s t ∧ t.pcie.aerUncor.getLsbD 12 = true ∧ t.pcie.aerCor.getLsbD 13 = true) ∧
    (∀ data : List Byte, ∃ t, exec (.hostDmaComplete tag data) s = .next t ∧ OnlyHostChanges s t ∧
      t.host = { s.host with cmds := s.host.cmds.map (fun d => if d.tag = tag then
        { d with staged := some (padTo (roundUp (stageLen c) 64) (data.take (stageLen c))) } else d) })) ∧
  (∀ (tag : Nat) (data : List Byte) (c : Cmd) (st : Status) (s : State), cmdOf s tag = some c → dmaReady s = true → c.phase = .finishing →
    c.result = some st → ∃ t, exec (.hostDmaComplete tag data) s = .next t ∧ OnlyHostChanges s t ∧ CommandCompletes c st s t)

/-- R409, R410: at a release opportunity every URGENT command found releasable is released first, then, by the credits left, the oldest of HIGH,
MEDIUM and LOW; a release changes no command but its phase from waiting to released; with weights of 1 or more nothing releasable is left. -/
def Obligations.CommandReleaseServesUrgentFirst : Prop :=
  ∀ s : State, (∀ d ∈ s.host.cmds, featureWaits 0x15 d = false) →
    ∃ t, exec .commandRelease s = .next t ∧
      (∀ c, oldestOf s 3 = some c → Released c t) ∧
      (∀ c, oldestOf s 3 = none → 0 < s.arb.cHigh → oldestOf s 2 = some c → Released c t) ∧
      (∀ c, oldestOf s 3 = none → (s.arb.cHigh = 0 ∨ oldestOf s 2 = none) → 0 < s.arb.cMedium → oldestOf s 1 = some c → Released c t) ∧
      (∀ c, oldestOf s 3 = none → (s.arb.cHigh = 0 ∨ oldestOf s 2 = none) → (s.arb.cMedium = 0 ∨ oldestOf s 1 = none) → 0 < s.arb.cLow →
        oldestOf s 0 = some c → Released c t) ∧
      (1 ≤ s.arb.wHigh → 1 ≤ s.arb.wMedium → 1 ≤ s.arb.wLow → ∀ cls, cls ≤ 3 → oldestOf t cls = none) ∧
      t.host.cmds.length = s.host.cmds.length ∧
      (∀ (i : Nat) (c d : Cmd), s.host.cmds[i]? = some c → t.host.cmds[i]? = some d →
        d = { c with phase := d.phase } ∧ (d.phase = c.phase ∨ d.phase = .released)) ∧
      t.host.done = s.host.done ∧ t.objs = s.objs ∧ t.flash = s.flash ∧ t.frame = s.frame ∧ t.arb.wHigh = s.arb.wHigh ∧
      t.arb.wMedium = s.arb.wMedium ∧ t.arb.wLow = s.arb.wLow

/-! ### Admin commands -/

/-- R419, R495, R496, R177, R461: IDENTIFY writes its 4,096 bytes, MODULE_UID at offset 32; GET_LOG writes the asked part of one page, from
one snapshot, and an offset at or beyond its end is INVALID_FIELD; GET_FEATURE writes the 32 bytes of a feature or the palette records asked
for; ATTEST writes a record that begins with its magic and MODULE_UID, into a buffer of at least 3,456 bytes. -/
def Obligations.ReportsGoToTheBuffer : Prop :=
  (∀ (tag : Nat) (c : Cmd) (s : State), AtUnit s 0x01 tag c →
    ∃ t bs, exec (.identify tag) s = .next t ∧ OnlyHostChanges s t ∧ RepliesWith c 0 bs (stSuccess 4096 0 0) s t ∧ bs.length = 4096 ∧
      (bs.drop 32).take 8 = leBytes 8 s.uid.toNat) ∧
  (∀ (tag : Nat) (c : Cmd) (s : State) (page : List Byte), AtUnit s 0x02 tag c → recoveryWindow s = false →
    page = logPage (noteSnap (pktField c.pkt 8 1) s) (pktField c.pkt 8 1) →
    (page.length ≤ pktField c.pkt 16 8 → ∃ t, exec (.getLog tag) s = .next t ∧ OnlyHostChanges s t ∧ CommandCompletes c (stInvalidField 16 0) s t) ∧
    (pktField c.pkt 16 8 < page.length → ∃ t bs, exec (.getLog tag) s = .next t ∧ t = { s with host := t.host, logs := t.logs } ∧
      t.logs.errors = s.logs.errors ∧ bs = (page.drop (pktField c.pkt 16 8)).take (pktBufLen c.pkt) ∧
      RepliesWith c 0 bs (stSuccess bs.length page.length 0) s t)) ∧
  (∀ (tag : Nat) (c : Cmd) (s : State), AtUnit s 0x04 tag c →
    (pktField c.pkt 8 1 = 0x11 → ctxDefined s (pktCtx c.pkt) = true → ∃ t bs, exec (.getFeature tag) s = .next t ∧ OnlyHostChanges s t ∧
      bs = (List.range (pktField c.pkt 14 2)).flatMap (fun i => palRecord (mapGet {} (ctxOf s (pktCtx c.pkt)).palette (pktField c.pkt 12 2 + i))) ∧
      RepliesWith c 0 bs (stSuccess bs.length 0 0) s t) ∧
    (pktField c.pkt 8 1 ≠ 0x11 → ∃ t bs, exec (.getFeature tag) s = .next t ∧ OnlyHostChanges s t ∧ bs.length = 32 ∧
      (pktField c.pkt 8 1 = 0x15 → bs.take 4 = leBytes 4 (s.arb.wHigh + s.arb.wMedium * 2 ^ 8 + s.arb.wLow * 2 ^ 16)) ∧
      RepliesWith c 0 bs (stSuccess 32 0 0) s t)) ∧
  (∀ (tag : Nat) (c : Cmd) (s : State), AtUnit s 0x09 tag c → recoveryWindow s = false →
    (pktBufLen c.pkt < 3456 → ∃ t, exec (.attest tag) s = .next t ∧ OnlyHostChanges s t ∧ CommandCompletes c (stInvalidField 56 0) s t) ∧
    (3456 ≤ pktBufLen c.pkt → ∃ t bs, exec (.attest tag) s = .next t ∧ OnlyHostChanges s t ∧ RepliesWith c 0 bs (stSuccess 3400 0 0) s t ∧
      bs.take 4 = leBytes 4 0x41545854 ∧ (bs.drop 8).take 8 = leBytes 8 s.uid.toNat))

/-- R40, R41, R411, R483, R506, R317, R177, R178, R247, R248: SET_FEATURE ARBITRATION waits for the next new round, which sets weights and credits
and completes it; FRAME stores its values at once and takes effect at the tick that opens the second frame after its acceptance; POWER_CAP,
EFFICIENCY_BASIS and SCRUB_SET are taken up at the next tick, and a PALETTE whose words pass their checks at the next update point; each completes
there. BLOCK_SPACE beyond the free capacity is QUOTA, growth completes at once, and a reduction holds at once and writes one tombstone over the
granules cut off, whose program completes it. -/
def Obligations.FeaturesAreSetAtTheirTicks : Prop :=
  (∀ (tag : Nat) (c : Cmd) (s : State), AtUnit s 0x03 tag c →
    (pktField c.pkt 8 1 = 0x15 → (∀ d ∈ s.host.cmds, d.phase ≠ .waiting ∧ featureWaits 0x15 d = false ∧ (d.tag = tag → d = c)) →
      ∃ t u, exec (.setFeatureArbitration tag) s = .next t ∧ OnlyHostChanges s t ∧ exec .commandRelease t = .next u ∧
        CommandCompletes c (stSuccess 0 0 0) t u ∧
        u = { t with host := u.host, arb := { s.arb with
          wHigh := bitsOf (featDw c.pkt 0) 7 0, wMedium := bitsOf (featDw c.pkt 0) 15 8, wLow := bitsOf (featDw c.pkt 0) 23 16
          cHigh := bitsOf (featDw c.pkt 0) 7 0, cMedium := bitsOf (featDw c.pkt 0) 15 8, cLow := bitsOf (featDw c.pkt 0) 23 16 } }) ∧
    (pktField c.pkt 8 1 = 0x10 → ∃ t, exec (.setFeatureFrame tag) s = .next t ∧ WaitsForTick c s t ∧
      t = { s with host := t.host, frame := { s.frame with period := bitsOf (featDw c.pkt 0) 14 0, pct := bitsOf (featDw c.pkt 0) 22 16 } } ∧
      TakenUpLater c { c with phase := .ready, extra := max (c.frame + 2) (s.frame.counter.toNat + 1) } tickFeature
        (fun u => c.frame + 2 ≤ u.frame.counter.toNat)
        (fun u v => v.frame = { u.frame with own := bitsOf (featDw c.pkt 0) 14 0, effPct := bitsOf (featDw c.pkt 0) 22 16 }) t) ∧
    (pktField c.pkt 8 1 = 0x16 → ∃ t, exec (.setFeaturePowerCap tag) s = .next t ∧ WaitsForTick c s t ∧ OnlyHostChanges s t ∧
      TakenUpLater c { c with phase := .ready, extra := 0 } tickFeature (fun _ => True)
        (fun u v => v = { u with host := v.host, power := { u.power with
          capW := bitsOf (featDw c.pkt 0) 11 0, throttleC := bitsOf (featDw c.pkt 5) 23 16 } }) t) ∧
    (pktField c.pkt 8 1 = 0x17 → ∃ t, exec (.setFeatureEfficiencyBasis tag) s = .next t ∧ WaitsForTick c s t ∧ OnlyHostChanges s t ∧
      TakenUpLater c { c with phase := .ready, extra := 0 } tickFeature (fun _ => True)
        (fun u v => v = { u with host := v.host, logs := { u.logs with
          basisRef := bitOf (featDw c.pkt 0) 0, accum := if bitOf (featDw c.pkt 0) 1 then {} else u.logs.accum } }) t) ∧
    (pktField c.pkt 8 1 = 0x11 → ctxDefined s (pktCtx c.pkt) = true → (∀ w ∈ palWords c, palWordErr w = []) →
      ∃ t, exec (.setFeaturePalette tag) s = .next t ∧ WaitsForTick c s t ∧ OnlyHostChanges s t ∧
        TakenUpLater c { c with phase := .ready, extra := 0 } updateCmd (fun u => atPoint u (pktCtx c.pkt) = true)
          (fun u v => (∀ i w, (palWords c)[i]? = some w →
              mapGet {} (ctxOf v (pktCtx c.pkt)).palette (pktField c.pkt 12 2 + i) =
                storePal w (mapGet {} (ctxOf u (pktCtx c.pkt)).palette (pktField c.pkt 12 2 + i))) ∧
            (∀ k, k < pktField c.pkt 12 2 ∨ pktField c.pkt 12 2 + (palWords c).length ≤ k →
              mapGet {} (ctxOf v (pktCtx c.pkt)).palette k = mapGet {} (ctxOf u (pktCtx c.pkt)).palette k)) t) ∧
    (∀ n, pktField c.pkt 8 1 = 0x12 → n = featDw c.pkt 0 + bitsOf (featDw c.pkt 1) 7 0 * 2 ^ 32 →
      (userGranules s < n + quotaT3Sum s → ∃ t, exec (.setFeatureBlockSpace tag) s = .next t ∧ OnlyHostChanges s t ∧ CommandCompletes c stQuota s t) ∧
      (n + quotaT3Sum s ≤ userGranules s → s.flash.blockGranules ≤ n → ∃ t, exec (.setFeatureBlockSpace tag) s = .next t ∧
        CommandCompletes c (stSuccess 0 0 0) s t ∧ t = { s with host := t.host, flash := { s.flash with blockGranules := n } }) ∧
      (n + quotaT3Sum s ≤ userGranules s → n < s.flash.blockGranules → s.flash.readOnly = true →
        ∃ t, exec (.setFeatureBlockSpace tag) s = .next t ∧ OnlyHostChanges s t ∧ CommandCompletes c stProgramFail s t) ∧
      (n + quotaT3Sum s ≤ userGranules s → n < s.flash.blockGranules → s.flash.readOnly = false →
        LastProgramCompletes c ∧
        ∃ t, exec (.setFeatureBlockSpace tag) s = .next t ∧ StaysRunning c 1 s t ∧ t = { s with host := t.host, flash := t.flash, nonce := t.nonce } ∧
          t.flash.blockGranules = n ∧ t.flash.map = s.flash.map ∧ ∃ o ∈ t.flash.progQ, o.tag = c.tag ∧
          o.ver.kind = .tombstone ∧ o.ver.slots = [{ lga := blkLga n, count := s.flash.blockGranules - n, seq := s.flash.seq }]))) ∧
  (∀ (tag : Nat) (c : Cmd) (s : State), AtUnit s 0x78 tag c →
    ∃ t, exec (.scrubSet tag) s = .next t ∧ WaitsForTick c s t ∧ OnlyHostChanges s t ∧
      TakenUpLater c { c with phase := .ready, extra := 0 } tickFeature (fun _ => True)
        (fun u v => v = { u with host := v.host, scrub := v.scrub } ∧ mapGet {} v.scrub (pktField c.pkt 8 1) =
          { mapGet {} u.scrub (pktField c.pkt 8 1) with enable := decide (pktField c.pkt 9 1 = 1), period := pktField c.pkt 12 4 }) t)

/-- R421, R422: an ABORT of scope ONE, CONTEXT or ALL ends every command it selects that its unit has not started, each ABORTED with the
ABORT's tag, leaves every other command alone, and completes with the number it ended. -/
def Obligations.AbortEndsWhatItSelects : Prop :=
  ∀ (scope tag : Nat) (pick : Cmd → Cmd → Bool) (i : Instr) (c : Cmd) (s : State),
    ((scope = 0 ∧ pick = (fun c d => decide (d.tag = pktField c.pkt 12 4)) ∧ i = .abortOne tag) ∨
      (scope = 1 ∧ pick = (fun c d => decide (pktCtx d.pkt = pktCtx c.pkt)) ∧ i = .abortContext tag) ∨
      (scope = 2 ∧ pick = (fun _ _ => true) ∧ i = .abortAll tag)) →
    cmdOf s tag = some c → pktOpcode c.pkt = 0x07 → pktField c.pkt 8 1 = scope → c.phase = .waiting →
    (∀ d ∈ selected pick c s, notStarted d = true ∧ pktOpcode d.pkt ≠ 0x07) →
    (∀ d ∈ selected pick c s, ∀ e ∈ s.host.cmds, e.tag = d.tag → e ∈ selected pick c s) →
    ∃ t r, exec i s = .next t ∧
      ((∀ d ∈ selected pick c s, isExecution (pktOpcode d.pkt) = false ∧ pktOpcode d.pkt ≠ 0x08) → OnlyHostChanges s t) ∧
      t.host.cmds = s.host.cmds.filter (fun d => d.tag != tag && !pick c d) ∧
      (∀ d ∈ selected pick c s, ∃ x ∈ t.host.done, x.tag = d.tag ∧ x.status = { cls := 5, code := 1, r0 := 1, r1 := tag }) ∧
      t.host.done.getLast? = some r ∧ r.tag = tag ∧ r.opcode = 7 ∧ r.status.cls = 0 ∧
      r.status.r0 = (((selected pick c s).map (·.tag)).dedup).length

/-- R445, R446, R420, R457, R468, R469, R470: FW_DOWNLOAD programs its chunk into the slot that is not running, or ends in MEDIA_ERROR, and
changes no word outside that slot; FW_COMMIT and FW_COMMIT_RESET verify the image and commit it, the second asking for a reset behind the next
window; a LIFECYCLE ends as R469 says, draws a new challenge, and a transition waits for its window. -/
def Obligations.FirmwareAndLifecycle : Prop :=
  (∀ (tag off : Nat) (c : Cmd) (s : State), AtUnit s 0x05 tag c → efFree s = true → off = pktField c.pkt 8 4 →
    (off = 0 ∨ s.ef.dlNext = some off) → 8 ≤ pktBufLen c.pkt → off + pktBufLen c.pkt ≤ imageMax →
    ∃ t, exec (.fwDownload tag) s = .next t ∧ t = { s with host := t.host, ef := t.ef, nonce := s.nonce + 2 } ∧ t.ef.otp = s.ef.otp ∧
      ((CommandCompletes c (stSuccess 0 0 0) s t ∧ t.ef.dlNext = some (off + pktBufLen c.pkt) ∧
          (∀ i, i < pktBufLen c.pkt / 8 → efWord t (imageWord (otherSlot s) + off / 8 + i) = chunkWord c i)) ∨
        (CommandCompletes c (stMediaError 0 0) s t ∧ t.ef.dlNext = none ∧ t.ef.progFail = true)) ∧
      (∀ w, w < slotWord (otherSlot s) ∨ slotWord (otherSlot s) + 458752 ≤ w → efWord t w = efWord s w)) ∧
  (∀ (tag : Nat) (c : Cmd) (s : State), AtUnit s 0x06 tag c → efFree s = true → OthersWait tag s →
    (pktField c.pkt 8 1 = 0 → ∃ t, exec (.fwCommit tag) s = .next t ∧
      match imageFault s (otherSlot s) with
      | some st => OnlyHostChanges s t ∧ CommandCompletes c st s t
      | none => efWord t (slotWord (otherSlot s)) = committedWord ∧ (recoveryWindow s = false → CommandCompletes c (stSuccess 0 0 0) s t ∧
          t = { s with host := t.host, ef := { s.ef with words := t.ef.words } } ∧
          ∀ w, w < slotWord (otherSlot s) ∨ slotWord (otherSlot s) + 3 ≤ w → efWord t w = efWord s w) ∧
          (recoveryWindow s = true → t.power = { s.power with afterWindow := some 6 })) ∧
    (pktField c.pkt 8 1 = 1 → ∃ t, exec (.fwCommitReset tag) s = .next t ∧
      match imageFault s (otherSlot s) with
      | some st => OnlyHostChanges s t ∧ CommandCompletes c st s t
      | none => efWord t (slotWord (otherSlot s)) = committedWord ∧ t.power = { s.power with afterWindow := some 6 } ∧ t.host.cmds = [])) ∧
  (∀ (tag : Nat) (c : Cmd) (s : State), AtUnit s 0x08 tag c → recoveryWindow s = false → OthersWait tag s →
    ∃ t, exec (.lifecycle tag) s = .next t ∧ t.sec.challenge.length = 32 ∧ t.sec.lifecycle = s.sec.lifecycle ∧
      match firstErr (authErr s (pktField c.pkt 8 1) c.challenge (cmdData c)) with
      | some o => CommandCompletes c (stInvalidField o 1) s t
      | none =>
        if authSigned s (cmdData c) = false then CommandCompletes c stSignature s t
        else if authTarget s (cmdData c) = s.sec.lifecycle ∧ authRdp s (cmdData c) = s.sec.rdp then CommandCompletes c (stSuccess 0 0 0) s t
        else if lifecycleStep s.sec.lifecycle (authTarget s (cmdData c)) (decide (byteField (cmdData c) 8 1 = 0x10)) s.sec.owner.isSome = false ∨
            rdpStep s.sec.rdp (authRdp s (cmdData c)) = false then CommandCompletes c stTransition s t
        else t.power = { s.power with afterWindow := some 7 } ∧ t.sec.intent = some (intentOf s (cmdData c)) ∧ t.host.cmds = [])

/-! ### Contexts, objects, batches, blocks and queries -/

/-- R319, R342, R340, R217, R109, R110, R231: CTX_CREATE makes a FREE context OUT with its parameters, one T1 unit and nothing else; CTX_DESTROY of a
context with nothing outstanding has its save area wiped and then leaves it FREE, with no object, after a tombstone for each home; CTX_QUOTA checks
now and waits for the update point that sets the masked quotas; PROG_LOAD and CTX_FALLBACK check their image and join the plan of their acceptance,
and the load puts the initial T0 image into every core. -/
def Obligations.ContextCommands : Prop :=
  (∀ (tag : Nat) (c : Cmd) (s : State), AtUnit s 0x20 tag c →
    ((ctxOf s (pktCtx c.pkt)).state ≠ .free → ∃ t, exec (.ctxCreate tag) s = .next t ∧ OnlyHostChanges s t ∧ CommandCompletes c (stInvalidField 2 0) s t) ∧
    ((ctxOf s (pktCtx c.pkt)).state = .free → ∃ t, exec (.ctxCreate tag) s = .next t ∧ CommandCompletes c (stSuccess 0 0 0) s t ∧
      t = { s with host := t.host, ctxs := t.ctxs } ∧ (∀ n, n ≠ pktCtx c.pkt → ctxOf t n = ctxOf s n) ∧
      ctxOf t (pktCtx c.pkt) = { state := .out, cls := pktField c.pkt 8 1, domains := pktField c.pkt 9 1, slicePct := pktField c.pkt 10 1
                                 waitFrames := pktField c.pkt 12 2, runFrames := pktField c.pkt 14 2, quotaT1 := 1 })) ∧
  (∀ (tag n : Nat) (c : Cmd) (s : State), AtUnit s 0x21 tag c → n = pktCtx c.pkt → 1 ≤ n → n ≤ 255 →
    (∀ d ∈ s.host.cmds, d.tag ≠ tag → pktCtx d.pkt ≠ n) → (∀ o ∈ s.swaps, o.ctx = n) →
    (ctxOf s n).run = none → (ctxOf s n).cores = [] → (ctxOf s n).sketchCores = [] → (∀ p ∈ s.red.tags, p.2.ctx ≠ n) →
    ∃ t u, exec (.ctxDestroy tag) s = .next t ∧ (ctxOf t n).prog = none ∧ (ctxOf t n).wiping = true ∧ StandsAs c .running t ∧
      exec (.teardownComplete n) t = .next u ∧
      (s.flash.readOnly = true → CommandCompletes c stProgramFail s u ∧ ctxOf u n = {} ∧ (∀ p ∈ u.objs, objCtx p.1 ≠ n)) ∧
      (s.flash.readOnly = false → (∀ p ∈ objsOf s n, p.2.kind = .scratch) →
        CommandCompletes c (stSuccess 0 0 0) s u ∧ ctxOf u n = {} ∧ (∀ p ∈ u.objs, objCtx p.1 ≠ n) ∧ u.flash.map = s.flash.map ∧ u.frame = s.frame) ∧
      (s.flash.readOnly = false → (∃ p ∈ objsOf s n, p.2.kind ≠ .scratch) → LastProgramCompletes c ∧ StandsAs c .running u ∧
        ∀ p ∈ objsOf s n, p.2.kind ≠ .scratch → ∃ o ∈ u.flash.progQ, o.tag = c.tag ∧ o.ver.kind = .tombstone ∧
          o.ver.slots.map (·.lga) = [p.2.objNo * 2 ^ 24])) ∧
  (∀ (tag n : Nat) (c : Cmd) (s : State), AtUnit s 0x22 tag c → n = pktCtx c.pkt → ctxDefined s n = true →
    (quotaBad s c.pkt = true → ∃ t, exec (.ctxQuota tag) s = .next t ∧ OnlyHostChanges s t ∧ CommandCompletes c stQuota s t) ∧
    (quotaBad s c.pkt = false → ∃ t, exec (.ctxQuota tag) s = .next t ∧ OnlyHostChanges s t ∧ WaitsForTick c s t ∧
      TakenUpLater c { c with phase := .ready, extra := 0 } updateCmd (fun u => atPoint u n = true ∧ quotaBad u c.pkt = false)
        (fun u v => (ctxOf v n).quotaT2 = (if quotaMask c.pkt 1 then pktField c.pkt 12 4 else (ctxOf u n).quotaT2) ∧
          (ctxOf v n).quotaT3 = (if quotaMask c.pkt 2 then pktField c.pkt 16 8 else (ctxOf u n).quotaT3) ∧
          (ctxOf v n).quotaT4 = (if quotaMask c.pkt 3 then pktField c.pkt 24 4 else (ctxOf u n).quotaT4) ∧
          (quotaMask c.pkt 0 = true → (ctxOf u n).quotaT1 ≤ pktField c.pkt 8 1 ∨ isResident (ctxOf u n) = false →
            (ctxOf v n).quotaT1 = pktField c.pkt 8 1 ∧ (ctxOf v n).lowerT1 = none) ∧
          (quotaMask c.pkt 0 = true → pktField c.pkt 8 1 < (ctxOf u n).quotaT1 → isResident (ctxOf u n) = true →
            (ctxOf v n).quotaT1 = (ctxOf u n).quotaT1 ∧ (ctxOf v n).lowerT1 = some (pktField c.pkt 8 1)) ∧
          (quotaMask c.pkt 0 = false → (ctxOf v n).quotaT1 = (ctxOf u n).quotaT1)) t)) ∧
  (∀ (tag : Nat) (c : Cmd) (s : State), AtUnit s 0x23 tag c → ∃ t, exec (.progLoad tag) s = .next t ∧
    (∀ st, progLoadErr s c = some st → CommandCompletes c st s t) ∧
    (progLoadErr s c = none → JoinsPlan c (fun d => d.plan) s t ∧ t = { s with host := t.host, ctxs := t.ctxs } ∧
      TakenUpLater c { c with phase := .ready } (fun u d => startExec d u) (fun u => progLoadErr u c = none)
        (fun _ v => (ctxOf v (pktCtx c.pkt)).prog = some (programOf (cmdData c)) ∧ (ctxOf v (pktCtx c.pkt)).linked = [] ∧
          ∀ i, i < progCores (programOf (cmdData c)) → coreOf v { ctx := pktCtx c.pkt, sketch := false, lcore := i } =
            { t0 := { cells := cellsOf (programOf (cmdData c)).dataAddr (programOf (cmdData c)).data } }) t)) ∧
  (∀ (tag : Nat) (c : Cmd) (s : State), AtUnit s 0x24 tag c → ∃ t, exec (.ctxFallback tag) s = .next t ∧
    (∀ st, fallbackErr s c = some st → CommandCompletes c st s t) ∧
    (fallbackErr s c = none → JoinsPlan c (fun d => d.plan) s t ∧ t = { s with host := t.host, ctxs := t.ctxs } ∧
      TakenUpLater c { c with phase := .ready } (fun u d => startExec d u) (fun u => fallbackErr u c = none)
        (fun _ v => (ctxOf v (pktCtx c.pkt)).sketch =
          if fallbackClears c then none else some { prog := programOf (cmdData c), cores := pktField c.pkt 8 1 }) t))

/-- R202, R203, R250, R255, R213, R207, R208, R220, R205: what each object command does to its object: OBJ_CREATE makes it, a SCRATCH object with
a copy of zeros at once, any other with its record queued; OBJ_PLACE and OBJ_PIN set the placement and the pin level, and complete at once where
what they ask for is resident; OBJ_READ of a whole copy writes its bytes; OBJ_WRITE, OBJ_EVICT and OBJ_DELETE wait for the update point, which
writes the bytes, drops the copy and removes the object; where programs are needed, the last of them completes the command. -/
def Obligations.ObjectCommands : Prop :=
  (∀ (tag : Nat) (c : Cmd) (s : State), AtUnit s 0x30 tag c → objBlocked s c = false → ctxDefined s (pktCtx c.pkt) = true →
    objOf s (cmdObj c) = none → (objsOf s (pktCtx c.pkt)).length < 65536 → s.objs.length < 1048576 → freeObjNo s < 1048576 →
    (pktField c.pkt 14 1 = 1 → (makeRoom (pktCtx c.pkt) (roundUp (pktField c.pkt 16 8) granuleBytes) s).isSome = true →
      ∃ t o, exec (.objCreate tag) s = .next t ∧ CommandCompletes c (stSuccess 0 0 0) s t ∧ objOf t (cmdObj c) = some o ∧ o.kind = .scratch ∧
        o.size = pktField c.pkt 16 8 ∧ o.copy = some {} ∧ o.objNo = freeObjNo s ∧ freeObjNo s ∈ t.flash.objNos) ∧
    (pktField c.pkt 14 1 = 1 → makeRoom (pktCtx c.pkt) (roundUp (pktField c.pkt 16 8) granuleBytes) s = none →
      ∃ t, exec (.objCreate tag) s = .next t ∧ OnlyHostChanges s t ∧ CommandCompletes c stQuota s t) ∧
    (pktField c.pkt 14 1 ≠ 1 → s.flash.readOnly = false →
      (pktField c.pkt 14 1 ≠ 0 → t4Use s (pktCtx c.pkt) + ceilDiv (pktField c.pkt 16 8) 1048576 ≤ (ctxOf s (pktCtx c.pkt)).quotaT4) →
      LastProgramCompletes c ∧ ∃ t o r, exec (.objCreate tag) s = .next t ∧ StaysRunning c 1 s t ∧
        t = { s with host := t.host, objs := t.objs, flash := t.flash, nonce := t.nonce } ∧
        objOf t (cmdObj c) = some o ∧ o.kind = (if pktField c.pkt 14 1 = 0 then .persistent else .import_) ∧ o.size = pktField c.pkt 16 8 ∧
        o.copy = none ∧ o.objNo = freeObjNo s ∧ (∀ j, j ≠ cmdObj c → objOf t j = objOf s j) ∧ t.flash.map = s.flash.map ∧
        r ∈ t.flash.progQ ∧ r.tag = c.tag ∧ r.ver.kind = .objRecord)) ∧
  (∀ (tag : Nat) (c : Cmd) (o : Obj) (s : State), AtObject s 0x31 tag c o → placePinned s (cmdObj c) o (pktField c.pkt 14 1) = false →
    (bitOf (pktField c.pkt 14 1) 1 = true → bindingErr s (cmdObj c) o (packetBinding c.pkt) = [] ∧
      (packetBinding c.pkt).t1Addr + pieceSpan (packetBinding c.pkt) 0 ≤ t1Size s (pktCtx c.pkt)) →
    (o.copy.isSome = true ∨ (makeRoom (pktCtx c.pkt) (roundUp o.size granuleBytes) s).isSome = true) →
    ∃ t p, exec (.objPlace tag) s = .next t ∧ objOf t (cmdObj c) = some p ∧ p.wantT2 = bitOf (pktField c.pkt 14 1) 0 ∧
      p.binding = (if bitOf (pktField c.pkt 14 1) 1 then some (packetBinding c.pkt) else o.binding) ∧ p.kind = o.kind ∧ p.size = o.size ∧ p.pin = o.pin ∧
      (bitOf (pktField c.pkt 14 1) 0 = true → bitOf (pktField c.pkt 14 1) 1 = false → t2Complete o = true → o.binding = none → o.fillTags = [] →
        CommandCompletes c (stSuccess 0 0 0) s t)) ∧
  (∀ (tag : Nat) (c : Cmd) (o : Obj) (s : State), AtObject s 0x32 tag c o → o.kind ≠ .import_ → pktField c.pkt 16 8 + pktBufLen c.pkt ≤ o.size →
    (o.kind = .persistent → s.flash.readOnly = false ∧ t3Bad s (pktCtx c.pkt) o (pktField c.pkt 16 8) (pktBufLen c.pkt) = false) →
    ∃ t, exec (.objWrite tag) s = .next t ∧ OnlyHostChanges s t ∧ WaitsForTick c s t ∧
      TakenUpLater c { c with phase := .ready, extra := 0 } updateCmd
        (fun u => atPoint u (pktCtx c.pkt) = true ∧ ∃ p m, objOf u (cmdObj c) = some p ∧ p.kind = .scratch ∧ p.copy = some m ∧ m.data.poison = [] ∧
          m.data.raw = [])
        (fun u v => ∀ p m, objOf u (cmdObj c) = some p → p.copy = some m → (∀ j, j ≠ cmdObj c → objOf v j = objOf u j) ∧
          ∃ x, objOf v (cmdObj c) = some { p with copy := some { m with data := x } } ∧ BytesWritten m.data x (pktField c.pkt 16 8) (cmdData c)) t ∧
      LastProgramCompletes c) ∧
  (∀ (c : Cmd) (o : Obj) (s : State), cmdOf s c.tag = some c → pktOpcode c.pkt = 0x32 → c.phase = .ready → atPoint s (pktCtx c.pkt) = true →
    objOf s (cmdObj c) = some o → o.kind = .persistent → s.flash.readOnly = false → 0 < pktBufLen c.pkt →
    t3Bad s (pktCtx c.pkt) o (pktField c.pkt 16 8) (pktBufLen c.pkt) = false →
    StandsAs c .running (updateCmd s c) ∧ ∃ r ∈ (updateCmd s c).flash.progQ, r.tag = c.tag ∧ (r.kind = .write ∨ r.kind = .units)) ∧
  (∀ (tag : Nat) (c : Cmd) (o : Obj) (m : T2Copy) (s : State), AtObject s 0x33 tag c o → pktField c.pkt 16 8 + pktBufLen c.pkt ≤ o.size →
    o.copy = some m → m.missing = [] → m.data.poison = [] → m.data.raw = [] →
    ∃ t, exec (.objRead tag) s = .next t ∧ OnlyHostChanges s t ∧
      RepliesWith c 0 (storeRead m.data (pktField c.pkt 16 8) (pktBufLen c.pkt)) (stSuccess 0 0 0) s t) ∧
  (∀ (tag level : Nat) (c : Cmd) (o : Obj) (s : State), AtObject s 0x34 tag c o → level = pktField c.pkt 14 1 → (1 ≤ level → o.wantT2 = true) →
    (level = 2 → o.binding.isSome = true ∧ o.dropBinding = false) →
    (level < o.pin → (sketchSlots (ctxOf s (objCtx (cmdObj c)))).contains (cmdObj c) = false ∧ o.redTags = []) →
    (o.copy.isSome = true ∨ level = 0 ∨ (makeRoom (pktCtx c.pkt) (roundUp o.size granuleBytes) s).isSome = true) →
    ∃ t p, exec (.objPin tag) s = .next t ∧ objOf t (cmdObj c) = some p ∧ p.pin = level ∧ p.wantT2 = o.wantT2 ∧ p.binding = o.binding ∧
      (level = 0 ∨ (level = 1 ∧ t2Complete o = true) → cmdOf t tag = none ∧ recordOf s c (stSuccess 0 0 0) [] ∈ t.host.done)) ∧
  (∀ (tag : Nat) (c : Cmd) (o : Obj) (s : State), AtObject s 0x35 tag c o → evictPinned s (cmdObj c) o (pktField c.pkt 14 1) = false →
    backErr s (pktCtx c.pkt) o (pktField c.pkt 14 1) = none →
    ∃ t, exec (.objEvict tag) s = .next t ∧ WaitsForTick c s t ∧ t = { s with host := t.host, objs := t.objs } ∧
      objOf t (cmdObj c) = some { o with evict := some (c.tag, pktField c.pkt 14 1) } ∧ (∀ j, j ≠ cmdObj c → objOf t j = objOf s j) ∧
      TakenUpLater c { c with phase := .ready, extra := 0 } updateCmd
        (fun u => atPoint u (pktCtx c.pkt) = true ∧ ∃ p, objOf u (cmdObj c) = some p ∧ evictPinned u (cmdObj c) p (pktField c.pkt 14 1) = false ∧
          heldNow u (cmdObj c) p = false ∧ writesBack p (pktField c.pkt 14 1) = false)
        (fun u v => ∀ p, objOf u (cmdObj c) = some p → ∃ q, objOf v (cmdObj c) = some q ∧ q.evict = none ∧ q.kind = p.kind ∧ q.size = p.size ∧
          q.copy = (if bitOf (pktField c.pkt 14 1) 0 = true ∧ bitOf (pktField c.pkt 14 1) 3 = false then none else p.copy)) t) ∧
  (∀ (tag : Nat) (c : Cmd) (o : Obj) (s : State), AtObject s 0x36 tag c o → deletePinned s (cmdObj c) o = false →
    (o.kind ≠ .scratch → s.flash.readOnly = false) →
    ∃ t, exec (.objDelete tag) s = .next t ∧ WaitsForTick c s t ∧ t = { s with host := t.host, objs := t.objs } ∧
      objOf t (cmdObj c) = some { o with deleting := some c.tag } ∧ (∀ j, j ≠ cmdObj c → objOf t j = objOf s j) ∧
      TakenUpLater c { c with phase := .ready, extra := 0 } updateCmd
        (fun u => atPoint u (pktCtx c.pkt) = true ∧ deleteWaits u c = false ∧
          ∃ p, objOf u (cmdObj c) = some p ∧ p.kind = .scratch ∧ deletePinned u (cmdObj c) p = false)
        (fun u v => objOf v (cmdObj c) = none ∧ ∀ j, j ≠ cmdObj c → objOf v j = objOf u j) t ∧
      LastProgramCompletes c) ∧
  (∀ (c : Cmd) (o : Obj) (s : State), cmdOf s c.tag = some c → objOf s (cmdObj c) = some o → deleteWaits s c = false →
    deletePinned s (cmdObj c) o = false → o.kind ≠ .scratch →
      (s.flash.readOnly = true → CommandCompletes c stProgramFail s (applyDelete c s) ∧ objOf (applyDelete c s) (cmdObj c) = some { o with deleting := none }) ∧
      (s.flash.readOnly = false → objOf (applyDelete c s) (cmdObj c) = none ∧ StandsAs c .running (applyDelete c s) ∧
        ∃ r ∈ (applyDelete c s).flash.progQ, r.tag = c.tag ∧ r.ver.kind = .tombstone ∧ r.ver.slots.map (·.lga) = [o.objNo * 2 ^ 24]))

/-- R423, R425, R381, R384, R50, R111, R185: BATCH_SUBMIT, with PIPE or without, and STEP_RUN copy their input to offset 0 of the slot-0 object and
join a plan, that of their acceptance where they have no input; a STEP_RUN that passes its field checks without reduction engine is UNIT_UNAVAILABLE;
STEP_VOID waits for the boundary, which flips the parity back where it names the last committed step; a start puts every core at ENTRY, its registers
zero and its generator seeded, and notes a step; an answer line that names a waiting PIPE batch without answer object completes it. -/
def Obligations.ExecutionCommands : Prop :=
  (∀ (op tag inLen : Nat) (i : Instr) (c : Cmd) (s : State),
    ((op = 0x40 ∧ pktPipe c.pkt = false ∧ i = .batchSubmit tag ∧ inLen = pktField c.pkt 12 4 ∧
        (pktField c.pkt 20 4 ≠ 0 → ioOk s (pktCtx c.pkt) 1 (pktField c.pkt 20 4) = true)) ∨
      (op = 0x40 ∧ pktPipe c.pkt = true ∧ i = .batchSubmitPipe tag ∧ inLen = pktField c.pkt 12 4 ∧
        (pktField c.pkt 20 4 ≠ 0 → ioOk s (pktCtx c.pkt) 1 (pktField c.pkt 20 4) = true)) ∨
      (op = 0x41 ∧ s.red.available = true ∧ i = .stepRun tag ∧ inLen = pktField c.pkt 16 4)) →
    AtUnit s op tag c → (ctxOf s (pktCtx c.pkt)).prog.isSome = true → (inLen ≠ 0 → ioOk s (pktCtx c.pkt) 0 inLen = true) →
    (inLen ≠ 0 → inputBad (meetInput (pktCtx c.pkt) inLen s) (pktCtx c.pkt) inLen = none) →
    ∃ t, exec i s = .next t ∧ JoinsPlan c (fun _ => if inLen = 0 then c.plan else max c.plan (planNow s)) s t ∧
      t = { s with host := t.host, ctxs := t.ctxs, objs := t.objs, logs := t.logs } ∧
      (inLen = 0 → t.objs = s.objs ∧ t.logs = s.logs) ∧
      (∀ id o m, inLen ≠ 0 → mainSlot s (pktCtx c.pkt) 0 = some id → objOf s id = some o → o.copy = some m → m.missing = [] → m.data.poison = [] →
        m.data.raw = [] →
        (∃ x, objOf t id = some { o with copy := some { m with data := x, dirty := true } } ∧ BytesWritten m.data x 0 ((cmdData c).take inLen)) ∧
        (∀ j, j ≠ id → objOf t j = objOf s j))) ∧
  (∀ (tag : Nat) (c : Cmd) (s : State), AtUnit s 0x41 tag c → s.red.available = false → (ctxOf s (pktCtx c.pkt)).prog.isSome = true →
    (pktField c.pkt 16 4 ≠ 0 → ioOk s (pktCtx c.pkt) 0 (pktField c.pkt 16 4) = true) →
    ∃ t, exec (.stepRun tag) s = .next t ∧ CommandCompletes c stUnitUnavailable s t) ∧
  (∀ (tag : Nat) (c : Cmd) (s : State), AtUnit s 0x42 tag c → ctxDefined s (pktCtx c.pkt) = true →
    ∃ t, exec (.stepVoid tag) s = .next t ∧ OnlyHostChanges s t ∧ WaitsForTick c s t ∧
      TakenUpLater c { c with phase := .ready, extra := 0 } closeCmd
        (fun u => (ctxOf u (pktCtx c.pkt)).steps = [] ∧ (ctxOf u (pktCtx c.pkt)).lastStep = none) (fun u v => OnlyHostChanges u v) t) ∧
  (∀ (c : Cmd) (s : State) (n k : Nat), cmdOf s c.tag = some c → n = pktCtx c.pkt → k = pktField c.pkt 8 4 → (ctxOf s n).steps = [] →
    (∀ ids, (ctxOf s n).lastStep = some (k, ids) → CommandCompletes c (stSuccess 2 0 0) s (applyStepVoid c s) ∧
      (ctxOf (applyStepVoid c s) n).parity = !(ctxOf s n).parity ∧ (ctxOf (applyStepVoid c s) n).lastStep = none) ∧
    (∀ j ids, j ≠ k → (ctxOf s n).lastStep = some (j, ids) → CommandCompletes c (stSuccess 0 0 0) s (applyStepVoid c s) ∧
      OnlyHostChanges s (applyStepVoid c s))) ∧
  (∀ (c : Cmd) (s : State) (p : Program) (i n : Nat), n = pktCtx c.pkt → (ctxOf s n).prog = some p → i < progCores p →
    (pktOpcode c.pkt = 0x40 ∨ pktOpcode c.pkt = 0x41) → (∀ x ∈ (ctxOf s n).steps, x.tag ≠ c.tag) →
    ∃ u, (ctxOf (startExec c s) n).run = some u ∧ u.tag = c.tag ∧ u.seed = BitVec.ofNat 64 (pktField c.pkt 40 8) ∧
      u.arg0 = BitVec.ofNat 64 (pktField c.pkt 24 8) ∧ u.arg1 = BitVec.ofNat 64 (pktField c.pkt 32 8) ∧
      (pktOpcode c.pkt = 0x40 → u.nreq = pktField c.pkt 8 2 ∧ u.kind = if pktPipe c.pkt then .pipe else .batch) ∧
      (pktOpcode c.pkt = 0x41 → u.kind = .step ∧ ∃ x ∈ (ctxOf (startExec c s) n).steps, x.tag = c.tag ∧ x.step = pktField c.pkt 8 4 ∧
        x.start = s.frame.counter.toNat ∧ x.redFrames = pktField c.pkt 12 2) ∧
      (ctxOf (startExec c s) n).state = .runnable ∧
      coreOf (startExec c s) { ctx := n, sketch := false, lcore := i } =
        { t0 := (coreOf s { ctx := n, sketch := false, lcore := i }).t0
          banks := (coreOf s { ctx := n, sketch := false, lcore := i }).banks
          fpTags := (coreOf s { ctx := n, sketch := false, lcore := i }).fpTags
          bankRaw := (coreOf s { ctx := n, sketch := false, lcore := i }).bankRaw
          codeRaw := (coreOf s { ctx := n, sketch := false, lcore := i }).codeRaw
          pc := p.entry, rng := rngSeed u.seed i, phase := .running }) ∧
  (∀ (c : Cmd) (n : Nat) (p : Program) (s : State), (ctxOf s n).prog = some p → slotObj s p 1 = none → rawBad 4 64 (t1Of s n 0) 128 64 = [] →
    storeHit 64 (t1Of s n 0) 128 64 = false → leNat (storeRead (t1Of s n 0) 128 8) ≠ 0 →
    s.host.cmds.find? (fun d => pktCtx d.pkt = n && pipeWaiting d && pktField d.pkt 24 8 = leNat (storeRead (t1Of s n 0) 128 8)) = some c →
    cmdOf (answerLine n s) c.tag = none ∧ (∃ r ∈ (answerLine n s).host.done, r.tag = c.tag) ∧
      leNat (storeRead (t1Of (answerLine n s) n 0) 128 64) = 0)

/-- R247, R251, R255, R256: a BLK_READ over granules that no media holds returns zeros without a die, and otherwise queues one read per granule
held; BLK_WRITE queues its programs and BLK_TRIM one tombstone over its granules, and the last program completes them; BLK_FLUSH completes at the
boundary by which every write before it has; a write on a read-only module is PROGRAM_FAIL. -/
def Obligations.BlockCommands : Prop :=
  (∀ (tag : Nat) (c : Cmd) (s : State), AtBlocks s 0x50 tag c →
    ((∀ g, blockGranule c g → noMedia s (blkLga g) = true) →
      ∃ t bs, exec (.blkRead tag) s = .next t ∧ OnlyHostChanges s t ∧ RepliesWith c 0 bs (stSuccess 0 0 0) s t ∧ (∀ b ∈ bs, b = 0) ∧
        bs.length = (blkSpan c).2 * 4096) ∧
    (∀ h, blockGranule c h → noMedia s (blkLga h) = false →
      ∃ t, exec (.blkRead tag) s = .next t ∧ StandsAs c .running t ∧ t.flash.map = s.flash.map ∧ t.flash.overlay = s.flash.overlay ∧
        t.flash.progQ = s.flash.progQ ∧ t.ctxs = s.ctxs ∧
        (∀ g, blockGranule c g → noMedia s (blkLga g) = false → ∃ r ∈ t.flash.readQ, r.lga = blkLga g ∧ r.why = .host c.tag g))) ∧
  (∀ (tag : Nat) (c : Cmd) (s : State), AtBlocks s 0x51 tag c →
    (s.flash.readOnly = true → ∃ t, exec (.blkWrite tag) s = .next t ∧ OnlyHostChanges s t ∧ CommandCompletes c stProgramFail s t) ∧
    (s.flash.readOnly = false → LastProgramCompletes c ∧ ∃ t left, exec (.blkWrite tag) s = .next t ∧ StaysRunning c left s t ∧
      t = { s with host := t.host, flash := t.flash, nonce := t.nonce } ∧ t.flash.map = s.flash.map ∧ t.flash.overlay = s.flash.overlay ∧
      ((blkSpan c).2 * 4096 ≤ pktBufLen c.pkt → ∀ g, blockGranule c g → ∃ o ∈ t.flash.progQ, o.tag = c.tag ∧ (o.kind = .write ∨ o.kind = .units) ∧
        ∃ x ∈ o.ver.slots, x.lga = blkLga g ∧ s.flash.seq ≤ x.seq) ∧
      (0 < pktBufLen c.pkt → 0 < (blkSpan c).2 → s.flash.seq < t.flash.seq))) ∧
  (∀ (tag : Nat) (c : Cmd) (s : State), AtBlocks s 0x52 tag c →
    (s.flash.readOnly = true → ∃ t, exec (.blkTrim tag) s = .next t ∧ OnlyHostChanges s t ∧ CommandCompletes c stProgramFail s t) ∧
    (s.flash.readOnly = false → LastProgramCompletes c ∧ ∃ t o, exec (.blkTrim tag) s = .next t ∧ StaysRunning c 1 s t ∧
      t = { s with host := t.host, flash := t.flash, nonce := t.nonce } ∧ t.flash.map = s.flash.map ∧ t.flash.seq = s.flash.seq + 1 ∧
      o ∈ t.flash.progQ ∧ o.tag = c.tag ∧ o.ver.kind = .tombstone ∧
      o.ver.slots = [{ lga := blkLga ((blkSpan c).1 / 16), count := (blkSpan c).2 / 16, seq := s.flash.seq }])) ∧
  (∀ (tag : Nat) (c : Cmd) (s : State), AtUnit s 0x53 tag c → ∃ t, exec (.blkFlush tag) s = .next t ∧ OnlyHostChanges s t ∧ WaitsForTick c s t ∧
    TakenUpLater c { c with phase := .ready, extra := 0 } closeCmd (fun u => flushWaits u c = false) (fun u v => OnlyHostChanges u v) t)

/-- R299, R281, R282, R294, R296, R297, R303: SCAN, VSEARCH and EMBED with a sound descriptor take the lowest free query slot; a scanned granule goes
through the predicates and scores of its query, without the records on its bad pages; a finished merge frees the slot, and its answer goes to the
buffer. A query whose object has no mapped granule has nothing to read: its merge, or for an EMBED the command itself, ends with the summary of no
records. A unit taken from service ends the query that has a granule there, ABORTED. -/
def Obligations.QueryCommandsAndScans : Prop :=
  (∀ (kind : QueryKind) (op tag slot : Nat) (i : Instr) (c : Cmd) (s : State),
    ((kind = .scan ∧ op = 0x60 ∧ i = .scan tag) ∨ (kind = .vsearch ∧ op = 0x61 ∧ i = .vsearch tag) ∨ (kind = .embed ∧ op = 0x62 ∧ i = .embed tag)) →
    AtUnit s op tag c → objBlocked s c = false → ctxDefined s (pktCtx c.pkt) = true → queryErr kind s c = none →
    slot < 4 → mapFind slot s.scan.slots = none → (∀ k, k < slot → (mapFind k s.scan.slots).isSome = true) →
    (∃ t, exec i s = .next t ∧ t.ctxs = s.ctxs ∧ t.frame = s.frame ∧
      ((kind ≠ .embed ∨ (mapFind slot t.scan.slots).isSome = true) → StandsAs c .running t ∧
        ∃ q, mapFind slot t.scan.slots = some q ∧ q.tag = c.tag ∧ q.kind = kind ∧ q.obj = cmdObj c ∧ q.desc = scanDescOf (cmdData c) ∧ q.cands = [])) ∧
    (∀ o : Obj, objOf s (cmdObj c) = some o → (∀ l ∈ mappedLgas s, ¬(l < 2 ^ 60 ∧ l / 2 ^ 24 = o.objNo)) → c.home.poison = [] → c.home.raw = [] →
      (kind = .embed → ∃ t bs, exec i s = .next t ∧ RepliesWith c (pktField c.pkt 16 4) bs (stSuccess 0 0 0) (keepRunning c 0 s) t ∧
        bs.length = 576 ∧ bs.take 16 = zeros 16) ∧
      (kind ≠ .embed → isResident (ctxOf s (pktCtx c.pkt)) = true → ∃ t u bs, exec i s = .next t ∧ exec (.queryMergeComplete slot) t = .next u ∧
        RepliesWith c (pktField c.pkt 16 4) bs (stSuccess bs.length 0 0) t u ∧ bs.take 16 = zeros 16 ∧ mapFind slot u.scan.slots = none ∧
        bs.length = 576 + (if kind = .vsearch then (scanDescOf (cmdData c)).nq * (scanDescOf (cmdData c)).k *
          (if (scanDescOf (cmdData c)).wide then 16 else 8) else 0)))) ∧
  (∀ (slot ch g : Nat) (cw soft : List Nat) (q : Query) (o : Obj) (r : ReadOp) (s : State), slot < 4 → ch < 32 → mapFind slot s.scan.slots = some q →
    objOf s q.obj = some o → s.flash.readQ.find? (fun r => r.started && readChannel r = ch && (queryGranule q.tag r).isSome) = some r → r.why = .query q.tag g →
    r.dies ≠ [] → queryAwake s q = true → flashOn s = true → q.kind ≠ .embed → (g - firstOn q.desc ch) / 32 < granulesOn q.desc o.size ch →
    ∃ t p, exec (.pageScanned slot ch ⟨cw, soft⟩) s = .next t ∧ mapFind slot t.scan.slots = some p ∧ t.host = s.host ∧
      p.scanned = (scanGranule ch g o.size (readData r (scanResult cw soft)) (badPagesOf (readData r (scanResult cw soft)) cw) q).scanned ∧
      p.out = (scanGranule ch g o.size (readData r (scanResult cw soft)) (badPagesOf (readData r (scanResult cw soft)) cw) q).out ∧
      p.cands = (scanGranule ch g o.size (readData r (scanResult cw soft)) (badPagesOf (readData r (scanResult cw soft)) cw) q).cands ∧
      p.badPages = q.badPages + (badPagesOf (readData r (scanResult cw soft)) cw).length ∧ (g - firstOn q.desc ch) / 32 < mapGet 0 p.next ch) ∧
  (∀ (slot : Nat) (q : Query) (c : Cmd) (s : State), slot < 4 → mapFind slot s.scan.slots = some q → q.kind ≠ .embed →
    scanDone q (querySize s q) = true → isResident (ctxOf s q.ctx) = true → cmdOf s q.tag = some c → c.home.poison = [] → c.home.raw = [] →
    ∃ t, exec (.queryMergeComplete slot) s = .next t ∧ t = { s with host := t.host, scan := { s.scan with slots := mapDel slot s.scan.slots } } ∧
      RepliesWith c q.resOff (summaryBytes q ++ resultEntries q) (queryStatus q) s t) ∧
  (∀ (ch : Nat) (s : State), ch < 32 →
    (s.scan.slots = [] → ∃ t, exec (.scanUnitDisabledForService ch 0) s = .next t ∧ t = { s with scan := { s.scan with units := t.scan.units } } ∧
      (∀ k, mapGet .enabled t.scan.units k = if k = ch then .enabled else mapGet .enabled s.scan.units k)) ∧
    (∀ mode, 1 ≤ mode → mode ≤ 2 → (∀ c ∈ s.host.cmds, queryWaits s ch c = false) →
      (s.scan.slots = [] → ∃ t, exec (.scanUnitDisabledForService ch mode) s = .next t ∧ t.host = s.host ∧ t.scan = { s.scan with units := t.scan.units } ∧
        (∀ k, mapGet .enabled t.scan.units k = if k = ch then (if mode = 1 then .service else .stopped) else mapGet .enabled s.scan.units k) ∧
        (mode = 2 → EventLogged 9 s t)) ∧
      (∀ slot q c, s.scan.slots = [(slot, q)] → granulesOn q.desc (querySize s q) ch ≠ 0 → cmdOf s q.tag = some c → isQuery (pktOpcode c.pkt) = true →
        c.phase = .running → runOf s c = false →
        ∃ t, exec (.scanUnitDisabledForService ch mode) s = .next t ∧ CommandCompletes c (stAborted 3 0 0) s t ∧ t.scan.slots = [] ∧
          mapGet .enabled t.scan.units ch = (if mode = 1 then .service else .stopped))))

/-! ### Frames and slices -/

/-- R47, R49, R53, R420, R501, R502: without standby power a tick does nothing; without D1, or in S3, it counts one frame and nothing else; in a state
that serves no context it counts one frame, writes or holds every waiting record, closes the frame's statistics, makes the error log persistent
and hands the plan over; a reset or a power-down that waited for the window follows it. -/
def Obligations.FrameTickCountsAndCloses : Prop :=
  (∀ (x : TickSample) (s : State), s.power.standby = false → exec (.frameTick x) s = .next s) ∧
  (∀ (x : TickSample) (s : State), s.power.standby = true → (s.power.d1 = false ∨ s.power.s3 = true) →
    exec (.frameTick x) s = .next { s with frame := { s.frame with counter := s.frame.counter + 1 } }) ∧
  (∀ (x : TickSample) (s : State), s.power.standby = true → s.power.d1 = true → s.power.s3 = false → serving s = false → s.host.devState ≠ .booting →
    x.upsets = [] →
    (s.power.afterWindow = none → s.power.woken = false → (∀ c ∈ s.host.cmds, c.phase ≠ .ready ∧ ¬(pktOpcode c.pkt = 3 ∧ pktField c.pkt 8 1 = 0x10)) →
      ∃ t r, exec (.frameTick x) s = .next t ∧ t.frame.counter = s.frame.counter + 1 ∧ t.host.cmds = s.host.cmds ∧ t.host.done = [] ∧
        ((∀ p ∈ s.ctxs, p.2.inSlice = false) → t.ctxs = s.ctxs) ∧ t.objs = s.objs ∧ t.flash.map = s.flash.map ∧ t.flash.overlay = s.flash.overlay ∧
        t.frame.slices = s.frame.plan ∧ t.frame.plan = [] ∧ t.frame.planClosed = false ∧ t.frame.snapDone = false ∧ t.power.frameAvgW = x.avgW ∧
        t.power.peakW = x.peakW ∧ t.ef.guarded = false ∧ t.logs.frames = s.logs.frames + 1 ∧ t.logs.recs.head? = some r ∧
        r.frame = s.frame.counter.toNat ∧ r.sketch = s.logs.cur.sketch ∧ t.logs.recs.length ≤ 256 ∧ t.logs.cur = {} ∧
        (∀ e ∈ t.logs.errors, e.persistent = true)) ∧
    (s.power.afterWindow = some 6 → ∃ t, exec (.frameTick x) s = .next t ∧ t.host.devState = .booting ∧ t.power.resetCause = 6 ∧
      t.frame = { counter := s.frame.counter + 1 } ∧ t.objs = [] ∧ t.host.cmds = []) ∧
    (s.power.afterWindow = some 8 → s.power.woken = false → ∃ t, exec (.frameTick x) s = .next t ∧ t.power.s3Flush = true ∧ t.power.afterWindow = none))

/-- R325, R329, R331, R326, R51, R234, R332, R130, R335, R340, R425: the plan closes once a frame and places a waiting context that fits; the
snapshot writes the decision line and sets F31 on every cluster of a runnable context; a slice starts and ends, an overrun charged to its context and
credited to the one it displaced; a swap moves one domain, the last one saves the context, and the next context placed takes its domains; a zeroed save
area frees its context; a late PIPE batch ends alone, every request FAULTED. -/
def Obligations.SchedulingOfAFrame : Prop :=
  (∀ s : State, (s.frame.planClosed = true → exec .framePlanClose s = .next s) ∧
    (s.frame.planClosed = false → s.host.devState ≠ .ready →
      exec .framePlanClose s = .next { s with frame := { s.frame with planClosed := true, plan := [] }, ef := if s.power.d1 then suspendErase s.ef else s.ef }) ∧
    (s.frame.planClosed = false → s.host.devState = .ready → waitingCtxs s = [] →
      exec .framePlanClose s = .next { s with frame := { s.frame with planClosed := true, plan := planOf s }
                                              ef := if s.power.d1 then suspendErase s.ef else s.ef }) ∧
    (∀ n ds, s.frame.planClosed = false → s.host.devState = .ready → waitingCtxs s = [n] → placeAt s n = some ds → ds ≠ [] →
      ∃ t, exec .framePlanClose s = .next t ∧ t.frame.planClosed = true ∧ t.host = s.host ∧ t.objs = s.objs ∧
        t.swaps = s.swaps ++ ds.map (fun d => ({ ctx := n, domain := d, swapIn := true } : SwapOp)) ∧
        (s.swaps = [] → (ctxOf t n).state = .swappingIn ∧ (ctxOf t n).alloc = ds ∧ ∀ m, m ≠ n → ctxOf t m = ctxOf s m) ∧
        (∀ o l, s.swaps = o :: l → o.swapIn = false → ctxOf t n = { ctxOf s n with place := ds } ∧ ∀ m, m ≠ n → ctxOf t m = ctxOf s m))) ∧
  (∀ s : State, (s.frame.snapDone = true → exec .deadlineSnapshot s = .next s) ∧
    (∀ (n : Nat) (c : Context), s.frame.snapDone = false → s.host.devState = .ready → s.ctxs = [(n, c)] → c.state = .runnable →
      ∃ t, exec .deadlineSnapshot s = .next t ∧ t.frame.snapDone = true ∧
        (∀ lc ∈ lclusters s n, (clusterOf t n lc).flags.getLsbD 31 = true ∧
          (∀ i, i < 32 → storeByte (t1Of t n lc) i = (leBytes 32 (markedMask s n).toNat).getD i 0)) ∧
        (∀ u, c.run = some u → ∃ v, (ctxOf t n).run = some v ∧ v.masks = u.masks ||| markedMask s n))) ∧
  (∀ (n : Nat) (s : State), 1 ≤ n → n ≤ 255 →
    (sliceReady s n = true → ∃ t, exec (.sliceStart n) s = .next t ∧ t = { s with ctxs := t.ctxs, frame := { s.frame with slices := s.frame.slices.filter (· != n) } } ∧
      (ctxOf t n).inSlice = true ∧ (ctxOf t n).cut = false ∧ (ctxOf t n).credits = [] ∧ (∀ m, m ≠ n → ctxOf t m = ctxOf s m) ∧
      (∀ r : CoreRef, r.ctx = n → (∀ b, (coreOf s r).phase = .yielded b → (coreOf t r).phase = .running) ∧
        ((coreOf s r).streaming = none → (coreOf t r).streaming = if s.power.duty = 0 then none else (coreOf s r).queuedOp) ∧
        (coreOf t r).t0 = (coreOf s r).t0)) ∧
    (sliceReady s n = false → exec (.sliceStart n) s = .next s) ∧
    ((ctxOf s n).inSlice = true →
      ((∀ p ∈ (ctxOf s n).cores ++ (ctxOf s n).sketchCores, ∀ u ∈ p.2.tickets, u.2.out = none) →
        ∃ t, exec (.sliceEnd n 0) s = .next t ∧ t = { s with ctxs := t.ctxs } ∧ ctxOf t n = { ctxOf s n with inSlice := false, cut := false } ∧
        (∀ m, m ≠ n → ctxOf t m = ctxOf s m)) ∧
      (∀ ns d, 0 < ns → (ctxOf s n).alloc = [d] → ∃ t, exec (.sliceEnd n ns) s = .next t ∧ (ctxOf t n).inSlice = false ∧ (ctxOf t n).cut = false ∧
        t.host = s.host ∧ mapGet 0 (ctxOf t n).charges d = mapGet 0 (ctxOf s n).charges d - ns ∧
        t.logs.cur.overrun = max s.logs.cur.overrun (ns / 100) ∧
        (∀ m, m ≠ n → displaced s d = some m → mapGet 0 (ctxOf t m).credits d = mapGet 0 (ctxOf s m).credits d + ns))) ∧
    (∀ o l, s.swaps = o :: l → o.wipe = true → o.ctx = n → (∀ p ∈ l, p.swapIn = false) →
      (∀ c ∈ s.host.cmds, ¬(pktOpcode c.pkt = 0x21 ∧ pktCtx c.pkt = n ∧ c.extra = 1)) →
      ∃ t, exec (.teardownComplete n) s = .next t ∧ t = { s with ctxs := t.ctxs, swaps := l } ∧
      ctxOf t n = { ctxOf s n with wiping := false, saved := false } ∧ (∀ m, m ≠ n → ctxOf t m = ctxOf s m))) ∧
  (∀ (o : SwapOp) (l : List SwapOp) (s : State), s.swaps = o :: l → o.wipe = false → (o.swapIn = true → (ctxOf s o.ctx).place = []) →
    ((ctxOf s o.ctx).state ≠ .swappingOut → (∀ p ∈ l, p.swapIn = false) → exec (.swapDomainComplete false) s = .next { s with swaps := l }) ∧
    ((ctxOf s o.ctx).state ≠ .swappingOut → ∀ p k, l = p :: k → p.swapIn = true → p.ctx ≠ o.ctx → (ctxOf s p.ctx).place ≠ [] →
      ∃ t, exec (.swapDomainComplete false) s = .next t ∧ t = { s with ctxs := t.ctxs, swaps := l } ∧ (ctxOf t p.ctx).state = .swappingIn ∧
        (ctxOf t p.ctx).alloc = (ctxOf s p.ctx).place ∧ (ctxOf t p.ctx).place = [] ∧ ∀ m, m ≠ p.ctx → ctxOf t m = ctxOf s m) ∧
    ((ctxOf s o.ctx).state = .swappingOut → (∀ p ∈ l, p.ctx ≠ o.ctx ∧ p.swapIn = false) → s.power.domOff = [] →
      ∃ t, exec (.swapDomainComplete false) s = .next t ∧ t = { s with ctxs := t.ctxs, swaps := l } ∧
        ctxOf t o.ctx = { ctxOf s o.ctx with state := .out, saved := true, alloc := [], evacuating := false } ∧ (∀ m, m ≠ o.ctx → ctxOf t m = ctxOf s m))) ∧
  (∀ (tag : Nat) (c : Cmd) (s : State), cmdOf s tag = some c → pipeWaiting c = true → (∀ u, (ctxOf s (pktCtx c.pkt)).run = some u → u.tag ≠ tag) →
    (c.extra + (ctxOf s (pktCtx c.pkt)).runFrames ≤ s.frame.counter.toNat → inputReady c = true → listErr c = none →
      ∃ t, exec (.pipeBatchTimeout tag) s = .next t ∧ OnlyHostChanges s t ∧
      t.host = { s.host with cmds := s.host.cmds.filter (fun d => d.tag != tag), done := s.host.done ++ [recordOf s c
        { cls := 4, code := 1, r0 := 0x21, r1 := 0xFFFFFFFF }
        (splitWrite (bufPieces c) (pktField c.pkt 16 4) (padTo 256 (List.replicate (pktField c.pkt 8 2) 3)))] }) ∧
    (s.frame.counter.toNat < c.extra + (ctxOf s (pktCtx c.pkt)).runFrames → exec (.pipeBatchTimeout tag) s = .next s))

/-- R339: a run whose count of ticks since its start has reached RUN_FRAMES without halting is a fault with cause RUN_TIMEOUT (0x21): it is logged, the
run and the program are gone, and every command of the context that a fault ends has ended; before that nothing happens. -/
def Obligations.LateRunFaultsItsContext : Prop :=
  ∀ (n : Nat) (u : Run) (s : State), 1 ≤ n → n ≤ 255 → (ctxOf s n).run = some u → (ctxOf s n).state ≠ .free →
    ((ctxOf s n).runFrames ≤ u.ticks → ∃ t, exec (.runTimeout n) s = .next t ∧ FaultLogged n 0x21 s t ∧ (ctxOf t n).run = none ∧
      (ctxOf t n).prog = none ∧ (∀ c ∈ t.host.cmds, faultEnds n c = false) ∧
      (isResident (ctxOf s n) = true → (ctxOf s n).state ≠ .destroying → (ctxOf t n).state = .teardown)) ∧
    (u.ticks < (ctxOf s n).runFrames → exec (.runTimeout n) s = .next s)

/-! ### Prefetch engine and flash -/

/-- R224, R229, R223, R212, R311: the engine takes the oldest post of a cluster, holds its object and counts its core's post as accepted; a fill
that waited gets its copy when there is room; the gather engine writes each cluster's piece of a complete copy; a poisoned granule of a CLEAN
copy is read again. -/
def Obligations.PrefetchEngine : Prop :=
  (∀ (n lc : Nat) (p : Post) (l : List Post) (o : Obj) (s : State), 1 ≤ n → n ≤ 255 → lc < 250 → (clusterOf s n lc).posts = p :: l →
    s.inFlight.length < 8192 → objOf s p.obj = some o → objResident o = true →
    ∃ t, exec (.postAccepted n lc) s = .next t ∧ t = { s with ctxs := t.ctxs, objs := t.objs } ∧ (clusterOf t n lc).posts = l ∧
      objOf t p.obj = some { o with held := true, posted := true, posts := o.posts + 1, lastUse := s.frame.counter.toNat, started := true } ∧
      (∀ j, j ≠ p.obj → objOf t j = objOf s j) ∧ (coreOf t p.core).postsOut = (coreOf s p.core).postsOut - 1) ∧
  (∀ (n lc : Nat) (s : State), 1 ≤ n → n ≤ 255 → lc < 250 → (clusterOf s n lc).posts = [] → exec (.postAccepted n lc) s = .next s) ∧
  (∀ (n id : Nat) (o : Obj) (s : State), 1 ≤ n → n ≤ 255 → (objsOf s n).filter (fun p => p.2.waiting) = [(id, o)] → objOf s id = some o →
    o.kind ≠ .scratch → o.copy = none → s.inFlight.length < 8192 →
    ((makeRoom (objCtx id) (roundUp o.size granuleBytes) s).isSome = true → ∃ t p, exec (.fillRetry n) s = .next t ∧ objOf t id = some p ∧
      p.copy.isSome = true ∧ p.waiting = false ∧ p.size = o.size) ∧
    (makeRoom (objCtx id) (roundUp o.size granuleBytes) s = none → ∃ t, exec (.fillRetry n) s = .next t ∧ t = { s with objs := t.objs } ∧
      objOf t id = some { o with waiting := true })) ∧
  (∀ (id : Nat) (o : Obj) (b : Binding) (m : T2Copy) (s : State), objOf s id = some o → bindingAsked o = true → o.binding = some b → b.filled = false →
    o.copy = some m → t2Complete o = true → (ctxOf s (objCtx id)).alloc ≠ [] →
    ∃ t p, exec (.gatherFillComplete id) s = .next t ∧ objOf t id = some p ∧ p.binding = some { b with filled := true } ∧ p.copy = o.copy ∧
      (∀ i, i < b.count → BytesWritten (t1Of s (objCtx id) (b.first + i)) (t1Of t (objCtx id) (b.first + i)) b.t1Addr (pieceBytes b m.data i)) ∧
      (∀ lc, lc < b.first ∨ b.first + b.count ≤ lc → clusterOf t (objCtx id) lc = clusterOf s (objCtx id) lc)) ∧
  (∀ (id g : Nat) (o : Obj) (m : T2Copy) (s : State), objOf s id = some o → o.kind = .persistent → o.copy = some m → g ∈ badGranules m →
    unrecoverable s o m g = false → m.missing = [] → noMedia s (objLga o g) = false → readQueued s id g = false → s.inFlight.length < 8192 →
    ∃ t st, exec (.granuleRepair id g) s = .next t ∧ objOf t id = some { o with copy := some { m with missing := [g] }, started := st } ∧
      (∃ r ∈ t.flash.readQ, r.lga = objLga o g ∧ r.why = .fill id g o.posted) ∧ id ∈ t.inFlight ∧ t.host = s.host)

/-- R256, R257, R258, R269, R270, R59, R266, R272: a read for a fill puts its granule into the copy and no other byte; the read-back of a fold moves the
map to the copy; a program that passes puts its version on the die and the map on it, one that fails retires a block, is tried on another die and
leaves its superblock to be emptied; an erase leaves an empty superblock with its wear raised; a die suspends for a read; RAW_READ answers with one
page, and for a block that is being erased with BUSY_ERASE. -/
def Obligations.FlashOperationsComplete : Prop :=
  (∀ (id obj g : Nat) (post : Bool) (x : ReadOp) (o : Obj) (m : T2Copy) (s : State), s.flash.readQ.find? (fun x => x.id = id) = some x → x.started = true →
    x.why = .fill obj g post → flashOn s = true → objOf s obj = some o → o.fillTags = [] → o.copy = some m → g ∈ m.missing → (homeNew s x.lga).poison = [] →
    ∃ t k st, exec (.flashReadComplete id .clean) s = .next t ∧ (∀ r ∈ t.flash.readQ, r.id ≠ id) ∧
      objOf t obj = some { o with copy := some k, started := st } ∧
      k.missing = setDel g m.missing ∧ k.dirty = m.dirty ∧
      (∀ i, i < 65536 → storeByte k.data (g * 65536 + i) = storeByte (homeNew s x.lga) i) ∧
      (∀ a, a < g * 65536 ∨ g * 65536 + 65536 ≤ a → storeByte k.data a = storeByte m.data a) ∧ t.host = s.host) ∧
  (∀ (id : Nat) (src dst : Loc) (x : ReadOp) (v : Version) (y : Slot) (s : State), s.flash.readQ.find? (fun x => x.id = id) = some x → x.started = true →
    x.why = .verify src dst false → flashOn s = true → versionAt s dst = some v → v.kind = .granule → v.slots = [y] → mapFind y.lga s.flash.map = some src →
    ∃ t, exec (.flashReadComplete id .clean) s = .next t ∧ mapFind y.lga t.flash.map = some dst ∧
      (∀ l, l ≠ y.lga → mapFind l t.flash.map = mapFind l s.flash.map) ∧ t.host = s.host) ∧
  (∀ (id die n : Nat) (o : ProgOp) (s : State), die < 48 → s.flash.progQ.find? (fun o => o.id = id) = some o → o.on = some (die, n) → o.kind = .write →
    (dieOf s o.ch die).suspended = false → flashOn s = true → (∀ p ∈ s.flash.progQ, p.id < s.flash.nextId) →
    (∀ y, o.ver.slots = [y] → mapFind y.lga s.flash.map = none → 0 < y.seq →
      (∀ p ∈ s.flash.supers, ∀ v ∈ p.2.vers, v.2.kind ≠ .tombstone) → o.ver.kind = .granule →
      ∃ t l v, exec (.flashProgramComplete id die true) s = .next t ∧ mapFind y.lga t.flash.map = some l ∧ l.ch = o.ch ∧ l.die = die ∧ l.super = n ∧
        versionAt t l = some v ∧ v.data = o.ver.data ∧ v.slots = o.ver.slots ∧ (∀ p ∈ t.flash.progQ, p.id ≠ id) ∧
        t.flash.bytesFlash = s.flash.bytesFlash + 65536) ∧
    (∃ t, exec (.flashProgramComplete id die false) s = .next t ∧ t.flash.programFails = s.flash.programFails + 1 ∧
      t.flash.badBlocks.length = s.flash.badBlocks.length + 1 ∧ t.flash.map = s.flash.map ∧ EventLogged 8 s t ∧
      (superOf t o.ch die n).wanted = some .refresh ∧
      (t.flash.readOnly = s.flash.readOnly → t.host = s.host ∧ ∃ p ∈ t.flash.progQ, p.id = id ∧ p.avoid = some die ∧ p.ver = o.ver))) ∧
  (∀ (ch die n : Nat) (s : State), wfSuper ch die n = true → (dieOf s ch die).work = some (.erase n) → (dieOf s ch die).suspended = false → flashOn s = true →
    (∃ t, exec (.flashEraseComplete ch die n true) s = .next t ∧
      (superOf t ch die n).wear = (superOf s ch die n).wear + (if (superOf s ch die n).slc then 1 else 10) ∧ (superOf t ch die n).vers = [] ∧
      (superOf t ch die n).next = 0 ∧ t.flash.map = s.flash.map ∧ t.host = s.host) ∧
    (∃ t, exec (.flashEraseComplete ch die n false) s = .next t ∧ t.flash.eraseFails = s.flash.eraseFails + 1 ∧
      t.flash.badBlocks.length = s.flash.badBlocks.length + 1 ∧ (superOf t ch die n).vers = [] ∧ t.flash.map = s.flash.map ∧ EventLogged 8 s t)) ∧
  (∀ (ch die : Nat) (s : State), wfDie ch die = true → readQueuedFor s (dieKey ch die) = true → (dieOf s ch die).work.isSome = true → flashOn s = true →
    ∃ t, exec (.programEraseSuspend ch die) s = .next t ∧ (dieOf t ch die).suspended = true ∧ (dieOf t ch die).work = (dieOf s ch die).work ∧
      t.flash.supers = s.flash.supers ∧ t.flash.map = s.flash.map ∧ t.flash.progQ = s.flash.progQ ∧ t.host = s.host) ∧
  (∀ (tag ch die : Nat) (k : Option Nat) (c : Cmd) (s : State), AtUnit s 0x79 tag c → ch = pktField c.pkt 8 1 → die = pktField c.pkt 9 1 →
    dieFree s (dieKey ch die) = true → flashOn s = true → superAt s ch die (pktField c.pkt 10 1) (pktField c.pkt 12 2) = k →
    (∀ n, k = some n → (superOf s ch die n).slc = true → pktField c.pkt 14 2 ≤ 383) →
    ((∀ n, k = some n → (dieOf s ch die).work ≠ some (.erase n)) →
      ∃ t bs st, exec (.rawRead tag) s = .next t ∧ RepliesWith c 0 bs st s t ∧
        bs.length = (if bitOf (pktField c.pkt 16 1) 0 then 18432 else 16384) ∧ (st.cls = 0 ∨ (st.cls = 3 ∧ st.code = 1))) ∧
    (∀ n, k = some n → (dieOf s ch die).work = some (.erase n) → ∃ t, exec (.rawRead tag) s = .next t ∧ CommandCompletes c stBusyErase s t))

/-- R252, R258, R262, R263, R267, R268, R244: a fold queues one program of the four oldest SLC granules of a die, their data and sequence numbers kept; a
granule with eight overlay units or more is merged; below 64 erased superblocks the victim is emptied, and one with nothing live is erased; a die whose
wear spans more than 1,500 gives up its least worn superblock, one at a time; a superblock that is due is refreshed, counted by its cause, and any other
is not; a patrol counts one read, and what it finds makes the superblock due; training again leaves the channels trained. -/
def Obligations.FlashMaintenance : Prop :=
  (∀ (ch die : Nat) (cs : List Copy) (s : State), wfDie ch die = true → flashOn s = true → (gather s (slcLive s ch die)).take 4 = cs →
    (cs.length = 4 → ∃ t o, exec (.fold ch die) s = .next t ∧ o ∈ t.flash.progQ ∧ o.kind = .fold ∧ o.ch = ch ∧ o.tag = 0 ∧ o.copies = cs ∧
      (∀ x ∈ cs, x.merged = false → ∃ p ∈ slcLive s ch die, x.src = p.1 ∧ x.ver.slots = p.2.slots ∧ x.ver.data = p.2.data ∧ x.ver.copied = true) ∧
      t.flash.map = s.flash.map ∧ t.host = s.host) ∧
    (cs.length < 4 → exec (.fold ch die) s = .next s)) ∧
  (∀ (lga : Nat) (s : State),
    (8 ≤ (overlayUnits s lga).length → mergeable s lga = true → flashOn s = true → ∃ t o y, exec (.overlayMerge lga) s = .next t ∧
      o ∈ t.flash.progQ ∧ o.kind = .merge ∧ o.ver.data = homeRead s lga ∧ o.ver.slots = [y] ∧ y.lga = lga ∧ t.flash.map = s.flash.map ∧
      t.flash.overlay = s.flash.overlay ∧ t.host = s.host) ∧
    ((overlayUnits s lga).length < 8 → 4 * s.flash.overlay.length < 3 * overlayCap s → exec (.overlayMerge lga) s = .next s)) ∧
  (∀ (ch die : Nat) (s : State), wfDie ch die = true → (64 ≤ erasedCount s ch die → exec (.garbageCollection ch die) s = .next s) ∧
    (∀ n, erasedCount s ch die < 64 → victim s ch die = some n → flashOn s = true → ∃ t, exec (.garbageCollection ch die) s = .next t ∧
      (superOf t ch die n).wanted = some .collect ∧ t.flash.map = s.flash.map ∧ t.host = s.host ∧
      ((superOf s ch die n).vers = [] → (superOf s ch die n).state = .closed → (∀ p ∈ s.flash.supers, p.2.wanted = none ∧ p.2.slc = false) → (dieOf s ch die).work = none →
        s.flash.readQ = [] → rawWaits s (dieKey ch die) = false →
        (dieOf t ch die).work = some (.erase n) ∧ (superOf t ch die n).state = .erasing))) ∧
  (∀ (ch die n : Nat) (s : State), wfDie ch die = true → leastWorn s ch die = some n → flashOn s = true →
    1500 < (dieWear s ch die).foldl max 0 - (dieWear s ch die).foldl min ((dieWear s ch die).foldl max 0) →
    ((dieOf s ch die).level = none → ∃ t, exec (.wearLevelling ch die) s = .next t ∧ (superOf t ch die n).wanted = some .level ∧
      (dieOf t ch die).level = some n ∧ t.flash.map = s.flash.map ∧ t.host = s.host) ∧
    ((dieOf s ch die).level ≠ none → exec (.wearLevelling ch die) s = .next s)) ∧
  (∀ (ch die n cause : Nat) (s : State), wfSuper ch die n = true → cause < 3 → flashOn s = true →
    ((superOf s ch die n).state = .open_ ∨ (superOf s ch die n).state = .closed) → (superOf s ch die n).wanted = none →
    ((cause = 0 ∧ (if (superOf s ch die n).slc then 400000 else 40000) ≤ (superOf s ch die n).reads) ∨ (cause ≠ 0 ∧ cause ∈ (superOf s ch die n).due) →
      ∃ t, exec (.refresh ch die n cause) s = .next t ∧ (superOf t ch die n).wanted = some .refresh ∧ t.flash.map = s.flash.map ∧ t.host = s.host ∧
      t.flash.refreshes = (s.flash.refreshes.1 + (if cause = 0 then 1 else 0), s.flash.refreshes.2.1 + (if cause = 1 then 1 else 0),
        s.flash.refreshes.2.2 + (if cause = 2 then 1 else 0))) ∧
    ((cause = 0 ∧ (superOf s ch die n).reads < (if (superOf s ch die n).slc then 400000 else 40000)) ∨ (cause ≠ 0 ∧ cause ∉ (superOf s ch die n).due) →
      exec (.refresh ch die n cause) s = .next s)) ∧
  (∀ (ch die n : Nat) (s : State), wfSuper ch die n = true → (superOf s ch die n).vers ≠ [] → dieFree s (dieKey ch die) = true → flashOn s = true →
    (∃ t, exec (.patrolRead ch die n false false) s = .next t ∧ t = { s with flash := { s.flash with supers := t.flash.supers } } ∧
      superOf t ch die n = { superOf s ch die n with reads := (superOf s ch die n).reads + 1 }) ∧
    (∃ t, exec (.patrolRead ch die n true false) s = .next t ∧ 1 ∈ (superOf t ch die n).due ∧
      (superOf t ch die n).reads = (superOf s ch die n).reads + 1) ∧
    (∃ t, exec (.patrolRead ch die n false true) s = .next t ∧ 2 ∈ (superOf t ch die n).due ∧ t.flash.softDecodes = s.flash.softDecodes + 1)) ∧
  (∀ s : State, exec .onfiRetraining s = .next (if s.power.d3 then { s with flash := { s.flash with trained := true } } else s))

/-! ### Ring -/

/-- R346, R347, R348, R349, R351, R353, R357, R517: a connector's presence change has the chains of its pairs read again; a check that passes opens
the easel, one that fails refuses the pair with its cause; an open easel trains, a measured link is UP and sends DISCOVER both ways; a port that leaves
UP is dark, its pair trains and its streams are lost; the third link fault within 60 s stops the pair; a REFUSED pair retries. -/
def Obligations.PairsComeUpAndGoDown : Prop :=
  (∀ (j : Nat) (s : State), j < 8 → s.power.d1 = true →
    ∃ t, exec (.connectorPresenceChange j) s = .next t ∧ t = { s with ring := { s.ring with pairs := t.ring.pairs } } ∧
      (∀ p, pairOf t p = if p / 4 = j / 2 ∧ p < portPairs s then chainsReadAgain (pairOf s p) else pairOf s p)) ∧
  (∀ (p : Nat) (s : State), p < 16 →
    ((pairOf s p).state = .refused → (pairOf s p).easel = .closed →
      ∃ t, exec (.identityRetry p) s = .next t ∧ t = { s with ring := t.ring } ∧ PairBecomes p { pairOf s p with state := .identifying } s t) ∧
    (∀ dn up : List IdRecord, p < portPairs s → starting s = false → (pairOf s p).state = .identifying →
      (checkCause s p dn up = 0 → ∃ t, exec (.identityCheckComplete p dn up) s = .next t ∧ t = { s with ring := t.ring } ∧
        PairBecomes p { pairOf s p with easel := .opening, state := .training, refuse := 0 } s t) ∧
      (checkCause s p dn up ≠ 0 → (pairOf s p).enabling = [] → ∃ t, exec (.identityCheckComplete p dn up) s = .next t ∧ t = { s with ring := t.ring } ∧
        PairBecomes p { pairOf s p with state := .refused, refuse := checkCause s p dn up } s t) ∧
      (easelAllowed s p = false → chainCause s true dn = 0 → chainCause s false up = 0 → checkCause s p dn up = 6)) ∧
    ((pairOf s p).easel = .opening → ∃ t, exec (.easelOpen p) s = .next t ∧ t = { s with ring := t.ring } ∧
      PairBecomes p { pairOf s p with easel := .opened } s t) ∧
    ((pairOf s p).easel = .closing → (pairOf s p).draining = none → (pairOf s p).enabling = [] →
      ∃ t, exec (.easelClosed p) s = .next t ∧ t = { s with ring := t.ring } ∧
        PairBecomes p { pairOf s p with
          easel := .closed, drained := false, recheck := false
          state := if (pairOf s p).recheck = true ∧ (pairOf s p).state ≠ .fault then .identifying else (pairOf s p).state } s t) ∧
    (∀ hopDn hopUp : Nat, (pairOf s p).state = .training → (pairOf s p).easel = .opened → (pairOf s p).dn.dark = false → (pairOf s p).up.dark = false →
      (pairOf s p).enabling = [] → (pairOf s p).draining = none →
      ∃ t a b, exec (.linkUp p hopDn hopUp) s = .next t ∧ OnlyPairChanges p s t ∧
        (pairOf t p).state = .up ∧ (pairOf t p).hopDn = hopDn ∧ (pairOf t p).hopUp = hopUp ∧ (pairOf t p).memberList = false ∧
        (pairOf t p).dn.up = true ∧ (pairOf t p).up.up = true ∧ (pairOf t p).easel = .opened ∧ t.ring.out = s.ring.out ++ [a, b] ∧
        (∀ m ∈ [a, b], m.pair = p ∧ m.typ = 3 ∧ m.kind = 5 ∧ m.body = leBytes 8 s.uid.toNat ++ leBytes 1 (pairOf s p).masterPri) ∧
        a.dn = true ∧ b.dn = false ∧
        ((pairOf s p).dn.up = false → (pairOf s p).up.up = false → ∃ f g, PortSends (2 * p) [f] s t ∧ PortSends (2 * p + 1) [g] s t ∧
          f.typ = 3 ∧ g.typ = 3 ∧ f.first = true ∧ f.last = true)) ∧
    (∀ ms : Nat, (pairOf s p).dn.up = true ∨ (pairOf s p).up.up = true →
      ((recentFaults (pairOf s p) ms).length < 3 → ∃ t, exec (.linkFault p ms) s = .next t ∧
        t = { s with ring := t.ring, ctxs := t.ctxs, logs := t.logs } ∧ (∀ q, q ≠ p → pairOf t q = pairOf s q) ∧
        (pairOf t p).linkFaults = stick32 ((pairOf s p).linkFaults + 1) ∧ (pairOf t p).state = .training ∧ (pairOf t p).dn.up = false ∧
        (pairOf t p).up.up = false ∧ (pairOf t p).easel = (pairOf s p).easel ∧ EventLogged 10 s t) ∧
      (3 ≤ (recentFaults (pairOf s p) ms).length → s.red.tags = [] → ∃ t, exec (.linkFault p ms) s = .next t ∧ (pairOf t p).state = .fault ∧
        (pairOf t p).easel ≠ .opened ∧ (pairOf t p).easel ≠ .opening ∧ (pairOf t p).dn.up = false ∧ (pairOf t p).up.up = false ∧
        (pairOf t p).members = [] ∧ EventLogged 10 s t))) ∧
  (∀ (n : Nat) (s : State), n < 32 → (portOf s n).up = true →
    ∃ t, exec (.linkLeavesUp n) s = .next t ∧ t = { s with ring := t.ring, ctxs := t.ctxs } ∧ (∀ q, q ≠ portPair n → pairOf t q = pairOf s q) ∧
      (portOf t n).up = false ∧ (portOf t n).dark = true ∧ (pairOf t (portPair n)).state = .training ∧ (pairOf t (portPair n)).reading = true ∧
      (pairOf t (portPair n)).closed = false ∧ (pairOf t (portPair n)).memberList = false ∧ (pairOf t (portPair n)).easel = (pairOf s (portPair n)).easel ∧
      (pairOf t (portPair n)).members = (pairOf s (portPair n)).members ∧
      (∀ c, ctxOf t c = { ctxOf s c with linked := (ctxOf t c).linked, joined := (ctxOf t c).joined } ∧
        (∀ i, (i ∈ (ctxOf t c).linked ↔ i ∈ (ctxOf s c).linked ∧ ∀ e, streamEntryAt s c i = some e → e.ring ≠ portPair n) ∧
          (i ∈ (ctxOf t c).joined ↔ i ∈ (ctxOf s c).joined ∧ ∀ e, streamEntryAt s c i = some e → e.ring ≠ portPair n))))

/-- R345, R354, R355, R356, R357, R353, R360, R43: a sound numbered flit in order is acknowledged, and goes on by the other port where its message is
for another member; a bad one, or one out of order, is dropped, counted and refused once; a NAK has every flit after ACK sent again, the third
time as a link fault; a DISCOVER goes on, and an unknown member opens a discovery; a discovery leaves the members from the lowest UID on, this module's
position, and the master of highest priority, the lowest UID among equals. -/
def Obligations.FlitsAndDiscovery : Prop :=
  (∀ (n symbols ms : Nat) (image : List Byte) (f : Flit) (s : State), n < 32 → (portOf s n).up = true → symbols ≤ 15 → flitSound image = true →
    flitOf image = f → unnumbered f = false → f.nak = false → f.seq.toNat = ((portOf s n).rxSeq + 1) % 256 →
    (flitDest (pairOf s (portPair n)).position (portOf s n) f = (pairOf s (portPair n)).position →
      ∃ t l g, exec (.flitReceived n ⟨image, symbols, ms⟩) s = .next t ∧ OnlyPairChanges (portPair n) s t ∧ (portOf t n).rxSeq = f.seq.toNat ∧
        (portOf t n).nakOut = false ∧ PortSends n (l ++ [g]) s t ∧ g.typ = 0 ∧ g.ack = f.seq ∧
        (pairOf t (portPair n)).fecSymbols = stick32 ((pairOf s (portPair n)).fecSymbols + symbols)) ∧
    (flitDest (pairOf s (portPair n)).position (portOf s n) f ≠ (pairOf s (portPair n)).position → (portOf s (farPort n)).up = true →
      (pairOf s (portPair n)).draining = none → (portOf s (farPort n)).wait = [] → (portOf s (farPort n)).later = [] →
      (portOf s (farPort n)).credits.getD f.vc 0 ≠ 0 → (portOf s (farPort n)).replay.length < 64 →
      ∃ t l g, exec (.flitReceived n ⟨image, symbols, ms⟩) s = .next t ∧ OnlyPairChanges (portPair n) s t ∧ (portOf t n).rxSeq = f.seq.toNat ∧
        PortSends (farPort n) (l ++ [g]) s t ∧ g.typ = f.typ ∧ g.vc = f.vc ∧ g.poison = f.poison ∧ g.first = f.first ∧ g.last = f.last ∧
        g.payload = f.payload ∧ g.seq = BitVec.ofNat 8 (portOf s (farPort n)).txSeq ∧
        (portOf t (farPort n)).txSeq = ((portOf s (farPort n)).txSeq + 1) % 256)) ∧
  (∀ (n symbols ms : Nat) (image : List Byte) (s : State), n < 32 → (portOf s n).up = true →
    (15 < symbols ∨ flitSound image = false ∨ (unnumbered (flitOf image) = false ∧ (flitOf image).seq.toNat ≠ ((portOf s n).rxSeq + 1) % 256)) →
    ∃ t l, exec (.flitReceived n ⟨image, symbols, ms⟩) s = .next t ∧ OnlyPairChanges (portPair n) s t ∧
      (pairOf t (portPair n)).crcErrors = stick32 ((pairOf s (portPair n)).crcErrors + 1) ∧ (portOf t n).rxSeq = (portOf s n).rxSeq ∧
      (portOf t n).nakOut = true ∧ PortSends n l s t ∧ (∀ m, m ≠ n → portOf t m = portOf s m) ∧
      (if (portOf s n).nakOut then l = []
       else ∃ g k, l = g :: k ∧ g.typ = 0 ∧ g.nak = true ∧ g.ack = BitVec.ofNat 8 (portOf s n).rxSeq ∧ ∀ h ∈ k, h.nak = false)) ∧
  (∀ (n ms : Nat) (ack : Byte) (s : State), n < 32 → (portOf s n).up = true →
    (∀ a b f, (portOf s n).replay = a ++ f :: b → f.seq = ack → (∀ g ∈ a, g.seq ≠ ack) → b ≠ [] →
      ∃ t, exec (.nakReceived n ⟨ack, ms⟩) s = .next t ∧ OnlyPairChanges (portPair n) s t ∧
        PortSends n (b.map (fun f => { f with ack := BitVec.ofNat 8 (portOf s n).rxSeq })) s t ∧ (portOf t n).replay = b ∧
        (∀ m, m ≠ n → portOf t m = portOf s m) ∧ (pairOf t (portPair n)).resends = stick32 ((pairOf s (portPair n)).resends + 1)) ∧
    ((∀ g ∈ (portOf s n).replay, g.seq ≠ ack) → (portOf s n).replay ≠ [] → 2 ≤ (portOf s n).resends →
      ∃ t, exec (.nakReceived n ⟨ack, ms⟩) s = .next t ∧ (pairOf t (portPair n)).linkFaults = stick32 ((pairOf s (portPair n)).linkFaults + 1) ∧
        (portOf t n).up = false ∧ EventLogged 10 s t)) ∧
  (∀ (n pri : Nat) (uid : Word64) (s : State), n < 32 →
    (uid = s.uid → exec (.discover n uid pri) s = .next s) ∧
    (uid ≠ s.uid → (portOf s n).up = true → (portOf s (farPort n)).up = true → (pairOf s (portPair n)).draining = none →
      ((pairOf s (portPair n)).memberList = false ∨ (uid, pri) ∈ (pairOf s (portPair n)).members →
        ∃ t m, exec (.discover n uid pri) s = .next t ∧ OnlyPairChanges (portPair n) s t ∧ t.ring.out = s.ring.out ++ [m] ∧ m.pair = portPair n ∧
          m.kind = 5 ∧ m.dn = decide (n % 2 = 1) ∧ m.body = leBytes 8 uid.toNat ++ leBytes 1 pri ∧
          (pairOf t (portPair n)).memberList = (pairOf s (portPair n)).memberList) ∧
      ((pairOf s (portPair n)).memberList = true → (uid, pri) ∉ (pairOf s (portPair n)).members →
        ∃ t m a b, exec (.discover n uid pri) s = .next t ∧ OnlyPairChanges (portPair n) s t ∧ t.ring.out = s.ring.out ++ [m, a, b] ∧
          m.body = leBytes 8 uid.toNat ++ leBytes 1 pri ∧ a.dn = true ∧ b.dn = false ∧
          (∀ x ∈ [a, b], x.kind = 5 ∧ x.pair = portPair n ∧ x.body = leBytes 8 s.uid.toNat ++ leBytes 1 (pairOf s (portPair n)).masterPri) ∧
          (pairOf t (portPair n)).memberList = false))) ∧
  (∀ (p : Nat) (members : List (Word64 × Nat)) (closed : Bool) (s : State), p < 16 → (pairOf s p).dn.up = true ∨ (pairOf s p).up.up = true →
    (∃ m ∈ members, m.1 = s.uid) → s.red.tags = [] →
    ∃ t, exec (.discoveryComplete p members closed) s = .next t ∧
      t = { s with ring := { s.ring with pairs := t.ring.pairs }, ctxs := t.ctxs, frame := t.frame } ∧
      (∀ q, q ≠ p → pairOf t q = pairOf s q) ∧ (pairOf t p).memberList = true ∧ (pairOf t p).closed = closed ∧
      (pairOf t p).line = (if closed then [] else members.map (·.1)) ∧
      (pairOf t p).oversize = decide (32 < members.length) ∧
      (∃ a h b, members = a ++ h :: b ∧ (pairOf t p).members = h :: b ++ a ∧ ∀ x ∈ members, h.1.toNat ≤ x.1.toNat) ∧
      ((pairOf t p).members[(pairOf t p).position]?).map (fun m => m.1) = some s.uid ∧
      ((∀ x ∈ members, x.2 = 0) → (pairOf t p).masterUid = 0) ∧
      (∀ x ∈ members, x.2 ≠ 0 → ∃ m ∈ members, (pairOf t p).masterUid = m.1 ∧ m.2 ≠ 0 ∧ (x.2 < m.2 ∨ (x.2 = m.2 ∧ m.1.toNat ≤ x.1.toNat))) ∧
      (∀ q, q < 16 → t.frame.masterRings.getLsbD q = if q = p then decide ((pairOf t p).masterUid = s.uid) else s.frame.masterRings.getLsbD q) ∧
      t.frame.counter = s.frame.counter)

/-- R44, R45, R46, R39, R40, R358, R359: a tick of the ring that the module is to follow goes on by the other port where that is up, and locks the
module, or slews it when it is READY and more than 2 µs off; it takes the counter only before it was first READY; the period is the one its marker
gives, NEXT that of the frame after; its own tick is dropped; a source that is lost leaves the counter and the period. -/
def Obligations.TicksLockTheModule : Prop :=
  (∀ (pair : Nat) (p : TickPayload) (s : State), pair < 16 →
    (p.masterUid = s.uid → exec (.tickReceived pair p) s = .next s) ∧
    (p.masterUid ≠ s.uid → (portOf s (if p.viaDn then 2 * pair else 2 * pair + 1)).up = true → s.frame.sourceNext = some pair → s.frame.lastTick = none →
      s.frame.sourceValid = false →
      ∃ t n, exec (.tickReceived pair p) s = .next t ∧ n = (if s.frame.wasReady = false ∧ s.frame.everLocked = false then p.frame else s.frame.counter) ∧
        t = { s with frame := t.frame, ring := { s.ring with pairs := t.ring.pairs }, nonce := s.nonce + 1 } ∧
        ((portOf s (if p.viaDn then 2 * pair + 1 else 2 * pair)).up = true → ∃ g acc, PortSends (if p.viaDn then 2 * pair + 1 else 2 * pair) [g] s t ∧
          g.typ = 2 ∧ p.accDelayNs ≤ acc ∧ g.payload = tickBytes p.frame.toNat p.periodUs p.nextUs p.ring (p.hops + 1) p.masterUid acc) ∧
        ((portOf s (if p.viaDn then 2 * pair + 1 else 2 * pair)).up = false → ∀ m, portOf t m = portOf s m) ∧
        t.frame = { s.frame with
          counter := n, sourceOff := n - p.frame, sourceRing := pair, sourceValid := true, sourceNext := none, everLocked := true, missed := 0
          effPeriod := p.periodUs, announced := p.nextUs, known := [(n.toNat + 1, p.nextUs)], lastTick := some (p.frame, p.hops, p.viaDn)
          lockErr := t.frame.lockErr, locked := t.frame.locked, slewing := t.frame.slewing, slewAny := t.frame.slewAny, lockedAll := t.frame.lockedAll } ∧
        (-32767 ≤ p.errNs → p.errNs ≤ 32767 → t.frame.lockErr.toInt = p.errNs) ∧
        (s.frame.wasReady = true → t.frame.locked = decide (p.errNs.natAbs ≤ 2000) ∧ t.frame.slewing = !decide (p.errNs.natAbs ≤ 2000)) ∧
        (s.frame.wasReady = false → t.frame.locked = true ∧ t.frame.slewing = false))) ∧
  (∀ s : State,
    (s.frame.sourceValid = false → exec .tickLoss s = .next s) ∧
    (s.frame.sourceValid = true → ∃ t, exec .tickLoss s = .next t ∧ t = { s with frame := t.frame } ∧ t.frame.locked = false ∧
      t.frame.slewing = false ∧ t.frame.sourceValid = false ∧ t.frame.missed = 3 ∧ t.frame.counter = s.frame.counter ∧
      t.frame.effPeriod = s.frame.effPeriod ∧ t.frame.period = s.frame.period))

/-- R365, R366, R349, R348: PORT_CONTROL disable turns new transfers away while it drains; the drain's end closes the easel, whose closing completes the
command; a pair whose easel is closed is DOWN at once, a FAULT pair stays FAULT until it is enabled; enable starts the identity checks, or completes where
the pair is UP; the RING feature sets MASTER_PRI and enables or disables the pair as PORT_CONTROL does. -/
def Obligations.PortControl : Prop :=
  (∀ (tag p : Nat) (c : Cmd) (s : State), AtUnit s 0x0A tag c → tag ≠ 0 → pktField c.pkt 9 1 = 0 → p = pairOfCmd c → (pairOf s p).draining = none →
    s.ring.imports = [] →
    ((pairOf s p).easel ≠ .closed → ∃ t, exec (.portControlDisable tag) s = .next t ∧ StaysRunning c 0 s t ∧
      t = { s with host := t.host, ring := t.ring, inFlight := t.inFlight } ∧
      PairBecomes p { pairOf s p with enable := false, draining := some tag, drained := false } s t) ∧
    ((pairOf s p).easel = .closed → (pairOf s p).enabling = [] → ∃ t, exec (.portControlDisable tag) s = .next t ∧
      CommandCompletes c (stSuccess 0 0 0) s t ∧ t = { s with host := t.host, ring := t.ring, inFlight := t.inFlight } ∧
      PairBecomes p { pairOf s p with
        enable := false, refuse := 0, reading := false, recheck := false
        state := if (pairOf s p).state = .fault then .fault else .down } s t)) ∧
  (∀ (p tag : Nat) (s : State), p < 16 → (pairOf s p).draining = some tag → (pairOf s p).drained = false → s.red.tags = [] →
    ∃ t, exec (.portDrainEnd p) s = .next t ∧ t.host = s.host ∧ t.objs = s.objs ∧ (pairOf t p).drained = true ∧ (pairOf t p).draining = some tag ∧
      (pairOf t p).state = (if (pairOf s p).state = .fault then .fault else .down) ∧ (pairOf t p).dn.up = false ∧ (pairOf t p).up.up = false ∧
      (pairOf t p).easel = (if (pairOf s p).easel = .closed then .closed else .closing)) ∧
  (∀ (p tag : Nat) (c : Cmd) (s : State), p < 16 → (pairOf s p).easel = .closing → (pairOf s p).draining = some tag →
    (pairOf s p).enabling = [] → tag ≠ 0 → cmdOf s tag = some c →
    ∃ t, exec (.easelClosed p) s = .next t ∧ CommandCompletes c (stSuccess (pairStateCode (closedState (pairOf s p))) 0 0) s t ∧
      PairBecomes p { pairOf s p with easel := .closed, draining := none, drained := false, recheck := false, state := closedState (pairOf s p) } s t ∧
      ((pairOf s p).drained = true → t = { s with host := t.host, ring := t.ring })) ∧
  (∀ (tag p : Nat) (c : Cmd) (s : State), AtUnit s 0x0A tag c → tag ≠ 0 → pktField c.pkt 9 1 = 1 → p = pairOfCmd c → (pairOf s p).draining = none →
    (((pairOf s p).state = .down ∨ (pairOf s p).state = .refused ∨ (pairOf s p).state = .fault) →
      ∃ t, exec (.portControlEnable tag) s = .next t ∧ StaysRunning c 0 s t ∧ t = { s with host := t.host, ring := t.ring } ∧
        PairBecomes p { pairOf s p with
          enable := true, state := .identifying, enabling := (pairOf s p).enabling ++ [tag]
          faultMs := if (pairOf s p).state = .fault then [] else (pairOf s p).faultMs } s t) ∧
    ((pairOf s p).state = .up → (pairOf s p).enabling = [] →
      ∃ t, exec (.portControlEnable tag) s = .next t ∧ CommandCompletes c (stSuccess 3 0 0) s t ∧ t = { s with host := t.host, ring := t.ring } ∧
        PairBecomes p { pairOf s p with enable := true } s t)) ∧
  (∀ (tag p : Nat) (c : Cmd) (s : State), AtUnit s 0x03 tag c → pktField c.pkt 8 1 = 0x14 → p = pktField c.pkt 10 2 → (pairOf s p).draining = none →
    (pairOf s p).enabling = [] →
    (bitOf (featDw c.pkt 0) 0 = true →
      ∃ t, exec (.setFeatureRing tag) s = .next t ∧ CommandCompletes c (stSuccess 0 0 0) s t ∧ t = { s with host := t.host, ring := t.ring } ∧
        PairBecomes p { pairOf s p with
          enable := true, masterPri := bitsOf (featDw c.pkt 0) 5 2
          state := if (pairOf s p).state = .down ∨ (pairOf s p).state = .refused ∨ (pairOf s p).state = .fault then .identifying else (pairOf s p).state
          faultMs := if (pairOf s p).state = .fault then [] else (pairOf s p).faultMs } s t) ∧
    (bitOf (featDw c.pkt 0) 0 = false → s.ring.imports = [] → (pairOf s p).easel ≠ .closed →
      ∃ t, exec (.setFeatureRing tag) s = .next t ∧ CommandCompletes c (stSuccess 0 0 0) s t ∧
        t = { s with host := t.host, ring := t.ring, inFlight := t.inFlight } ∧
        PairBecomes p { pairOf s p with
          enable := false, masterPri := bitsOf (featDw c.pkt 0) 5 2, draining := some 0, drained := false } s t))

/-- R361, R362, R363, R124, R364, R488: a SEND stream is joined to its peer's window, a RECEIVE stream answers the peer that its entry names and refuses
any other; stream data from that peer lands in the landing object, and the last of it gives the context input and sends the completion back; the
completion ends the sender's ticket DONE, 500 µs without it CANCELLED; an import request is answered from the T2 copy, or with an error; its data lands
in the importer's copy; an unanswered request is sent again, and after the third time the other way round. -/
def Obligations.StreamsAndImports : Prop :=
  (∀ (pair n i : Nat) (src : Word64) (s : State), pair < 16 → (pairOf s pair).dn.up = true ∨ (pairOf s pair).up.up = true →
    (∀ w e, streamEntryAt s n i = some e → e.receive = false → e.ring = pair → e.peerUid = src → peerKnown s e = true →
      ∃ t, exec (.streamConnect pair src (.accept n i w)) s = .next t ∧ t = { s with ctxs := t.ctxs } ∧ (∀ m, m ≠ n → ctxOf t m = ctxOf s m) ∧
        ctxOf t n = { ctxOf s n with linked := (ctxOf t n).linked, windows := (ctxOf t n).windows } ∧
        (∀ j, j ∈ (ctxOf t n).linked ↔ j = i ∨ j ∈ (ctxOf s n).linked) ∧
        (∀ j, mapGet 0 (ctxOf t n).windows j = if j = i then w else mapGet 0 (ctxOf s n).windows j)) ∧
    (∀ fc fs dn, WayTo s pair src dn →
      (∀ e, receives s pair src fc fs n i = some e → ∃ t m, exec (.streamConnect pair src (.ask fc fs n i)) s = .next t ∧
        t = { s with ctxs := t.ctxs, ring := t.ring } ∧ (∀ j, j ∈ (ctxOf t n).joined ↔ j = i ∨ j ∈ (ctxOf s n).joined) ∧
        t.ring.out = s.ring.out ++ [m] ∧ m.pair = pair ∧ m.dn = dn ∧ m.typ = 3 ∧ m.body = connectBytes (.accept fc fs e.window)) ∧
      (receives s pair src fc fs n i = none → ∃ t m, exec (.streamConnect pair src (.ask fc fs n i)) s = .next t ∧ t = { s with ring := t.ring } ∧
        t.ring.out = s.ring.out ++ [m] ∧ m.pair = pair ∧ m.dn = dn ∧ m.typ = 3 ∧ m.body = connectBytes (.refuse fc fs))) ∧
    (∀ e, streamEntryAt s n i = some e → e.ring = pair → e.peerUid = src → ∃ t, exec (.streamConnect pair src (.broken n i)) s = .next t ∧
      t = { s with ctxs := t.ctxs } ∧ i ∉ (ctxOf t n).linked ∧ i ∉ (ctxOf t n).joined ∧ (∀ m, m ≠ n → ctxOf t m = ctxOf s m))) ∧
  (∀ (n i off id : Nat) (data : List Byte) (mark : Mask) (seed : Word64) (e : StreamEntry) (o : Obj) (m : T2Copy) (s : State), 1 ≤ n → n ≤ 255 →
    streamEntryAt s n i = some e → e.receive = true → i ∈ (ctxOf s n).joined → peerKnown s e = true → landingObj s n e = some id → landingOk s n e = true →
    inS2 s = false → off % 64 = 0 → data.length % 64 = 0 → off + data.length ≤ e.window → objOf s id = some o → o.copy = some m → off + data.length ≤ o.size →
    (∃ t x, exec (.streamDataReceived n i off ⟨e.peerUid, data⟩ false false mark seed) s = .next t ∧ t = { s with objs := t.objs, ctxs := t.ctxs } ∧
      objOf t id = some { o with copy := some { m with data := x, dirty := m.dirty || decide (o.kind ≠ .scratch) } } ∧
      BytesWritten m.data x off data ∧ (∀ j, j ≠ id → objOf t j = objOf s j) ∧ (∀ c, c ≠ n → ctxOf t c = ctxOf s c) ∧
      ctxOf t n = { ctxOf s n with streamPart := (ctxOf t n).streamPart } ∧
      mapGet 0 (ctxOf t n).streamPart i = mapGet 0 (ctxOf s n).streamPart i + data.length) ∧
    (∀ u, u ≠ e.peerUid → exec (.streamDataReceived n i off ⟨u, data⟩ false false mark seed) s = .next s) ∧
    (∀ dn, WayTo s e.ring e.peerUid dn →
      ∃ t x y r, exec (.streamDataReceived n i off ⟨e.peerUid, data⟩ false true mark seed) s = .next t ∧
        objOf t id = some { o with copy := some { m with data := x, dirty := m.dirty || decide (o.kind ≠ .scratch) } } ∧
        BytesWritten m.data x off data ∧ (ctxOf t n).streamIn = some y ∧
        ((ctxOf s n).streamIn = none → y = { streams := 2 ^ i, bytes := mapGet 0 (ctxOf s n).streamPart i + data.length, mark := mark, seed := seed
                                             frame := s.frame.counter.toNat }) ∧
        ((ctxOf s n).state = .blocked → (ctxOf t n).state = .runnable) ∧ t.ring.out = s.ring.out ++ [r] ∧ r.pair = e.ring ∧ r.dn = dn ∧
        r.kind = 1 ∧ r.dest = posOf s e.ring e.peerUid ∧ r.index = e.peerStream ∧ r.body = leBytes 32 mark.toNat ++ leBytes 8 seed.toNat)) ∧
  (∀ (c : CoreRef) (tk : BitVec 2) (d : Desc) (s : State), wfCore c = true → (ticketOf (coreOf s c) tk).out = some d → dDstKind d = 3 → inS2 s = false →
    (∃ t, exec (.streamCompletionReceived c tk) s = .next t ∧ OnlyCoreChanges c s t ∧
      coreOf t c = { coreOf s c with tickets := (coreOf t c).tickets } ∧
      (∀ k, ticketOf (coreOf t c) k = if k = tk then { result := 0 } else ticketOf (coreOf s c) k)) ∧
    (∃ t, exec (.streamTimeout c tk) s = .next t ∧ t = { s with ctxs := t.ctxs, logs := t.logs } ∧
      coreOf t c = { coreOf s c with tickets := (coreOf t c).tickets } ∧ EventLogged 10 s t ∧
      (∀ k, ticketOf (coreOf t c) k = if k = tk then { result := 2 } else ticketOf (coreOf s c) k))) ∧
  (∀ (port src n name g req : Nat) (s : State), port < 32 → (portOf s port).up = true →
    (inS2 s = true → ∃ t, exec (.importRequestReceived port n name g ⟨src, req⟩) s = .next t ∧ t = { s with power := { s.power with waking := true } }) ∧
    (s.host.devState = .ready → (pairOf s (portPair port)).draining = none → (pairOf s (portPair port)).oversize = false →
      (objOf s (objId n name) = none → ∃ t m, exec (.importRequestReceived port n name g ⟨src, req⟩) s = .next t ∧ OnlyPairChanges (portPair port) s t ∧
        t.ring.out = s.ring.out ++ [m] ∧ m.pair = portPair port ∧ m.dn = decide (port % 2 = 0) ∧ m.dest = src ∧ m.kind = 3 ∧ m.index = req % 256 ∧ m.body = []) ∧
      (∀ o k, objOf s (objId n name) = some o → o.exported = true → o.kind = .persistent → g < granules o → o.copy = some k → g ∉ k.missing →
        k.data.poison = [] → ∃ t m, exec (.importRequestReceived port n name g ⟨src, req⟩) s = .next t ∧ OnlyPairChanges (portPair port) s t ∧
          t.ring.out = s.ring.out ++ [m] ∧ m.dest = src ∧ m.kind = 3 ∧ m.index = req % 256 ∧ m.poison = false ∧
          m.body = storeRead k.data (g * 65536) (min 65536 (o.size - g * 65536))))) ∧
  (∀ (id g : Nat) (data : List Byte) (i : ImportReq) (o : Obj) (m : T2Copy) (s : State), inS2 s = false →
    s.ring.imports.filter (fun i => i.obj = id && i.granule = g) = [i] → i.tag = 0 → objOf s id = some o → o.fillTags = [] → o.copy = some m →
    g ∈ m.missing → data.length = 65536 →
    ∃ t k, exec (.importDataReceived id g data false false) s = .next t ∧ objOf t id = some { o with copy := some k } ∧
      k.missing = setDel g m.missing ∧ k.dirty = m.dirty ∧ BytesWritten m.data k.data (g * 65536) data ∧
      (∀ r ∈ t.ring.imports, ¬(r.obj = id ∧ r.granule = g)) ∧ t.host = s.host ∧ (∀ j, j ≠ id → objOf t j = objOf s j)) ∧
  (∀ (id g : Nat) (i : ImportReq) (o : Obj) (s : State), importOf s id g = some i → objOf s id = some o → (pairOf s o.ring).draining = none →
    (0 < i.sent → i.sent < 3 → (portOf s (sidePort o.ring i.dn)).up = true →
      ∃ t, exec (.importTimeout id g) s = .next t ∧ t = { s with ring := t.ring } ∧ t.ring.out = s.ring.out ++ [importMsg s o g i.dn] ∧
        importOf t id g = some { i with sent := i.sent + 1 } ∧ t.ring.imports.length = s.ring.imports.length) ∧
    (i.sent = 3 → i.otherWay < 3 → reaches s o.ring (!i.dn) o.peerUid = true →
      ∃ t, exec (.importTimeout id g) s = .next t ∧ t = { s with ring := t.ring } ∧ t.ring.out = s.ring.out ++ [importMsg s o g (!i.dn)] ∧
        importOf t id g = some { i with otherWay := i.otherWay + 1 }))

/-! ### Reduction engine -/

/-- R370, R387, R388: a sound RED_OPEN opens every bucket of its list and completes; without the engine, or at a wrong generation, it opens none;
RED_CLOSE frees the context's tags of its range, with LASTGEN their generation, a bucket still open after it has failed; RED_STATUS answers with one
record of 32 bytes per tag. -/
def Obligations.ReductionBuckets : Prop :=
  (∀ (tag n : Nat) (c : Cmd) (b : List Byte) (es : List (List Byte)) (s : State), AtUnit s 0x70 tag c → redBehind s c = false → n = pktCtx c.pkt → ctxDefined s n = true →
    b = cmdData c → es = (List.range (min (byteField b 0 2) 4096)).map (bucketEntry b) → 320 + 32 * byteField b 0 2 ≤ pktBufLen c.pkt →
    firstErr (listErrs s n b ++ pieceErrs 320 32 (fun _ e => entryErrs s n (es.map entryTag) e) es) = none →
    (s.red.available = false → ∃ t, exec (.redOpen tag) s = .next t ∧ OnlyHostChanges s t ∧ CommandCompletes c stUnitUnavailable s t) ∧
    (∀ e, s.red.available = true → es.find? (genBad s) = some e → ∃ t, exec (.redOpen tag) s = .next t ∧ OnlyHostChanges s t ∧
      CommandCompletes c (stTagGeneration (entryTag e)) s t) ∧
    (s.red.available = true → (∀ e ∈ es, genBad s e = false) → (es.map entryTag).Nodup →
      ∃ t, exec (.redOpen tag) s = .next t ∧ CommandCompletes c (stSuccess 0 0 0) s t ∧ t = { s with host := t.host, red := t.red, objs := t.objs } ∧
        (∀ u, u ∉ es.map entryTag → tagOf t u = tagOf s u) ∧
        (∀ e ∈ es, tagOf t (entryTag e) =
          { state := .open_, gen := entryGen e, lastGen := (tagOf s (entryTag e)).lastGen, rejected := (tagOf s (entryTag e)).rejected, ctx := n
            fmt := byteField e 2 1, pal := byteField e 3 1, nelem := byteField e 4 4, k := byteField e 8 2, noresid := bitOf (byteField e 10 1) 0
            sum := byteField e 16 8, resid := byteField e 24 8, ring := byteField b 2 1, parts := listParts b, step := byteField b 4 4
            pcrc := BitVec.ofNat 32 (crc32c ((b.drop 64).take (8 * byteField b 3 1))) }) ∧
        (∀ e ∈ es, ∀ o, objOf s (byteField e 16 8) = some o → ∃ p, objOf t (byteField e 16 8) = some p ∧ entryTag e ∈ p.redTags ∧ p.copy = o.copy))) ∧
  (∀ (tag : Nat) (c : Cmd) (s : State), AtUnit s 0x71 tag c → redBehind s c = false → ctxDefined s (pktCtx c.pkt) = true →
    ((∀ u ∈ tagRange c, isOpenTag (tagOf s u) = false) → ∃ t, exec (.redClose tag) s = .next t ∧ CommandCompletes c (stSuccess 0 0 0) s t ∧
      t.flash = s.flash ∧
      (∀ u, tagOf t u = if pktField c.pkt 8 2 ≤ u ∧ u < pktField c.pkt 8 2 + pktField c.pkt 10 2 ∧ (tagOf s u).ctx = pktCtx c.pkt ∧ (tagOf s u).state ≠ .free then
        { lastGen := some (tagOf s u).gen, rejected := (tagOf s u).rejected } else tagOf s u)) ∧
    (∀ u, tagRange c = [u] → isOpenTag (tagOf s u) = true → (tagOf s u).ctx = pktCtx c.pkt → (ctxOf s (pktCtx c.pkt)).steps = [] →
      ∃ t, exec (.redClose tag) s = .next t ∧ CommandCompletes c (stSuccess 0 0 0) s t ∧
        TagBecomes u { lastGen := some (tagOf s u).gen, rejected := (tagOf s u).rejected } s t ∧ EventLogged 11 s t)) ∧
  (∀ (tag : Nat) (c : Cmd) (s : State), AtUnit s 0x72 tag c → redBehind s c = false → ctxDefined s (pktCtx c.pkt) = true →
    ∃ t bs, exec (.redStatus tag) s = .next t ∧ OnlyHostChanges s t ∧ RepliesWith c 0 bs (stSuccess 0 0 0) s t ∧
      bs.length = 32 * pktField c.pkt 10 2 ∧
      (∀ i, i < pktField c.pkt 10 2 → byteField bs (32 * i + 2) 1 =
        (if (tagOf s (pktField c.pkt 8 2 + i)).state ≠ .free ∧ (tagOf s (pktField c.pkt 8 2 + i)).ctx ≠ pktCtx c.pkt then 5
         else tagStateCode (tagOf s (pktField c.pkt 8 2 + i)).state)))

/-- R371, R373, R374, R375, R377, R378, R379, R382, R383, R389: the last READY arms a bucket, one of another generation fails it; a contribution starts
its chunk from zero at the owner and its sums are rounded in binary32; a RESULT writes the whole chunk and the last one ends the bucket; a message of another
generation is counted and answered; ABANDON fails a bucket; a thinned chunk goes to its owner; a passed deadline voids the step, a reduced and halted one
commits and flips the parity and its residuals. -/
def Obligations.ReductionTrafficAndSteps : Prop :=
  (∀ (pair tg gen : Nat) (src : Word64) (pcrc : Word32) (k : RedTag) (s : State), pair < 16 → tg < 4096 → inS2 s = false → tagOf s tg = k →
    isOpenTag k = true → src ≠ s.uid →
    (src ∈ k.parts → k.gen = gen → k.pcrc = pcrc → ∃ t, exec (.ready pair src tg gen pcrc) s = .next t ∧ t = { s with red := t.red } ∧
      TagBecomes tg { k with
        ready := setAdd (k.parts.idxOf src) k.ready
        state := if (setAdd (k.parts.idxOf src) k.ready).length + 1 = k.parts.length then .armed else k.state } s t) ∧
    ((ctxOf s k.ctx).steps = [] → k.gen ≠ gen ∨ k.pcrc ≠ pcrc → ∃ t, exec (.ready pair src tg gen pcrc) s = .next t ∧ t.host = s.host ∧
      TagBecomes tg { k with state := .failed, cause := if k.gen = gen then 3 else 2 } s t ∧ EventLogged 11 s t)) ∧
  (∀ (pair tg gen c : Nat) (src : Word64) (entries : List (Nat × BitVec 16)) (k : RedTag) (s : State), pair < 16 → tg < 4096 → inS2 s = false →
    tagOf s tg = k →
    (armedFor k gen = false → ∃ t, exec (.contrib pair src tg gen c entries false) s = .next t ∧
      t = { s with red := t.red, ring := t.ring } ∧ TagBecomes tg { k with rejected := stick32 (k.rejected + 1) } s t ∧
      (∀ dn, WayTo s pair src dn → ∃ m, t.ring.out = s.ring.out ++ [m] ∧ m.pair = pair ∧ m.dn = dn ∧ m.dest = posOf s pair src ∧ m.kind = 4 ∧
        m.vc = 3 ∧ byteField m.body 0 1 = 3)) ∧
    (∀ o m, armedFor k gen = true → src ∈ k.parts → c < chunkCount k → ownerOf k tg c = ownPart s k → mapGet [] k.added c = [] → 1 < k.parts.length →
      objOf s k.sum = some o → o.copy = some m → m.missing = [] → (entries.map (fun e => e.1 % 4096)).Nodup →
      (∀ e ∈ entries, 4 * (e.1 % 4096) + 4 ≤ sumSpan s k c) →
      ∃ t x, exec (.contrib pair src tg gen c entries false) s = .next t ∧ t = { s with red := t.red, objs := t.objs } ∧
        objOf t k.sum = some { o with copy := some { m with data := x, dirty := true } } ∧ (∀ j, j ≠ k.sum → objOf t j = objOf s j) ∧
        ChunkWritten m.data x (16384 * c) (sumSpan s k c) (entries.map (fun e => (e.1 % 4096, fAdd 0 (BitVec.ofNat 32 (e.2.toNat * 65536))))) ∧
        TagBecomes tg { k with added := (tagOf t tg).added, seen := (tagOf t tg).seen } s t ∧ mapGet [] (tagOf t tg).added c = [k.parts.idxOf src])) ∧
  (∀ (pair tg gen c : Nat) (src : Word64) (entries : List (Nat × Word32)) (k : RedTag) (o : Obj) (m : T2Copy) (s : State), pair < 16 → tg < 4096 →
    inS2 s = false → tagOf s tg = k → armedFor k gen = true → c < chunkCount k → (ctxOf s k.ctx).steps = [] → objOf s k.sum = some o → o.copy = some m →
    m.missing = [] → (entries.map (fun e => e.1 % 4096)).Nodup → (∀ e ∈ entries, 4 * (e.1 % 4096) + 4 ≤ sumSpan s k c) →
    ∃ t x, exec (.result pair src tg gen c entries false) s = .next t ∧ t.host = s.host ∧
      objOf t k.sum = some { o with copy := some { m with data := x, dirty := true } } ∧ (∀ j, j ≠ k.sum → objOf t j = objOf s j) ∧
      ChunkWritten m.data x (16384 * c) (sumSpan s k c) (entries.map (fun e => (e.1 % 4096, e.2))) ∧
      TagBecomes tg { k with
        final := setAdd c k.final, state := if (setAdd c k.final).length = chunkCount k then .done else k.state } s t) ∧
  (∀ (tg gen cause : Nat) (k : RedTag) (s : State), tg < 4096 → cause < 16 → inS2 s = false → tagOf s tg = k →
    (isOpenTag k = true → k.gen = gen → (ctxOf s k.ctx).steps = [] → ∃ t, exec (.abandon tg gen cause) s = .next t ∧ t.host = s.host ∧
      TagBecomes tg { k with state := .failed, cause := 5 } s t ∧ EventLogged 11 s t) ∧
    (k.gen ≠ gen → ∃ t, exec (.abandon tg gen cause) s = .next t ∧ t = { s with red := t.red } ∧
      TagBecomes tg { k with rejected := stick32 (k.rejected + 1) } s t)) ∧
  (∀ (r : CoreRef) (tk : BitVec 2) (p : Program) (d : Desc) (k : RedTag) (c : Nat) (entries : List (Nat × BitVec 16)) (next : List Word32) (s : State),
    wfCore r = true → progOf (ctxOf s r.ctx) r.sketch = some p → (ticketOf (coreOf s r) tk).out = some d → dDstKind d = 4 → (ctxOf s r.ctx).inSlice = true →
    tagOf s (dTag d) = k → k.state = .armed → k.noresid = true → (contribChunks d)[(ticketOf (coreOf s r) tk).chunks]? = some c →
    meetSource r p d s = s → codesBad s r p d (ticketOf (coreOf s r) tk).chunks (chunkLen k c) = false → ownerOf k (dTag d) c ≠ ownPart s k →
    thin (min k.k (chunkLen k c)) (((chunkCodes s r p d (ticketOf (coreOf s r) tk) (chunkLen k c)).zip (List.replicate (chunkLen k c) 0)).map
      (fun x => thinSum k.fmt (palExp (mapGet {} (ctxOf s k.ctx).palette k.pal)) x.1 x.2)) = some (entries, next, chunkLen k c) →
    ∃ t, exec (.chunkThin r tk) s = .next t ∧ t = { s with ctxs := t.ctxs, red := t.red, ring := t.ring } ∧
      TagBecomes (dTag d) { k with sent := setAdd c k.sent } s t ∧ coreOf t r = { coreOf s r with tickets := (coreOf t r).tickets } ∧
      ticketOf (coreOf t r) tk = (if (ticketOf (coreOf s r) tk).chunks + 1 = (contribChunks d).length then { result := 0 }
        else { ticketOf (coreOf s r) tk with chunks := (ticketOf (coreOf s r) tk).chunks + 1, part := [] }) ∧
      (∀ u dn, k.parts[ownerOf k (dTag d) c]? = some u → WayTo s k.ring u dn → ∃ m, t.ring.out = s.ring.out ++ [m] ∧ m.pair = k.ring ∧ m.dn = dn ∧
        m.dest = posOf s k.ring u ∧ m.body.drop 16 = entries.flatMap (fun e => leBytes 2 e.1 ++ leBytes 2 e.2.toNat))) ∧
  (∀ (kk done : Nat) (u next : List Word32) (entries : List (Nat × BitVec 16)), thin kk u = some (entries, next, done) →
    entries.length = min kk u.length ∧ next.length = u.length ∧ done ≤ u.length ∧
    (∀ e ∈ entries, ∀ i w v, i < u.length → (∀ f ∈ entries, f.1 ≠ i) → u[i]? = some w → u[e.1]? = some v → next[i]? = some w ∧
      w.toNat % 2 ^ 31 ≤ v.toNat % 2 ^ 31)) ∧
  (∀ (n : Nat) (x : Step) (s : State), 1 ≤ n → n ≤ 255 → (ctxOf s n).steps = [x] →
    (∀ c a l, x.outcome = .pending → x.start + x.redFrames ≤ s.frame.counter.toNat → (ctxOf s n).run = none → cmdOf s x.tag = some c → x.tags = a :: l →
      x.doneTags = [] → x.failedTag = 0xFFFF → (∀ u ∈ x.tags, u < 4096 ∧ isOpenTag (tagOf s u) = true) →
      ∃ t, exec (.redDeadline n) s = .next t ∧ CommandCompletes c (stStepVoid 1 a) s t ∧ (ctxOf t n).steps = [] ∧
        (∀ u ∈ x.tags, (tagOf t u).state = .failed)) ∧
    (s.frame.counter.toNat < x.start + x.redFrames → (ctxOf s n).run ≠ none → exec (.redDeadline n) s = .next s) ∧
    (∀ c, x.outcome = .reduced → x.halted = true → cmdOf s x.tag = some c → ∃ t, exec (.stepCommit n) s = .next t ∧
      CommandCompletes c (stSuccess x.step (if (ctxOf s n).parity then 0 else 1) 0) s t ∧
      ctxOf t n = { ctxOf s n with parity := !(ctxOf s n).parity, steps := [], lastStep := some (x.step, x.resids) } ∧
      (∀ m, m ≠ n → ctxOf t m = ctxOf s m) ∧ (∀ j, j ∉ x.resids → objOf t j = objOf s j) ∧
      (∀ id o k, x.resids = [id] → objOf s id = some o → o.copy = some k → k.missing = [] → k.data.raw = [] →
        (k.data.poison = [] → ∃ y, objOf t id = some { o with copy := some { k with data := y, dirty := true } } ∧
          (storeByte y 0).toNat = (1 - (storeByte k.data 0).toNat) % 256) ∧
        (0 ∈ k.data.poison → o.kind = .scratch → objOf t id = some o))) ∧
    (x.outcome ≠ .reduced ∨ x.halted = false → exec (.stepCommit n) s = .next s))

/-! ### The whole machine -/

/-- The state at reset is canonical, with an empty queue, no command, no context and no copy. -/
def Obligations.ResetStateIsCanonical : Prop :=
  Canonical State.reset ∧ State.reset.pending = [] ∧ State.reset.host.cmds = [] ∧ State.reset.objs = [] ∧
    (∀ n, (ctxOf State.reset n).state = .free)

/-- Every step keeps the memories that outlive a reset in canonical form, and the module stays the same part with the same MODULE_UID (R4, R354);
a step takes one command from the queue and adds none. -/
def Obligations.EveryStepKeepsTheModuleWhole : Prop :=
  ∀ s t : State, step s = .next t → (Canonical s → Canonical t) ∧ t.uid = s.uid ∧ t.part = s.part ∧ t.pending = s.pending.tail

/-- Every command whose unit exists answers a next state, in every state; a command that names a unit the part has not stops with noSuchUnit
(the model's choice, log entry 1); none is refused. -/
def Obligations.EveryCommandAnswers : Prop :=
  ∀ (i : Instr) (s : State), (i.WellFormed = true → ∃ t, exec i s = .next t) ∧ (i.WellFormed = false → exec i s = .fault .noSuchUnit)
end

