-- ==== Sys2Proof/Laws/Maps.lean ====
section
/-! SUPPORT. Laws of the sparse maps: what a find sees after a put or a delete, and that every operation keeps the keys rising. -/

namespace Sys2Proof.Machine

variable {α : Type}

@[simp] theorem mapFind_mapPut_self (k : Nat) (v : α) (m : SMap α) : mapFind k (mapPut k v m) = some v := by
  induction m with
  | nil => simp [mapPut, mapFind]
  | cons p m ih =>
    obtain ⟨j, w⟩ := p
    unfold mapPut
    split
    · simp [mapFind]
    · split
      · simp [mapFind]
      · rename_i h; simp [mapFind, Ne.symm h, ih]

@[simp] theorem mapFind_mapPut_ne {j k : Nat} (h : j ≠ k) (v : α) (m : SMap α) : mapFind j (mapPut k v m) = mapFind j m := by
  induction m with
  | nil => simp [mapPut, mapFind, Ne.symm h]
  | cons p m ih =>
    obtain ⟨i, w⟩ := p
    unfold mapPut
    split
    · simp [mapFind, Ne.symm h]
    · split
      · rename_i e; subst e; simp [mapFind, Ne.symm h]
      · simp [mapFind, ih]

@[simp] theorem mapFind_mapDel_self (k : Nat) (m : SMap α) : mapFind k (mapDel k m) = none := by
  induction m with
  | nil => rfl
  | cons p m ih =>
    obtain ⟨i, w⟩ := p
    unfold mapDel at *
    by_cases h : i = k
    · simp [h, ih]
    · simp [h, mapFind, ih]

@[simp] theorem mapFind_mapDel_ne {j k : Nat} (h : j ≠ k) (m : SMap α) : mapFind j (mapDel k m) = mapFind j m := by
  induction m with
  | nil => rfl
  | cons p m ih =>
    obtain ⟨i, w⟩ := p
    unfold mapDel at *
    by_cases e : i = k
    · subst e; simp [ih, mapFind, Ne.symm h]
    · simp [e, mapFind, ih]

@[simp] theorem mapGet_mapSet_self [DecidableEq α] (d : α) (k : Nat) (v : α) (m : SMap α) : mapGet d (mapSet d k v m) k = v := by
  unfold mapGet mapSet
  split <;> simp_all

@[simp] theorem mapGet_mapSet_ne [DecidableEq α] (d : α) {j k : Nat} (h : j ≠ k) (v : α) (m : SMap α) :
    mapGet d (mapSet d k v m) j = mapGet d m j := by
  unfold mapGet mapSet
  split <;> simp [h]

theorem mapGet_mapSet [DecidableEq α] (d : α) (j k : Nat) (v : α) (m : SMap α) :
    mapGet d (mapSet d k v m) j = if j = k then v else mapGet d m j := by
  by_cases h : j = k <;> simp [h]

@[simp] theorem mapGet_nil (d : α) (k : Nat) : mapGet d [] k = d := rfl

theorem mapFind_mapVals {β : Type} (f : α → β) (k : Nat) (m : SMap α) : mapFind k (mapVals f m) = (mapFind k m).map f := by
  induction m with
  | nil => rfl
  | cons p m ih =>
    obtain ⟨i, w⟩ := p
    unfold mapVals at *
    by_cases h : i = k <;> simp_all [mapFind]

/-! ### Rising keys -/

theorem mapWf_iff (m : SMap α) : mapWf m = true ↔ m.Pairwise (fun p q => p.1 < q.1) := by
  induction m with
  | nil => simp [mapWf]
  | cons p m ih =>
    cases m with
    | nil => simp [mapWf]
    | cons q m =>
      simp only [mapWf, Bool.and_eq_true, decide_eq_true_eq, ih, List.pairwise_cons]
      constructor
      · rintro ⟨h, hq, hm⟩
        refine ⟨?_, hq, hm⟩
        intro a ha
        rcases List.mem_cons.mp ha with rfl | ha
        · exact h
        · exact Nat.lt_trans h (hq a ha)
      · rintro ⟨hp, hq, hm⟩
        exact ⟨hp q (by simp), hq, hm⟩

theorem mapPut_mem {k : Nat} {v : α} {m : SMap α} {p : Nat × α} (h : p ∈ mapPut k v m) : p = (k, v) ∨ p ∈ m := by
  induction m with
  | nil => simpa [mapPut] using h
  | cons q m ih =>
    obtain ⟨j, w⟩ := q
    unfold mapPut at h
    split at h
    · simpa using h
    · split at h
      · rcases List.mem_cons.mp h with h | h
        · exact .inl h
        · exact .inr (by simp [h])
      · rcases List.mem_cons.mp h with h | h
        · exact .inr (by simp [h])
        · rcases ih h with h | h
          · exact .inl h
          · exact .inr (by simp [h])

theorem mapWf_mapPut (k : Nat) (v : α) {m : SMap α} (h : mapWf m = true) : mapWf (mapPut k v m) = true := by
  rw [mapWf_iff] at *
  induction m with
  | nil => simp [mapPut]
  | cons q m ih =>
    obtain ⟨j, w⟩ := q
    rw [List.pairwise_cons] at h
    unfold mapPut
    split
    · rename_i hk
      refine List.pairwise_cons.mpr ⟨?_, List.pairwise_cons.mpr h⟩
      intro p hp
      rcases List.mem_cons.mp hp with rfl | hp
      · exact hk
      · exact Nat.lt_trans hk (h.1 p hp)
    · split
      · rename_i e; subst e
        exact List.pairwise_cons.mpr h
      · rename_i h1 h2
        refine List.pairwise_cons.mpr ⟨?_, ih h.2⟩
        intro p hp
        rcases mapPut_mem hp with rfl | hp
        · simp; omega
        · exact h.1 p hp

theorem mapWf_mapDel (k : Nat) {m : SMap α} (h : mapWf m = true) : mapWf (mapDel k m) = true := by
  rw [mapWf_iff] at *
  exact h.filter _

theorem mapWf_mapSet [DecidableEq α] (d : α) (k : Nat) (v : α) {m : SMap α} (h : mapWf m = true) : mapWf (mapSet d k v m) = true := by
  unfold mapSet
  split
  · exact mapWf_mapDel k h
  · exact mapWf_mapPut k v h

theorem mapWf_mapVals {β : Type} (f : α → β) {m : SMap α} (h : mapWf m = true) : mapWf (mapVals f m) = true := by
  rw [mapWf_iff] at *
  unfold mapVals
  rw [List.pairwise_map]
  exact h

theorem mapWf_filter (p : Nat × α → Bool) {m : SMap α} (h : mapWf m = true) : mapWf (m.filter p) = true := by
  rw [mapWf_iff] at *
  exact h.filter _

end Sys2Proof.Machine
end

