-- ==== Sys2Proof/Laws/Memory.lean ====
section
/-! SUPPORT. Laws of the memories: a byte reads back as written, every other byte as before, and every memory operation keeps the
canonical form. -/

namespace Sys2Proof.Machine

/-! ### The canonical form as a property of the list -/

theorem cellsWf_iff (cs : List Host.Cell) : cellsWf cs = true ↔ cs.Pairwise (fun c d => c.1 < d.1) ∧ ∀ c ∈ cs, c.2 ≠ 0 := by
  induction cs with
  | nil => simp [cellsWf]
  | cons c cs ih =>
    cases cs with
    | nil => simp [cellsWf]
    | cons d cs =>
      simp only [cellsWf, Bool.and_eq_true, bne_iff_ne, decide_eq_true_eq, ih, List.pairwise_cons, List.forall_mem_cons]
      constructor
      · rintro ⟨⟨hc, h⟩, ⟨hd, hp⟩, hd', hz⟩
        refine ⟨⟨⟨h, fun a ha => Nat.lt_trans h (hd a ha)⟩, hd, hp⟩, hc, hd', hz⟩
      · rintro ⟨⟨⟨h, _⟩, hd, hp⟩, hc, hd', hz⟩
        exact ⟨⟨hc, h⟩, ⟨hd, hp⟩, hd', hz⟩

theorem cellsOf_mem {a : Nat} {bs : List Byte} {c : Host.Cell} (h : c ∈ cellsOf a bs) : a ≤ c.1 ∧ c.1 < a + bs.length ∧ c.2 ≠ 0 := by
  induction bs generalizing a with
  | nil => simp [cellsOf] at h
  | cons b bs ih =>
    unfold cellsOf at h
    split at h
    · have := ih h; simp only [List.length_cons]; exact ⟨by omega, by omega, this.2.2⟩
    · rename_i hb
      rcases List.mem_cons.mp h with rfl | h
      · exact ⟨le_refl _, by simp, hb⟩
      · have := ih h; simp only [List.length_cons]; exact ⟨by omega, by omega, this.2.2⟩

theorem cellsOf_pairwise (a : Nat) (bs : List Byte) : (cellsOf a bs).Pairwise (fun c d => c.1 < d.1) := by
  induction bs generalizing a with
  | nil => simp [cellsOf]
  | cons b bs ih =>
    unfold cellsOf
    split
    · exact ih _
    · exact List.pairwise_cons.mpr ⟨fun c hc => by have := cellsOf_mem hc; simp; omega, ih _⟩

theorem cellsWf_cellsWrite {cs : List Host.Cell} (h : cellsWf cs = true) (a : Nat) (bs : List Byte) :
    cellsWf (cellsWrite cs a bs) = true := by
  rw [cellsWf_iff] at *
  unfold cellsWrite
  refine ⟨List.pairwise_append.mpr ⟨List.pairwise_append.mpr ⟨h.1.filter _, cellsOf_pairwise a bs, ?_⟩, h.1.filter _, ?_⟩, ?_⟩
  · intro c hc d hd
    have := cellsOf_mem hd
    simp at hc; omega
  · intro c hc d hd
    simp at hd
    rcases List.mem_append.mp hc with hc | hc
    · simp at hc; omega
    · have := cellsOf_mem hc; omega
  · intro c hc
    rcases List.mem_append.mp hc with hc | hc
    · rcases List.mem_append.mp hc with hc | hc
      · exact h.2 c (List.mem_filter.mp hc).1
      · exact (cellsOf_mem hc).2.2
    · exact h.2 c (List.mem_filter.mp hc).1

theorem wf_storeWrite (w : Nat) {m : Store} (h : Memory.wf m) (a : Nat) (bs : List Byte) : Memory.wf (storeWrite w m a bs) :=
  cellsWf_cellsWrite h a bs

theorem wf_storePoison (w : Nat) {m : Store} (h : Memory.wf m) (a n : Nat) : Memory.wf (storePoison w m a n) := h

theorem wf_empty : Memory.wf {} := rfl

theorem wf_storeSub (w : Nat) {m : Store} (h : Memory.wf m) (a n : Nat) : Memory.wf (storeSub w m a n) := by
  unfold Memory.wf at *
  rw [cellsWf_iff] at *
  unfold storeSub
  refine ⟨?_, ?_⟩
  · rw [List.pairwise_map]
    refine (h.1.filter (fun c => decide (a ≤ c.1) && decide (c.1 < a + n))).imp_of_mem ?_
    intro c d hc hd hcd
    simp at hc hd ⊢; omega
  · intro c hc
    simp at hc
    obtain ⟨x, y, hx, rfl⟩ := hc
    exact h.2 (x, y) hx.1

theorem wf_storePaste (w : Nat) {m src : Store} (h : Memory.wf m) (hs : Memory.wf src) (a n : Nat) :
    Memory.wf (storePaste w m a n src) := by
  unfold Memory.wf at *
  rw [cellsWf_iff] at *
  unfold storePaste
  refine ⟨List.pairwise_append.mpr ⟨List.pairwise_append.mpr ⟨h.1.filter _, ?_, ?_⟩, h.1.filter _, ?_⟩, ?_⟩
  · rw [List.pairwise_map]
    exact (hs.1.filter _).imp (fun h => Nat.add_lt_add_right h _)
  · intro c hc d hd
    simp at hc hd
    obtain ⟨x, y, hx, rfl⟩ := hd
    simp; omega
  · intro c hc d hd
    simp at hd
    rcases List.mem_append.mp hc with hc | hc
    · simp at hc; omega
    · simp at hc
      obtain ⟨x, y, hx, rfl⟩ := hc
      simp; omega
  · intro c hc
    rcases List.mem_append.mp hc with hc | hc
    · rcases List.mem_append.mp hc with hc | hc
      · exact h.2 c (List.mem_filter.mp hc).1
      · simp at hc
        obtain ⟨x, y, hx, rfl⟩ := hc
        exact hs.2 (x, y) hx.1
    · exact h.2 c (List.mem_filter.mp hc).1

/-! ### What a byte reads after a write -/

theorem cellAt_append (a : Nat) (cs ds : List Host.Cell) :
    cellAt a (cs ++ ds) = if cs.any (fun c => c.1 = a) then cellAt a cs else cellAt a ds := by
  induction cs with
  | nil => simp
  | cons c cs ih =>
    obtain ⟨j, b⟩ := c
    by_cases h : j = a <;> simp_all [cellAt]

theorem cellAt_not_listed {a : Nat} {cs : List Host.Cell} (h : cs.any (fun c => c.1 = a) = false) : cellAt a cs = 0 := by
  induction cs with
  | nil => rfl
  | cons c cs ih =>
    obtain ⟨j, b⟩ := c
    simp at h
    simp [cellAt, h.1]
    exact ih (by simpa using h.2)

theorem cellAt_filter (p : Nat → Bool) (a : Nat) (cs : List Host.Cell) :
    cellAt a (cs.filter (fun c => p c.1)) = if p a then cellAt a cs else 0 := by
  induction cs with
  | nil => simp [cellAt]
  | cons c cs ih =>
    obtain ⟨j, b⟩ := c
    by_cases h : p j
    · by_cases e : j = a
      · subst e; simp [h, cellAt]
      · simp [h, cellAt, e]; simpa using ih
    · by_cases e : j = a
      · subst e; simp [h] at *; exact ih
      · simp [h, cellAt, e]; simpa using ih

theorem cellAt_cellsOf (a x : Nat) (bs : List Byte) :
    cellAt x (cellsOf a bs) = if a ≤ x ∧ x < a + bs.length then bs.getD (x - a) 0 else 0 := by
  induction bs generalizing a with
  | nil => simp [cellsOf, cellAt]
  | cons b bs ih =>
    have step : x ≠ a → (if a + 1 ≤ x ∧ x < a + 1 + bs.length then bs.getD (x - (a + 1)) 0 else 0) =
        if a ≤ x ∧ x < a + (b :: bs).length then (b :: bs).getD (x - a) 0 else 0 := by
      intro hne
      by_cases hx : a + 1 ≤ x ∧ x < a + 1 + bs.length
      · have h2 : a ≤ x ∧ x < a + (b :: bs).length := by simp; omega
        rw [if_pos hx, if_pos h2]
        obtain ⟨n, hn⟩ : ∃ n, x - a = n + 1 := ⟨x - a - 1, by omega⟩
        rw [hn, show x - (a + 1) = n by omega]; simp
      · have h2 : ¬ (a ≤ x ∧ x < a + (b :: bs).length) := by simp; omega
        rw [if_neg hx, if_neg h2]
    unfold cellsOf
    split
    · rename_i hb
      rw [ih]
      by_cases hne : x = a
      · subst hne; simp [hb]
      · exact step hne
    · by_cases hne : x = a
      · subst hne; simp [cellAt]
      · rw [cellAt, if_neg (Ne.symm hne), ih]; exact step hne

/-- A byte of a written range reads as written, every other byte as before. -/
theorem cellAt_cellsWrite (cs : List Host.Cell) (a x : Nat) (bs : List Byte) :
    cellAt x (cellsWrite cs a bs) = if a ≤ x ∧ x < a + bs.length then bs.getD (x - a) 0 else cellAt x cs := by
  unfold cellsWrite
  rw [cellAt_append, cellAt_append, cellAt_filter (fun j => decide (j < a)), cellAt_cellsOf,
    cellAt_filter (fun j => decide (a + bs.length ≤ j))]
  by_cases h1 : x < a
  · have e1 : (cellsOf a bs).any (fun c => decide (c.1 = x)) = false := by
      rw [List.any_eq_false]; intro c hc; have := cellsOf_mem hc; simp; omega
    simp only [h1, decide_true, if_true, List.any_append, e1, Bool.or_false]
    have h2 : ¬ (a ≤ x ∧ x < a + bs.length) := by omega
    have h3 : ¬ (a + bs.length ≤ x) := by omega
    simp only [h2, h3, if_false, decide_false, Bool.false_eq_true]
    split
    · rfl
    · rename_i hn
      symm; apply cellAt_not_listed
      rw [List.any_eq_false]; intro c hc he
      simp only [decide_eq_true_eq] at he
      exact hn (List.any_eq_true.mpr ⟨c, by simp only [List.mem_filter, decide_eq_true_eq]; exact ⟨hc, by omega⟩, by simpa using he⟩)
  · have e1 : (cs.filter (fun c => decide (c.1 < a))).any (fun c => decide (c.1 = x)) = false := by
      rw [List.any_eq_false]; intro c hc; simp at hc; simp; omega
    simp only [e1, List.any_append, Bool.false_or, Bool.false_eq_true, if_false]
    by_cases h2 : x < a + bs.length
    · have h3 : a ≤ x ∧ x < a + bs.length := by omega
      simp only [h3, and_self, if_true]
      split
      · rfl
      · rename_i hn
        have h4 : ¬ (a + bs.length ≤ x) := by omega
        simp only [h4, decide_false, Bool.false_eq_true, if_false]
        have h5 : cellAt x (cellsOf a bs) = 0 := cellAt_not_listed (Bool.eq_false_iff.mpr hn)
        rw [cellAt_cellsOf, if_pos h3] at h5; exact h5.symm
    · have e2 : (cellsOf a bs).any (fun c => decide (c.1 = x)) = false := by
        rw [List.any_eq_false]; intro c hc; have := cellsOf_mem hc; simp; omega
      have h3 : ¬ (a ≤ x ∧ x < a + bs.length) := by omega
      have h4 : a + bs.length ≤ x := by omega
      simp [e2, h3, h4]

/-- The same of a memory. -/
theorem storeByte_storeWrite (w : Nat) (m : Store) (a x : Nat) (bs : List Byte) :
    storeByte (storeWrite w m a bs) x = if a ≤ x ∧ x < a + bs.length then bs.getD (x - a) 0 else storeByte m x :=
  cellAt_cellsWrite m.cells a x bs

end Sys2Proof.Machine
end

