-- ==== Sys2Proof/Laws/State.lean ====
section
/-! SUPPORT. One lemma per field per basic update of the state, and what each accessor reads after the update it belongs to. Cite these
in place of unfolding a record update. -/

namespace Sys2Proof.Machine

/-! ### `setCtx`: only the contexts change -/

@[simp] theorem setCtx_pending (n : Nat) (c : Context) (s : State) : (setCtx n c s).pending = s.pending := rfl
@[simp] theorem setCtx_nonce (n : Nat) (c : Context) (s : State) : (setCtx n c s).nonce = s.nonce := rfl
@[simp] theorem setCtx_part (n : Nat) (c : Context) (s : State) : (setCtx n c s).part = s.part := rfl
@[simp] theorem setCtx_uid (n : Nat) (c : Context) (s : State) : (setCtx n c s).uid = s.uid := rfl
@[simp] theorem setCtx_pcie (n : Nat) (c : Context) (s : State) : (setCtx n c s).pcie = s.pcie := rfl
@[simp] theorem setCtx_host (n : Nat) (c : Context) (s : State) : (setCtx n c s).host = s.host := rfl
@[simp] theorem setCtx_arb (n : Nat) (c : Context) (s : State) : (setCtx n c s).arb = s.arb := rfl
@[simp] theorem setCtx_frame (n : Nat) (c : Context) (s : State) : (setCtx n c s).frame = s.frame := rfl
@[simp] theorem setCtx_power (n : Nat) (c : Context) (s : State) : (setCtx n c s).power = s.power := rfl
@[simp] theorem setCtx_sec (n : Nat) (c : Context) (s : State) : (setCtx n c s).sec = s.sec := rfl
@[simp] theorem setCtx_swaps (n : Nat) (c : Context) (s : State) : (setCtx n c s).swaps = s.swaps := rfl
@[simp] theorem setCtx_phys (n : Nat) (c : Context) (s : State) : (setCtx n c s).phys = s.phys := rfl
@[simp] theorem setCtx_objs (n : Nat) (c : Context) (s : State) : (setCtx n c s).objs = s.objs := rfl
@[simp] theorem setCtx_inFlight (n : Nat) (c : Context) (s : State) : (setCtx n c s).inFlight = s.inFlight := rfl
@[simp] theorem setCtx_flash (n : Nat) (c : Context) (s : State) : (setCtx n c s).flash = s.flash := rfl
@[simp] theorem setCtx_scan (n : Nat) (c : Context) (s : State) : (setCtx n c s).scan = s.scan := rfl
@[simp] theorem setCtx_ring (n : Nat) (c : Context) (s : State) : (setCtx n c s).ring = s.ring := rfl
@[simp] theorem setCtx_red (n : Nat) (c : Context) (s : State) : (setCtx n c s).red = s.red := rfl
@[simp] theorem setCtx_ef (n : Nat) (c : Context) (s : State) : (setCtx n c s).ef = s.ef := rfl
@[simp] theorem setCtx_ctrl (n : Nat) (c : Context) (s : State) : (setCtx n c s).ctrl = s.ctrl := rfl
@[simp] theorem setCtx_scrub (n : Nat) (c : Context) (s : State) : (setCtx n c s).scrub = s.scrub := rfl
@[simp] theorem setCtx_hbmRest (n : Nat) (c : Context) (s : State) : (setCtx n c s).hbmRest = s.hbmRest := rfl
@[simp] theorem setCtx_idle (n : Nat) (c : Context) (s : State) : (setCtx n c s).idle = s.idle := rfl
@[simp] theorem setCtx_logs (n : Nat) (c : Context) (s : State) : (setCtx n c s).logs = s.logs := rfl

/-! ### `updCtx`: only the contexts change -/

@[simp] theorem updCtx_pending (n : Nat) (f : Context → Context) (s : State) : (updCtx n f s).pending = s.pending := rfl
@[simp] theorem updCtx_nonce (n : Nat) (f : Context → Context) (s : State) : (updCtx n f s).nonce = s.nonce := rfl
@[simp] theorem updCtx_part (n : Nat) (f : Context → Context) (s : State) : (updCtx n f s).part = s.part := rfl
@[simp] theorem updCtx_uid (n : Nat) (f : Context → Context) (s : State) : (updCtx n f s).uid = s.uid := rfl
@[simp] theorem updCtx_pcie (n : Nat) (f : Context → Context) (s : State) : (updCtx n f s).pcie = s.pcie := rfl
@[simp] theorem updCtx_host (n : Nat) (f : Context → Context) (s : State) : (updCtx n f s).host = s.host := rfl
@[simp] theorem updCtx_arb (n : Nat) (f : Context → Context) (s : State) : (updCtx n f s).arb = s.arb := rfl
@[simp] theorem updCtx_frame (n : Nat) (f : Context → Context) (s : State) : (updCtx n f s).frame = s.frame := rfl
@[simp] theorem updCtx_power (n : Nat) (f : Context → Context) (s : State) : (updCtx n f s).power = s.power := rfl
@[simp] theorem updCtx_sec (n : Nat) (f : Context → Context) (s : State) : (updCtx n f s).sec = s.sec := rfl
@[simp] theorem updCtx_swaps (n : Nat) (f : Context → Context) (s : State) : (updCtx n f s).swaps = s.swaps := rfl
@[simp] theorem updCtx_phys (n : Nat) (f : Context → Context) (s : State) : (updCtx n f s).phys = s.phys := rfl
@[simp] theorem updCtx_objs (n : Nat) (f : Context → Context) (s : State) : (updCtx n f s).objs = s.objs := rfl
@[simp] theorem updCtx_inFlight (n : Nat) (f : Context → Context) (s : State) : (updCtx n f s).inFlight = s.inFlight := rfl
@[simp] theorem updCtx_flash (n : Nat) (f : Context → Context) (s : State) : (updCtx n f s).flash = s.flash := rfl
@[simp] theorem updCtx_scan (n : Nat) (f : Context → Context) (s : State) : (updCtx n f s).scan = s.scan := rfl
@[simp] theorem updCtx_ring (n : Nat) (f : Context → Context) (s : State) : (updCtx n f s).ring = s.ring := rfl
@[simp] theorem updCtx_red (n : Nat) (f : Context → Context) (s : State) : (updCtx n f s).red = s.red := rfl
@[simp] theorem updCtx_ef (n : Nat) (f : Context → Context) (s : State) : (updCtx n f s).ef = s.ef := rfl
@[simp] theorem updCtx_ctrl (n : Nat) (f : Context → Context) (s : State) : (updCtx n f s).ctrl = s.ctrl := rfl
@[simp] theorem updCtx_scrub (n : Nat) (f : Context → Context) (s : State) : (updCtx n f s).scrub = s.scrub := rfl
@[simp] theorem updCtx_hbmRest (n : Nat) (f : Context → Context) (s : State) : (updCtx n f s).hbmRest = s.hbmRest := rfl
@[simp] theorem updCtx_idle (n : Nat) (f : Context → Context) (s : State) : (updCtx n f s).idle = s.idle := rfl
@[simp] theorem updCtx_logs (n : Nat) (f : Context → Context) (s : State) : (updCtx n f s).logs = s.logs := rfl

/-! ### `setCore`: only the contexts change -/

@[simp] theorem setCore_pending (r : CoreRef) (k : Core) (s : State) : (setCore r k s).pending = s.pending := rfl
@[simp] theorem setCore_nonce (r : CoreRef) (k : Core) (s : State) : (setCore r k s).nonce = s.nonce := rfl
@[simp] theorem setCore_part (r : CoreRef) (k : Core) (s : State) : (setCore r k s).part = s.part := rfl
@[simp] theorem setCore_uid (r : CoreRef) (k : Core) (s : State) : (setCore r k s).uid = s.uid := rfl
@[simp] theorem setCore_pcie (r : CoreRef) (k : Core) (s : State) : (setCore r k s).pcie = s.pcie := rfl
@[simp] theorem setCore_host (r : CoreRef) (k : Core) (s : State) : (setCore r k s).host = s.host := rfl
@[simp] theorem setCore_arb (r : CoreRef) (k : Core) (s : State) : (setCore r k s).arb = s.arb := rfl
@[simp] theorem setCore_frame (r : CoreRef) (k : Core) (s : State) : (setCore r k s).frame = s.frame := rfl
@[simp] theorem setCore_power (r : CoreRef) (k : Core) (s : State) : (setCore r k s).power = s.power := rfl
@[simp] theorem setCore_sec (r : CoreRef) (k : Core) (s : State) : (setCore r k s).sec = s.sec := rfl
@[simp] theorem setCore_swaps (r : CoreRef) (k : Core) (s : State) : (setCore r k s).swaps = s.swaps := rfl
@[simp] theorem setCore_phys (r : CoreRef) (k : Core) (s : State) : (setCore r k s).phys = s.phys := rfl
@[simp] theorem setCore_objs (r : CoreRef) (k : Core) (s : State) : (setCore r k s).objs = s.objs := rfl
@[simp] theorem setCore_inFlight (r : CoreRef) (k : Core) (s : State) : (setCore r k s).inFlight = s.inFlight := rfl
@[simp] theorem setCore_flash (r : CoreRef) (k : Core) (s : State) : (setCore r k s).flash = s.flash := rfl
@[simp] theorem setCore_scan (r : CoreRef) (k : Core) (s : State) : (setCore r k s).scan = s.scan := rfl
@[simp] theorem setCore_ring (r : CoreRef) (k : Core) (s : State) : (setCore r k s).ring = s.ring := rfl
@[simp] theorem setCore_red (r : CoreRef) (k : Core) (s : State) : (setCore r k s).red = s.red := rfl
@[simp] theorem setCore_ef (r : CoreRef) (k : Core) (s : State) : (setCore r k s).ef = s.ef := rfl
@[simp] theorem setCore_ctrl (r : CoreRef) (k : Core) (s : State) : (setCore r k s).ctrl = s.ctrl := rfl
@[simp] theorem setCore_scrub (r : CoreRef) (k : Core) (s : State) : (setCore r k s).scrub = s.scrub := rfl
@[simp] theorem setCore_hbmRest (r : CoreRef) (k : Core) (s : State) : (setCore r k s).hbmRest = s.hbmRest := rfl
@[simp] theorem setCore_idle (r : CoreRef) (k : Core) (s : State) : (setCore r k s).idle = s.idle := rfl
@[simp] theorem setCore_logs (r : CoreRef) (k : Core) (s : State) : (setCore r k s).logs = s.logs := rfl

/-! ### `updCore`: only the contexts change -/

@[simp] theorem updCore_pending (r : CoreRef) (f : Core → Core) (s : State) : (updCore r f s).pending = s.pending := rfl
@[simp] theorem updCore_nonce (r : CoreRef) (f : Core → Core) (s : State) : (updCore r f s).nonce = s.nonce := rfl
@[simp] theorem updCore_part (r : CoreRef) (f : Core → Core) (s : State) : (updCore r f s).part = s.part := rfl
@[simp] theorem updCore_uid (r : CoreRef) (f : Core → Core) (s : State) : (updCore r f s).uid = s.uid := rfl
@[simp] theorem updCore_pcie (r : CoreRef) (f : Core → Core) (s : State) : (updCore r f s).pcie = s.pcie := rfl
@[simp] theorem updCore_host (r : CoreRef) (f : Core → Core) (s : State) : (updCore r f s).host = s.host := rfl
@[simp] theorem updCore_arb (r : CoreRef) (f : Core → Core) (s : State) : (updCore r f s).arb = s.arb := rfl
@[simp] theorem updCore_frame (r : CoreRef) (f : Core → Core) (s : State) : (updCore r f s).frame = s.frame := rfl
@[simp] theorem updCore_power (r : CoreRef) (f : Core → Core) (s : State) : (updCore r f s).power = s.power := rfl
@[simp] theorem updCore_sec (r : CoreRef) (f : Core → Core) (s : State) : (updCore r f s).sec = s.sec := rfl
@[simp] theorem updCore_swaps (r : CoreRef) (f : Core → Core) (s : State) : (updCore r f s).swaps = s.swaps := rfl
@[simp] theorem updCore_phys (r : CoreRef) (f : Core → Core) (s : State) : (updCore r f s).phys = s.phys := rfl
@[simp] theorem updCore_objs (r : CoreRef) (f : Core → Core) (s : State) : (updCore r f s).objs = s.objs := rfl
@[simp] theorem updCore_inFlight (r : CoreRef) (f : Core → Core) (s : State) : (updCore r f s).inFlight = s.inFlight := rfl
@[simp] theorem updCore_flash (r : CoreRef) (f : Core → Core) (s : State) : (updCore r f s).flash = s.flash := rfl
@[simp] theorem updCore_scan (r : CoreRef) (f : Core → Core) (s : State) : (updCore r f s).scan = s.scan := rfl
@[simp] theorem updCore_ring (r : CoreRef) (f : Core → Core) (s : State) : (updCore r f s).ring = s.ring := rfl
@[simp] theorem updCore_red (r : CoreRef) (f : Core → Core) (s : State) : (updCore r f s).red = s.red := rfl
@[simp] theorem updCore_ef (r : CoreRef) (f : Core → Core) (s : State) : (updCore r f s).ef = s.ef := rfl
@[simp] theorem updCore_ctrl (r : CoreRef) (f : Core → Core) (s : State) : (updCore r f s).ctrl = s.ctrl := rfl
@[simp] theorem updCore_scrub (r : CoreRef) (f : Core → Core) (s : State) : (updCore r f s).scrub = s.scrub := rfl
@[simp] theorem updCore_hbmRest (r : CoreRef) (f : Core → Core) (s : State) : (updCore r f s).hbmRest = s.hbmRest := rfl
@[simp] theorem updCore_idle (r : CoreRef) (f : Core → Core) (s : State) : (updCore r f s).idle = s.idle := rfl
@[simp] theorem updCore_logs (r : CoreRef) (f : Core → Core) (s : State) : (updCore r f s).logs = s.logs := rfl

/-! ### `updCluster`: only the contexts change -/

@[simp] theorem updCluster_pending (n lc : Nat) (f : Cluster → Cluster) (s : State) : (updCluster n lc f s).pending = s.pending := rfl
@[simp] theorem updCluster_nonce (n lc : Nat) (f : Cluster → Cluster) (s : State) : (updCluster n lc f s).nonce = s.nonce := rfl
@[simp] theorem updCluster_part (n lc : Nat) (f : Cluster → Cluster) (s : State) : (updCluster n lc f s).part = s.part := rfl
@[simp] theorem updCluster_uid (n lc : Nat) (f : Cluster → Cluster) (s : State) : (updCluster n lc f s).uid = s.uid := rfl
@[simp] theorem updCluster_pcie (n lc : Nat) (f : Cluster → Cluster) (s : State) : (updCluster n lc f s).pcie = s.pcie := rfl
@[simp] theorem updCluster_host (n lc : Nat) (f : Cluster → Cluster) (s : State) : (updCluster n lc f s).host = s.host := rfl
@[simp] theorem updCluster_arb (n lc : Nat) (f : Cluster → Cluster) (s : State) : (updCluster n lc f s).arb = s.arb := rfl
@[simp] theorem updCluster_frame (n lc : Nat) (f : Cluster → Cluster) (s : State) : (updCluster n lc f s).frame = s.frame := rfl
@[simp] theorem updCluster_power (n lc : Nat) (f : Cluster → Cluster) (s : State) : (updCluster n lc f s).power = s.power := rfl
@[simp] theorem updCluster_sec (n lc : Nat) (f : Cluster → Cluster) (s : State) : (updCluster n lc f s).sec = s.sec := rfl
@[simp] theorem updCluster_swaps (n lc : Nat) (f : Cluster → Cluster) (s : State) : (updCluster n lc f s).swaps = s.swaps := rfl
@[simp] theorem updCluster_phys (n lc : Nat) (f : Cluster → Cluster) (s : State) : (updCluster n lc f s).phys = s.phys := rfl
@[simp] theorem updCluster_objs (n lc : Nat) (f : Cluster → Cluster) (s : State) : (updCluster n lc f s).objs = s.objs := rfl
@[simp] theorem updCluster_inFlight (n lc : Nat) (f : Cluster → Cluster) (s : State) : (updCluster n lc f s).inFlight = s.inFlight := rfl
@[simp] theorem updCluster_flash (n lc : Nat) (f : Cluster → Cluster) (s : State) : (updCluster n lc f s).flash = s.flash := rfl
@[simp] theorem updCluster_scan (n lc : Nat) (f : Cluster → Cluster) (s : State) : (updCluster n lc f s).scan = s.scan := rfl
@[simp] theorem updCluster_ring (n lc : Nat) (f : Cluster → Cluster) (s : State) : (updCluster n lc f s).ring = s.ring := rfl
@[simp] theorem updCluster_red (n lc : Nat) (f : Cluster → Cluster) (s : State) : (updCluster n lc f s).red = s.red := rfl
@[simp] theorem updCluster_ef (n lc : Nat) (f : Cluster → Cluster) (s : State) : (updCluster n lc f s).ef = s.ef := rfl
@[simp] theorem updCluster_ctrl (n lc : Nat) (f : Cluster → Cluster) (s : State) : (updCluster n lc f s).ctrl = s.ctrl := rfl
@[simp] theorem updCluster_scrub (n lc : Nat) (f : Cluster → Cluster) (s : State) : (updCluster n lc f s).scrub = s.scrub := rfl
@[simp] theorem updCluster_hbmRest (n lc : Nat) (f : Cluster → Cluster) (s : State) : (updCluster n lc f s).hbmRest = s.hbmRest := rfl
@[simp] theorem updCluster_idle (n lc : Nat) (f : Cluster → Cluster) (s : State) : (updCluster n lc f s).idle = s.idle := rfl
@[simp] theorem updCluster_logs (n lc : Nat) (f : Cluster → Cluster) (s : State) : (updCluster n lc f s).logs = s.logs := rfl

/-! ### `t1Write`: only the contexts change -/

@[simp] theorem t1Write_pending (n lc a : Nat) (bs : List Byte) (s : State) : (t1Write n lc a bs s).pending = s.pending := rfl
@[simp] theorem t1Write_nonce (n lc a : Nat) (bs : List Byte) (s : State) : (t1Write n lc a bs s).nonce = s.nonce := rfl
@[simp] theorem t1Write_part (n lc a : Nat) (bs : List Byte) (s : State) : (t1Write n lc a bs s).part = s.part := rfl
@[simp] theorem t1Write_uid (n lc a : Nat) (bs : List Byte) (s : State) : (t1Write n lc a bs s).uid = s.uid := rfl
@[simp] theorem t1Write_pcie (n lc a : Nat) (bs : List Byte) (s : State) : (t1Write n lc a bs s).pcie = s.pcie := rfl
@[simp] theorem t1Write_host (n lc a : Nat) (bs : List Byte) (s : State) : (t1Write n lc a bs s).host = s.host := rfl
@[simp] theorem t1Write_arb (n lc a : Nat) (bs : List Byte) (s : State) : (t1Write n lc a bs s).arb = s.arb := rfl
@[simp] theorem t1Write_frame (n lc a : Nat) (bs : List Byte) (s : State) : (t1Write n lc a bs s).frame = s.frame := rfl
@[simp] theorem t1Write_power (n lc a : Nat) (bs : List Byte) (s : State) : (t1Write n lc a bs s).power = s.power := rfl
@[simp] theorem t1Write_sec (n lc a : Nat) (bs : List Byte) (s : State) : (t1Write n lc a bs s).sec = s.sec := rfl
@[simp] theorem t1Write_swaps (n lc a : Nat) (bs : List Byte) (s : State) : (t1Write n lc a bs s).swaps = s.swaps := rfl
@[simp] theorem t1Write_phys (n lc a : Nat) (bs : List Byte) (s : State) : (t1Write n lc a bs s).phys = s.phys := rfl
@[simp] theorem t1Write_objs (n lc a : Nat) (bs : List Byte) (s : State) : (t1Write n lc a bs s).objs = s.objs := rfl
@[simp] theorem t1Write_inFlight (n lc a : Nat) (bs : List Byte) (s : State) : (t1Write n lc a bs s).inFlight = s.inFlight := rfl
@[simp] theorem t1Write_flash (n lc a : Nat) (bs : List Byte) (s : State) : (t1Write n lc a bs s).flash = s.flash := rfl
@[simp] theorem t1Write_scan (n lc a : Nat) (bs : List Byte) (s : State) : (t1Write n lc a bs s).scan = s.scan := rfl
@[simp] theorem t1Write_ring (n lc a : Nat) (bs : List Byte) (s : State) : (t1Write n lc a bs s).ring = s.ring := rfl
@[simp] theorem t1Write_red (n lc a : Nat) (bs : List Byte) (s : State) : (t1Write n lc a bs s).red = s.red := rfl
@[simp] theorem t1Write_ef (n lc a : Nat) (bs : List Byte) (s : State) : (t1Write n lc a bs s).ef = s.ef := rfl
@[simp] theorem t1Write_ctrl (n lc a : Nat) (bs : List Byte) (s : State) : (t1Write n lc a bs s).ctrl = s.ctrl := rfl
@[simp] theorem t1Write_scrub (n lc a : Nat) (bs : List Byte) (s : State) : (t1Write n lc a bs s).scrub = s.scrub := rfl
@[simp] theorem t1Write_hbmRest (n lc a : Nat) (bs : List Byte) (s : State) : (t1Write n lc a bs s).hbmRest = s.hbmRest := rfl
@[simp] theorem t1Write_idle (n lc a : Nat) (bs : List Byte) (s : State) : (t1Write n lc a bs s).idle = s.idle := rfl
@[simp] theorem t1Write_logs (n lc a : Nat) (bs : List Byte) (s : State) : (t1Write n lc a bs s).logs = s.logs := rfl

/-! ### `setFlag`: only the contexts change -/

@[simp] theorem setFlag_pending (n lc k : Nat) (v : Bool) (s : State) : (setFlag n lc k v s).pending = s.pending := rfl
@[simp] theorem setFlag_nonce (n lc k : Nat) (v : Bool) (s : State) : (setFlag n lc k v s).nonce = s.nonce := rfl
@[simp] theorem setFlag_part (n lc k : Nat) (v : Bool) (s : State) : (setFlag n lc k v s).part = s.part := rfl
@[simp] theorem setFlag_uid (n lc k : Nat) (v : Bool) (s : State) : (setFlag n lc k v s).uid = s.uid := rfl
@[simp] theorem setFlag_pcie (n lc k : Nat) (v : Bool) (s : State) : (setFlag n lc k v s).pcie = s.pcie := rfl
@[simp] theorem setFlag_host (n lc k : Nat) (v : Bool) (s : State) : (setFlag n lc k v s).host = s.host := rfl
@[simp] theorem setFlag_arb (n lc k : Nat) (v : Bool) (s : State) : (setFlag n lc k v s).arb = s.arb := rfl
@[simp] theorem setFlag_frame (n lc k : Nat) (v : Bool) (s : State) : (setFlag n lc k v s).frame = s.frame := rfl
@[simp] theorem setFlag_power (n lc k : Nat) (v : Bool) (s : State) : (setFlag n lc k v s).power = s.power := rfl
@[simp] theorem setFlag_sec (n lc k : Nat) (v : Bool) (s : State) : (setFlag n lc k v s).sec = s.sec := rfl
@[simp] theorem setFlag_swaps (n lc k : Nat) (v : Bool) (s : State) : (setFlag n lc k v s).swaps = s.swaps := rfl
@[simp] theorem setFlag_phys (n lc k : Nat) (v : Bool) (s : State) : (setFlag n lc k v s).phys = s.phys := rfl
@[simp] theorem setFlag_objs (n lc k : Nat) (v : Bool) (s : State) : (setFlag n lc k v s).objs = s.objs := rfl
@[simp] theorem setFlag_inFlight (n lc k : Nat) (v : Bool) (s : State) : (setFlag n lc k v s).inFlight = s.inFlight := rfl
@[simp] theorem setFlag_flash (n lc k : Nat) (v : Bool) (s : State) : (setFlag n lc k v s).flash = s.flash := rfl
@[simp] theorem setFlag_scan (n lc k : Nat) (v : Bool) (s : State) : (setFlag n lc k v s).scan = s.scan := rfl
@[simp] theorem setFlag_ring (n lc k : Nat) (v : Bool) (s : State) : (setFlag n lc k v s).ring = s.ring := rfl
@[simp] theorem setFlag_red (n lc k : Nat) (v : Bool) (s : State) : (setFlag n lc k v s).red = s.red := rfl
@[simp] theorem setFlag_ef (n lc k : Nat) (v : Bool) (s : State) : (setFlag n lc k v s).ef = s.ef := rfl
@[simp] theorem setFlag_ctrl (n lc k : Nat) (v : Bool) (s : State) : (setFlag n lc k v s).ctrl = s.ctrl := rfl
@[simp] theorem setFlag_scrub (n lc k : Nat) (v : Bool) (s : State) : (setFlag n lc k v s).scrub = s.scrub := rfl
@[simp] theorem setFlag_hbmRest (n lc k : Nat) (v : Bool) (s : State) : (setFlag n lc k v s).hbmRest = s.hbmRest := rfl
@[simp] theorem setFlag_idle (n lc k : Nat) (v : Bool) (s : State) : (setFlag n lc k v s).idle = s.idle := rfl
@[simp] theorem setFlag_logs (n lc k : Nat) (v : Bool) (s : State) : (setFlag n lc k v s).logs = s.logs := rfl

/-! ### `updCmd`: only the host interface changes -/

@[simp] theorem updCmd_pending (tag : Nat) (f : Cmd → Cmd) (s : State) : (updCmd tag f s).pending = s.pending := rfl
@[simp] theorem updCmd_nonce (tag : Nat) (f : Cmd → Cmd) (s : State) : (updCmd tag f s).nonce = s.nonce := rfl
@[simp] theorem updCmd_part (tag : Nat) (f : Cmd → Cmd) (s : State) : (updCmd tag f s).part = s.part := rfl
@[simp] theorem updCmd_uid (tag : Nat) (f : Cmd → Cmd) (s : State) : (updCmd tag f s).uid = s.uid := rfl
@[simp] theorem updCmd_pcie (tag : Nat) (f : Cmd → Cmd) (s : State) : (updCmd tag f s).pcie = s.pcie := rfl
@[simp] theorem updCmd_arb (tag : Nat) (f : Cmd → Cmd) (s : State) : (updCmd tag f s).arb = s.arb := rfl
@[simp] theorem updCmd_frame (tag : Nat) (f : Cmd → Cmd) (s : State) : (updCmd tag f s).frame = s.frame := rfl
@[simp] theorem updCmd_power (tag : Nat) (f : Cmd → Cmd) (s : State) : (updCmd tag f s).power = s.power := rfl
@[simp] theorem updCmd_sec (tag : Nat) (f : Cmd → Cmd) (s : State) : (updCmd tag f s).sec = s.sec := rfl
@[simp] theorem updCmd_ctxs (tag : Nat) (f : Cmd → Cmd) (s : State) : (updCmd tag f s).ctxs = s.ctxs := rfl
@[simp] theorem updCmd_swaps (tag : Nat) (f : Cmd → Cmd) (s : State) : (updCmd tag f s).swaps = s.swaps := rfl
@[simp] theorem updCmd_phys (tag : Nat) (f : Cmd → Cmd) (s : State) : (updCmd tag f s).phys = s.phys := rfl
@[simp] theorem updCmd_objs (tag : Nat) (f : Cmd → Cmd) (s : State) : (updCmd tag f s).objs = s.objs := rfl
@[simp] theorem updCmd_inFlight (tag : Nat) (f : Cmd → Cmd) (s : State) : (updCmd tag f s).inFlight = s.inFlight := rfl
@[simp] theorem updCmd_flash (tag : Nat) (f : Cmd → Cmd) (s : State) : (updCmd tag f s).flash = s.flash := rfl
@[simp] theorem updCmd_scan (tag : Nat) (f : Cmd → Cmd) (s : State) : (updCmd tag f s).scan = s.scan := rfl
@[simp] theorem updCmd_ring (tag : Nat) (f : Cmd → Cmd) (s : State) : (updCmd tag f s).ring = s.ring := rfl
@[simp] theorem updCmd_red (tag : Nat) (f : Cmd → Cmd) (s : State) : (updCmd tag f s).red = s.red := rfl
@[simp] theorem updCmd_ef (tag : Nat) (f : Cmd → Cmd) (s : State) : (updCmd tag f s).ef = s.ef := rfl
@[simp] theorem updCmd_ctrl (tag : Nat) (f : Cmd → Cmd) (s : State) : (updCmd tag f s).ctrl = s.ctrl := rfl
@[simp] theorem updCmd_scrub (tag : Nat) (f : Cmd → Cmd) (s : State) : (updCmd tag f s).scrub = s.scrub := rfl
@[simp] theorem updCmd_hbmRest (tag : Nat) (f : Cmd → Cmd) (s : State) : (updCmd tag f s).hbmRest = s.hbmRest := rfl
@[simp] theorem updCmd_idle (tag : Nat) (f : Cmd → Cmd) (s : State) : (updCmd tag f s).idle = s.idle := rfl
@[simp] theorem updCmd_logs (tag : Nat) (f : Cmd → Cmd) (s : State) : (updCmd tag f s).logs = s.logs := rfl

/-! ### `completeWith`: only the host interface changes -/

@[simp] theorem completeWith_pending (tag : Nat) (st : Status) (res : List (Nat × List Byte)) (s : State) : (completeWith tag st res s).pending = s.pending := by unfold completeWith; split <;> rfl
@[simp] theorem completeWith_nonce (tag : Nat) (st : Status) (res : List (Nat × List Byte)) (s : State) : (completeWith tag st res s).nonce = s.nonce := by unfold completeWith; split <;> rfl
@[simp] theorem completeWith_part (tag : Nat) (st : Status) (res : List (Nat × List Byte)) (s : State) : (completeWith tag st res s).part = s.part := by unfold completeWith; split <;> rfl
@[simp] theorem completeWith_uid (tag : Nat) (st : Status) (res : List (Nat × List Byte)) (s : State) : (completeWith tag st res s).uid = s.uid := by unfold completeWith; split <;> rfl
@[simp] theorem completeWith_pcie (tag : Nat) (st : Status) (res : List (Nat × List Byte)) (s : State) : (completeWith tag st res s).pcie = s.pcie := by unfold completeWith; split <;> rfl
@[simp] theorem completeWith_arb (tag : Nat) (st : Status) (res : List (Nat × List Byte)) (s : State) : (completeWith tag st res s).arb = s.arb := by unfold completeWith; split <;> rfl
@[simp] theorem completeWith_frame (tag : Nat) (st : Status) (res : List (Nat × List Byte)) (s : State) : (completeWith tag st res s).frame = s.frame := by unfold completeWith; split <;> rfl
@[simp] theorem completeWith_power (tag : Nat) (st : Status) (res : List (Nat × List Byte)) (s : State) : (completeWith tag st res s).power = s.power := by unfold completeWith; split <;> rfl
@[simp] theorem completeWith_sec (tag : Nat) (st : Status) (res : List (Nat × List Byte)) (s : State) : (completeWith tag st res s).sec = s.sec := by unfold completeWith; split <;> rfl
@[simp] theorem completeWith_ctxs (tag : Nat) (st : Status) (res : List (Nat × List Byte)) (s : State) : (completeWith tag st res s).ctxs = s.ctxs := by unfold completeWith; split <;> rfl
@[simp] theorem completeWith_swaps (tag : Nat) (st : Status) (res : List (Nat × List Byte)) (s : State) : (completeWith tag st res s).swaps = s.swaps := by unfold completeWith; split <;> rfl
@[simp] theorem completeWith_phys (tag : Nat) (st : Status) (res : List (Nat × List Byte)) (s : State) : (completeWith tag st res s).phys = s.phys := by unfold completeWith; split <;> rfl
@[simp] theorem completeWith_objs (tag : Nat) (st : Status) (res : List (Nat × List Byte)) (s : State) : (completeWith tag st res s).objs = s.objs := by unfold completeWith; split <;> rfl
@[simp] theorem completeWith_inFlight (tag : Nat) (st : Status) (res : List (Nat × List Byte)) (s : State) : (completeWith tag st res s).inFlight = s.inFlight := by unfold completeWith; split <;> rfl
@[simp] theorem completeWith_flash (tag : Nat) (st : Status) (res : List (Nat × List Byte)) (s : State) : (completeWith tag st res s).flash = s.flash := by unfold completeWith; split <;> rfl
@[simp] theorem completeWith_scan (tag : Nat) (st : Status) (res : List (Nat × List Byte)) (s : State) : (completeWith tag st res s).scan = s.scan := by unfold completeWith; split <;> rfl
@[simp] theorem completeWith_ring (tag : Nat) (st : Status) (res : List (Nat × List Byte)) (s : State) : (completeWith tag st res s).ring = s.ring := by unfold completeWith; split <;> rfl
@[simp] theorem completeWith_red (tag : Nat) (st : Status) (res : List (Nat × List Byte)) (s : State) : (completeWith tag st res s).red = s.red := by unfold completeWith; split <;> rfl
@[simp] theorem completeWith_ef (tag : Nat) (st : Status) (res : List (Nat × List Byte)) (s : State) : (completeWith tag st res s).ef = s.ef := by unfold completeWith; split <;> rfl
@[simp] theorem completeWith_ctrl (tag : Nat) (st : Status) (res : List (Nat × List Byte)) (s : State) : (completeWith tag st res s).ctrl = s.ctrl := by unfold completeWith; split <;> rfl
@[simp] theorem completeWith_scrub (tag : Nat) (st : Status) (res : List (Nat × List Byte)) (s : State) : (completeWith tag st res s).scrub = s.scrub := by unfold completeWith; split <;> rfl
@[simp] theorem completeWith_hbmRest (tag : Nat) (st : Status) (res : List (Nat × List Byte)) (s : State) : (completeWith tag st res s).hbmRest = s.hbmRest := by unfold completeWith; split <;> rfl
@[simp] theorem completeWith_idle (tag : Nat) (st : Status) (res : List (Nat × List Byte)) (s : State) : (completeWith tag st res s).idle = s.idle := by unfold completeWith; split <;> rfl
@[simp] theorem completeWith_logs (tag : Nat) (st : Status) (res : List (Nat × List Byte)) (s : State) : (completeWith tag st res s).logs = s.logs := by unfold completeWith; split <;> rfl

/-! ### `complete`: only the host interface changes -/

@[simp] theorem complete_pending (tag : Nat) (st : Status) (s : State) : (complete tag st s).pending = s.pending := by unfold complete; simp
@[simp] theorem complete_nonce (tag : Nat) (st : Status) (s : State) : (complete tag st s).nonce = s.nonce := by unfold complete; simp
@[simp] theorem complete_part (tag : Nat) (st : Status) (s : State) : (complete tag st s).part = s.part := by unfold complete; simp
@[simp] theorem complete_uid (tag : Nat) (st : Status) (s : State) : (complete tag st s).uid = s.uid := by unfold complete; simp
@[simp] theorem complete_pcie (tag : Nat) (st : Status) (s : State) : (complete tag st s).pcie = s.pcie := by unfold complete; simp
@[simp] theorem complete_arb (tag : Nat) (st : Status) (s : State) : (complete tag st s).arb = s.arb := by unfold complete; simp
@[simp] theorem complete_frame (tag : Nat) (st : Status) (s : State) : (complete tag st s).frame = s.frame := by unfold complete; simp
@[simp] theorem complete_power (tag : Nat) (st : Status) (s : State) : (complete tag st s).power = s.power := by unfold complete; simp
@[simp] theorem complete_sec (tag : Nat) (st : Status) (s : State) : (complete tag st s).sec = s.sec := by unfold complete; simp
@[simp] theorem complete_ctxs (tag : Nat) (st : Status) (s : State) : (complete tag st s).ctxs = s.ctxs := by unfold complete; simp
@[simp] theorem complete_swaps (tag : Nat) (st : Status) (s : State) : (complete tag st s).swaps = s.swaps := by unfold complete; simp
@[simp] theorem complete_phys (tag : Nat) (st : Status) (s : State) : (complete tag st s).phys = s.phys := by unfold complete; simp
@[simp] theorem complete_objs (tag : Nat) (st : Status) (s : State) : (complete tag st s).objs = s.objs := by unfold complete; simp
@[simp] theorem complete_inFlight (tag : Nat) (st : Status) (s : State) : (complete tag st s).inFlight = s.inFlight := by unfold complete; simp
@[simp] theorem complete_flash (tag : Nat) (st : Status) (s : State) : (complete tag st s).flash = s.flash := by unfold complete; simp
@[simp] theorem complete_scan (tag : Nat) (st : Status) (s : State) : (complete tag st s).scan = s.scan := by unfold complete; simp
@[simp] theorem complete_ring (tag : Nat) (st : Status) (s : State) : (complete tag st s).ring = s.ring := by unfold complete; simp
@[simp] theorem complete_red (tag : Nat) (st : Status) (s : State) : (complete tag st s).red = s.red := by unfold complete; simp
@[simp] theorem complete_ef (tag : Nat) (st : Status) (s : State) : (complete tag st s).ef = s.ef := by unfold complete; simp
@[simp] theorem complete_ctrl (tag : Nat) (st : Status) (s : State) : (complete tag st s).ctrl = s.ctrl := by unfold complete; simp
@[simp] theorem complete_scrub (tag : Nat) (st : Status) (s : State) : (complete tag st s).scrub = s.scrub := by unfold complete; simp
@[simp] theorem complete_hbmRest (tag : Nat) (st : Status) (s : State) : (complete tag st s).hbmRest = s.hbmRest := by unfold complete; simp
@[simp] theorem complete_idle (tag : Nat) (st : Status) (s : State) : (complete tag st s).idle = s.idle := by unfold complete; simp
@[simp] theorem complete_logs (tag : Nat) (st : Status) (s : State) : (complete tag st s).logs = s.logs := by unfold complete; simp

/-! ### `hostWrite`: only the host interface changes -/

@[simp] theorem hostWrite_pending (a : Nat) (bs : List Byte) (s : State) : (hostWrite a bs s).pending = s.pending := by unfold hostWrite; split <;> rfl
@[simp] theorem hostWrite_nonce (a : Nat) (bs : List Byte) (s : State) : (hostWrite a bs s).nonce = s.nonce := by unfold hostWrite; split <;> rfl
@[simp] theorem hostWrite_part (a : Nat) (bs : List Byte) (s : State) : (hostWrite a bs s).part = s.part := by unfold hostWrite; split <;> rfl
@[simp] theorem hostWrite_uid (a : Nat) (bs : List Byte) (s : State) : (hostWrite a bs s).uid = s.uid := by unfold hostWrite; split <;> rfl
@[simp] theorem hostWrite_pcie (a : Nat) (bs : List Byte) (s : State) : (hostWrite a bs s).pcie = s.pcie := by unfold hostWrite; split <;> rfl
@[simp] theorem hostWrite_arb (a : Nat) (bs : List Byte) (s : State) : (hostWrite a bs s).arb = s.arb := by unfold hostWrite; split <;> rfl
@[simp] theorem hostWrite_frame (a : Nat) (bs : List Byte) (s : State) : (hostWrite a bs s).frame = s.frame := by unfold hostWrite; split <;> rfl
@[simp] theorem hostWrite_power (a : Nat) (bs : List Byte) (s : State) : (hostWrite a bs s).power = s.power := by unfold hostWrite; split <;> rfl
@[simp] theorem hostWrite_sec (a : Nat) (bs : List Byte) (s : State) : (hostWrite a bs s).sec = s.sec := by unfold hostWrite; split <;> rfl
@[simp] theorem hostWrite_ctxs (a : Nat) (bs : List Byte) (s : State) : (hostWrite a bs s).ctxs = s.ctxs := by unfold hostWrite; split <;> rfl
@[simp] theorem hostWrite_swaps (a : Nat) (bs : List Byte) (s : State) : (hostWrite a bs s).swaps = s.swaps := by unfold hostWrite; split <;> rfl
@[simp] theorem hostWrite_phys (a : Nat) (bs : List Byte) (s : State) : (hostWrite a bs s).phys = s.phys := by unfold hostWrite; split <;> rfl
@[simp] theorem hostWrite_objs (a : Nat) (bs : List Byte) (s : State) : (hostWrite a bs s).objs = s.objs := by unfold hostWrite; split <;> rfl
@[simp] theorem hostWrite_inFlight (a : Nat) (bs : List Byte) (s : State) : (hostWrite a bs s).inFlight = s.inFlight := by unfold hostWrite; split <;> rfl
@[simp] theorem hostWrite_flash (a : Nat) (bs : List Byte) (s : State) : (hostWrite a bs s).flash = s.flash := by unfold hostWrite; split <;> rfl
@[simp] theorem hostWrite_scan (a : Nat) (bs : List Byte) (s : State) : (hostWrite a bs s).scan = s.scan := by unfold hostWrite; split <;> rfl
@[simp] theorem hostWrite_ring (a : Nat) (bs : List Byte) (s : State) : (hostWrite a bs s).ring = s.ring := by unfold hostWrite; split <;> rfl
@[simp] theorem hostWrite_red (a : Nat) (bs : List Byte) (s : State) : (hostWrite a bs s).red = s.red := by unfold hostWrite; split <;> rfl
@[simp] theorem hostWrite_ef (a : Nat) (bs : List Byte) (s : State) : (hostWrite a bs s).ef = s.ef := by unfold hostWrite; split <;> rfl
@[simp] theorem hostWrite_ctrl (a : Nat) (bs : List Byte) (s : State) : (hostWrite a bs s).ctrl = s.ctrl := by unfold hostWrite; split <;> rfl
@[simp] theorem hostWrite_scrub (a : Nat) (bs : List Byte) (s : State) : (hostWrite a bs s).scrub = s.scrub := by unfold hostWrite; split <;> rfl
@[simp] theorem hostWrite_hbmRest (a : Nat) (bs : List Byte) (s : State) : (hostWrite a bs s).hbmRest = s.hbmRest := by unfold hostWrite; split <;> rfl
@[simp] theorem hostWrite_idle (a : Nat) (bs : List Byte) (s : State) : (hostWrite a bs s).idle = s.idle := by unfold hostWrite; split <;> rfl
@[simp] theorem hostWrite_logs (a : Nat) (bs : List Byte) (s : State) : (hostWrite a bs s).logs = s.logs := by unfold hostWrite; split <;> rfl

/-! ### `bump`: only the free-value counter changes -/

@[simp] theorem bump_pending (s : State) : (bump s).pending = s.pending := rfl
@[simp] theorem bump_part (s : State) : (bump s).part = s.part := rfl
@[simp] theorem bump_uid (s : State) : (bump s).uid = s.uid := rfl
@[simp] theorem bump_pcie (s : State) : (bump s).pcie = s.pcie := rfl
@[simp] theorem bump_host (s : State) : (bump s).host = s.host := rfl
@[simp] theorem bump_arb (s : State) : (bump s).arb = s.arb := rfl
@[simp] theorem bump_frame (s : State) : (bump s).frame = s.frame := rfl
@[simp] theorem bump_power (s : State) : (bump s).power = s.power := rfl
@[simp] theorem bump_sec (s : State) : (bump s).sec = s.sec := rfl
@[simp] theorem bump_ctxs (s : State) : (bump s).ctxs = s.ctxs := rfl
@[simp] theorem bump_swaps (s : State) : (bump s).swaps = s.swaps := rfl
@[simp] theorem bump_phys (s : State) : (bump s).phys = s.phys := rfl
@[simp] theorem bump_objs (s : State) : (bump s).objs = s.objs := rfl
@[simp] theorem bump_inFlight (s : State) : (bump s).inFlight = s.inFlight := rfl
@[simp] theorem bump_flash (s : State) : (bump s).flash = s.flash := rfl
@[simp] theorem bump_scan (s : State) : (bump s).scan = s.scan := rfl
@[simp] theorem bump_ring (s : State) : (bump s).ring = s.ring := rfl
@[simp] theorem bump_red (s : State) : (bump s).red = s.red := rfl
@[simp] theorem bump_ef (s : State) : (bump s).ef = s.ef := rfl
@[simp] theorem bump_ctrl (s : State) : (bump s).ctrl = s.ctrl := rfl
@[simp] theorem bump_scrub (s : State) : (bump s).scrub = s.scrub := rfl
@[simp] theorem bump_hbmRest (s : State) : (bump s).hbmRest = s.hbmRest := rfl
@[simp] theorem bump_idle (s : State) : (bump s).idle = s.idle := rfl
@[simp] theorem bump_logs (s : State) : (bump s).logs = s.logs := rfl

/-! ### `logEvent`: only the logs change -/

@[simp] theorem logEvent_pending (a b c d e f g h : Nat) (s : State) : (logEvent a b c d e f g h s).pending = s.pending := rfl
@[simp] theorem logEvent_nonce (a b c d e f g h : Nat) (s : State) : (logEvent a b c d e f g h s).nonce = s.nonce := rfl
@[simp] theorem logEvent_part (a b c d e f g h : Nat) (s : State) : (logEvent a b c d e f g h s).part = s.part := rfl
@[simp] theorem logEvent_uid (a b c d e f g h : Nat) (s : State) : (logEvent a b c d e f g h s).uid = s.uid := rfl
@[simp] theorem logEvent_pcie (a b c d e f g h : Nat) (s : State) : (logEvent a b c d e f g h s).pcie = s.pcie := rfl
@[simp] theorem logEvent_host (a b c d e f g h : Nat) (s : State) : (logEvent a b c d e f g h s).host = s.host := rfl
@[simp] theorem logEvent_arb (a b c d e f g h : Nat) (s : State) : (logEvent a b c d e f g h s).arb = s.arb := rfl
@[simp] theorem logEvent_frame (a b c d e f g h : Nat) (s : State) : (logEvent a b c d e f g h s).frame = s.frame := rfl
@[simp] theorem logEvent_power (a b c d e f g h : Nat) (s : State) : (logEvent a b c d e f g h s).power = s.power := rfl
@[simp] theorem logEvent_sec (a b c d e f g h : Nat) (s : State) : (logEvent a b c d e f g h s).sec = s.sec := rfl
@[simp] theorem logEvent_ctxs (a b c d e f g h : Nat) (s : State) : (logEvent a b c d e f g h s).ctxs = s.ctxs := rfl
@[simp] theorem logEvent_swaps (a b c d e f g h : Nat) (s : State) : (logEvent a b c d e f g h s).swaps = s.swaps := rfl
@[simp] theorem logEvent_phys (a b c d e f g h : Nat) (s : State) : (logEvent a b c d e f g h s).phys = s.phys := rfl
@[simp] theorem logEvent_objs (a b c d e f g h : Nat) (s : State) : (logEvent a b c d e f g h s).objs = s.objs := rfl
@[simp] theorem logEvent_inFlight (a b c d e f g h : Nat) (s : State) : (logEvent a b c d e f g h s).inFlight = s.inFlight := rfl
@[simp] theorem logEvent_flash (a b c d e f g h : Nat) (s : State) : (logEvent a b c d e f g h s).flash = s.flash := rfl
@[simp] theorem logEvent_scan (a b c d e f g h : Nat) (s : State) : (logEvent a b c d e f g h s).scan = s.scan := rfl
@[simp] theorem logEvent_ring (a b c d e f g h : Nat) (s : State) : (logEvent a b c d e f g h s).ring = s.ring := rfl
@[simp] theorem logEvent_red (a b c d e f g h : Nat) (s : State) : (logEvent a b c d e f g h s).red = s.red := rfl
@[simp] theorem logEvent_ef (a b c d e f g h : Nat) (s : State) : (logEvent a b c d e f g h s).ef = s.ef := rfl
@[simp] theorem logEvent_ctrl (a b c d e f g h : Nat) (s : State) : (logEvent a b c d e f g h s).ctrl = s.ctrl := rfl
@[simp] theorem logEvent_scrub (a b c d e f g h : Nat) (s : State) : (logEvent a b c d e f g h s).scrub = s.scrub := rfl
@[simp] theorem logEvent_hbmRest (a b c d e f g h : Nat) (s : State) : (logEvent a b c d e f g h s).hbmRest = s.hbmRest := rfl
@[simp] theorem logEvent_idle (a b c d e f g h : Nat) (s : State) : (logEvent a b c d e f g h s).idle = s.idle := rfl

/-! ### `logBy`: only the logs change -/

@[simp] theorem logBy_pending (a b c d e f g : Nat) (s : State) : (logBy a b c d e f g s).pending = s.pending := rfl
@[simp] theorem logBy_nonce (a b c d e f g : Nat) (s : State) : (logBy a b c d e f g s).nonce = s.nonce := rfl
@[simp] theorem logBy_part (a b c d e f g : Nat) (s : State) : (logBy a b c d e f g s).part = s.part := rfl
@[simp] theorem logBy_uid (a b c d e f g : Nat) (s : State) : (logBy a b c d e f g s).uid = s.uid := rfl
@[simp] theorem logBy_pcie (a b c d e f g : Nat) (s : State) : (logBy a b c d e f g s).pcie = s.pcie := rfl
@[simp] theorem logBy_host (a b c d e f g : Nat) (s : State) : (logBy a b c d e f g s).host = s.host := rfl
@[simp] theorem logBy_arb (a b c d e f g : Nat) (s : State) : (logBy a b c d e f g s).arb = s.arb := rfl
@[simp] theorem logBy_frame (a b c d e f g : Nat) (s : State) : (logBy a b c d e f g s).frame = s.frame := rfl
@[simp] theorem logBy_power (a b c d e f g : Nat) (s : State) : (logBy a b c d e f g s).power = s.power := rfl
@[simp] theorem logBy_sec (a b c d e f g : Nat) (s : State) : (logBy a b c d e f g s).sec = s.sec := rfl
@[simp] theorem logBy_ctxs (a b c d e f g : Nat) (s : State) : (logBy a b c d e f g s).ctxs = s.ctxs := rfl
@[simp] theorem logBy_swaps (a b c d e f g : Nat) (s : State) : (logBy a b c d e f g s).swaps = s.swaps := rfl
@[simp] theorem logBy_phys (a b c d e f g : Nat) (s : State) : (logBy a b c d e f g s).phys = s.phys := rfl
@[simp] theorem logBy_objs (a b c d e f g : Nat) (s : State) : (logBy a b c d e f g s).objs = s.objs := rfl
@[simp] theorem logBy_inFlight (a b c d e f g : Nat) (s : State) : (logBy a b c d e f g s).inFlight = s.inFlight := rfl
@[simp] theorem logBy_flash (a b c d e f g : Nat) (s : State) : (logBy a b c d e f g s).flash = s.flash := rfl
@[simp] theorem logBy_scan (a b c d e f g : Nat) (s : State) : (logBy a b c d e f g s).scan = s.scan := rfl
@[simp] theorem logBy_ring (a b c d e f g : Nat) (s : State) : (logBy a b c d e f g s).ring = s.ring := rfl
@[simp] theorem logBy_red (a b c d e f g : Nat) (s : State) : (logBy a b c d e f g s).red = s.red := rfl
@[simp] theorem logBy_ef (a b c d e f g : Nat) (s : State) : (logBy a b c d e f g s).ef = s.ef := rfl
@[simp] theorem logBy_ctrl (a b c d e f g : Nat) (s : State) : (logBy a b c d e f g s).ctrl = s.ctrl := rfl
@[simp] theorem logBy_scrub (a b c d e f g : Nat) (s : State) : (logBy a b c d e f g s).scrub = s.scrub := rfl
@[simp] theorem logBy_hbmRest (a b c d e f g : Nat) (s : State) : (logBy a b c d e f g s).hbmRest = s.hbmRest := rfl
@[simp] theorem logBy_idle (a b c d e f g : Nat) (s : State) : (logBy a b c d e f g s).idle = s.idle := rfl

/-! ### `countFor`: only the contexts and the logs change -/

@[simp] theorem countFor_pending (n : Nat) (c : Count) (s : State) : (countFor n c s).pending = s.pending := rfl
@[simp] theorem countFor_nonce (n : Nat) (c : Count) (s : State) : (countFor n c s).nonce = s.nonce := rfl
@[simp] theorem countFor_part (n : Nat) (c : Count) (s : State) : (countFor n c s).part = s.part := rfl
@[simp] theorem countFor_uid (n : Nat) (c : Count) (s : State) : (countFor n c s).uid = s.uid := rfl
@[simp] theorem countFor_pcie (n : Nat) (c : Count) (s : State) : (countFor n c s).pcie = s.pcie := rfl
@[simp] theorem countFor_host (n : Nat) (c : Count) (s : State) : (countFor n c s).host = s.host := rfl
@[simp] theorem countFor_arb (n : Nat) (c : Count) (s : State) : (countFor n c s).arb = s.arb := rfl
@[simp] theorem countFor_frame (n : Nat) (c : Count) (s : State) : (countFor n c s).frame = s.frame := rfl
@[simp] theorem countFor_power (n : Nat) (c : Count) (s : State) : (countFor n c s).power = s.power := rfl
@[simp] theorem countFor_sec (n : Nat) (c : Count) (s : State) : (countFor n c s).sec = s.sec := rfl
@[simp] theorem countFor_swaps (n : Nat) (c : Count) (s : State) : (countFor n c s).swaps = s.swaps := rfl
@[simp] theorem countFor_phys (n : Nat) (c : Count) (s : State) : (countFor n c s).phys = s.phys := rfl
@[simp] theorem countFor_objs (n : Nat) (c : Count) (s : State) : (countFor n c s).objs = s.objs := rfl
@[simp] theorem countFor_inFlight (n : Nat) (c : Count) (s : State) : (countFor n c s).inFlight = s.inFlight := rfl
@[simp] theorem countFor_flash (n : Nat) (c : Count) (s : State) : (countFor n c s).flash = s.flash := rfl
@[simp] theorem countFor_scan (n : Nat) (c : Count) (s : State) : (countFor n c s).scan = s.scan := rfl
@[simp] theorem countFor_ring (n : Nat) (c : Count) (s : State) : (countFor n c s).ring = s.ring := rfl
@[simp] theorem countFor_red (n : Nat) (c : Count) (s : State) : (countFor n c s).red = s.red := rfl
@[simp] theorem countFor_ef (n : Nat) (c : Count) (s : State) : (countFor n c s).ef = s.ef := rfl
@[simp] theorem countFor_ctrl (n : Nat) (c : Count) (s : State) : (countFor n c s).ctrl = s.ctrl := rfl
@[simp] theorem countFor_scrub (n : Nat) (c : Count) (s : State) : (countFor n c s).scrub = s.scrub := rfl
@[simp] theorem countFor_hbmRest (n : Nat) (c : Count) (s : State) : (countFor n c s).hbmRest = s.hbmRest := rfl
@[simp] theorem countFor_idle (n : Nat) (c : Count) (s : State) : (countFor n c s).idle = s.idle := rfl

/-! ### `updObj`: only the objects change -/

@[simp] theorem updObj_pending (id : Nat) (f : Obj → Obj) (s : State) : (updObj id f s).pending = s.pending := by unfold updObj; split <;> rfl
@[simp] theorem updObj_nonce (id : Nat) (f : Obj → Obj) (s : State) : (updObj id f s).nonce = s.nonce := by unfold updObj; split <;> rfl
@[simp] theorem updObj_part (id : Nat) (f : Obj → Obj) (s : State) : (updObj id f s).part = s.part := by unfold updObj; split <;> rfl
@[simp] theorem updObj_uid (id : Nat) (f : Obj → Obj) (s : State) : (updObj id f s).uid = s.uid := by unfold updObj; split <;> rfl
@[simp] theorem updObj_pcie (id : Nat) (f : Obj → Obj) (s : State) : (updObj id f s).pcie = s.pcie := by unfold updObj; split <;> rfl
@[simp] theorem updObj_host (id : Nat) (f : Obj → Obj) (s : State) : (updObj id f s).host = s.host := by unfold updObj; split <;> rfl
@[simp] theorem updObj_arb (id : Nat) (f : Obj → Obj) (s : State) : (updObj id f s).arb = s.arb := by unfold updObj; split <;> rfl
@[simp] theorem updObj_frame (id : Nat) (f : Obj → Obj) (s : State) : (updObj id f s).frame = s.frame := by unfold updObj; split <;> rfl
@[simp] theorem updObj_power (id : Nat) (f : Obj → Obj) (s : State) : (updObj id f s).power = s.power := by unfold updObj; split <;> rfl
@[simp] theorem updObj_sec (id : Nat) (f : Obj → Obj) (s : State) : (updObj id f s).sec = s.sec := by unfold updObj; split <;> rfl
@[simp] theorem updObj_ctxs (id : Nat) (f : Obj → Obj) (s : State) : (updObj id f s).ctxs = s.ctxs := by unfold updObj; split <;> rfl
@[simp] theorem updObj_swaps (id : Nat) (f : Obj → Obj) (s : State) : (updObj id f s).swaps = s.swaps := by unfold updObj; split <;> rfl
@[simp] theorem updObj_phys (id : Nat) (f : Obj → Obj) (s : State) : (updObj id f s).phys = s.phys := by unfold updObj; split <;> rfl
@[simp] theorem updObj_inFlight (id : Nat) (f : Obj → Obj) (s : State) : (updObj id f s).inFlight = s.inFlight := by unfold updObj; split <;> rfl
@[simp] theorem updObj_flash (id : Nat) (f : Obj → Obj) (s : State) : (updObj id f s).flash = s.flash := by unfold updObj; split <;> rfl
@[simp] theorem updObj_scan (id : Nat) (f : Obj → Obj) (s : State) : (updObj id f s).scan = s.scan := by unfold updObj; split <;> rfl
@[simp] theorem updObj_ring (id : Nat) (f : Obj → Obj) (s : State) : (updObj id f s).ring = s.ring := by unfold updObj; split <;> rfl
@[simp] theorem updObj_red (id : Nat) (f : Obj → Obj) (s : State) : (updObj id f s).red = s.red := by unfold updObj; split <;> rfl
@[simp] theorem updObj_ef (id : Nat) (f : Obj → Obj) (s : State) : (updObj id f s).ef = s.ef := by unfold updObj; split <;> rfl
@[simp] theorem updObj_ctrl (id : Nat) (f : Obj → Obj) (s : State) : (updObj id f s).ctrl = s.ctrl := by unfold updObj; split <;> rfl
@[simp] theorem updObj_scrub (id : Nat) (f : Obj → Obj) (s : State) : (updObj id f s).scrub = s.scrub := by unfold updObj; split <;> rfl
@[simp] theorem updObj_hbmRest (id : Nat) (f : Obj → Obj) (s : State) : (updObj id f s).hbmRest = s.hbmRest := by unfold updObj; split <;> rfl
@[simp] theorem updObj_idle (id : Nat) (f : Obj → Obj) (s : State) : (updObj id f s).idle = s.idle := by unfold updObj; split <;> rfl
@[simp] theorem updObj_logs (id : Nat) (f : Obj → Obj) (s : State) : (updObj id f s).logs = s.logs := by unfold updObj; split <;> rfl

/-! ### `updObjs`: only the objects change -/

@[simp] theorem updObjs_pending (n : Nat) (f : Nat → Obj → Obj) (s : State) : (updObjs n f s).pending = s.pending := rfl
@[simp] theorem updObjs_nonce (n : Nat) (f : Nat → Obj → Obj) (s : State) : (updObjs n f s).nonce = s.nonce := rfl
@[simp] theorem updObjs_part (n : Nat) (f : Nat → Obj → Obj) (s : State) : (updObjs n f s).part = s.part := rfl
@[simp] theorem updObjs_uid (n : Nat) (f : Nat → Obj → Obj) (s : State) : (updObjs n f s).uid = s.uid := rfl
@[simp] theorem updObjs_pcie (n : Nat) (f : Nat → Obj → Obj) (s : State) : (updObjs n f s).pcie = s.pcie := rfl
@[simp] theorem updObjs_host (n : Nat) (f : Nat → Obj → Obj) (s : State) : (updObjs n f s).host = s.host := rfl
@[simp] theorem updObjs_arb (n : Nat) (f : Nat → Obj → Obj) (s : State) : (updObjs n f s).arb = s.arb := rfl
@[simp] theorem updObjs_frame (n : Nat) (f : Nat → Obj → Obj) (s : State) : (updObjs n f s).frame = s.frame := rfl
@[simp] theorem updObjs_power (n : Nat) (f : Nat → Obj → Obj) (s : State) : (updObjs n f s).power = s.power := rfl
@[simp] theorem updObjs_sec (n : Nat) (f : Nat → Obj → Obj) (s : State) : (updObjs n f s).sec = s.sec := rfl
@[simp] theorem updObjs_ctxs (n : Nat) (f : Nat → Obj → Obj) (s : State) : (updObjs n f s).ctxs = s.ctxs := rfl
@[simp] theorem updObjs_swaps (n : Nat) (f : Nat → Obj → Obj) (s : State) : (updObjs n f s).swaps = s.swaps := rfl
@[simp] theorem updObjs_phys (n : Nat) (f : Nat → Obj → Obj) (s : State) : (updObjs n f s).phys = s.phys := rfl
@[simp] theorem updObjs_inFlight (n : Nat) (f : Nat → Obj → Obj) (s : State) : (updObjs n f s).inFlight = s.inFlight := rfl
@[simp] theorem updObjs_flash (n : Nat) (f : Nat → Obj → Obj) (s : State) : (updObjs n f s).flash = s.flash := rfl
@[simp] theorem updObjs_scan (n : Nat) (f : Nat → Obj → Obj) (s : State) : (updObjs n f s).scan = s.scan := rfl
@[simp] theorem updObjs_ring (n : Nat) (f : Nat → Obj → Obj) (s : State) : (updObjs n f s).ring = s.ring := rfl
@[simp] theorem updObjs_red (n : Nat) (f : Nat → Obj → Obj) (s : State) : (updObjs n f s).red = s.red := rfl
@[simp] theorem updObjs_ef (n : Nat) (f : Nat → Obj → Obj) (s : State) : (updObjs n f s).ef = s.ef := rfl
@[simp] theorem updObjs_ctrl (n : Nat) (f : Nat → Obj → Obj) (s : State) : (updObjs n f s).ctrl = s.ctrl := rfl
@[simp] theorem updObjs_scrub (n : Nat) (f : Nat → Obj → Obj) (s : State) : (updObjs n f s).scrub = s.scrub := rfl
@[simp] theorem updObjs_hbmRest (n : Nat) (f : Nat → Obj → Obj) (s : State) : (updObjs n f s).hbmRest = s.hbmRest := rfl
@[simp] theorem updObjs_idle (n : Nat) (f : Nat → Obj → Obj) (s : State) : (updObjs n f s).idle = s.idle := rfl
@[simp] theorem updObjs_logs (n : Nat) (f : Nat → Obj → Obj) (s : State) : (updObjs n f s).logs = s.logs := rfl

/-! ### `updSuper`: only the flash changes -/

@[simp] theorem updSuper_pending (ch die n : Nat) (f : Super → Super) (s : State) : (updSuper ch die n f s).pending = s.pending := rfl
@[simp] theorem updSuper_nonce (ch die n : Nat) (f : Super → Super) (s : State) : (updSuper ch die n f s).nonce = s.nonce := rfl
@[simp] theorem updSuper_part (ch die n : Nat) (f : Super → Super) (s : State) : (updSuper ch die n f s).part = s.part := rfl
@[simp] theorem updSuper_uid (ch die n : Nat) (f : Super → Super) (s : State) : (updSuper ch die n f s).uid = s.uid := rfl
@[simp] theorem updSuper_pcie (ch die n : Nat) (f : Super → Super) (s : State) : (updSuper ch die n f s).pcie = s.pcie := rfl
@[simp] theorem updSuper_host (ch die n : Nat) (f : Super → Super) (s : State) : (updSuper ch die n f s).host = s.host := rfl
@[simp] theorem updSuper_arb (ch die n : Nat) (f : Super → Super) (s : State) : (updSuper ch die n f s).arb = s.arb := rfl
@[simp] theorem updSuper_frame (ch die n : Nat) (f : Super → Super) (s : State) : (updSuper ch die n f s).frame = s.frame := rfl
@[simp] theorem updSuper_power (ch die n : Nat) (f : Super → Super) (s : State) : (updSuper ch die n f s).power = s.power := rfl
@[simp] theorem updSuper_sec (ch die n : Nat) (f : Super → Super) (s : State) : (updSuper ch die n f s).sec = s.sec := rfl
@[simp] theorem updSuper_ctxs (ch die n : Nat) (f : Super → Super) (s : State) : (updSuper ch die n f s).ctxs = s.ctxs := rfl
@[simp] theorem updSuper_swaps (ch die n : Nat) (f : Super → Super) (s : State) : (updSuper ch die n f s).swaps = s.swaps := rfl
@[simp] theorem updSuper_phys (ch die n : Nat) (f : Super → Super) (s : State) : (updSuper ch die n f s).phys = s.phys := rfl
@[simp] theorem updSuper_objs (ch die n : Nat) (f : Super → Super) (s : State) : (updSuper ch die n f s).objs = s.objs := rfl
@[simp] theorem updSuper_inFlight (ch die n : Nat) (f : Super → Super) (s : State) : (updSuper ch die n f s).inFlight = s.inFlight := rfl
@[simp] theorem updSuper_scan (ch die n : Nat) (f : Super → Super) (s : State) : (updSuper ch die n f s).scan = s.scan := rfl
@[simp] theorem updSuper_ring (ch die n : Nat) (f : Super → Super) (s : State) : (updSuper ch die n f s).ring = s.ring := rfl
@[simp] theorem updSuper_red (ch die n : Nat) (f : Super → Super) (s : State) : (updSuper ch die n f s).red = s.red := rfl
@[simp] theorem updSuper_ef (ch die n : Nat) (f : Super → Super) (s : State) : (updSuper ch die n f s).ef = s.ef := rfl
@[simp] theorem updSuper_ctrl (ch die n : Nat) (f : Super → Super) (s : State) : (updSuper ch die n f s).ctrl = s.ctrl := rfl
@[simp] theorem updSuper_scrub (ch die n : Nat) (f : Super → Super) (s : State) : (updSuper ch die n f s).scrub = s.scrub := rfl
@[simp] theorem updSuper_hbmRest (ch die n : Nat) (f : Super → Super) (s : State) : (updSuper ch die n f s).hbmRest = s.hbmRest := rfl
@[simp] theorem updSuper_idle (ch die n : Nat) (f : Super → Super) (s : State) : (updSuper ch die n f s).idle = s.idle := rfl
@[simp] theorem updSuper_logs (ch die n : Nat) (f : Super → Super) (s : State) : (updSuper ch die n f s).logs = s.logs := rfl

/-! ### `updDie`: only the flash changes -/

@[simp] theorem updDie_pending (ch die : Nat) (f : Die → Die) (s : State) : (updDie ch die f s).pending = s.pending := rfl
@[simp] theorem updDie_nonce (ch die : Nat) (f : Die → Die) (s : State) : (updDie ch die f s).nonce = s.nonce := rfl
@[simp] theorem updDie_part (ch die : Nat) (f : Die → Die) (s : State) : (updDie ch die f s).part = s.part := rfl
@[simp] theorem updDie_uid (ch die : Nat) (f : Die → Die) (s : State) : (updDie ch die f s).uid = s.uid := rfl
@[simp] theorem updDie_pcie (ch die : Nat) (f : Die → Die) (s : State) : (updDie ch die f s).pcie = s.pcie := rfl
@[simp] theorem updDie_host (ch die : Nat) (f : Die → Die) (s : State) : (updDie ch die f s).host = s.host := rfl
@[simp] theorem updDie_arb (ch die : Nat) (f : Die → Die) (s : State) : (updDie ch die f s).arb = s.arb := rfl
@[simp] theorem updDie_frame (ch die : Nat) (f : Die → Die) (s : State) : (updDie ch die f s).frame = s.frame := rfl
@[simp] theorem updDie_power (ch die : Nat) (f : Die → Die) (s : State) : (updDie ch die f s).power = s.power := rfl
@[simp] theorem updDie_sec (ch die : Nat) (f : Die → Die) (s : State) : (updDie ch die f s).sec = s.sec := rfl
@[simp] theorem updDie_ctxs (ch die : Nat) (f : Die → Die) (s : State) : (updDie ch die f s).ctxs = s.ctxs := rfl
@[simp] theorem updDie_swaps (ch die : Nat) (f : Die → Die) (s : State) : (updDie ch die f s).swaps = s.swaps := rfl
@[simp] theorem updDie_phys (ch die : Nat) (f : Die → Die) (s : State) : (updDie ch die f s).phys = s.phys := rfl
@[simp] theorem updDie_objs (ch die : Nat) (f : Die → Die) (s : State) : (updDie ch die f s).objs = s.objs := rfl
@[simp] theorem updDie_inFlight (ch die : Nat) (f : Die → Die) (s : State) : (updDie ch die f s).inFlight = s.inFlight := rfl
@[simp] theorem updDie_scan (ch die : Nat) (f : Die → Die) (s : State) : (updDie ch die f s).scan = s.scan := rfl
@[simp] theorem updDie_ring (ch die : Nat) (f : Die → Die) (s : State) : (updDie ch die f s).ring = s.ring := rfl
@[simp] theorem updDie_red (ch die : Nat) (f : Die → Die) (s : State) : (updDie ch die f s).red = s.red := rfl
@[simp] theorem updDie_ef (ch die : Nat) (f : Die → Die) (s : State) : (updDie ch die f s).ef = s.ef := rfl
@[simp] theorem updDie_ctrl (ch die : Nat) (f : Die → Die) (s : State) : (updDie ch die f s).ctrl = s.ctrl := rfl
@[simp] theorem updDie_scrub (ch die : Nat) (f : Die → Die) (s : State) : (updDie ch die f s).scrub = s.scrub := rfl
@[simp] theorem updDie_hbmRest (ch die : Nat) (f : Die → Die) (s : State) : (updDie ch die f s).hbmRest = s.hbmRest := rfl
@[simp] theorem updDie_idle (ch die : Nat) (f : Die → Die) (s : State) : (updDie ch die f s).idle = s.idle := rfl
@[simp] theorem updDie_logs (ch die : Nat) (f : Die → Die) (s : State) : (updDie ch die f s).logs = s.logs := rfl

/-! ### `updPair`: only the rings change -/

@[simp] theorem updPair_pending (p : Nat) (f : Pair → Pair) (s : State) : (updPair p f s).pending = s.pending := rfl
@[simp] theorem updPair_nonce (p : Nat) (f : Pair → Pair) (s : State) : (updPair p f s).nonce = s.nonce := rfl
@[simp] theorem updPair_part (p : Nat) (f : Pair → Pair) (s : State) : (updPair p f s).part = s.part := rfl
@[simp] theorem updPair_uid (p : Nat) (f : Pair → Pair) (s : State) : (updPair p f s).uid = s.uid := rfl
@[simp] theorem updPair_pcie (p : Nat) (f : Pair → Pair) (s : State) : (updPair p f s).pcie = s.pcie := rfl
@[simp] theorem updPair_host (p : Nat) (f : Pair → Pair) (s : State) : (updPair p f s).host = s.host := rfl
@[simp] theorem updPair_arb (p : Nat) (f : Pair → Pair) (s : State) : (updPair p f s).arb = s.arb := rfl
@[simp] theorem updPair_frame (p : Nat) (f : Pair → Pair) (s : State) : (updPair p f s).frame = s.frame := rfl
@[simp] theorem updPair_power (p : Nat) (f : Pair → Pair) (s : State) : (updPair p f s).power = s.power := rfl
@[simp] theorem updPair_sec (p : Nat) (f : Pair → Pair) (s : State) : (updPair p f s).sec = s.sec := rfl
@[simp] theorem updPair_ctxs (p : Nat) (f : Pair → Pair) (s : State) : (updPair p f s).ctxs = s.ctxs := rfl
@[simp] theorem updPair_swaps (p : Nat) (f : Pair → Pair) (s : State) : (updPair p f s).swaps = s.swaps := rfl
@[simp] theorem updPair_phys (p : Nat) (f : Pair → Pair) (s : State) : (updPair p f s).phys = s.phys := rfl
@[simp] theorem updPair_objs (p : Nat) (f : Pair → Pair) (s : State) : (updPair p f s).objs = s.objs := rfl
@[simp] theorem updPair_inFlight (p : Nat) (f : Pair → Pair) (s : State) : (updPair p f s).inFlight = s.inFlight := rfl
@[simp] theorem updPair_flash (p : Nat) (f : Pair → Pair) (s : State) : (updPair p f s).flash = s.flash := rfl
@[simp] theorem updPair_scan (p : Nat) (f : Pair → Pair) (s : State) : (updPair p f s).scan = s.scan := rfl
@[simp] theorem updPair_red (p : Nat) (f : Pair → Pair) (s : State) : (updPair p f s).red = s.red := rfl
@[simp] theorem updPair_ef (p : Nat) (f : Pair → Pair) (s : State) : (updPair p f s).ef = s.ef := rfl
@[simp] theorem updPair_ctrl (p : Nat) (f : Pair → Pair) (s : State) : (updPair p f s).ctrl = s.ctrl := rfl
@[simp] theorem updPair_scrub (p : Nat) (f : Pair → Pair) (s : State) : (updPair p f s).scrub = s.scrub := rfl
@[simp] theorem updPair_hbmRest (p : Nat) (f : Pair → Pair) (s : State) : (updPair p f s).hbmRest = s.hbmRest := rfl
@[simp] theorem updPair_idle (p : Nat) (f : Pair → Pair) (s : State) : (updPair p f s).idle = s.idle := rfl
@[simp] theorem updPair_logs (p : Nat) (f : Pair → Pair) (s : State) : (updPair p f s).logs = s.logs := rfl

/-! ### `updTag`: only the reduction engine changes -/

@[simp] theorem updTag_pending (t : Nat) (f : RedTag → RedTag) (s : State) : (updTag t f s).pending = s.pending := rfl
@[simp] theorem updTag_nonce (t : Nat) (f : RedTag → RedTag) (s : State) : (updTag t f s).nonce = s.nonce := rfl
@[simp] theorem updTag_part (t : Nat) (f : RedTag → RedTag) (s : State) : (updTag t f s).part = s.part := rfl
@[simp] theorem updTag_uid (t : Nat) (f : RedTag → RedTag) (s : State) : (updTag t f s).uid = s.uid := rfl
@[simp] theorem updTag_pcie (t : Nat) (f : RedTag → RedTag) (s : State) : (updTag t f s).pcie = s.pcie := rfl
@[simp] theorem updTag_host (t : Nat) (f : RedTag → RedTag) (s : State) : (updTag t f s).host = s.host := rfl
@[simp] theorem updTag_arb (t : Nat) (f : RedTag → RedTag) (s : State) : (updTag t f s).arb = s.arb := rfl
@[simp] theorem updTag_frame (t : Nat) (f : RedTag → RedTag) (s : State) : (updTag t f s).frame = s.frame := rfl
@[simp] theorem updTag_power (t : Nat) (f : RedTag → RedTag) (s : State) : (updTag t f s).power = s.power := rfl
@[simp] theorem updTag_sec (t : Nat) (f : RedTag → RedTag) (s : State) : (updTag t f s).sec = s.sec := rfl
@[simp] theorem updTag_ctxs (t : Nat) (f : RedTag → RedTag) (s : State) : (updTag t f s).ctxs = s.ctxs := rfl
@[simp] theorem updTag_swaps (t : Nat) (f : RedTag → RedTag) (s : State) : (updTag t f s).swaps = s.swaps := rfl
@[simp] theorem updTag_phys (t : Nat) (f : RedTag → RedTag) (s : State) : (updTag t f s).phys = s.phys := rfl
@[simp] theorem updTag_objs (t : Nat) (f : RedTag → RedTag) (s : State) : (updTag t f s).objs = s.objs := rfl
@[simp] theorem updTag_inFlight (t : Nat) (f : RedTag → RedTag) (s : State) : (updTag t f s).inFlight = s.inFlight := rfl
@[simp] theorem updTag_flash (t : Nat) (f : RedTag → RedTag) (s : State) : (updTag t f s).flash = s.flash := rfl
@[simp] theorem updTag_scan (t : Nat) (f : RedTag → RedTag) (s : State) : (updTag t f s).scan = s.scan := rfl
@[simp] theorem updTag_ring (t : Nat) (f : RedTag → RedTag) (s : State) : (updTag t f s).ring = s.ring := rfl
@[simp] theorem updTag_ef (t : Nat) (f : RedTag → RedTag) (s : State) : (updTag t f s).ef = s.ef := rfl
@[simp] theorem updTag_ctrl (t : Nat) (f : RedTag → RedTag) (s : State) : (updTag t f s).ctrl = s.ctrl := rfl
@[simp] theorem updTag_scrub (t : Nat) (f : RedTag → RedTag) (s : State) : (updTag t f s).scrub = s.scrub := rfl
@[simp] theorem updTag_hbmRest (t : Nat) (f : RedTag → RedTag) (s : State) : (updTag t f s).hbmRest = s.hbmRest := rfl
@[simp] theorem updTag_idle (t : Nat) (f : RedTag → RedTag) (s : State) : (updTag t f s).idle = s.idle := rfl
@[simp] theorem updTag_logs (t : Nat) (f : RedTag → RedTag) (s : State) : (updTag t f s).logs = s.logs := rfl

/-! ### What the accessors read -/

theorem ctxOf_setCtx (n m : Nat) (c : Context) (s : State) : ctxOf (setCtx n c s) m = if m = n then c else ctxOf s m :=
  mapGet_mapSet _ _ _ _ _

@[simp] theorem ctxOf_setCtx_self (n : Nat) (c : Context) (s : State) : ctxOf (setCtx n c s) n = c := by simp [ctxOf_setCtx]

@[simp] theorem ctxOf_setCtx_ne {n m : Nat} (h : m ≠ n) (c : Context) (s : State) : ctxOf (setCtx n c s) m = ctxOf s m := by
  simp [ctxOf_setCtx, h]

@[simp] theorem ctxOf_updCtx_self (n : Nat) (f : Context → Context) (s : State) : ctxOf (updCtx n f s) n = f (ctxOf s n) :=
  ctxOf_setCtx_self _ _ _

@[simp] theorem ctxOf_updCtx_ne {n m : Nat} (h : m ≠ n) (f : Context → Context) (s : State) : ctxOf (updCtx n f s) m = ctxOf s m :=
  ctxOf_setCtx_ne h _ _

@[simp] theorem coreOf_setCore_self (r : CoreRef) (k : Core) (s : State) : coreOf (setCore r k s) r = k := by
  unfold coreOf setCore
  by_cases h : r.sketch <;> simp [h]

@[simp] theorem coreOf_setCore_ne {r q : CoreRef} (h : q ≠ r) (k : Core) (s : State) : coreOf (setCore r k s) q = coreOf s q := by
  obtain ⟨n, sk, l⟩ := r
  obtain ⟨m, sk', l'⟩ := q
  unfold coreOf setCore
  by_cases hn : m = n
  · subst hn
    by_cases hl : l' = l
    · subst hl
      cases sk <;> cases sk' <;> simp_all
    · cases sk <;> cases sk' <;> simp [hl]
  · simp [hn]

@[simp] theorem coreOf_updCore_self (r : CoreRef) (f : Core → Core) (s : State) : coreOf (updCore r f s) r = f (coreOf s r) :=
  coreOf_setCore_self _ _ _

@[simp] theorem coreOf_updCore_ne {r q : CoreRef} (h : q ≠ r) (f : Core → Core) (s : State) :
    coreOf (updCore r f s) q = coreOf s q := coreOf_setCore_ne h _ _

@[simp] theorem ctxOf_setCore_ne {r : CoreRef} {m : Nat} (h : m ≠ r.ctx) (k : Core) (s : State) :
    ctxOf (setCore r k s) m = ctxOf s m := ctxOf_updCtx_ne h _ _

/-- A core update leaves everything of its context but the core tables. -/
theorem ctxOf_setCore_self (r : CoreRef) (k : Core) (s : State) :
    ctxOf (setCore r k s) r.ctx = { ctxOf s r.ctx with cores := (ctxOf (setCore r k s) r.ctx).cores
                                                       sketchCores := (ctxOf (setCore r k s) r.ctx).sketchCores } := by
  unfold setCore
  by_cases h : r.sketch <;> simp [h]

@[simp] theorem clusterOf_updCluster_self (n lc : Nat) (f : Cluster → Cluster) (s : State) :
    clusterOf (updCluster n lc f s) n lc = f (clusterOf s n lc) := by
  simp [clusterOf, updCluster]

@[simp] theorem readReg_zero (k : Core) : readReg k 0 = 0 := rfl

theorem readReg_writeReg (k : Core) (n m : BitVec 5) (v : Word64) :
    readReg (writeReg n v k) m = if m = n ∧ m ≠ 0 then v else readReg k m := by
  by_cases hm : m = 0
  · subst hm; rw [if_neg (fun h => h.2 rfl)]; rfl
  · by_cases hn : n = 0
    · subst hn; rw [if_neg (fun h => h.2 h.1)]; rfl
    · unfold readReg writeReg
      rw [if_neg hm, if_neg hm, if_neg hn]
      by_cases e : m = n
      · subst e; rw [if_pos ⟨rfl, hm⟩]; exact mapGet_mapSet_self _ _ _ _
      · rw [if_neg (fun h => e h.1)]
        exact mapGet_mapSet_ne _ (fun h => e (BitVec.eq_of_toNat_eq h)) _ _

@[simp] theorem objOf_updObj_self (id : Nat) (f : Obj → Obj) (s : State) : objOf (updObj id f s) id = (objOf s id).map f := by
  unfold updObj
  cases h : objOf s id with
  | none => simp [h]
  | some o => simp [objOf]

@[simp] theorem objOf_updObj_ne {id j : Nat} (h : j ≠ id) (f : Obj → Obj) (s : State) : objOf (updObj id f s) j = objOf s j := by
  unfold updObj
  cases e : objOf s id with
  | none => rfl
  | some o => simp [objOf, h]

@[simp] theorem pairOf_updPair_self (p : Nat) (f : Pair → Pair) (s : State) : pairOf (updPair p f s) p = f (pairOf s p) := by
  simp [pairOf, updPair]

@[simp] theorem pairOf_updPair_ne {p q : Nat} (h : q ≠ p) (f : Pair → Pair) (s : State) : pairOf (updPair p f s) q = pairOf s q := by
  simp [pairOf, updPair, h]

@[simp] theorem tagOf_updTag_self (t : Nat) (f : RedTag → RedTag) (s : State) : tagOf (updTag t f s) t = f (tagOf s t) := by
  simp [tagOf, updTag]

@[simp] theorem tagOf_updTag_ne {t u : Nat} (h : u ≠ t) (f : RedTag → RedTag) (s : State) : tagOf (updTag t f s) u = tagOf s u := by
  simp [tagOf, updTag, h]

/-- Completing a command takes it off the outstanding work and enters its record. -/
theorem complete_host {s : State} {tag : Nat} {c : Cmd} (h : cmdOf s tag = some c) (st : Status) :
    (complete tag st s).host = { s.host with cmds := s.host.cmds.filter (fun d => d.tag != tag)
                                             done := s.host.done ++ [recordOf s c st []] } := by
  simp [complete, completeWith, h]

/-- A command that is not outstanding is not completed again (R343). -/
theorem complete_none {s : State} {tag : Nat} (h : cmdOf s tag = none) (st : Status) : complete tag st s = s := by
  simp [complete, completeWith, h]

end Sys2Proof.Machine
end

