-- ==== Sys2Proof/Laws/Ops.lean ====
section
/-! SUPPORT. One lemma per shared operation: the unit guard, issue, retirement, running a host opcode. Cite these in place of unfolding the
operation. -/

namespace Sys2Proof.Machine

/-! ### The unit guard -/

@[simp] theorem unitOp_ok (t : State) : unitOp true t = .next t := rfl

theorem unitOp_of {ok : Bool} (h : ok = true) (t : State) : unitOp ok t = .next t := by simp [unitOp, h]

theorem unitOp_absent {ok : Bool} (h : ok = false) (t : State) : unitOp ok t = .fault .noSuchUnit := by simp [unitOp, h]

theorem unitOp_next {ok : Bool} {t t' : State} : unitOp ok t = .next t' ↔ ok = true ∧ t' = t := by
  unfold unitOp
  split <;> simp_all [eq_comm]

/-! ### Issue and retirement -/

theorem onIssue_issues {s : State} {r : CoreRef} {i : CoreInstr} (h : issues s r i = true) (f : State → State) :
    onIssue r i f s = f s := by simp [onIssue, h]

theorem onIssue_idle {s : State} {r : CoreRef} {i : CoreInstr} (h : fetches s r i = false) (f : State → State) :
    onIssue r i f s = s := by simp [onIssue, issues, h]

/-- An uncorrectable instruction word is MEMORY_ERROR (R305, R310). -/
theorem onIssue_bad {s : State} {r : CoreRef} {i : CoreInstr} (h : fetches s r i = true) (b : fetchBad s r = true) (f : State → State) :
    onIssue r i f s = coreFault r 0x0B ((coreOf s r).pc * 8) (meetPlain (.istore r) srcCore [(coreOf s r).pc] s) := by
  simp [onIssue, issues, h, b]

@[simp] theorem progOf_setCore (r : CoreRef) (k : Core) (s : State) (n : Nat) (sk : Bool) :
    progOf (ctxOf (setCore r k s) n) sk = progOf (ctxOf s n) sk := by
  by_cases h : n = r.ctx
  · subst h; rw [ctxOf_setCore_self]; rfl
  · simp [h]

@[simp] theorem codeLen_setCore (r q : CoreRef) (k : Core) (s : State) : codeLen (setCore r k s) q = codeLen s q := by
  simp [codeLen]

@[simp] theorem setCore_setCore (r : CoreRef) (k l : Core) (s : State) : coreOf (setCore r l (setCore r k s)) r = l := by simp

theorem codeLen_updCore (r q : CoreRef) (f : Core → Core) (s : State) : codeLen (updCore r f s) q = codeLen s q := codeLen_setCore _ _ _ _

/-- A jump inside the image only moves the PC and uses up one instruction of an atomic run. -/
theorem goPc_inside {r : CoreRef} {pc : Nat} {s : State} (h : pc < codeLen s r) :
    goPc r pc s = updCore r (fun k => { k with pc := pc, atom := k.atom - 1 }) s := by
  unfold goPc
  simp only [codeLen_updCore]
  rw [if_neg (by omega)]

/-- A jump beyond the image is PC_RANGE (R116). -/
theorem goPc_outside {r : CoreRef} {pc : Nat} {s : State} (h : codeLen s r ≤ pc) :
    goPc r pc s = coreFault r 5 0 (updCore r (fun k => { k with pc := pc, atom := k.atom - 1 }) s) := by
  unfold goPc
  simp only [codeLen_updCore]
  rw [if_pos h]

theorem retire_inside {r : CoreRef} {k : Core} {s : State} (h : k.pc + 1 < codeLen s r) :
    retire r k s = updCore r (fun k => { k with pc := k.pc + 1, atom := k.atom - 1 }) (setCore r k s) := by
  unfold retire
  rw [goPc_inside (by simpa using h)]
  simp [updCore]

/-- The core after a retirement inside the image. -/
theorem coreOf_retire_self {r : CoreRef} {k : Core} {s : State} (h : k.pc + 1 < codeLen s r) :
    coreOf (retire r k s) r = coreNext k := by
  rw [retire_inside h]; simp [coreNext]

theorem onlyCore_refl (c : CoreRef) (s : State) : OnlyCoreChanges c s s := ⟨rfl, fun _ _ => rfl, rfl, fun _ _ => rfl⟩

theorem onlyCore_trans {c : CoreRef} {s t u : State} (h : OnlyCoreChanges c s t) (g : OnlyCoreChanges c t u) : OnlyCoreChanges c s u := by
  refine ⟨?_, fun n hn => (g.2.1 n hn).trans (h.2.1 n hn), ?_, fun r hr => (g.2.2.2 r hr).trans (h.2.2.2 r hr)⟩
  · rw [g.1, h.1]
  · rw [g.2.2.1, h.2.2.1]

theorem onlyCore_setCore (r : CoreRef) (k : Core) (s : State) : OnlyCoreChanges r s (setCore r k s) :=
  ⟨rfl, fun _ hn => ctxOf_setCore_ne hn _ _, ctxOf_setCore_self _ _ _, fun _ hq => coreOf_setCore_ne hq _ _⟩

theorem onlyCore_updCore (r : CoreRef) (f : Core → Core) (s : State) : OnlyCoreChanges r s (updCore r f s) := onlyCore_setCore _ _ _

/-- A retirement inside the image touches its core only. -/
theorem onlyCore_retire {r : CoreRef} {k : Core} {s : State} (h : k.pc + 1 < codeLen s r) : OnlyCoreChanges r s (retire r k s) := by
  rw [retire_inside h]
  exact onlyCore_trans (onlyCore_setCore _ _ _) (onlyCore_updCore _ _ _)

@[simp] theorem writeReg_pc (n : BitVec 5) (v : Word64) (k : Core) : (writeReg n v k).pc = k.pc := by unfold writeReg; split <;> rfl

theorem writeReg_frame (n : BitVec 5) (v : Word64) (k : Core) : writeReg n v k = { k with regs := (writeReg n v k).regs } := by
  unfold writeReg; split <;> rfl

/-- What an instruction that writes one register does. -/
theorem regOp_writes {c : CoreRef} {i : CoreInstr} {s : State} (h : IssuesInside s c i) (rd : BitVec 5) (v : State → Core → Word64) :
    WritesRegister c rd (v s (coreOf s c)) s (regOp c i rd v s) := by
  unfold regOp
  rw [onIssue_issues h.2.1]
  have hp : (writeReg rd (v s (coreOf s c)) (coreOf s c)).pc + 1 < codeLen s c := by simpa using h.2.2
  refine ⟨onlyCore_retire hp, ?_, ?_⟩
  · rw [coreOf_retire_self hp]
    conv_lhs => rw [writeReg_frame]
    rfl
  · intro n
    rw [coreOf_retire_self hp]
    exact readReg_writeReg _ _ _ _

/-! ### Running a host opcode -/

/-- A command at its unit runs its meaning. -/
theorem onCmd_atUnit {s : State} {op tag : Nat} {c : Cmd} (h : AtUnit s op tag c) {sel : PacketBits → Bool} (hs : sel c.pkt = true)
    (f : Cmd → State → State) : onCmd op tag sel f s = f c s := by
  obtain ⟨h1, h2, h3, h4, h5, h6, h7, h8⟩ := h
  unfold onCmd
  rcases h5 with h5 | h5 <;> simp [h1, h2, h3, h4, h5, h6, h7, h8, hs]

end Sys2Proof.Machine
end

