-- ==== Sys2Proof/Tests/Slice0.lean ====
section
/-! SUPPORT. The model's own tests: ill-formed commands the unit check refuses, instruction words written out from the encodings of chapter 4,
a state for each statement that meets its hypotheses (`meets_`), and single steps with results worked out by hand from the spec (`test_`). -/

open Sys2Proof Sys2Proof.Machine Sys2Proof.Claims

namespace Sys2Proof.Tests

set_option Elab.async false

/-- The state after a command that answers one. -/
def after (i : Instr) (s : State) : State :=
  match exec i s with
  | .next t => t
  | .fault _ => s
  | .refused _ => s

/-! ### Instruction words, field by field (Tables 4-3 to 4-20) -/

theorem word_nop : decodeCore 0x00 = some .nop := by decide +kernel
theorem word_yield : decodeCore (0x02 + 1 * 2 ^ 8) = some (.yield true) := by decide +kernel
theorem word_atom : decodeCore (0x03 + 31 * 2 ^ 8) = some (.atom 31) := by decide +kernel
theorem word_sra : decodeCore (0x17 + 31 * 2 ^ 8 + 1 * 2 ^ 13 + 16 * 2 ^ 18) = some (.alu .sra 31 1 16) := by decide +kernel
theorem word_mfs : decodeCore (0x1E + 3 * 2 ^ 8 + 7 * 2 ^ 18) = some (.mfs 3 7) := by decide +kernel
theorem word_addi : decodeCore (0x20 + 2 * 2 ^ 8 + 1 * 2 ^ 13 + 0xFFFFFFFF * 2 ^ 32) = some (.alui .addi 2 1 0xFFFFFFFF) := by decide +kernel
theorem word_li_reserved : decodeCore (0x27 + 1 * 2 ^ 13) = none := by decide +kernel
theorem word_bltu : decodeCore (0x34 + 5 * 2 ^ 8 + 6 * 2 ^ 13 + 0x12 * 2 ^ 32) = some (.br .bltu 5 6 0x12) := by decide +kernel
theorem word_seta : decodeCore (0x42 + 9 * 2 ^ 8 + 3 * 2 ^ 13 + 4 * 2 ^ 15) = some (.seta 9 3 4) := by decide +kernel
theorem word_ldma : decodeCore (0x43 + 2 * 2 ^ 8 + 1 * 2 ^ 10 + 1 * 2 ^ 14 + 1 * 2 ^ 16 + 127 * 2 ^ 17) =
    some (.ldma { dir := 2, sg := 1, dg := 0, bank := 1, stepG := true, lines1 := 127 }) := by decide +kernel
theorem word_preq : decodeCore (0x52 + 4 * 2 ^ 8 + 7 * 2 ^ 13) = some (.preq 4 7) := by decide +kernel
theorem word_mma : decodeCore (0x61 + 1 * 2 ^ 11 + 2 * 2 ^ 13 + 1 * 2 ^ 15 + 7 * 2 ^ 16 + 15 * 2 ^ 24 + 15 * 2 ^ 34 + 3 * 2 ^ 42) =
    some (.mma true { pair := 0, ga := 1, gb := 2, stepG := true, m1 := 7, k1 := 15, n1 := 15, bank := 3, cnt1 := 0, af8 := false, bf8 := false }) := by
  decide +kernel
theorem word_cvt : decodeCore (0x76 + 1 * 2 ^ 8 + 3 * 2 ^ 12 + 7 * 2 ^ 32) =
    some (.ew .cvt { s1k := 1, s1 := 0, s2k := 3, s2 := 0, kreg := 0, tin := 0, tout := 0, dk := 0, d := 0, itype := false, len1 := 7
                     pal := 0, srnd := false, stepG := false }) := by decide +kernel
theorem word_chain : decodeCore (0x80 + 5 * 2 ^ 8 + 1 * 2 ^ 20 + 3 * 2 ^ 30 + 7 * 2 ^ 38 + 1 * 2 ^ 46 + 1 * 2 ^ 47) =
    some (.chain { chain := 5, bank := 0, cnt1 := 0, go := 1, gx1 := 0, gx2 := 0, gxo := 0, stepG := false, layout := false, m1 := 3, n1 := 7
                   first := true, last := true, ppair := 0 }) := by decide +kernel
theorem word_xbar : decodeCore (0x92 + 3 * 2 ^ 8) = some (.xbar 3) := by decide +kernel
theorem word_fset_31 : decodeCore (0x93 + 31 * 2 ^ 8) = none := by decide +kernel
theorem word_class_15 : decodeCore 0xF0 = none := by decide +kernel

/-! ### Cores -/

def core0 : CoreRef := { ctx := 1, sketch := false, lcore := 0 }
def core1 : CoreRef := { ctx := 1, sketch := false, lcore := 1 }

def progOfWords (ws : List Nat) (cores : Nat) : Program :=
  { code := ws.map (BitVec.ofNat 64), entry := 0, clusters := 1, cores := cores, slots := [objId 1 7], chains := [], streams := []
    reduction := false, data := [], dataAddr := 0 }

/-- Context 1 in its slice, running a program of these words on `cores` cores, core 0 as given. -/
def coreState (ws : List Nat) (cores : Nat) (k : Core) : State :=
  { State.reset with
    frame := { counter := 5 }
    power := { d1 := true, compute := [(5, .on)] }
    ctxs := [(1, { state := .runnable, inSlice := true, alloc := [5], quotaT1 := 16, prog := some (progOfWords ws cores)
                   run := some { kind := .batch, arg0 := 77, arg1 := 88, nreq := 3 }
                   cores := (0, { k with phase := .running }) :: (List.range (cores - 1)).map (fun i => (i + 1, { phase := .running })) })] }

/-- A core with these registers. -/
def withRegs (rs : List (Nat × Word64)) : Core := { regs := rs }

/-- ADD g3, g1, g2. -/
def sAdd : State := coreState [0x10 + 3 * 2 ^ 8 + 1 * 2 ^ 13 + 2 * 2 ^ 18, 0] 1 (withRegs [(1, 0xFFFFFFFFFFFFFFFF), (2, 3)])
theorem meets_ScalarInstructionWritesItsResult : IssuesInside sAdd core0 (.alu .add 3 1 2) := by unfold IssuesInside; decide +kernel
theorem test_add_wraps : readReg (coreOf (after (.add core0 3 1 2) sAdd) core0) 3 = 2 := by decide +kernel

def sG0 : State := coreState [0x10 + 0 * 2 ^ 8 + 1 * 2 ^ 13 + 2 * 2 ^ 18, 0] 1 (withRegs [(1, 1), (2, 3)])
theorem meets_ScalarInstructionWritesItsResult_g0 : IssuesInside sG0 core0 (.alu .add 0 1 2) := by unfold IssuesInside; decide +kernel
theorem test_add_g0 : readReg (coreOf (after (.add core0 0 1 2) sG0) core0) 0 = 0 := by decide +kernel

/-- SRAI g3, g1, 4 and LI g3, -2. -/
def sSrai : State := coreState [0x26 + 3 * 2 ^ 8 + 1 * 2 ^ 13 + 4 * 2 ^ 32, 0] 1 (withRegs [(1, 0xFFFFFFFFFFFFFFE0)])
theorem meets_ScalarInstructionWritesItsResult_imm : IssuesInside sSrai core0 (.alui .srai 3 1 4) := by unfold IssuesInside; decide +kernel
theorem test_srai : readReg (coreOf (after (.srai core0 3 1 4) sSrai) core0) 3 = 0xFFFFFFFFFFFFFFFE := by decide +kernel
def sLi : State := coreState [0x27 + 3 * 2 ^ 8 + 0xFFFFFFFE * 2 ^ 32, 0] 1 {}
theorem meets_ScalarInstructionWritesItsResult_li : IssuesInside sLi core0 (.li 3 0xFFFFFFFE) := by unfold IssuesInside; decide +kernel
theorem test_li : readReg (coreOf (after (.li core0 3 0xFFFFFFFE) sLi) core0) 3 = 0xFFFFFFFFFFFFFFFE := by decide +kernel

/-- MFS g3, s7 and MFA g3, a2. -/
def sMfs : State := coreState [0x1E + 3 * 2 ^ 8 + 7 * 2 ^ 18, 0] 1 {}
theorem meets_MfsAndMfaReadTheirRegisters : IssuesInside sMfs core0 (.mfs 3 7) ∧ (progOf (ctxOf sMfs 1) false).isSome = true ∧
    (ctxOf sMfs 1).run.isSome = true := by unfold IssuesInside; decide +kernel
theorem test_mfs_arg1 : readReg (coreOf (after (.mfs core0 3 7) sMfs) core0) 3 = 88 := by decide +kernel
def sMfs2 : State := coreState [0x1E + 3 * 2 ^ 8 + 2 * 2 ^ 18, 0] 1 {}
theorem test_mfs_frame : readReg (coreOf (after (.mfs core0 3 2) sMfs2) core0) 3 = 5 := by decide +kernel
def sMfa : State := coreState [0x1F + 3 * 2 ^ 8 + 2 * 2 ^ 18, 0] 1 { gens := [(2, { addr := 0x40 })] }
theorem meets_MfsAndMfaReadTheirRegisters_mfa : IssuesInside sMfa core0 (.mfa 3 2) := by unfold IssuesInside; decide +kernel
theorem test_mfa : readReg (coreOf (after (.mfa core0 3 2) sMfa) core0) 3 = 0x40 := by decide +kernel

/-- BLT g1, g2, +2 with g1 = -1; DBNZ g1, -0; JMP 2; JR g1. -/
def sBlt (a : Word64) : State := coreState [0x32 + 1 * 2 ^ 8 + 2 * 2 ^ 13 + 2 * 2 ^ 32, 0, 0] 1 (withRegs [(1, a), (2, 1)])
theorem meets_BranchesCallsAndReturns : issues (sBlt 0xFFFFFFFFFFFFFFFF) core0 (.br .blt 1 2 2) = true ∧
    branchTaken .blt (readReg (coreOf (sBlt 0xFFFFFFFFFFFFFFFF) core0) 1) (readReg (coreOf (sBlt 0xFFFFFFFFFFFFFFFF) core0) 2) ∧
    ((2 : Nat) : Int) = (coreOf (sBlt 0xFFFFFFFFFFFFFFFF) core0).pc + (2 : Word32).toInt ∧ 2 < codeLen (sBlt 0xFFFFFFFFFFFFFFFF) core0 := by
  unfold branchTaken; decide +kernel
theorem meets_BranchesCallsAndReturns_not : issues (sBlt 1) core0 (.br .blt 1 2 2) = true ∧
    ¬ branchTaken .blt (readReg (coreOf (sBlt 1) core0) 1) (readReg (coreOf (sBlt 1) core0) 2) ∧ 1 < codeLen (sBlt 1) core0 := by
  unfold branchTaken; decide +kernel
theorem test_blt : (coreOf (after (.blt core0 1 2 2) (sBlt 0xFFFFFFFFFFFFFFFF)) core0).pc = 2 := by decide +kernel
theorem test_blt_not : (coreOf (after (.blt core0 1 2 2) (sBlt 1)) core0).pc = 1 := by decide +kernel
def sDbnz (a : Word64) : State := coreState [0x36 + 1 * 2 ^ 8 + 0 * 2 ^ 32, 0] 1 (withRegs [(1, a)])
theorem meets_BranchesCallsAndReturns_dbnz : issues (sDbnz 1) core0 (.dbnz 1 0) = true ∧ issues (sDbnz 2) core0 (.dbnz 1 0) = true ∧
    readReg (coreOf (sDbnz 1) core0) 1 = 1 ∧ codeLen (sDbnz 1) core0 = 2 := by decide +kernel
theorem test_dbnz : (coreOf (after (.dbnz core0 1 0) (sDbnz 1)) core0).pc = 1 ∧ (coreOf (after (.dbnz core0 1 0) (sDbnz 2)) core0).pc = 0 := by decide +kernel
def sJmp : State := coreState [0x37 + 2 * 2 ^ 32, 0, 0] 1 {}
theorem meets_BranchesCallsAndReturns_jmp : issues sJmp core0 (.jmp 2) = true ∧ 2 < codeLen sJmp core0 := by decide +kernel
theorem test_jmp : (coreOf (after (.jmp core0 2) sJmp) core0).pc = 2 := by decide +kernel
def sJr (a : Word64) : State := coreState [0x39 + 1 * 2 ^ 8, 0] 1 (withRegs [(1, a)])
theorem meets_BranchesCallsAndReturns_jr : issues (sJr 1) core0 (.jr 1) = true ∧ (readReg (coreOf (sJr 1) core0) 1).toNat < codeLen (sJr 1) core0 := by
  decide +kernel
theorem test_jr : (coreOf (after (.jr core0 1) (sJr 1)) core0).pc = 1 := by decide +kernel

/-- CALL 1 and RET with `n` entries on the stack. -/
def sCall (n : Nat) : State := coreState [0x38 + 1 * 2 ^ 32, 0] 1 { stack := List.replicate n 0 }
theorem meets_BranchesCallsAndReturns_call : issues (sCall 7) core0 (.call 1) = true ∧ (coreOf (sCall 7) core0).stack.length < 8 ∧ 1 < codeLen (sCall 7) core0 := by
  decide +kernel
theorem test_call : (coreOf (after (.call core0 1) (sCall 7)) core0).stack.head? = some 1 := by decide +kernel
def sRet (st : List Nat) : State := coreState [0x3A, 0] 1 { stack := st }
theorem meets_BranchesCallsAndReturns_call_ret : issues (sRet [1]) core0 .ret = true ∧ (coreOf (sRet [1]) core0).stack = [1] := by decide +kernel
theorem test_ret : (coreOf (after (.ret core0) (sRet [1])) core0).pc = 1 := by decide +kernel
theorem meets_StackAndPcRangeFault : issues (sCall 8) core0 (.call 1) = true ∧ 8 ≤ (coreOf (sCall 8) core0).stack.length ∧
    issues (sRet []) core0 .ret = true ∧ (coreOf (sRet []) core0).stack = [] ∧ issues (sJr 2) core0 (.jr 1) = true ∧
    codeLen (sJr 2) core0 ≤ (readReg (coreOf (sJr 2) core0) 1).toNat ∧ issues (coreState [0] 1 {}) core0 .nop = true := by decide +kernel
theorem test_jr_pc_range : (ctxOf (after (.jr core0 1) (sJr 2)) 1).state = .teardown := by decide +kernel

def sYield (n : Nat) : State := coreState [0x02 + 2 ^ 8, 0] n {}
theorem meets_NopAtomAndYield : IssuesInside (coreState [0, 0] 1 {}) core0 .nop ∧ IssuesInside (coreState [0x03, 0] 1 {}) core0 (.atom 0) ∧
    IssuesInside (sYield 2) core0 (.yield true) ∧ (ctxOf (sYield 2) 1).prog = some (progOfWords [0x02 + 2 ^ 8, 0] 2) ∧ core1 ≠ core0 ∧
    coreRests (coreOf (sYield 2) core1) = false ∧ (ctxOf (sYield 1) 1).run.any (·.sketch) = false := by unfold IssuesInside; decide +kernel
/-- Core 0 is the only core of a program of one core. -/
theorem only_core (ws : List Nat) (r : CoreRef) (h : r ≠ core0) (hc : r.ctx = 1) :
    (progOf (ctxOf (coreState ws 1 {}) 1) r.sketch).any (fun q => r.lcore < progCores q) = false := by
  obtain ⟨n, b, l⟩ := r
  simp only at hc
  subst hc
  cases b
  · have : l ≠ 0 := fun e => h (by simp [core0, e])
    simp [progOf, ctxOf, mapGet, mapFind, coreState, progOfWords, progCores]
    omega
  · simp [progOf, ctxOf, mapGet, mapFind, coreState]
theorem meets_NopAtomAndYield_last (r : CoreRef) (h : r ≠ core0) (hc : r.ctx = 1) :
    (progOf (ctxOf (sYield 1) 1) r.sketch).any (fun q => r.lcore < progCores q) = true → coreRests (coreOf (sYield 1) r) = true := by
  unfold sYield; rw [only_core _ r h hc]; exact fun e => nomatch e
theorem test_atom : (coreOf (after (.atom core0 0) (coreState [0x03, 0] 1 {})) core0).atom = 1 := by decide +kernel
theorem test_yield : (coreOf (after (.yield core0 true) (coreState [0x02 + 2 ^ 8, 0] 1 {})) core0).phase = .yielded true := by decide +kernel

/-- HALT beside a running core, and as the last of its run. -/
def sHalt (n : Nat) : State := coreState [0x01] n {}
theorem meets_HaltStopsTheCoreAndTheLastHaltEndsTheRun : issues (sHalt 2) core0 .halt = true ∧ inFlight (coreOf (sHalt 2) core0) = [] ∧
    (ctxOf (sHalt 2) 1).prog = some (progOfWords [0x01] 2) ∧ core1 ≠ core0 ∧ (coreOf (sHalt 2) core1).phase ≠ .halted ∧
    coreRests (coreOf (sHalt 2) core1) = false ∧ (ctxOf (sHalt 2) 1).run.isSome = true ∧ issues (sHalt 1) core0 .halt = true := by decide +kernel
theorem meets_HaltStopsTheCoreAndTheLastHaltEndsTheRun_last (r : CoreRef) (h : r ≠ core0) (hc : r.ctx = 1) :
    (progOf (ctxOf (sHalt 1) 1) r.sketch).any (fun q => r.lcore < progCores q) = true → (coreOf (sHalt 1) r).phase = .halted := by
  unfold sHalt; rw [only_core _ r h hc]; exact fun e => nomatch e
theorem test_halt_last : (ctxOf (after (.halt core0) (sHalt 1)) 1).run = none ∧ (ctxOf (after (.halt core0) (sHalt 2)) 1).run.isSome = true := by decide +kernel

/-- LDL q1 from a0 and STL q1 to a0, with STEP. -/
def sLdl : State := coreState [0x40 + 1 * 2 ^ 8 + 1 * 2 ^ 13, 0] 1
  { gens := [(0, { addr := 0x1FFE0, base := 0x1FFE0, inc0 := 32, cnt0 := 4 })]
    t0 := { cells := [(0x1FFE0, 9), (0x1FFE8, 7)] } }
theorem meets_LineLoadAndStore : IssuesInside sLdl core0 (.ldl 1 0 true) ∧ OperandFits (genAddr (coreOf sLdl core0) 0) 32 ∧
    heldByWrites sLdl core0 (genAddr (coreOf sLdl core0) 0) 32 = false ∧ storeHit 32 (t0View sLdl core0) (genAddr (coreOf sLdl core0) 0) 32 = false ∧
    T0Sound sLdl core0 (genAddr (coreOf sLdl core0) 0) 32 := by unfold IssuesInside OperandFits T0Sound; decide +kernel
theorem test_ldl : readReg (coreOf (after (.ldl core0 1 0 true) sLdl) core0) (quadReg 1 1) = 7 := by decide +kernel
def sStl : State := coreState [0x41 + 1 * 2 ^ 8, 0] 1 { gens := [(0, { addr := 0x20 })], regs := [(4, 0x0102), (7, 0xFF)] }
theorem meets_LineLoadAndStore_stl : IssuesInside sStl core0 (.stl 1 0 false) ∧ OperandFits (genAddr (coreOf sStl core0) 0) 32 ∧
    heldByReads sStl core0 (genAddr (coreOf sStl core0) 0) 32 = false := by unfold IssuesInside OperandFits; decide +kernel
theorem test_stl : storeRead (coreOf (after (.stl core0 1 0 false) sStl) core0).t0 0x20 2 = [2, 1] ∧
    storeByte (coreOf (after (.stl core0 1 0 false) sStl) core0).t0 0x38 = 0xFF := by decide +kernel

/-- SETA CNT1 of a3 from g9. -/
def sSeta : State := coreState [0x42 + 9 * 2 ^ 8 + 3 * 2 ^ 13 + 4 * 2 ^ 15, 0] 1
  { regs := [(9, 6)], gens := [(3, { base := 0x40, addr := 0x80, i0 := 1, i1 := 1 })] }
theorem meets_SetaRestartsItsGenerator : IssuesInside sSeta core0 (.seta 9 3 4) ∧ (4 : BitVec 3).toNat ≤ 4 := by unfold IssuesInside; decide +kernel
theorem test_seta : genOf (coreOf (after (.seta core0 9 3 4) sSeta) core0) 3 = { base := 0x40, addr := 0x40, cnt1 := 6 } := by decide +kernel

/-- LDMA of one line: T0 to T0, banks to T0, T0 to banks as FP32. -/
def sLdma (dir bank : Nat) : State := coreState [0x43 + dir * 2 ^ 8 + 1 * 2 ^ 12 + bank * 2 ^ 14, 0] 1
  { gens := [(1, { addr := 0x40 })], t0 := { cells := [(0, 5)] }, banks := [(1024, 7)] }
def ldmaF (dir : BitVec 2) (dg bank : BitVec 2) : LdmaF := { dir := dir, sg := 0, dg := dg, bank := bank, stepG := false, lines1 := 0 }
theorem meets_LdmaMovesLines : IssuesInside (sLdma 0 0) core0 (.ldma (ldmaF 0 1 0)) ∧ OperandFits (genAddr (coreOf (sLdma 0 0) core0) 0) 32 ∧
    OperandFits (genAddr (coreOf (sLdma 0 0) core0) 1) 32 ∧ genAddr (coreOf (sLdma 0 0) core0) 0 + 32 ≤ genAddr (coreOf (sLdma 0 0) core0) 1 ∧
    storeHit 32 (t0View (sLdma 0 0) core0) (genAddr (coreOf (sLdma 0 0) core0) 0) 32 = false ∧ ldmaHeld (sLdma 0 0) core0 (ldmaF 0 1 0) = false ∧
    T0Sound (sLdma 0 0) core0 (genAddr (coreOf (sLdma 0 0) core0) 0) 32 := by unfold IssuesInside OperandFits T0Sound; decide +kernel
theorem meets_LdmaMovesLines_banks : IssuesInside (sLdma 1 1) core0 (.ldma (ldmaF 1 1 1)) ∧ ldmaHeld (sLdma 1 1) core0 (ldmaF 1 1 1) = false ∧
    OperandFits (genAddr (coreOf (sLdma 1 1) core0) 1) 32 ∧ rawWords 3 (coreOf (sLdma 1 1) core0).bankRaw 1024 (1024 + 8) = [] := by unfold IssuesInside OperandFits; decide +kernel
theorem test_ldma_to_t0 : storeByte (coreOf (after (.ldma core0 (ldmaF 0 1 0)) (sLdma 0 0)) core0).t0 0x40 = 5 ∧
    storeByte (coreOf (after (.ldma core0 (ldmaF 1 1 1)) (sLdma 1 1)) core0).t0 0x40 = 7 := by decide +kernel

/-- Misplaced operands. -/
def sOff (w a : Nat) : State := coreState [w, 0] 1 { gens := [(0, { addr := BitVec.ofNat 32 a })] }
theorem meets_OperandFaultsStopTheCore : issues (sOff 0x140 0x10) core0 (.ldl 1 0 false) = true ∧ genAddr (coreOf (sOff 0x140 0x10) core0) 0 % 32 ≠ 0 ∧
    issues (sOff 0x140 0x20000) core0 (.ldl 1 0 false) = true ∧ genAddr (coreOf (sOff 0x140 0x20000) core0) 0 % 32 = 0 ∧
    0x20000 < genAddr (coreOf (sOff 0x140 0x20000) core0) 0 + 32 ∧ issues (sOff 0x141 0x10) core0 (.stl 1 0 false) = true := by decide +kernel
def mma0 (acc : Bool) : CoreInstr :=
  .mma acc { pair := 0, ga := 0, gb := 0, stepG := false, m1 := 0, k1 := 0, n1 := 0, bank := 0, cnt1 := 0, af8 := false, bf8 := false }
theorem meets_OperandFaultsStopTheCore_mma : issues (sOff 0x60 0x10) core0 (mma0 false) = true ∧ issues (sOff 0x61 0x20000) core0 (mma0 true) = true ∧
    (coreOf (sOff 0x60 0x10) core0).queuedOp = none := by decide +kernel
theorem test_ldl_align : (ctxOf (after (.ldl core0 1 0 false) (sOff 0x140 0x10)) 1).state = .teardown := by decide +kernel


/-! ### Array, barriers and cluster DMA -/

def mmaF8 : MmaF := { pair := 0, ga := 0, gb := 1, stepG := false, m1 := 0, k1 := 0, n1 := 0, bank := 1, cnt1 := 0, af8 := false, bf8 := false }
/-- MMA of one INT8 product into bank 1: A = -3 at 0, B = 5 at 0x100. -/
def sMma : State := coreState [0x60 + 1 * 2 ^ 13 + 1 * 2 ^ 42, 0] 1 { gens := [(1, { addr := 0x100 })], t0 := { cells := [(0, 0xFD), (0x100, 5)] } }
theorem meets_ArrayInstructionsEnterTheArray : IssuesInside sMma core0 (.mma false mmaF8) ∧ (coreOf sMma core0).queuedOp = none ∧
    OperandFits (genAddr (coreOf sMma core0) 0) (mmaALen mmaF8) ∧ OperandFits (genAddr (coreOf sMma core0) 1) (mmaBLen mmaF8) ∧
    readsHeld sMma core0 { ins := .mma false mmaF8, a := genAddr (coreOf sMma core0) 0, b := genAddr (coreOf sMma core0) 1 } = false := by
  unfold IssuesInside OperandFits; decide +kernel
def sMmaAcc : State := coreState [0x61 + 1 * 2 ^ 13 + 1 * 2 ^ 42, 0] 1 {}
theorem meets_ArrayInstructionsEnterTheArray_acc : IssuesInside sMmaAcc core0 (.mma true mmaF8) ∧
    (∀ b ∈ bankGroup mmaF8.bank mmaF8.cnt1, (tagsAhead (coreOf sMmaAcc core0)).contains b = mmaFp mmaF8) ∧
    banksHeld (coreOf sMmaAcc core0) false (bankGroup mmaF8.bank mmaF8.cnt1) = false := by unfold IssuesInside; decide +kernel
def ewF8 : EwF := { s1k := 1, s1 := 0, s2k := 1, s2 := 1, kreg := 0, tin := 0, tout := 0, dk := 1, d := 2, itype := false, len1 := 7, pal := 0
                    srnd := false, stepG := false }
def sEw : State := coreState [0x70 + 1 * 2 ^ 8 + 1 * 2 ^ 12 + 1 * 2 ^ 14 + 1 * 2 ^ 27 + 2 * 2 ^ 29 + 7 * 2 ^ 32, 0] 1 {}
theorem meets_ArrayInstructionsEnterTheArray_ew : IssuesInside sEw core0 (.ew .add ewF8) ∧ ElementwiseOperandsFit (coreOf sEw core0) ewF8 ∧
    ewPalBad (ctxOf sEw 1).palette .add ewF8 = [] ∧ readsHeld sEw core0 (elementwiseOp .add (coreOf sEw core0) ewF8) = false ∧
    banksHeld (coreOf sEw core0) true (ewBanks ewF8) = false := by unfold IssuesInside ElementwiseOperandsFit OperandFits; decide +kernel
def chain0 : Chain := { source := 0, rowN := 8, holdRows := 0, holdAddr := 0, holdLen := 0, x1 := {}, x2 := {}, xo := {}, stages := [] }
def chainF0 : ChainF := { chain := 0, bank := 0, cnt1 := 0, go := 0, gx1 := 0, gx2 := 0, gxo := 0, stepG := false, layout := false, m1 := 0, n1 := 7
                          first := true, last := true, ppair := 0 }
def sChain : State :=
  let s := coreState [0x80 + 7 * 2 ^ 38 + 1 * 2 ^ 46 + 1 * 2 ^ 47, 0] 1 {}
  updCtx 1 (fun c => { c with prog := c.prog.map (fun p => { p with chains := [chain0] }) }) s
theorem meets_ArrayInstructionsEnterTheArray_chain : IssuesInside sChain core0 (.chain chainF0) ∧ (chainsOf sChain core0)[0]? = some chain0 ∧
    (∀ g ∈ chainGens chain0 chainF0, OperandFits (genAddr (coreOf sChain core0) g) 0) ∧
    (∀ r ∈ opReads (chainOp chain0 (coreOf sChain core0) chainF0) (chainsOf sChain core0) ++
      opWrites (chainOp chain0 (coreOf sChain core0) chainF0) (chainsOf sChain core0), OperandFits r.1 r.2) ∧
    (∀ b ∈ bankGroup chainF0.bank chainF0.cnt1, (tagsAhead (coreOf sChain core0)).contains b = decide (chain0.source = 1)) ∧
    banksHeld (coreOf sChain core0) true (bankGroup chainF0.bank chainF0.cnt1) = false ∧
    (∀ r ∈ chainPals chain0 true, palFmt (mapGet {} (ctxOf sChain 1).palette r.2) = r.1) ∧
    readsHeld sChain core0 (chainOp chain0 (coreOf sChain core0) chainF0) = false ∧ seqBad (t0View sChain core0) chain0 chainF0 = false := by
  unfold IssuesInside OperandFits; decide +kernel
theorem test_mma_enters : (coreOf (after (.mma core0 mmaF8) sMma) core0).streaming = some { ins := .mma false mmaF8, a := 0, b := 0x100 } := by
  decide +kernel

def sLand : State := updCore core0 (fun k => { k with streaming := some { ins := .mma false mmaF8, a := 0, b := 0x100 } }) sMma
theorem meets_IntegerMmaLands : (coreOf sLand core0).streaming = some { ins := .mma false mmaF8, a := 0, b := 0x100 } ∧ mmaFp mmaF8 = false ∧
    OperandsSound sLand core0 { ins := .mma false mmaF8, a := 0, b := 0x100 } ∧ (ctxOf sLand 1).state = .runnable := by
  unfold OperandsSound T0Sound; decide +kernel
theorem test_mma_lands : mapGet 0 (coreOf (after (.arrayResultLanded core0 false) sLand) core0).banks 1024 = 0xFFFFFFF1 := by decide +kernel
theorem test_array_check : (mapGet {} (after (.arrayResultLanded core0 true) sLand).phys (0 * 100 + 0)).offline = true := by decide +kernel

def sSync (w : Nat) (n : Nat) : State := coreState [w, 0] n {}
def sFlag (w : Nat) : State := updCluster 1 0 (fun c => { c with flags := 0x80000001 }) (sSync w 1)
theorem meets_FenceFlagsAndBarriers : IssuesInside (sSync 0x90 1) core0 .fence ∧ (∀ t ∈ (coreOf (sSync 0x90 1) core0).tickets, t.2.out = none) ∧
    (coreOf (sSync 0x90 1) core0).postsOut = 0 ∧ IssuesInside (sSync 0x1E93 1) core0 (.fset 30) ∧ IssuesInside (sSync 0x94 1) core0 (.fclr 0) := by
  unfold IssuesInside; decide +kernel
theorem meets_FenceFlagsAndBarriers_fwait : IssuesInside (sFlag 0x1F95) core0 (.fwait 31) ∧
    (clusterOf (sFlag 0x1F95) 1 (lclusterOf (sFlag 0x1F95) core0)).flags.getLsbD (31 : BitVec 5).toNat = true ∧
    IssuesInside (sSync 0x1F95 1) core0 (.fwait 31) ∧
    (clusterOf (sSync 0x1F95 1) 1 (lclusterOf (sSync 0x1F95 1) core0)).flags.getLsbD (31 : BitVec 5).toNat = false := by unfold IssuesInside; decide +kernel
theorem test_fclr : (clusterOf (after (.fclr core0 0) (sFlag 0x94)) 1 0).flags = 0x80000000 := by decide +kernel
theorem test_fwait : (coreOf (after (.fwait core0 31) (sFlag 0x1F95)) core0).pc = 1 ∧ (coreOf (after (.fwait core0 31) (sSync 0x1F95 1)) core0).pc = 0 := by
  decide +kernel

/-- BAR 7 of two cores: nobody else there yet, and core 1 already there. -/
def sBar (there : Bool) : State := updCluster 1 0 (fun c => { c with bars := if there then [(7, [1])] else [] }) (sSync (0x91 + 7 * 2 ^ 8) 2)
theorem meets_FenceFlagsAndBarriers_join : IssuesInside (sBar false) core0 (.bar 7) ∧ (coreOf (sBar false) core0).arrived = none ∧
    1 ∈ participants (sBar false) core0 false ∧ 1 ∉ arrivals (sBar false) core0 false 7 ∧ (coreOf (sBar false) core1).phase ≠ .halted := by
  unfold IssuesInside; decide +kernel
theorem meets_FenceFlagsAndBarriers_join_last : IssuesInside (sBar true) core0 (.bar 7) ∧
    (∀ j ∈ participants (sBar true) core0 false, j ≠ core0.lcore → j ∈ arrivals (sBar true) core0 false 7 ∨
      (coreOf (sBar true) { core0 with lcore := j }).phase = .halted) ∧ IssuesInside (sSync (0x92 + 3 * 2 ^ 8) 1) core0 (.xbar 3) := by
  unfold IssuesInside; decide +kernel
theorem test_bar : (coreOf (after (.bar core0 7) (sBar false)) core0).pc = 0 ∧ (coreOf (after (.bar core0 7) (sBar true)) core0).pc = 1 := by decide +kernel

/-- CDMA q1, ticket 2: one row of 64 bytes from T0 0x40 to T1 line `dst`; or from slot 0. -/
def cdmaCore (w0 w1 : Word64) : Core := { regs := [(4, w0), (5, w1), (6, 0x400001), (7, 0x4000000040)], t0 := { cells := [(0x40, 9)] } }
def sCdma (w0 w1 : Word64) : State := coreState [0x50 + 1 * 2 ^ 8 + 2 * 2 ^ 11, 0] 1 (cdmaCore w0 w1)
def toT1 : Desc := { w0 := 0x1000000000000040, w1 := 0x1000, w2 := 0x400001, w3 := 0x4000000040 }
theorem meets_ClusterDmaStartsUnderItsTicket : IssuesInside (sCdma 0x1000000000000040 0x1000) core0 (.cdma 1 2) ∧
    quadDesc (coreOf (sCdma 0x1000000000000040 0x1000) core0) 1 = toT1 ∧ dDstKind toT1 ≠ 3 ∧
    cdmaBad (sCdma 0x1000000000000040 0x1000) core0 (progOfWords [0x50 + 1 * 2 ^ 8 + 2 * 2 ^ 11, 0] 1) toT1 = [] ∧
    cdmaAtOnce (sCdma 0x1000000000000040 0x1000) (progOfWords [0x50 + 1 * 2 ^ 8 + 2 * 2 ^ 11, 0] 1) toT1 = none := by unfold IssuesInside; decide +kernel
def sAbsent : State := { sCdma 0x0200000000000000 0x40 with objs := [(objId 1 7, { kind := .persistent, size := 4096 })] }
def fromObj : Desc := { w0 := 0x0200000000000000, w1 := 0x40, w2 := 0x400001, w3 := 0x4000000040 }
theorem meets_ClusterDmaStartsUnderItsTicket_absent : IssuesInside sAbsent core0 (.cdma 1 2) ∧ quadDesc (coreOf sAbsent core0) 1 = fromObj ∧
    cdmaBad sAbsent core0 (progOfWords [0x50 + 1 * 2 ^ 8 + 2 * 2 ^ 11, 0] 1) fromObj = [] ∧
    endAbsent sAbsent (progOfWords [0x50 + 1 * 2 ^ 8 + 2 * 2 ^ 11, 0] 1) fromObj = true ∧ dDstKind fromObj < 3 := by unfold IssuesInside; decide +kernel
/-- To stream slot 0 of a program whose pair 3 is not enabled, or whose fixed way UP is down; and to a bucket with the engine away. -/
def toRing : Desc := { toT1 with w0 := 0x3000000000000040, w1 := 0 }
def toBucket : Desc := { toT1 with w0 := 0x4000000000000040, w1 := 0 }
def ringProg (route : Nat) : Program := { progOfWords [0x50 + 1 * 2 ^ 8 + 2 * 2 ^ 11, 0] 1 with 
    streams := [{ receive := false, ring := 3, route := route, peerStream := 0, peerContext := 1, peerUid := 7, slot := 0, window := 64 }] }
def sSend (pr : Pair) (route : Nat) (w0 : Word64) : State :=
  { sCdma w0 0 with
    ctxs := (sCdma w0 0).ctxs.map (fun c => (c.1, { c.2 with prog := some (ringProg route) })), ring := { pairs := [(3, pr)] } }
def cutPair : Pair :=
  { easel := .opened, state := .up, members := [(7, 8), (State.reset.uid, 8)], memberList := true, position := 1, dn := { up := true } }
theorem meets_ClusterDmaStartsUnderItsTicket_cancelled : IssuesInside (sSend { enable := false } 0 0x3000000000000040) core0 (.cdma 1 2) ∧
    quadDesc (coreOf (sSend { enable := false } 0 0x3000000000000040) core0) 1 = toRing ∧ dDstKind toRing = 3 ∧
    cdmaBad (sSend { enable := false } 0 0x3000000000000040) core0 (ringProg 0) toRing = [] ∧
    streamDisabled (sSend { enable := false } 0 0x3000000000000040) (ringProg 0) toRing = true ∧
    IssuesInside (sSend cutPair 1 0x3000000000000040) core0 (.cdma 1 2) ∧ quadDesc (coreOf (sSend cutPair 1 0x3000000000000040) core0) 1 = toRing ∧
    cdmaBad (sSend cutPair 1 0x3000000000000040) core0 (ringProg 1) toRing = [] ∧ routeCut (sSend cutPair 1 0x3000000000000040) (ringProg 1) toRing = true := by
  unfold IssuesInside; decide +kernel
def engProg : Program := { ringProg 0 with reduction := true }
def sEng : State :=
  { sCdma 0x4000000000000040 0 with
    ctxs := (sCdma 0x4000000000000040 0).ctxs.map (fun c => (c.1, { c.2 with prog := some engProg })), red := { tags := [(0, { nelem := 64 })] } }
theorem meets_ClusterDmaStartsUnderItsTicket_engine : IssuesInside sEng core0 (.cdma 1 2) ∧
    quadDesc (coreOf sEng core0) 1 = toBucket ∧ dDstKind toBucket = 4 ∧ sEng.red.available = false ∧
    cdmaBad sEng core0 engProg toBucket = [] := by
  unfold IssuesInside; decide +kernel
def sWaitd (t : Ticket) : State := coreState [0x51 + 3 * 2 ^ 8 + 2 * 2 ^ 13, 0] 1 { tickets := [(2, t)] }
theorem meets_ClusterDmaStartsUnderItsTicket_waitd : IssuesInside (sWaitd { result := 2 }) core0 (.waitd 3 2) ∧
    (ticketOf (coreOf (sWaitd { result := 2 }) core0) 2).out = none ∧ IssuesInside (sWaitd { out := some toT1 }) core0 (.waitd 3 2) ∧
    (ticketOf (coreOf (sWaitd { out := some toT1 }) core0) 2).out.isSome = true := by unfold IssuesInside; decide +kernel
theorem test_cdma : (ticketOf (coreOf (after (.cdma core0 1 2) (sCdma 0x1000000000000040 0x1000)) core0) 2).out = some toT1 ∧
    (ticketOf (coreOf (after (.cdma core0 1 2) sAbsent) core0) 2) = { result := 1 } := by decide +kernel
theorem test_waitd : readReg (coreOf (after (.waitd core0 3 2) (sWaitd { result := 2 })) core0) 3 = 2 := by decide +kernel

/-- A transfer of the row at T0 0x40 to T0 0x1000, T1 0x1000 or object 7. -/
def sXfer (w0 : Word64) : State :=
  { coreState [0x00, 0] 1 { tickets := [(2, { out := some { toT1 with w0 := w0 } })], t0 := { cells := [(0x40, 9)] } } with
    objs := [(objId 1 7, { kind := .persistent, size := 65536, copy := some {} })] }
def xProg : Program := progOfWords [0x00, 0] 1
/-- What the statement asks of a transfer. -/
def XferMeets (w0 : Word64) : Prop :=
  progOf (ctxOf (sXfer w0) 1) false = some xProg ∧ (ticketOf (coreOf (sXfer w0) core0) 2).out = some { toT1 with w0 := w0 } ∧
  (ticketOf (coreOf (sXfer w0) core0) 2).lines = 0 ∧ (ctxOf (sXfer w0) 1).inSlice = true ∧
  meetSource core0 xProg { toT1 with w0 := w0 } (sXfer w0) = sXfer w0 ∧ srcPoison (sXfer w0) core0 xProg { toT1 with w0 := w0 } = false ∧
  dstLines (sXfer w0) core0 xProg { toT1 with w0 := w0 } ≠ [] ∧
  (goodLines (dstLines (sXfer w0) core0 xProg { toT1 with w0 := w0 })).any (lineHeld (sXfer w0) core0 { toT1 with w0 := w0 }) = false ∧
  RowsApart (dstRows (sXfer w0) core0 xProg { toT1 with w0 := w0 })
theorem meets_TransferCompletionWritesItsRows : XferMeets 0x0000000000000040 ∧ XferMeets 0x1000000000000040 ∧ XferMeets 0x2000000000000040 := by
  unfold XferMeets RowsApart; decide +kernel
theorem meets_TransferCompletionWritesItsRows_object : dDstKind { toT1 with w0 := 0x2000000000000040 } = 2 ∧
    slotObj (sXfer 0x2000000000000040) xProg (dDstSlot toT1) = some (objId 1 7) ∧
    ((objOf (sXfer 0x2000000000000040) (objId 1 7)).bind (·.copy)).isSome = true := by decide +kernel
theorem test_transfer_to_t1 : storeByte (t1Of (after (.dmaTransferComplete core0 2) (sXfer 0x1000000000000040)) 1 0) 0x1000 = 9 := by decide +kernel
theorem test_transfer_to_object : ((objOf (after (.dmaTransferComplete core0 2) (sXfer 0x2000000000000040)) (objId 1 7)).bind (·.copy)).map
    (fun m => (storeByte m.data 0x1000, m.dirty)) = some (9, true) := by decide +kernel

def sPreq (slot : Word64) (objs : SMap Obj) : State := { coreState [0x52 + 4 * 2 ^ 8 + 7 * 2 ^ 13, 0] 1 { regs := [(4, slot), (28, 5)] } with objs := objs }
theorem meets_PreqPostsItsObject : IssuesInside (sPreq 0 [(objId 1 7, { kind := .persistent, size := 4096 })]) core0 (.preq 4 7) ∧
    slotObj (sPreq 0 [(objId 1 7, { kind := .persistent, size := 4096 })]) (progOfWords [0x52 + 4 * 2 ^ 8 + 7 * 2 ^ 13, 0] 1) 0 = some (objId 1 7) ∧
    issues (sPreq 1 []) core0 (.preq 4 7) = true ∧ (progOfWords [] 1).slots.length ≤ (readReg (coreOf (sPreq 1 []) core0) 4).toNat ∧
    issues (sPreq 0 []) core0 (.preq 4 7) = true ∧ slotObj (sPreq 0 []) (progOfWords [] 1) 0 = none := by unfold IssuesInside; decide +kernel
theorem test_preq : (clusterOf (after (.preq core0 4 7) (sPreq 0 [(objId 1 7, { kind := .persistent, size := 4096 })])) 1 0).posts =
    [{ obj := objId 1 7, mask := 5, core := core0 }] := by decide +kernel

/-! ### Power, embedded flash and the host interface -/

/-- Power good, MATE# held, PERST# deasserted. -/
def sOn : State := { State.reset with power := { d1 := true, perst := false, mateHeld := true } }
theorem meets_ResetSourcesLeaveTheResetState : sOn.power.standby = true ∧ sOn.power.d1 = true ∧ sOn.power.s3 = false ∧ sOn.power.perst = false := by
  decide +kernel
def sS3 : State := { State.reset with power := { s3 := true } }
theorem meets_ResetSourcesLeaveTheResetState_s3 : sS3.power.standby = true ∧ sS3.power.s3 = true ∧ sS3.power.perst = true := by decide +kernel
def sWdt : State := { sOn with ef := { wdtEnable := true, kicked := 0x7F } }
theorem meets_ResetSourcesLeaveTheResetState_watchdog : sWdt.power.d1 = true ∧ sWdt.ef.wdtEnable = true := by decide +kernel
theorem test_wdt_expiry : (after .wdtExpiry sWdt).power.resetCause = 5 ∧ (after .wdtExpiry sWdt).ef.missing = 0x80 := by decide +kernel
theorem test_mate_held : (after .mateHeld State.reset).power.mateHeld = true := by decide +kernel

def goodStart : StartReport := { mediaBad := false, mediaUnit := 0, hbmBad := false, variantBad := false, failRows := [] }
def sMate : State := { State.reset with power := { perst := false, mateHeld := true } }
theorem meets_StartUpReachesReadyOrFault : mayStart sMate = true ∧ bootSlot (bootState sMate) = none := by decide +kernel
theorem test_start_up_no_image : (after (.startUp goodStart) sMate).host.devState = .fault ∧ (after (.startUp goodStart) sMate).host.faultCause = 1 := by
  decide +kernel

def sPhase (d : DevState) (san : Bool) : State := { sOn with host := { devState := d }, sec := { sanitise := san } }
theorem meets_StartUpReachesReadyOrFault_rebuild : (sPhase .gesso false).host.devState = .gesso ∧ (sPhase .rebuilding false).sec.sanitise = false ∧
    (sPhase .rebuilding true).host.devState = .rebuilding ∧ (sPhase .rebuilding true).sec.sanitise = true := by decide +kernel
/-- A checkpoint whose clean marker is the newest page of the media. -/
def ckpt0 : Ckpt := { map := [(48, { ch := 0, die := 0, super := 0, pos := 1 })], overlay := [], objs := [], supers := [(1, { state := .closed })]
                      marker := { ch := 0, die := 0, super := 1, pos := 0 }, pseq := 9 }
def sCkpt : State :=
  { sPhase .rebuilding false with flash := { ckpt := some ckpt0, supers := [(1, { state := .closed, vers := [(0, { kind := .cleanMarker, slots := [], pseq := 9 })] })] } }
theorem meets_StartUpReachesReadyOrFault_checkpoint : (sPhase .rebuilding false).flash.ckpt.filter (ckptHolds (sPhase .rebuilding false)) = none ∧
    sCkpt.frame.wasReady = false ∧ sCkpt.flash.ckpt = some ckpt0 ∧ ckptHolds sCkpt ckpt0 = true ∧ sCkpt.sec.keyHeld = false := by decide +kernel
theorem test_map_recovery : (after (.mapRecoveryComplete ⟨3, []⟩) (sPhase .rebuilding false)).host.devState = .ready ∧
    (after (.mapRecoveryComplete ⟨3, []⟩) sCkpt).flash.map = ckpt0.map := by decide +kernel

/-- A packet from (byte offset, value) pairs. -/
def pk (fs : List (Nat × Nat)) : PacketBits := BitVec.ofNat 512 ((fs.map (fun f => f.2 * 2 ^ (8 * f.1))).foldl (· + ·) 0)
/-- A released command with tag 9. -/
def cmd9 (fs : List (Nat × Nat)) : Cmd := { tag := 9, pkt := pk fs, frame := 0, phase := .released }
/-- READY, with that command alone. -/
def sCmd (fs : List (Nat × Nat)) : State :=
  { sOn with pcie := { mse := true, bme := true }, host := { devState := .ready, enable := true, cmds := [cmd9 fs] } }
/-- It is at its unit. -/
def At9 (op : Nat) (fs : List (Nat × Nat)) : Prop := AtUnit (sCmd fs) op 9 (cmd9 fs)
/-- In a sleep level. -/
def asleep (n : Nat) (s : State) : State := { s with host := { s.host with devState := .sleep, sleepLevel := n } }

theorem meets_SleepStates_0 : At9 0x0B [(0, 0x0B)] ∧ inS2 (sCmd [(0, 0x0B)]) = false ∧ AtUnit (asleep 2 (sCmd [(0, 0x0B)])) 0x0B 9 (cmd9 [(0, 0x0B)]) ∧
    inS2 (asleep 2 (sCmd [(0, 0x0B)])) = true := by unfold At9 AtUnit; decide +kernel
theorem meets_SleepStates : At9 0x0B [(0, 0x0B), (8, 1)] ∧ inS1 (sCmd [(0, 0x0B), (8, 1)]) = false ∧ At9 0x0B [(0, 0x0B), (8, 2)] ∧
    At9 0x0B [(0, 0x0B), (8, 3)] ∧ (∀ d ∈ (sCmd [(0, 0x0B), (8, 3)]).host.cmds, d.tag ≠ 9 → notStarted d = true ∧ pktOpcode d.pkt ≠ 0x07) := by
  unfold At9 AtUnit; decide +kernel
def sReq (level : Nat) : State := { sCmd [(0, 0x0B), (8, 1)] with power := { sOn.power with sleepReq := some (9, level, 0) } }
theorem meets_SleepStates_entry : (sReq 1).power.sleepReq = some (9, 1, 0) ∧ sleepMay (sReq 1) 9 1 = true ∧ sleepMay (sReq 2) 9 2 = true := by decide +kernel
def sFlush : State := { sOn with power := { sOn.power with s3Flush := true } }
def sWake : State := asleep 2 { sOn with power := { sOn.power with waking := true } }
theorem meets_SleepStates_exit : sFlush.power.s3Flush = true ∧ inS2 sWake = true ∧ sWake.power.waking = true := by decide +kernel
/-- READY with the SLEEP alone: entry follows at once. -/
theorem meets_SleepStates_now : (∀ p ∈ (sCmd [(0, 0x0B), (8, 2)]).ctxs, p.2.run = none) ∧ (sCmd [(0, 0x0B), (8, 2)]).host.devState = .ready ∧
    (∀ d ∈ (sCmd [(0, 0x0B), (8, 2)]).host.cmds, d.tag ≠ 9 → d.phase = .waiting) ∧ (∀ k ∈ (sCmd [(0, 0x0B), (8, 2)]).red.tags, isOpenTag k.2 = false) ∧
    inS1 (asleep 1 (sCmd [(0, 0x0B), (8, 1)])) = true ∧ (asleep 1 (sCmd [])).power.waking = false ∧ (asleep 1 (sCmd [])).power.woken = false := by decide +kernel
theorem test_sleep_entry : (after .sleepEntry (sReq 2)).host.sleepLevel = 2 ∧ (after .sleepEntry (sReq 2)).host.cmds = [] := by decide +kernel
theorem test_s3_reached : (after .s3Reached sFlush).power.s3 = true := by decide +kernel

theorem meets_DomainControl : At9 0x0C [(0, 0x0C), (8, 29)] ∧ domBusy (sCmd [(0, 0x0C), (8, 29)]) 29 = false ∧
    mapGet DomState.off (sCmd [(0, 0x0C), (8, 29)]).power.compute 29 = .off ∧ At9 0x0C [(0, 0x0C), (8, 5), (9, 1)] ∧
    mapGet DomState.off (sCmd [(0, 0x0C), (8, 5), (9, 1)]).power.compute 5 = .off := by unfold At9 AtUnit; decide +kernel
def sDomOn (fs : List (Nat × Nat)) : State := { sCmd fs with power := { sOn.power with compute := [(5, .on)], domOn := [(6, 9, false)] } }
theorem meets_DomainControl_on : AtUnit (sDomOn [(0, 0x0C), (8, 5)]) 0x0C 9 (cmd9 [(0, 0x0C), (8, 5)]) ∧
    mapGet DomState.off (sDomOn [(0, 0x0C), (8, 5)]).power.compute 5 ≠ .off ∧ domBusy (sDomOn [(0, 0x0C), (8, 5)]) 5 = false ∧
    AtUnit (sDomOn [(0, 0x0C), (8, 5), (9, 1)]) 0x0C 9 (cmd9 [(0, 0x0C), (8, 5), (9, 1)]) := by unfold AtUnit; decide +kernel
theorem meets_DomainControl_settles : (sDomOn [(0, 0x0C), (8, 5)]).power.domOff = [] ∧ (sCmd [(0, 0x0C), (8, 29), (9, 1)]).power.domOn = [] ∧
    (∀ p ∈ (sCmd [(0, 0x0C), (8, 29)]).ctxs, p.2.place.contains 29 = false) ∧ ({ cmd9 [(0, 0x0C), (8, 5)] with frame := 0 } : Cmd).frame < 5 := by decide +kernel
theorem test_domain_power_up : (after (.domainPowerUpComplete 6) (sDomOn [])).power.domOn = [(6, 9, true)] := by decide +kernel

def sDuty (d last : Nat) : State := { sOn with power := { sOn.power with duty := d, lastDuty := last } }
theorem meets_PowerCapAndHealthRecords : (sDuty 1 1).power.capW < 3601 ∧ 1 ≤ (sDuty 1 1).power.duty ∧ 3600 ≤ (sDuty 1 1).power.capW ∧
    (sDuty 1 1).power.duty ≠ 0 ∧ 3599 < (sDuty 0 7).power.capW ∧ (sDuty 0 7).power.duty = 0 := by decide +kernel
theorem test_power_sample : (after (.powerSample 4001) (sDuty 9 1)).power.lastDuty = 9 ∧ (after (.powerSample 100) (sDuty 0 7)).power.duty = 7 := by
  decide +kernel
theorem test_power_window : (after (.powerWindowEnd 3601) (sDuty 1 1)).power.duty = 1 ∧ (after (.powerWindowEnd 3601) (sDuty 9 1)).power.duty = 8 := by
  decide +kernel

def sRun : State := { coreState [0] 1 {} with host := { devState := .ready }, power := sOn.power }
theorem meets_FaultsStopTheModule : sRun.power.d1 = true ∧ sRun.host.devState = .ready ∧ isResident (ctxOf sRun 1) = true ∧
    (ctxOf sRun 1).state ≠ .destroying := by decide +kernel
theorem meets_FaultsStopTheModule_store : (0x10000008 : Nat) % 8 = 0 ∧ (zeros 8).length = 8 ∧ (0x11FFFFF8 : Nat) < 0x12000000 ∧ (0x10000001 : Nat) % 8 ≠ 0 := by
  decide +kernel
theorem test_control_store : storeByte (after (.firmwareException 1 ⟨.restartable, some (.store 0x10000008 [7, 0, 0, 0, 0, 0, 0, 0])⟩) sRun).ctrl 8 = 7 := by
  decide +kernel
theorem test_thermal_fault : (after .thermalFault sRun).host.faultCause = 4 := by decide +kernel
theorem test_firmware_exception : (ctxOf (after (.firmwareException 1 ⟨.context 1, none⟩) sRun) 1).state = .teardown := by decide +kernel

def sEf (e : Ef) : State := { sOn with ef := { e with owner := 3 } }
theorem meets_EmbeddedFlashController : OwnsEfc 3 (sEf {}) ∧ programCauses (sEf {}) 1048575 false 0 = [] ∧ programCauses (sEf {}) 344 true 0 = [] ∧
    eraseCauses (sEf {}) 0 false = [] ∧ (sEf {}).ef.poisonDue = [] := by unfold OwnsEfc; decide +kernel
theorem meets_EmbeddedFlashController_erase : OwnsEfc 3 (sEf { busy := true, activeOp := 2 }) ∧ (sEf { busy := true, activeOp := 2 }).ef.busy = true ∧
    (sEf { suspended := true }).ef.suspended = true ∧ guardHit (sEf { suspended := true }) = false := by unfold OwnsEfc; decide +kernel
theorem test_ef_program : efWord (after (.efOperationDone false) (after (.efProgram 3 5 false 0x12) (sEf {}))) 5 = 0x12 := by decide +kernel
theorem test_ef_lock : (after (.efcLock 3 15) (sEf {})).ef.owner = 15 ∧ (after (.efcLock 2 2) (sEf {})).ef.owner = 3 := by decide +kernel

theorem meets_WatchdogKicks : sWdt.power.d1 = true ∧ (∀ i, i < 8 → i ≠ 7 → sWdt.ef.kicked.getLsbD i = true) ∧
    sOn.ef.kicked.getLsbD 0 = false ∧ (0x5A : Byte) ≠ 0xA5 ∧ sWdt.ef.wdtEnable = true := by decide +kernel
theorem test_wdt_kick : (after (.wdtKick 7 0xA5) sWdt).ef.kicked = 0 ∧ (after (.wdtKick 0 0xA5) sOn).ef.kicked = 1 := by decide +kernel
/-- The control SRAM's engine stands on a word with this error. -/
def sScrub (e : RawError) (w : Nat) : State := { sOn with ctrl := { raw := [(w, e)] }, scrub := [(2, { engines := [(0, (w, 3))] })] }
theorem meets_ScrubEngineRepairsOrPoisons : ∀ e ∈ [RawError.bits 0, .bits 1, .bits 2], (mapGet {} (sScrub e 4194303).scrub 2).enable = true ∧
    (sScrub e 4194303).power.d1 = true ∧ engineOf (sScrub e 4194303) 2 0 = (4194303, 3) := by decide +kernel
theorem meets_ScrubEngineRepairsOrPoisons_word : wordFinds (sScrub (.bits 0) 5) .control 5 = .good ∧ wordFinds (sScrub (.bits 1) 5) .control 5 = .correctable ∧
    wordFinds (sScrub (.bits 2) 5) .control 5 = .uncorrectable := by decide +kernel
theorem test_scrub_poison : (after (.scrubAccess 2 0 none false 0) (sScrub (.bits 2) 5)).ctrl.poison = [5] ∧
    engineOf (after (.scrubAccess 2 0 none false 0) (sScrub (.bits 2) 4194303)) 2 0 = (0, 4) := by decide +kernel

def sHost (h : HostIf) : State := { sOn with pcie := { mse := true, bme := true }, host := h, frame := { counter := 0x100000002 } }
theorem meets_ConfigurationAndRegisterAccess : (sHost {}).pcie.mse = true ∧ 0x3C % 4 = 0 ∧ 0x3C < 0x40 ∧ (sHost {}).host.taskState ≠ .busy := by decide +kernel
theorem meets_FrameCounterReads : (sHost {}).pcie.mse = true ∧ (sHost {}).frame.counter = 0x100000002 := by decide +kernel
theorem meets_UndefinedOffsetsReadZero : 0x40 ≤ 0x118C ∧ (0x118C < 0x300 ∨ 0x320 ≤ 0x118C) ∧ 0x118C ∉ [0x40, 0x44, 0x208] := by decide +kernel
theorem test_frame_lo : (after .frameLoRead (sHost {})).host.readData = 2 ∧ (after .frameLoRead (sHost {})).frame.capture = 0x100000002 := by decide +kernel
theorem test_bar0_write : bar0Read (after (.bar0RegisterWrite 0x3C 4 0x12345678) (sHost {})) 0x3C = 0x12345678 := by decide +kernel

/-- NOP of acceptance: an IDENTIFY packet with a contiguous buffer of 4,096 bytes at 0x1000. -/
def idPkt : PacketBits := pk [(0, 1), (48, 0x1000), (56, 4096), (60, 1)]
def sGo (b e m : Bool) : State :=
  { sHost { taskState := .busy, goCopy := idPkt, devState := .ready, enable := e, nextTag := if b then 0xFFFFFFFF else 7 } with pcie := { mse := true, bme := m } }
theorem meets_GoAndPacketAcceptance : (sHost {}).pcie.mse = true ∧ (1 : Word32).getLsbD 0 = true ∧ (sGo false false true).host.taskState = .busy ∧
    rejectReason (sGo false false true) (sGo false false true).host.goCopy ≠ 0 ∧ rejectReason (sGo true true true) (sGo true true true).host.goCopy = 0 ∧
    packetRefusal (packetTaken (sGo true true true)) 0xFFFFFFFF idPkt = none ∧ acceptStatus (packetTaken (sGo true true true)) 0xFFFFFFFF idPkt = none ∧
    packetRefusal (packetTaken (sGo true true true)) 0xFFFFFFFF (pk [(0, 1)]) ≠ none := by decide +kernel
theorem test_acceptance : (after .packetAcceptance (sGo true true true)).host.nextTag = 1 ∧
    (after .packetAcceptance (sGo true true true)).host.cmds.map (·.tag) = [0xFFFFFFFF] := by decide +kernel
theorem test_rejection : (after .packetAcceptance (sGo false true false)).host.reason = 4 := by decide +kernel

theorem meets_StatusRingRegistersAndHeartbeat : (sHost { log2Size := 18 }).host.enable = false ∧ 11 ≤ 18 ∧ (5 : Word32).getLsbD 2 = true ∧
    (sHost { enable := true, hbEnable := false }).host.hbEnable = false ∧ (sHost { tail := 2047, written := 1 }).host.tail < 2 ^ 11 := by decide +kernel
def sBeat (head : Nat) (e : Bool) : State :=
  { sHost { enable := true, head := head, hbCount := 1000 } with pcie := { mse := true, bme := e } }
theorem meets_StatusRingRegistersAndHeartbeat_due : (sBeat 2 true).host.hbInterval ≤ (sBeat 2 true).host.hbCount ∧ freeSlots (sBeat 2 true).host < 3 ∧
    3 ≤ freeSlots (sBeat 0 true).host ∧ ringOpen (sBeat 0 true) = true ∧ windowRecords (sBeat 0 true).pcie = 1024 ∧
    windowBytes (sBeat 0 true).pcie ≥ 32 * 1024 ∧ (sBeat 0 true).host.written + 1 < 1024 ∧ ringOpen (sBeat 0 false) = false := by decide +kernel
theorem test_heartbeat_dropped : (after .heartbeatDue (sBeat 2 true)).host.hostOut = [] ∧ (after .heartbeatDue (sBeat 0 true)).host.written = 1 := by
  decide +kernel
theorem test_readback : (after .statusReadbackComplete (sHost { tail := 2047, written := 1 })).host.tail = 0 ∧
    (after .statusReadbackComplete (sHost { tail := 2047, written := 1 })).host.phase = false := by decide +kernel

def sReport (us : Nat) (e : Bool) : State :=
  { sHost { enable := e, done := [{ opcode := 7, tag := 3, status := { cls := 0, code := 0 }, frame := 1 }] } with frame := { effPeriod := us } }
theorem meets_ReportPointWritesAbortRecords : 2500 < (sReport 2501 false).frame.effPeriod ∧ ringOpen (sReport 2501 false) = false ∧
    (sReport 2500 false).frame.effPeriod ≤ 2500 ∧ (abortRecords (sReport 2501 false)).length = 1 := by decide +kernel
theorem test_report_point : (after .reportPoint (sReport 2501 true)).host.written = 1 ∧ (after .reportPoint (sReport 2501 true)).host.done = [] := by
  decide +kernel

/-- OBJ_WRITE of 64 bytes of input, and a result that is being written. -/
def inFs : List (Nat × Nat) := [(0, 0x32), (2, 1), (48, 0x1000), (56, 64), (60, 1)]
def sFin : State := { sCmd [] with host := { devState := .ready, cmds := [{ tag := 9, pkt := pk [(0, 1)], frame := 0, phase := .finishing, result := some { cls := 0, code := 0 } }] } }
theorem meets_HostDmaOutcomes : cmdOf (sCmd inFs) 9 = some (cmd9 inFs) ∧ transfers (sCmd inFs) (cmd9 inFs) = true ∧ needsInput (cmd9 inFs) = true ∧
    dmaReady (sCmd inFs) = true ∧ (cmdOf sFin 9).any (fun c => c.phase = .finishing && c.result.isSome) = true ∧ dmaReady sFin = true := by decide +kernel
theorem test_host_dma : (after (.hostDmaComplete 9 [1, 2]) (sCmd inFs)).host.cmds.map (fun c => (c.staged.map (·.length))) = [some 64] ∧
    (after (.hostDmaComplete 9 []) sFin).host.cmds = [] := by decide +kernel

/-- An URGENT IDENTIFY behind a HIGH one. -/
def waitingId (tag cls : Nat) : Cmd := { tag := tag, pkt := pk [(0, 1), (1, cls), (48, 0x1000), (56, 4096), (60, 1)], frame := 0 }
def sWaiting : State := { sCmd [] with host := { devState := .ready, enable := true, cmds := [waitingId 1 2, waitingId 2 3] } }
theorem meets_CommandReleaseServesUrgentFirst : oldestOf sWaiting 3 = some (waitingId 2 3) := by decide +kernel
theorem test_release : (cmdOf (after .commandRelease sWaiting) 2).map (·.phase) = some .released := by decide +kernel

/-! ### Host commands -/

/-- A released command whose input has landed. -/
def cmd9s (fs : List (Nat × Nat)) (data : List Byte) : Cmd := { cmd9 fs with staged := some data }
def sCmdS (fs : List (Nat × Nat)) (data : List Byte) : State := { sCmd fs with host := { (sCmd fs).host with cmds := [cmd9s fs data] } }
/-- With context 1 and these objects. -/
def withCtx (c : Context) (objs : SMap Obj) (s : State) : State := { s with ctxs := [(1, c)], objs := objs }
def outCtx : Context := { state := .out, domains := 1, quotaT2 := 10, quotaT3 := 10, quotaT4 := 10 }

theorem meets_ReportsGoToTheBuffer : At9 0x01 [(0, 1), (48, 0x1000), (56, 4096), (60, 1)] ∧ At9 0x02 [(0, 2), (8, 1), (16, 0x100000), (48, 0x1000), (56, 64), (60, 1)] ∧
    recoveryWindow (sCmd [(0, 2), (8, 1)]) = false := by unfold At9 AtUnit; decide +kernel
theorem meets_ReportsGoToTheBuffer_feature : AtUnit (withCtx outCtx [] (sCmd [(0, 4), (2, 1), (8, 0x11), (14, 2)])) 0x04 9 (cmd9 [(0, 4), (2, 1), (8, 0x11), (14, 2)]) ∧
    ctxDefined (withCtx outCtx [] (sCmd [])) 1 = true ∧ At9 0x04 [(0, 4), (8, 0x15)] ∧ At9 0x09 [(0, 9), (56, 3455)] ∧ At9 0x09 [(0, 9), (56, 3456)] := by
  unfold At9 AtUnit; decide +kernel
theorem meets_ReportsGoToTheBuffer_page : (logPage (noteSnap 0x12 (sCmd [])) 0x12).length ≤ 0x100000 ∧ 0 < (logPage (noteSnap 0x12 (sCmd [])) 0x12).length := by
  decide +kernel
theorem test_identify_length : ((after (.identify 9) (sCmd [(0, 1), (48, 0x1000), (56, 4096), (60, 1)])).host.hostOut.map (fun w => (w.addr, w.data.length))) =
    [(0x1000, 4096)] := by decide +kernel

def arbFs : List (Nat × Nat) := [(0, 3), (8, 0x15), (16, 0x0A0205)]
theorem meets_FeaturesAreSetAtTheirTicks : At9 0x03 arbFs ∧ At9 0x03 [(0, 3), (8, 0x10), (16, 0x4603E8)] ∧ At9 0x03 [(0, 3), (8, 0x16)] ∧
    At9 0x03 [(0, 3), (8, 0x17)] ∧ At9 0x78 [(0, 0x78), (8, 3), (9, 1), (12, 60000)] := by unfold At9 AtUnit; decide +kernel
def palFs : List (Nat × Nat) := [(0, 3), (2, 1), (8, 0x11), (12, 0), (14, 1), (56, 4), (60, 1)]
theorem meets_FeaturesAreSetAtTheirTicks_palette : AtUnit (withCtx outCtx [] (sCmdS palFs [1, 0, 0, 0])) 0x03 9 (cmd9s palFs [1, 0, 0, 0]) ∧
    (∀ w ∈ palWords (cmd9s palFs [1, 0, 0, 0]), palWordErr w = []) := by unfold AtUnit; decide +kernel
def blkFs (n : Nat) : List (Nat × Nat) := [(0, 3), (8, 0x12), (16, n)]
def sBlk (n have_ : Nat) : State := { sCmd (blkFs n) with flash := { blockGranules := have_ } }
theorem meets_FeaturesAreSetAtTheirTicks_blocks : AtUnit (sBlk 5 0) 0x03 9 (cmd9 (blkFs 5)) ∧ 5 + quotaT3Sum (sBlk 5 0) ≤ userGranules (sBlk 5 0) ∧
    (sBlk 5 0).flash.blockGranules ≤ 5 ∧ AtUnit (sBlk 5 6) 0x03 9 (cmd9 (blkFs 5)) ∧ 5 < (sBlk 5 6).flash.blockGranules ∧
    userGranules (sBlk 0xFFFFFFFF 0) < 0xFFFFFFFF + quotaT3Sum (sBlk 0xFFFFFFFF 0) := by unfold AtUnit; decide +kernel
def readyCmd (fs : List (Nat × Nat)) : Cmd := { cmd9 fs with phase := .ready }
def sReady (fs : List (Nat × Nat)) : State := { sCmd fs with host := { (sCmd fs).host with cmds := [readyCmd fs] } }
theorem meets_FeaturesAreSetAtTheirTicks_ready : ∀ f ∈ [[(0, 0x78), (8, 3), (9, 1), (12, 60000)], [(0, 3), (8, 0x16)], [(0, 3), (8, 0x17)], [(0, 3), (8, 0x10)]],
    cmdOf (sReady f) (readyCmd f).tag = some (readyCmd f) ∧ (readyCmd f).phase = .ready ∧ (readyCmd f).extra ≤ (sReady f).frame.counter.toNat := by
  decide +kernel
theorem meets_FeaturesAreSetAtTheirTicks_round : ∀ d ∈ (sCmd arbFs).host.cmds, d.phase ≠ .waiting ∧ featureWaits 0x15 d = false ∧ (d.tag = 9 → d = cmd9 arbFs) := by
  decide +kernel
theorem meets_FeaturesAreSetAtTheirTicks_point : atPoint (withCtx outCtx [] (sReady palFs)) 1 = true ∧
    cmdOf (withCtx outCtx [] (sReady palFs)) 9 = some (readyCmd palFs) := by decide +kernel
theorem test_arbitration : ∀ t ∈ [after .commandRelease (after (.setFeatureArbitration 9) (sCmd arbFs))], t.arb.wHigh = 5 ∧ t.arb.wMedium = 2 ∧ t.arb.wLow = 10 := by
  decide +kernel

/-- ABORT of the command with tag 5, of context 1, and of everything. -/
def abortCmd (scope : Nat) : Cmd := { tag := 9, pkt := pk [(0, 7), (2, 1), (8, scope), (12, 5)], frame := 0 }
def sAbort (scope : Nat) : State :=
  { sCmd [] with host := { devState := .ready, cmds := [{ tag := 5, pkt := pk [(0, 0x50), (2, 1)], frame := 0 }, abortCmd scope] } }
theorem meets_AbortEndsWhatItSelects : ∀ n ∈ [0, 1, 2], cmdOf (sAbort n) 9 = some (abortCmd n) ∧ pktOpcode (abortCmd n).pkt = 0x07 ∧
    pktField (abortCmd n).pkt 8 1 = n ∧ (abortCmd n).phase = .waiting := by decide +kernel
theorem meets_AbortEndsWhatItSelects_selected : (selected (fun c d => decide (d.tag = pktField c.pkt 12 4)) (abortCmd 0) (sAbort 0)).map (·.tag) = [5] ∧
    (∀ d ∈ selected (fun _ _ => true) (abortCmd 2) (sAbort 2), notStarted d = true ∧ pktOpcode d.pkt ≠ 0x07) := by decide +kernel
theorem test_abort_all : (after (.abortAll 9) (sAbort 2)).host.done.map (fun r => (r.tag, r.status.cls, r.status.r0)) = [(5, 5, 1), (9, 0, 1)] := by
  decide +kernel

def fwFs : List (Nat × Nat) := [(0, 5), (56, 64), (60, 1)]
theorem meets_FirmwareAndLifecycle : AtUnit (sCmdS fwFs (zeros 64)) 0x05 9 (cmd9s fwFs (zeros 64)) ∧ efFree (sCmdS fwFs (zeros 64)) = true ∧
    8 ≤ pktBufLen (cmd9s fwFs (zeros 64)).pkt ∧ 0 + pktBufLen (cmd9s fwFs (zeros 64)).pkt ≤ imageMax := by unfold AtUnit; decide +kernel
theorem meets_FirmwareAndLifecycle_commit : At9 0x06 [(0, 6)] ∧ At9 0x06 [(0, 6), (8, 1)] ∧ efFree (sCmd [(0, 6)]) = true ∧ OthersWait 9 (sCmd [(0, 6)]) ∧
    AtUnit (sCmdS [(0, 8), (56, 3664), (60, 1)] (zeros 3664)) 0x08 9 (cmd9s [(0, 8), (56, 3664), (60, 1)] (zeros 3664)) ∧
    recoveryWindow (sCmd [(0, 8)]) = false := by unfold At9 AtUnit OthersWait; decide +kernel
theorem test_fw_commit_empty : (after (.fwCommit 9) (sCmd [(0, 6)])).host.done.map (fun r => (r.status.cls, r.status.code)) = [(7, 1)] := by decide +kernel

def createFs : List (Nat × Nat) := [(0, 0x20), (2, 1), (8, 2), (9, 3), (10, 50), (12, 10), (14, 20)]
theorem meets_ContextCommands : At9 0x20 createFs ∧ (ctxOf (sCmd createFs) 1).state = .free ∧
    AtUnit (withCtx outCtx [] (sCmd createFs)) 0x20 9 (cmd9 createFs) ∧ (ctxOf (withCtx outCtx [] (sCmd createFs)) 1).state ≠ .free := by
  unfold At9 AtUnit; decide +kernel
def dstFs : List (Nat × Nat) := [(0, 0x21), (2, 1)]
def sDst (k : ObjKind) : State := withCtx outCtx [(objId 1 7, { kind := k, size := 64, objNo := 3 })] (sCmd dstFs)
theorem meets_ContextCommands_destroy : AtUnit (sDst .scratch) 0x21 9 (cmd9 dstFs) ∧ (∀ d ∈ (sDst .scratch).host.cmds, d.tag ≠ 9 → pktCtx d.pkt ≠ 1) ∧
    (ctxOf (sDst .scratch) 1).run = none ∧ (ctxOf (sDst .scratch) 1).cores = [] ∧ (ctxOf (sDst .scratch) 1).sketchCores = [] ∧
    (sDst .scratch).swaps = [] ∧ (sDst .scratch).red.tags = [] ∧ (sDst .scratch).flash.readOnly = false ∧
    (∀ p ∈ objsOf (sDst .scratch) 1, p.2.kind = .scratch) ∧ (objsOf (sDst .persistent) 1).any (fun p => p.2.kind != .scratch) = true := by
  unfold AtUnit; decide +kernel
def quotaFs (t2 : Nat) : List (Nat × Nat) := [(0, 0x22), (2, 1), (8, 2), (9, 3), (12, t2)]
theorem meets_ContextCommands_quota : AtUnit (withCtx outCtx [] (sCmd (quotaFs 20))) 0x22 9 (cmd9 (quotaFs 20)) ∧
    quotaBad (withCtx outCtx [] (sCmd (quotaFs 20))) (pk (quotaFs 20)) = false ∧
    quotaBad (withCtx outCtx [] (sCmd (quotaFs 0xFFFFFFFF))) (pk (quotaFs 0xFFFFFFFF)) = true := by unfold AtUnit; decide +kernel
/-- CTX_QUOTA at its update point: T1 lowered in place, and below a resident context's quota. -/
theorem meets_ContextCommands_quota_point : atPoint (withCtx outCtx [] (sReady (quotaFs 20))) 1 = true ∧
    cmdOf (withCtx outCtx [] (sReady (quotaFs 20))) 9 = some (readyCmd (quotaFs 20)) ∧ quotaMask (pk (quotaFs 20)) 0 = true ∧
    quotaMask (pk (quotaFs 20)) 1 = true ∧ quotaMask (pk (quotaFs 20)) 2 = false ∧ isResident outCtx = false := by decide +kernel
/-- An image of 72 bytes: one HALT on one core of one cluster. -/
def imgBytes : List Byte :=
  [0x53, 0x58, 0x34, 0x50, 1, 0, 1, 0, 0, 0, 1, 0, 1] ++ zeros 7 ++ [64] ++ zeros 43 ++ [0x01] ++ zeros 7
def loadFs (op : Nat) : List (Nat × Nat) := [(0, op), (2, 1), (56, 72), (60, 1)] ++ if op = 0x24 then [(8, 1)] else []
def haltProg : Program := progOfWords [0x01] 1
def sLoad (op : Nat) : State := withCtx { outCtx with prog := some haltProg } [] (sCmdS (loadFs op) imgBytes)
theorem meets_ContextCommands_load : AtUnit (sLoad 0x23) 0x23 9 (cmd9s (loadFs 0x23) imgBytes) ∧ progLoadErr (sLoad 0x23) (cmd9s (loadFs 0x23) imgBytes) = none ∧
    progCores (programOf (cmdData (cmd9s (loadFs 0x23) imgBytes))) = 1 ∧ AtUnit (sLoad 0x24) 0x24 9 (cmd9s (loadFs 0x24) imgBytes) ∧
    (progLoadErr (withCtx outCtx [] (sCmdS (loadFs 0x23) (zeros 72))) (cmd9s (loadFs 0x23) (zeros 72))).isSome = true ∧
    fallbackErr (sLoad 0x24) (cmd9s (loadFs 0x24) imgBytes) = none ∧ fallbackClears (cmd9s (loadFs 0x24) imgBytes) = false ∧
    fallbackErr (sLoad 0x24) (cmd9 [(0, 0x24), (2, 1), (9, 1)]) = none ∧ fallbackClears (cmd9 [(0, 0x24), (2, 1), (9, 1)]) = true := by
  unfold AtUnit; decide +kernel
theorem test_load : ((ctxOf (after (.progLoad 9) (sLoad 0x23)) 1).state, (ctxOf (startExec (cmd9s (loadFs 0x23) imgBytes) (sLoad 0x23)) 1).prog.map (·.code)) =
    (.out, some [0x01]) := by decide +kernel
theorem test_ctx_create : (ctxOf (after (.ctxCreate 9) (sCmd createFs)) 1).waitFrames = 10 ∧ (ctxOf (after (.ctxCreate 9) (sCmd createFs)) 1).runFrames = 20 := by
  decide +kernel
theorem test_quota : (ctxOf (applyQuota (cmd9 (quotaFs 20)) (withCtx outCtx [] (sCmd (quotaFs 20)))) 1).quotaT2 = 20 := by decide +kernel

/-- Object commands on object 7 of context 1. -/
def objFs (op : Nat) (l : List (Nat × Nat)) : List (Nat × Nat) := [(0, op), (2, 1), (8, 7)] ++ l
def sObj (o : Obj) (op : Nat) (l : List (Nat × Nat)) : State := withCtx outCtx [(objId 1 7, o)] (sCmd (objFs op l))
def newFs (kind : Nat) : List (Nat × Nat) := objFs 0x30 [(14, kind), (16, 65536)]
theorem meets_ObjectCommands : AtUnit (withCtx outCtx [] (sCmd (newFs 1))) 0x30 9 (cmd9 (newFs 1)) ∧
    (makeRoom 1 (roundUp 65536 granuleBytes) (withCtx outCtx [] (sCmd (newFs 1)))).isSome = true ∧
    makeRoom 1 (roundUp 65536 granuleBytes) (withCtx { outCtx with quotaT2 := 0 } [] (sCmd (newFs 1))) = none ∧
    AtUnit (withCtx outCtx [] (sCmd (newFs 0))) 0x30 9 (cmd9 (newFs 0)) ∧
    t4Use (withCtx outCtx [] (sCmd (newFs 2))) 1 + ceilDiv 65536 1048576 ≤ outCtx.quotaT4 := by unfold AtUnit; decide +kernel
def pers : Obj := { kind := .persistent, size := 65536, objNo := 3 }
def scr : Obj := { kind := .scratch, size := 65536, copy := some { data := { cells := [(3, 9)] } } }
theorem meets_ObjectCommands_place : AtObject (sObj pers 0x31 [(14, 1)]) 0x31 9 (cmd9 (objFs 0x31 [(14, 1)])) pers ∧
    placePinned (sObj pers 0x31 [(14, 1)]) (objId 1 7) pers 1 = false ∧
    (makeRoom 1 (roundUp 65536 granuleBytes) (sObj pers 0x31 [(14, 1)])).isSome = true := by unfold AtObject AtUnit; decide +kernel
def bindFs : List (Nat × Nat) := objFs 0x31 [(14, 3), (24, 64), (32, 256), (38, 1)]
theorem meets_ObjectCommands_bind : bindingErr (withCtx { outCtx with quotaT1 := 16 } [(objId 1 7, pers)] (sCmd bindFs)) (objId 1 7) pers (packetBinding (pk bindFs)) = [] ∧
    (packetBinding (pk bindFs)).t1Addr + pieceSpan (packetBinding (pk bindFs)) 0 ≤ t1Size (withCtx { outCtx with quotaT1 := 16 } [] (sCmd bindFs)) 1 := by
  decide +kernel
theorem meets_ObjectCommands_write : AtObject (sObj scr 0x32 [(16, 65472), (56, 64)]) 0x32 9 (cmd9 (objFs 0x32 [(16, 65472), (56, 64)])) scr ∧
    AtObject (sObj scr 0x33 [(56, 64)]) 0x33 9 (cmd9 (objFs 0x33 [(56, 64)])) scr ∧ 65472 + 64 ≤ scr.size ∧
    t3Bad (sObj pers 0x32 [(16, 65472), (56, 64)]) 1 pers 65472 64 = false := by unfold AtObject AtUnit; decide +kernel
theorem meets_ObjectCommands_pin : AtObject (sObj { pers with wantT2 := true } 0x34 [(14, 1)]) 0x34 9 (cmd9 (objFs 0x34 [(14, 1)])) { pers with wantT2 := true } ∧
    AtObject (sObj { pers with pin := 1 } 0x34 []) 0x34 9 (cmd9 (objFs 0x34 [])) { pers with pin := 1 } ∧
    AtObject (sObj pers 0x35 [(14, 1)]) 0x35 9 (cmd9 (objFs 0x35 [(14, 1)])) pers ∧ evictPinned (sObj pers 0x35 [(14, 1)]) (objId 1 7) pers 1 = false ∧
    writesBack pers 1 = false ∧ heldNow (sObj pers 0x35 [(14, 1)]) (objId 1 7) pers = false ∧
    AtObject (sObj pers 0x36 []) 0x36 9 (cmd9 (objFs 0x36 [])) pers ∧ deletePinned (sObj pers 0x36 []) (objId 1 7) pers = false ∧
    deleteWaits (sObj pers 0x36 []) (cmd9 (objFs 0x36 [])) = false := by unfold AtObject AtUnit; decide +kernel
/-- At their points: the write, the eviction and the deletion of a SCRATCH object, and with programs of a PERSISTENT one. -/
def atPt (o : Obj) (op : Nat) (l : List (Nat × Nat)) : State := withCtx outCtx [(objId 1 7, o)] (sReady (objFs op l))
theorem meets_ObjectCommands_points : atPoint (atPt scr 0x32 [(16, 64), (56, 64)]) 1 = true ∧ atPoint (atPt pers 0x35 [(14, 1)]) 1 = true ∧
    cmdOf (atPt scr 0x36 []) 9 = some (readyCmd (objFs 0x36 [])) ∧ deleteWaits (atPt scr 0x36 []) (readyCmd (objFs 0x36 [])) = false ∧
    deletePinned (atPt scr 0x36 []) (objId 1 7) scr = false ∧ scr.kind = .scratch ∧ pers.kind ≠ .scratch ∧
    t3Bad (atPt pers 0x32 [(16, 64), (56, 64)]) 1 pers 64 64 = false ∧ 0 < pktBufLen (pk (objFs 0x32 [(16, 64), (56, 64)])) ∧
    (atPt pers 0x36 []).flash.readOnly = false ∧ { atPt pers 0x36 [] with flash := { readOnly := true } }.flash.readOnly = true ∧
    backErr (sObj pers 0x35 [(14, 1)]) 1 pers 1 = none := by decide +kernel
theorem test_obj_delete_home : (applyDelete (readyCmd (objFs 0x36 [])) (atPt pers 0x36 [])).flash.progQ.map (fun o => (o.ver.kind, o.ver.slots.map (·.lga))) =
    [(.tombstone, [3 * 2 ^ 24])] := by decide +kernel
theorem test_obj_read : (after (.objRead 9) (sObj scr 0x33 [(48, 0x1000), (56, 64), (60, 1)])).host.hostOut.map (fun w => (w.addr, w.data.take 4)) =
    [(0x1000, [0, 0, 0, 9])] := by decide +kernel
theorem test_obj_write : ((objOf (applyWrite (cmd9s (objFs 0x32 [(16, 64), (56, 64), (60, 1)]) [8]) (withCtx outCtx [(objId 1 7, scr)]
    (sCmdS (objFs 0x32 [(16, 64), (56, 64), (60, 1)]) [8]))) (objId 1 7)).bind (·.copy)).map (fun m => (storeByte m.data 64, storeByte m.data 3)) = some (8, 9) := by
  decide +kernel
theorem test_obj_delete : (objOf (applyDelete (cmd9 (objFs 0x36 [])) (sObj scr 0x36 [])) (objId 1 7)) = none := by decide +kernel

/-- BATCH_SUBMIT with 64 bytes of input into slot 0. -/
def batFs (op : Nat) (l : List (Nat × Nat)) : List (Nat × Nat) := [(0, op), (2, 1), (56, 64), (60, 1)] ++ l
def runCtx : Context := { state := .blocked, domains := 1, alloc := [5], quotaT2 := 10, prog := some (progOfWords [0x01] 1) }
def sBat (op : Nat) (l : List (Nat × Nat)) : State :=
  { withCtx runCtx [(objId 1 7, scr)] (sCmdS (batFs op l) [5]) with red := { available := true } }
theorem meets_ExecutionCommands : AtUnit (sBat 0x40 [(12, 64)]) 0x40 9 (cmd9s (batFs 0x40 [(12, 64)]) [5]) ∧ ioOk (sBat 0x40 [(12, 64)]) 1 0 64 = true ∧
    pktPipe (pk (batFs 0x40 [(12, 64)])) = false ∧ pktPipe (pk (batFs 0x40 [(10, 1), (12, 64)])) = true ∧
    AtUnit (sBat 0x41 [(16, 64)]) 0x41 9 (cmd9s (batFs 0x41 [(16, 64)]) [5]) ∧ (sBat 0x41 []).red.available = true ∧
    mainSlot (sBat 0x40 []) 1 0 = some (objId 1 7) ∧ (ctxOf (sBat 0x40 []) 1).prog.isSome = true ∧
    inputBad (meetInput 1 64 (sBat 0x40 [(12, 64)])) 1 64 = none ∧ scr.copy.isSome = true := by unfold AtUnit; decide +kernel
def sNoRed : State := { sBat 0x41 [(16, 64)] with red := {} }
theorem meets_ExecutionCommands_void : AtUnit sNoRed 0x41 9 (cmd9s (batFs 0x41 [(16, 64)]) [5]) ∧ sNoRed.red.available = false ∧
    AtUnit (withCtx outCtx [] (sCmd [(0, 0x42), (2, 1)])) 0x42 9 (cmd9 [(0, 0x42), (2, 1)]) := by unfold AtUnit; decide +kernel
def voidFs : List (Nat × Nat) := [(0, 0x42), (2, 1), (8, 6)]
def sVoid (l : Option (Nat × List Nat)) : State := withCtx { outCtx with lastStep := l } [] (sCmd voidFs)
theorem meets_ExecutionCommands_last : cmdOf (sVoid (some (6, []))) 9 = some (cmd9 voidFs) ∧ (ctxOf (sVoid (some (6, []))) 1).lastStep = some (6, []) ∧
    (ctxOf (sVoid none) 1).steps = [] ∧ (ctxOf (sVoid none) 1).lastStep = none ∧ (ctxOf (sVoid (some (5, []))) 1).lastStep = some (5, []) ∧
    0 < progCores (progOfWords [0x01] 1) := by decide +kernel
/-- An answer line that names a waiting PIPE batch, of a program without slot 1. -/
def sAnswer : State :=
  { sCmd [] with
    ctxs := [(1, { runCtx with clusters := [(0, { t1 := { cells := [(128, 5)] } })] })]
    host := { devState := .ready, cmds := [{ tag := 9, pkt := pk [(0, 0x40), (2, 1), (10, 1), (24, 5)], frame := 0, phase := .running }] } }
theorem meets_ExecutionCommands_answer : slotObj sAnswer (progOfWords [0x01] 1) 1 = none ∧ rawBad 4 64 (t1Of sAnswer 1 0) 128 64 = [] ∧
    storeHit 64 (t1Of sAnswer 1 0) 128 64 = false ∧ leNat (storeRead (t1Of sAnswer 1 0) 128 8) = 5 ∧
    (sAnswer.host.cmds.find? (fun d => pktCtx d.pkt = 1 && pipeWaiting d && pktField d.pkt 24 8 = 5)).map (·.tag) = some 9 := by decide +kernel
theorem test_answer : (answerLine 1 sAnswer).host.done.map (·.tag) = [9] := by decide +kernel
theorem test_batch : (ctxOf (after (.batchSubmit 9) (sBat 0x40 [(12, 64)])) 1).state = .runnable ∧
    ((objOf (after (.batchSubmit 9) (sBat 0x40 [(12, 64)])) (objId 1 7)).bind (·.copy)).map (fun m => (storeByte m.data 0, storeByte m.data 3)) = some (5, 0) := by
  decide +kernel
theorem test_step_void : (ctxOf (applyStepVoid (cmd9 voidFs) (sVoid (some (6, [])))) 1).parity = true := by decide +kernel

def blkCmdFs (op lba n : Nat) : List (Nat × Nat) := [(0, op), (16, lba), (24, n), (48, 0x1000), (56, n * 4096), (60, if op = 0x52 then 0 else 1)]
def sBlks (op lba n : Nat) : State := { sCmdS (blkCmdFs op lba n) [1] with flash := { blockGranules := 2 } }
theorem meets_BlockCommands : AtBlocks (sBlks 0x50 31 1) 0x50 9 (cmd9s (blkCmdFs 0x50 31 1) [1]) ∧ noMedia (sBlks 0x50 31 1) (blkLga 1) = true ∧
    AtBlocks (sBlks 0x51 31 1) 0x51 9 (cmd9s (blkCmdFs 0x51 31 1) [1]) ∧ AtBlocks (sBlks 0x52 16 16) 0x52 9 (cmd9s (blkCmdFs 0x52 16 16) [1]) ∧
    At9 0x53 [(0, 0x53)] ∧ (sBlks 0x51 31 1).flash.readOnly = false := by unfold AtBlocks At9 AtUnit; decide +kernel
def sMapped : State := { sBlks 0x50 31 1 with flash := { blockGranules := 2, map := [(blkLga 1, { ch := 0, die := 0, super := 0, pos := 0 })] } }
theorem meets_BlockCommands_mapped : AtBlocks sMapped 0x50 9 (cmd9s (blkCmdFs 0x50 31 1) [1]) ∧ noMedia sMapped (blkLga 1) = false ∧
    blockGranule (cmd9s (blkCmdFs 0x50 31 1) [1]) 1 ∧ { sBlks 0x51 31 1 with flash := { readOnly := true } }.flash.readOnly = true := by
  unfold AtBlocks AtUnit blockGranule; decide +kernel
theorem test_blk_read_zeros : (after (.blkRead 9) (sBlks 0x50 31 1)).host.hostOut.map (fun w => (w.addr, w.data.length, w.data.all (· = 0))) =
    [(0x1000, 4096, true)] := by decide +kernel
theorem test_blk_trim : (after (.blkTrim 9) (sBlks 0x52 16 16)).flash.progQ.map (fun o => o.ver.slots.map (fun y => (y.lga, y.count))) =
    [[(blkLga 1, 1)]] := by decide +kernel

/-! ### Queries, frames and scheduling -/

/-- A scan descriptor: records of 512 bytes, one record, no predicate, no projection, landing window at 256. -/
def scanBytes : List Byte := [0, 2] ++ zeros 14 ++ [0xFF, 0xFF] ++ zeros 14 ++ [1] ++ zeros 7 ++ [0, 1] ++ zeros 598
def scanFs (op : Nat) : List (Nat × Nat) := [(0, op), (2, 1), (8, 7), (16, 640), (20, 576), (48, 0x1000), (56, 1216), (60, 1)]
def resident : Context := { state := .runnable, domains := 1, alloc := [5], quotaT1 := 16, quotaT2 := 10, runFrames := 4 }
def homeFlash : Flash :=
  { map := [(3 * 2 ^ 24, { ch := 0, die := 0, super := 1, pos := 0 })]
    supers := [(1, { state := .closed, vers := [(0, { kind := .granule, slots := [{ lga := 3 * 2 ^ 24, seq := 1 }], data := { cells := [(0, 5)] } })], next := 1 })] }
def sScan (op : Nat) : State := { withCtx resident [(objId 1 7, pers)] (sCmdS (scanFs op) scanBytes) with flash := homeFlash }
theorem meets_QueryCommandsAndScans : AtUnit (sScan 0x60) 0x60 9 (cmd9s (scanFs 0x60) scanBytes) ∧ objBlocked (sScan 0x60) (cmd9s (scanFs 0x60) scanBytes) = false ∧
    ctxDefined (sScan 0x60) 1 = true ∧ queryErr .scan (sScan 0x60) (cmd9s (scanFs 0x60) scanBytes) = none ∧ mapFind 0 (sScan 0x60).scan.slots = none := by
  unfold AtUnit; decide +kernel
/-- One query vector of eight codes, one candidate. -/
def vecBytes : List Byte :=
  [0, 2, 0, 0, 0, 1, 0, 1, 8, 0] ++ zeros 6 ++ [0xFF, 0xFF, 1, 0, 1, 0] ++ zeros 10 ++ [1] ++ zeros 7 ++ [0, 1] ++ zeros 662
def vecFs : List (Nat × Nat) := [(0, 0x61), (2, 1), (8, 7), (16, 704), (20, 584), (48, 0x1000), (56, 1288), (60, 1)]
/-- No granule of the object is mapped. -/
def sBare (fs : List (Nat × Nat)) (bs : List Byte) : State := withCtx { resident with prog := some haltProg } [(objId 1 7, pers)] (sCmdS fs bs)
theorem meets_QueryCommandsAndScans_bare : AtUnit (sBare vecFs vecBytes) 0x61 9 (cmd9s vecFs vecBytes) ∧ queryErr .vsearch (sBare vecFs vecBytes) (cmd9s vecFs vecBytes) = none ∧
    objBlocked (sBare vecFs vecBytes) (cmd9s vecFs vecBytes) = false ∧ mappedLgas (sBare vecFs vecBytes) = [] ∧
    AtUnit (sBare (scanFs 0x62) scanBytes) 0x62 9 (cmd9s (scanFs 0x62) scanBytes) ∧
    queryErr .embed (sBare (scanFs 0x62) scanBytes) (cmd9s (scanFs 0x62) scanBytes) = none ∧ isResident resident = true := by unfold AtUnit; decide +kernel
theorem test_bare_queries : (after (.embed 9) (sBare (scanFs 0x62) scanBytes)).host.hostOut.map (fun w => (w.addr, w.data.length)) = [(0x1280, 576)] ∧
    (after (.queryMergeComplete 0) (after (.vsearch 9) (sBare vecFs vecBytes))).host.hostOut.map (fun w => (w.addr, w.data.length)) = [(0x12C0, 584)] := by
  decide +kernel
def scanQuery : Query :=
  { tag := 9, ctx := 1, obj := objId 1 7, kind := .scan, resOff := 1216, resLen := 4096
    desc := { rlen := 512, fields := [], steps := [], proj := [], metric := 0, vfmt := 0, nq := 0, vdim := 0, voff := 0, vexp := 0, qexp := 0
              wide := false, keyOff := 0xFFFF, kch := 0, k := 0, pace := 0, firstRec := 0, nrec := 1, landOff := 256, queries := [] } }
def scanRead : ReadOp := { id := 4, lga := 3 * 2 ^ 24, why := .query 9 0, started := true, dies := [0], snap := { cells := [(0, 5)] } }
def sScanning : State :=
  { sScan 0x60 with
    host := { (sScan 0x60).host with cmds := [{ tag := 9, pkt := pk (scanFs 0x60), frame := 0, phase := .running }] }
    power := { sOn.power with d3 := true }, flash := { homeFlash with readQ := [scanRead] }, scan := { slots := [(0, scanQuery)] } }
theorem meets_QueryCommandsAndScans_page : mapFind 0 sScanning.scan.slots = some scanQuery ∧ objOf sScanning scanQuery.obj = some pers ∧
    sScanning.flash.readQ.find? (fun r => r.started && readChannel r = 0 && (queryGranule scanQuery.tag r).isSome) = some scanRead ∧
    queryAwake sScanning scanQuery = true ∧ flashOn sScanning = true ∧ (0 - firstOn scanQuery.desc 0) / 32 < granulesOn scanQuery.desc pers.size 0 := by decide +kernel
def sScanned : State := after (.pageScanned 0 0 {}) sScanning
theorem meets_QueryCommandsAndScans_merge : (mapFind 0 sScanned.scan.slots).any (fun q => scanDone q (querySize sScanned q) && (cmdOf sScanned q.tag).isSome) = true ∧
    isResident (ctxOf sScanned 1) = true := by decide +kernel
theorem meets_QueryCommandsAndScans_unit : sScanning.scan.slots.map (·.1) = [0] ∧ granulesOn scanQuery.desc (querySize sScanning scanQuery) 0 ≠ 0 ∧
    (cmdOf sScanning 9).any (fun c => isQuery (pktOpcode c.pkt) && c.phase = .running && !runOf sScanning c) = true ∧
    (∀ c ∈ sScanning.host.cmds, queryWaits sScanning 0 c = false) ∧ (sScan 0x60).scan.slots = [] := by decide +kernel
theorem test_scan : ((mapFind 0 sScanned.scan.slots).map (fun q => (q.scanned, q.passed))) = some (1, 1) ∧
    ((mapFind 0 (after (.pageScanned 0 0 ⟨[3], []⟩) sScanning).scan.slots).map (fun q => (q.scanned, q.badPages))) = some (0, 1) := by decide +kernel
theorem test_unit_stopped : mapGet .enabled (after (.scanUnitDisabledForService 0 2) sScanning).scan.units 0 = .stopped ∧
    (after (.scanUnitDisabledForService 0 2) sScanning).host.done.map (fun r => (r.status.cls, r.status.r0)) = [(5, 3)] := by decide +kernel

def tick0 : TickSample :=
  { avgW := 1500, peakW := 2000, computeW := 0, idleW := 0, dutySum := 0, elapsed := 1000, temps := [], energyMj := 0
    arithOps := [], hbmBytes := 0, flashBytes := 0, ringBytes := 0, hostBytes := 0, scanBytes := 0, lockErr := 0 }
def sTick (a : Option Nat) : State :=
  { sOn with host := { devState := .rebuilding }, frame := { counter := 41, plan := [1] }, power := { sOn.power with afterWindow := a } }
theorem meets_FrameTickCountsAndCloses : (sTick none).power.standby = true ∧ (sTick none).power.d1 = true ∧ (sTick none).power.s3 = false ∧
    serving (sTick none) = false ∧ (sTick none).host.devState ≠ .booting ∧ (sTick none).power.woken = false ∧ tick0.upsets = [] ∧ (sTick none).host.cmds = [] ∧ State.reset.power.d1 = false ∧
    { sOn with power := { standby := false } }.power.standby = false := by decide +kernel
theorem test_frame_tick : (after (.frameTick tick0) (sTick none)).frame.counter = 42 ∧ (after (.frameTick tick0) (sTick none)).frame.slices = [1] ∧
    (after (.frameTick tick0) (sTick none)).power.frameAvgW = 1500 := by decide +kernel
theorem test_frame_tick_reset : (after (.frameTick tick0) (sTick (some 6))).power.resetCause = 6 ∧ (after (.frameTick tick0) (sTick (some 8))).power.s3Flush = true := by
  decide +kernel

def ready0 : State := { sOn with host := { devState := .ready }, power := { sOn.power with compute := [(5, .on), (6, .on)] } }
def waitFs : List (Nat × Nat) := [(0, 0x40), (2, 1)]
def sPlan : State := { ready0 with
  ctxs := [(1, { state := .out, domains := 1, slicePct := 50, quotaT1 := 1, quotaT2 := 1000, prog := some (progOfWords [1] 1) })]
  host := { devState := .ready, cmds := [{ tag := 9, pkt := pk waitFs, frame := 0, phase := .ready }] } }
theorem meets_SchedulingOfAFrame : ready0.frame.planClosed = false ∧ waitingCtxs ready0 = [] ∧ waitingCtxs sPlan = [1] ∧ (placeAt sPlan 1).isSome = true := by
  decide +kernel
def sSnap : State := { sRun with frame := { counter := 5 } }
theorem meets_SchedulingOfAFrame_snapshot : sSnap.frame.snapDone = false ∧ sSnap.host.devState = .ready ∧ sSnap.ctxs.length = 1 ∧ (ctxOf sSnap 1).state = .runnable := by
  decide +kernel
def sSlice (k : Core) : State :=
  { ready0 with ctxs := [(1, { resident with prog := some (progOfWords [1] 1), cores := [(0, k)], slicePct := 50, run := some { kind := .batch, ticks := 4 } })], frame := { slices := [1] } }
def inSl (s : State) : State := updCtx 1 (fun c => { c with inSlice := true }) { s with frame := {} }
theorem meets_SchedulingOfAFrame_slice : sliceReady (sSlice { phase := .yielded true }) 1 = true ∧ sliceReady ready0 1 = false ∧ (ctxOf (inSl (sSlice {})) 1).inSlice = true ∧
    displaced (inSl (sSlice {})) 5 = none ∧ (ctxOf (inSl (sSlice {})) 1).alloc = [5] := by decide +kernel
theorem meets_LateRunFaultsItsContext : ((ctxOf (sSlice {}) 1).run.map (·.ticks)) = some 4 ∧ (ctxOf (sSlice {}) 1).runFrames ≤ 4 ∧
    isResident (ctxOf (sSlice {}) 1) = true ∧ 3 < (ctxOf (sSlice {}) 1).runFrames := by decide +kernel
def sSwap (wipe : Bool) : State := { ready0 with
  ctxs := [(1, { state := if wipe then .out else .swappingOut, alloc := [5], wiping := wipe })], swaps := [{ ctx := 1, domain := 5, swapIn := false, wipe := wipe }] }
theorem meets_SchedulingOfAFrame_swap : (sSwap false).swaps.map (fun o => (o.ctx, o.wipe)) = [(1, false)] ∧ (ctxOf (sSwap false) 1).state = .swappingOut ∧
    (sSwap false).power.domOff = [] ∧ (sSwap true).swaps.map (·.wipe) = [true] := by decide +kernel
def pipeCmd : Cmd := { tag := 9, pkt := pk [(0, 0x40), (2, 1), (10, 1)], frame := 0, phase := .running, extra := 1 }
def sPipe (now : Word64) : State := { ready0 with ctxs := [(1, resident)], host := { devState := .ready, cmds := [pipeCmd] }, frame := { counter := now } }
theorem meets_SchedulingOfAFrame_pipe : cmdOf (sPipe 5) 9 = some pipeCmd ∧ pipeWaiting pipeCmd = true ∧ (ctxOf (sPipe 5) 1).run = none ∧ inputReady pipeCmd = true ∧ listErr pipeCmd = none ∧
    pipeCmd.extra + (ctxOf (sPipe 5) 1).runFrames ≤ (sPipe 5).frame.counter.toNat ∧ (sPipe 4).frame.counter.toNat < pipeCmd.extra + (ctxOf (sPipe 4) 1).runFrames := by
  decide +kernel
/-- Two contexts on domain 5: the slice of 1 overruns into that of 2. -/
def sTwo : State :=
  { inSl (sSlice {}) with
    ctxs := (inSl (sSlice {})).ctxs ++ [(2, { resident with slicePct := 50 })], frame := { slices := [2] } }
theorem meets_SchedulingOfAFrame_credit : (ctxOf sTwo 1).inSlice = true ∧ displaced sTwo 5 = some 2 ∧ (ctxOf sTwo 1).alloc = [5] ∧
    (∀ p ∈ (ctxOf sTwo 1).cores ++ (ctxOf sTwo 1).sketchCores, ∀ u ∈ p.2.tickets, u.2.out = none) := by decide +kernel
/-- A swap-out in progress before a context that has been placed comes in, and the plan that finds one in progress. -/
def sPlace : State :=
  { ready0 with
    ctxs := [(1, { state := .out, place := [5] })], swaps := [{ ctx := 2, domain := 5, swapIn := false }, { ctx := 1, domain := 5, swapIn := true }] }
theorem meets_SchedulingOfAFrame_place : sPlace.swaps = [{ ctx := 2, domain := 5, swapIn := false }] ++ [{ ctx := 1, domain := 5, swapIn := true }] ∧
    (ctxOf sPlace 2).state ≠ .swappingOut ∧ (ctxOf sPlace 1).place ≠ [] ∧ (placeAt { sPlan with swaps := [{ ctx := 2, domain := 6, swapIn := false }] } 1) = some [5] := by
  decide +kernel
theorem test_place : (ctxOf (after (.swapDomainComplete false) sPlace) 1).state = .swappingIn ∧ (ctxOf (after (.swapDomainComplete false) sPlace) 1).alloc = [5] := by
  decide +kernel
theorem test_credit : mapGet 0 (ctxOf (after (.sliceEnd 1 300) sTwo) 2).credits 5 = 300 ∧
    (ctxOf (after (.sliceEnd 1 300) sTwo) 1).inSlice = false := by decide +kernel
theorem test_plan : (ctxOf (after .framePlanClose sPlan) 1).state = .swappingIn ∧ (ctxOf (after .framePlanClose sPlan) 1).alloc = [5] := by decide +kernel
theorem test_slice_start : (coreOf (after (.sliceStart 1) (sSlice { phase := .yielded true })) core0).phase = .running := by decide +kernel
theorem test_slice_overrun : mapGet 0 (ctxOf (after (.sliceEnd 1 300) (inSl (sSlice {}))) 1).charges 5 = -300 := by decide +kernel
theorem test_run_timeout : (ctxOf (after (.runTimeout 1) (sSlice {})) 1).state = .teardown := by decide +kernel
theorem test_swap_out : (ctxOf (after (.swapDomainComplete false) (sSwap false)) 1).state = .out ∧ (ctxOf (after (.swapDomainComplete false) (sSwap false)) 1).saved = true := by
  decide +kernel
theorem test_snapshot : (clusterOf (after .deadlineSnapshot sSnap) 1 0).flags.getLsbD 31 = true := by decide +kernel

/-! ### Prefetch and flash -/

def sPost (o : Obj) : State := withCtx { resident with clusters := [(0, { posts := [{ obj := objId 1 7, mask := 1, core := core0 }] })], cores := [(0, { postsOut := 1 })] }
  [(objId 1 7, o)] sOn
theorem meets_PrefetchEngine : (clusterOf (sPost { pers with copy := some {} }) 1 0).posts.length = 1 ∧ objResident { pers with copy := some {} } = true ∧
    (clusterOf sOn 1 249).posts = [] := by decide +kernel
def sFill (q : Nat) : State := { withCtx { resident with quotaT2 := q } [(objId 1 7, { pers with waiting := true })] sOn with flash := homeFlash }
theorem meets_PrefetchEngine_retry : ((objsOf (sFill 1000) 1).filter (fun p => p.2.waiting)) = [(objId 1 7, { pers with waiting := true })] ∧
    (makeRoom 1 (roundUp 65536 granuleBytes) (sFill 1000)).isSome = true ∧ makeRoom 1 (roundUp 65536 granuleBytes) (sFill 0) = none := by decide +kernel
def bind0 : Binding := { off := 0, len := 64, t1Addr := 256, first := 0, count := 1, stripe := false, elem := 0, rows := 0, rowBytes := 0 }
def bound : Obj := { pers with pin := 2, binding := some bind0, copy := some { data := { cells := [(0, 5)] } } }
theorem meets_PrefetchEngine_gather : bindingAsked bound = true ∧ bind0.filled = false ∧ t2Complete bound = true ∧ resident.alloc ≠ [] := by decide +kernel
def torn : Obj := { pers with copy := some { data := { poison := [0] } } }
def sTorn : State := { withCtx resident [(objId 1 7, torn)] sOn with flash := homeFlash }
theorem meets_PrefetchEngine_repair : 0 ∈ badGranules { data := { poison := [0] } } ∧ unrecoverable sTorn torn { data := { poison := [0] } } 0 = false ∧
    noMedia sTorn (objLga torn 0) = false ∧ readQueued sTorn (objId 1 7) 0 = false := by decide +kernel
theorem test_post : (clusterOf (after (.postAccepted 1 0) (sPost { pers with copy := some {} })) 1 0).posts = [] ∧
    (objOf (after (.postAccepted 1 0) (sPost { pers with copy := some {} })) (objId 1 7)).map (·.held) = some true := by decide +kernel
theorem test_gather : storeByte (t1Of (after (.gatherFillComplete (objId 1 7)) (withCtx resident [(objId 1 7, bound)] sOn)) 1 0) 256 = 5 := by decide +kernel

/-- The flash powered. -/
def flashUp (f : Flash) (s : State) : State := { s with power := { s.power with d3 := true }, flash := f }
def fillRead : ReadOp := { id := 4, lga := 3 * 2 ^ 24, why := .fill (objId 1 7) 0 false, started := true, dies := [0], snap := { cells := [(0, 5)] } }
def sReading : State := flashUp { homeFlash with readQ := [fillRead] } (withCtx resident [(objId 1 7, { pers with copy := some { missing := [0] } })] sOn)
theorem meets_FlashOperationsComplete : sReading.flash.readQ.find? (fun x => x.id = 4) = some fillRead ∧ flashOn sReading = true ∧
    (homeNew sReading (3 * 2 ^ 24)).poison = [] ∧
    (objOf sReading (objId 1 7)).map (fun o => (o.fillTags, o.copy.map (·.missing))) = some ([], some [0]) := by decide +kernel
/-- A folded granule at position 0 of superblock 2, read back; the map still names superblock 1. -/
def foldHome : Loc := { ch := 0, die := 0, super := 1, pos := 0 }
def foldNew : Loc := { ch := 0, die := 0, super := 2, pos := 0 }
def foldVer : Version := { kind := .granule, slots := [{ lga := 3 * 2 ^ 24, seq := 1 }] }
def verRead : ReadOp := { id := 4, lga := 3 * 2 ^ 24, why := .verify foldHome foldNew false, started := true, dies := [0] }
def sVerify : State :=
  flashUp { homeFlash with supers := homeFlash.supers ++ [(2, { state := .open_, vers := [(0, foldVer)], next := 1 })], readQ := [verRead] } sOn
theorem meets_FlashOperationsComplete_verify : sVerify.flash.readQ.find? (fun x => x.id = 4) = some verRead ∧ versionAt sVerify foldNew = some foldVer ∧
    mapFind (3 * 2 ^ 24) sVerify.flash.map = some foldHome := by decide +kernel
def newVer : Version := { kind := .granule, slots := [{ lga := 3 * 2 ^ 24, seq := 2 }], data := { cells := [(0, 7)] } }
def prog0 : ProgOp := { id := 2, tag := 0, kind := .write, ch := 0, ver := newVer, on := some (0, 0) }
def sProg : State :=
  flashUp { supers := [(0, { state := .open_, slc := true })], dies := [(0, { work := some (.program 2) })], progQ := [prog0], slcCapacity := 10, nextId := 3 } sOn
theorem meets_FlashOperationsComplete_program : sProg.flash.progQ.find? (fun o => o.id = 2) = some prog0 ∧ (dieOf sProg 0 0).suspended = false ∧
    flashOn sProg = true ∧ (∀ p ∈ sProg.flash.progQ, p.id < sProg.flash.nextId) ∧ mapFind (3 * 2 ^ 24) sProg.flash.map = none ∧
    sProg.flash.supers.all (fun p => p.2.vers.all (fun v => v.2.kind != .tombstone)) = true := by decide +kernel
/-- The last program of command 9. -/
def lastCmd : Cmd := { cmd9 [(0, 0x52)] with phase := .running, left := 1 }
def sLast : State := { sProg with host := { devState := .ready, cmds := [lastCmd] }, flash := { sProg.flash with progQ := [{ prog0 with tag := 9 }] } }
theorem meets_BlockCommands_last : cmdOf sLast 9 = some lastCmd ∧ lastCmd.left ≤ 1 ∧ lastCmd.result = none ∧
    sLast.flash.progQ.find? (fun p => p.id = 2) = some { prog0 with tag := 9 } ∧ (dieOf sLast 0 0).suspended = false ∧ flashOn sLast = true := by decide +kernel
theorem test_last_program : (after (.flashProgramComplete 2 0 true) sLast).host.done.map (fun r => (r.tag, r.status.cls)) = [(9, 0)] := by decide +kernel
def sErase : State := flashUp { supers := [(5, { state := .erasing, wear := 3 })], dies := [(0, { work := some (.erase 5) })] } sOn
theorem meets_FlashOperationsComplete_erase : (dieOf sErase 0 0).work = some (.erase 5) ∧ (dieOf sErase 0 0).suspended = false ∧ flashOn sErase = true ∧
    wfSuper 0 0 5 = true := by decide +kernel
def sSusp : State :=
  flashUp { homeFlash with dies := [(0, { work := some (.erase 5) })], readQ := [{ id := 4, lga := 3 * 2 ^ 24, why := .host 9 0 }] } sOn
theorem meets_FlashOperationsComplete_suspend : readQueuedFor sSusp (dieKey 0 0) = true ∧ (dieOf sSusp 0 0).work.isSome = true ∧ flashOn sSusp = true := by
  decide +kernel
def rawFs : List (Nat × Nat) := [(0, 0x79), (12, 1), (14, 383), (56, 16384), (60, 1)]
def sRaw (d : Die) : State := flashUp { supers := [(1, { state := .closed, slc := true })], dies := [(0, d)] } (sCmd rawFs)
theorem meets_FlashOperationsComplete_raw : AtUnit (sRaw {}) 0x79 9 (cmd9 rawFs) ∧
    AtUnit (sRaw { work := some (.erase 1), suspended := true }) 0x79 9 (cmd9 rawFs) := by unfold AtUnit; decide +kernel
theorem meets_FlashOperationsComplete_raw_die : dieFree (sRaw {}) (dieKey 0 0) = true ∧ superAt (sRaw {}) 0 0 0 1 = some 1 ∧
    dieFree (sRaw { work := some (.erase 1), suspended := true }) (dieKey 0 0) = true ∧ (superOf (sRaw {}) 0 0 1).slc = true := by decide +kernel
theorem test_flash_read : ((objOf (after (.flashReadComplete 4 .clean) sReading) (objId 1 7)).bind (·.copy)).map (fun m => (storeByte m.data 0, m.missing)) =
    some (5, []) := by decide +kernel
theorem test_fold_verified : (mapFind (3 * 2 ^ 24) (after (.flashReadComplete 4 .clean) sVerify).flash.map).map (·.super) = some 2 := by decide +kernel
theorem test_flash_program : (mapFind (3 * 2 ^ 24) (after (.flashProgramComplete 2 0 true) sProg).flash.map).map (fun l => (l.ch, l.die, l.super, l.pos)) =
    some (0, 0, 0, 0) := by decide +kernel
theorem test_flash_erase : (superOf (after (.flashEraseComplete 0 0 5 true) sErase) 0 0 5).wear = 13 := by decide +kernel

/-- Four SLC granules of channel 0, 32 granules apart. -/
def slcVer (i : Nat) : Version := { kind := .granule, slots := [{ lga := 3 * 2 ^ 24 + 32 * i, seq := i + 1 }], pseq := i + 1 }
def sSlc (n : Nat) : State :=
  flashUp { map := (List.range n).map (fun i => (3 * 2 ^ 24 + 32 * i, ({ ch := 0, die := 0, super := 1, pos := i } : Loc)))
            supers := [(1, { state := .closed, slc := true, next := n, vers := (List.range n).map (fun i => (i, slcVer i)) })] } sOn
theorem meets_FlashMaintenance : (slcLive (sSlc 4) 0 0).map (fun p => (p.1.pos, p.2.kind)) = [(0, .granule), (1, .granule), (2, .granule), (3, .granule)] ∧
    flashOn (sSlc 4) = true ∧ ((gather (sSlc 4) (slcLive (sSlc 4) 0 0)).take 4).length = 4 ∧ ((gather (sSlc 3) (slcLive (sSlc 3) 0 0)).take 4).length = 3 := by decide +kernel
def sOver (n : Nat) : State :=
  flashUp { slcCapacity := 10, overlay := (List.range n).map (fun u => (16 * 48 + u, ({ ch := 0, die := 0, super := 1, pos := 0 }, u))) } sOn
theorem meets_FlashMaintenance_merge : 8 ≤ (overlayUnits (sOver 8) 48).length ∧ mergeable (sOver 8) 48 = true ∧ flashOn (sOver 8) = true ∧
    (overlayUnits (sOver 7) 48).length < 8 ∧ 4 * (sOver 7).flash.overlay.length < 3 * overlayCap (sOver 7) := by decide +kernel
def sWorn (level : Option Nat) : State :=
  flashUp { supers := [(2, { state := .closed }), (3, { state := .closed, wear := 1600, reads := 40000, due := [2], vers := [(0, { kind := .granule, slots := [{ lga := 48, seq := 1 }] })] })]
            dies := [(0, { level := level })] } sOn
theorem meets_FlashMaintenance_die : 64 ≤ erasedCount (sWorn none) 0 0 ∧ leastWorn (sWorn none) 0 0 = some 2 ∧ (dieOf (sWorn none) 0 0).level = none ∧
    (dieOf (sWorn (some 9)) 0 0).level ≠ none ∧
    1500 < (dieWear (sWorn none) 0 0).foldl max 0 - (dieWear (sWorn none) 0 0).foldl min ((dieWear (sWorn none) 0 0).foldl max 0) := by decide +kernel
theorem meets_FlashMaintenance_refresh : (superOf (sWorn none) 0 0 3).state = .closed ∧ (superOf (sWorn none) 0 0 3).wanted = none ∧
    (superOf (sWorn none) 0 0 3).slc = false ∧ 40000 ≤ (superOf (sWorn none) 0 0 3).reads ∧ 2 ∈ (superOf (sWorn none) 0 0 3).due ∧
    1 ∉ (superOf (sWorn none) 0 0 3).due ∧ (superOf (sWorn none) 0 0 2).reads < 40000 ∧ (superOf (sWorn none) 0 0 3).vers ≠ [] ∧
    dieFree (sWorn none) (dieKey 0 0) = true := by decide +kernel
def sDue : State := flashUp { supers := [(3, { state := .closed, reads := 40000, due := [2] }), (4, { state := .closed, reads := 39999 })] } sOn
theorem test_refresh : (after (.refresh 0 0 3 0) sDue).flash.refreshes = (1, 0, 0) ∧ (after (.refresh 0 0 4 0) sDue).flash.refreshes = (0, 0, 0) ∧
    (after (.refresh 0 0 3 2) sDue).flash.refreshes = (0, 0, 1) := by decide +kernel
/-- Every die of a channel erases. -/
def busyDies (ch : Nat) (s : State) : State :=
  { s with flash := { s.flash with dies := (List.range 48).map (fun i => (dieKey ch i, { work := some (.erase 9) })) } }
theorem test_fold : (after (.fold 0 0) (busyDies 0 (sSlc 4))).flash.progQ.map (fun o => (o.kind, o.copies.length)) = [(.fold, 4)] ∧
    (after (.fold 0 0) (sSlc 3)).flash.progQ = [] := by decide +kernel
theorem test_merge : (after (.overlayMerge 48) (busyDies 16 (sOver 8))).flash.progQ.map (fun o => (o.kind, o.ver.slots.map (·.lga))) = [(.merge, [48])] := by decide +kernel
/-- 1,180 superblocks of die 0 retired and one closed: fewer than 64 erased. -/
def sFull : State :=
  flashUp { supers := (0, { state := .closed }) :: (List.range 1180).map (fun i => (i + 1, ({ state := .retired } : Super))) } sOn
theorem meets_FlashMaintenance_collect : erasedCount sFull 0 0 < 64 ∧ victim sFull 0 0 = some 0 ∧ flashOn sFull = true ∧ (superOf sFull 0 0 0).vers = [] ∧
    (superOf sFull 0 0 0).state = .closed ∧ (dieOf sFull 0 0).work = none ∧ sFull.flash.readQ = [] ∧ rawWaits sFull (dieKey 0 0) = false := by decide +kernel
theorem meets_FlashMaintenance_alone : sFull.flash.supers.all (fun p => p.2.wanted.isNone && !p.2.slc) = true := by decide +kernel

/-! ### Ring -/

/-- The end record of the other module, 1, as this module's DN or UP chain finds it. -/
def endRec (isDn : Bool) : IdRecord := some (idImage (idBody 3 (if isDn then "SX4P-UP" else "SX4P-DN") 0 1))
/-- READY, D2 on, pair 3 as given; two members on a closed ring, this module second. -/
def sPair (p : Pair) : State :=
  { sOn with power := { sOn.power with d2 := true }, host := { devState := .ready }, ring := { pairs := [(3, p)] } }
def upPair : Pair :=
  { easel := .opened, state := .up, members := [(7, 8), (State.reset.uid, 8)], memberList := true, closed := true, position := 1
    dn := { up := true }, up := { up := true } }
def sUp : State := sPair upPair
theorem meets_PairsComeUpAndGoDown : sUp.power.d1 = true ∧ (pairOf (sPair { state := .refused }) 3).state = .refused ∧ (pairOf (sPair { state := .refused }) 3).easel = .closed ∧
    (pairOf (sPair { easel := .opening }) 3).easel = .opening ∧ (pairOf (sPair { easel := .closing }) 3).easel = .closing ∧
    (pairOf (sPair { easel := .closing }) 3).draining = none ∧ (pairOf (sPair { easel := .closing }) 3).enabling = [] := by decide +kernel
theorem meets_PairsComeUpAndGoDown_check : 3 < portPairs sUp ∧ starting sUp = false ∧ checkCause (sPair { state := .identifying }) 3 [endRec true] [endRec false] = 0 ∧
    checkCause (sPair { state := .identifying }) 3 [] [endRec false] = 1 ∧ easelAllowed (sPair { state := .identifying, enable := false }) 3 = false ∧
    chainCause sUp true [endRec true] = 0 ∧ chainCause sUp false [endRec false] = 0 := by decide +kernel
theorem meets_PairsComeUpAndGoDown_link : (pairOf (sPair { easel := .opened, state := .training }) 3).dn.dark = false ∧ (portOf sUp 6).up = true ∧
    (pairOf (sPair { easel := .opened, state := .training }) 3).dn.up = false ∧
    (recentFaults (pairOf sUp 3) 70000).length < 3 ∧ 3 ≤ (recentFaults (pairOf (sPair { upPair with faultMs := [10001, 69999] }) 3) 70000).length ∧
    (recentFaults (pairOf (sPair { upPair with faultMs := [10000, 69999] }) 3) 70000).length < 3 ∧ sUp.red.tags = [] := by decide +kernel
theorem test_link_up : (pairOf (after (.linkUp 3 5 6) (sPair { easel := .opened, state := .training })) 3).state = .up ∧
    (after (.linkUp 3 5 6) (sPair { easel := .opened, state := .training })).ring.out.map (fun m => (m.kind, m.dn)) = [(5, true), (5, false)] := by decide +kernel
theorem test_identity_fails : (pairOf (after (.identityCheckComplete 3 [] [endRec false]) (sPair { state := .identifying })) 3).refuse = 1 ∧
    (pairOf (after (.identityCheckComplete 3 [] [endRec false]) (sPair { state := .identifying })) 3).state = .refused := by decide +kernel
theorem test_third_fault : (pairOf (after (.linkFault 3 70000) (sPair { upPair with faultMs := [10001, 69999] })) 3).state = .fault := by decide +kernel

/-- A one-flit message for the member at a position. -/
def flitTo (pos : Nat) : Flit := { typ := 1, vc := 1, first := true, last := true, payload := padTo 248 [BitVec.ofNat 8 pos, 0, 2] }
theorem meets_FlitsAndDiscovery : flitSound (flitImage (flitTo 0)) = true ∧ flitOf (flitImage (flitTo 0)) = flitTo 0 ∧ unnumbered (flitTo 0) = false ∧
    (flitTo 0).seq.toNat = ((portOf sUp 6).rxSeq + 1) % 256 ∧ (portOf sUp (farPort 6)).up = true ∧ (pairOf sUp (portPair 6)).draining = none := by decide +kernel
theorem meets_FlitsAndDiscovery_dest : flitDest (pairOf sUp 3).position (portOf sUp 6) (flitTo 0) ≠ (pairOf sUp (portPair 6)).position ∧
    flitDest (pairOf sUp 3).position (portOf sUp 6) (flitTo 1) = (pairOf sUp (portPair 6)).position ∧ (portOf sUp (farPort 6)).wait = [] ∧
    (portOf sUp (farPort 6)).later = [] ∧ (portOf sUp (farPort 6)).credits.getD 1 0 ≠ 0 ∧ (portOf sUp (farPort 6)).replay.length < 64 := by decide +kernel
theorem meets_FlitsAndDiscovery_bad : flitSound (zeros 256) = false ∧ unnumbered (flitOf (flitImage { flitTo 0 with seq := 1 })) = false ∧
    (flitOf (flitImage { flitTo 0 with seq := 1 })).seq.toNat ≠ ((portOf sUp 6).rxSeq + 1) % 256 := by decide +kernel
def sReplay (n : Nat) : State :=
  sPair { upPair with dn := { up := true, resends := n, replay := [{ flitTo 0 with seq := 1 }, { flitTo 0 with seq := 2 }, { flitTo 0 with seq := 3 }] } }
theorem meets_FlitsAndDiscovery_nak : (portOf (sReplay 0) 6).up = true ∧
    (portOf (sReplay 0) 6).replay = [{ flitTo 0 with seq := 1 }] ++ { flitTo 0 with seq := 2 } :: [{ flitTo 0 with seq := 3 }] ∧
    (∀ g ∈ [{ flitTo 0 with seq := 1 }], g.seq ≠ 2) ∧ (∀ g ∈ (portOf (sReplay 2) 6).replay, g.seq ≠ 0) ∧ 2 ≤ (portOf (sReplay 2) 6).resends := by decide +kernel
theorem meets_FlitsAndDiscovery_members : (∃ m ∈ [((3 : Word64), 8), (sUp.uid, 8)], m.1 = sUp.uid) ∧ (7 : Word64) ≠ sUp.uid ∧ (pairOf sUp 3).draining = none ∧
    (∃ x ∈ [((3 : Word64), 8), (sUp.uid, 8)], x.2 ≠ 0) ∧ (∀ x ∈ [((3 : Word64), 0), (sUp.uid, 0)], x.2 = 0) ∧ ((7 : Word64), 8) ∈ (pairOf sUp 3).members ∧
    (pairOf sUp 3).memberList = true ∧ ((9 : Word64), 8) ∉ (pairOf sUp 3).members := by decide +kernel
theorem test_flit : (portOf (after (.flitReceived 6 ⟨flitImage (flitTo 1), 3, 0⟩) sUp) 6).out.map (fun g => (g.typ, g.ack)) = [(0, 0)] ∧
    (portOf (after (.flitReceived 6 ⟨flitImage (flitTo 0), 3, 0⟩) sUp) 7).out.map (fun g => (g.typ, g.payload.take 3)) = [(1, [0, 0, 2])] := by decide +kernel
theorem test_flit_bad : (portOf (after (.flitReceived 6 ⟨zeros 256, 0, 0⟩) sUp) 6).out.map (fun g => (g.nak, g.ack)) = [(true, 255)] ∧
    (pairOf (after (.flitReceived 6 ⟨flitImage (flitTo 1), 16, 0⟩) sUp) 3).crcErrors = 1 := by decide +kernel
theorem test_nak : (portOf (after (.nakReceived 6 ⟨2, 0⟩) (sReplay 0)) 6).out.map (·.seq) = [3] ∧ (portOf (after (.nakReceived 6 ⟨0, 0⟩) (sReplay 2)) 6).up = false := by
  decide +kernel
def sUp5 : State := { sUp with uid := 5 }
theorem test_discovery : (pairOf (after (.discoveryComplete 3 [(7, 8), (3, 9), (5, 8)] true) sUp5) 3).members = [(3, 9), (5, 8), (7, 8)] ∧
    (pairOf (after (.discoveryComplete 3 [(7, 8), (3, 9), (5, 8)] true) sUp5) 3).masterUid = 3 ∧
    (pairOf (after (.discoveryComplete 3 [(7, 8), (3, 9), (5, 8)] true) sUp5) 3).position = 1 := by decide +kernel
theorem test_discover : (after (.discover 6 9 8) sUp).ring.out.map (fun m => (m.dn, leNat (m.body.take 8))) =
    [(false, 9), (true, State.reset.uid.toNat), (false, State.reset.uid.toNat)] := by decide +kernel

def tick9 (e : Int) : TickPayload := { frame := 9, periodUs := 2000, nextUs := 2000, ring := 0, hops := 1, masterUid := 7, accDelayNs := 10, viaDn := true, errNs := e }
def sTicks (r : Bool) : State := { sUp with frame := { counter := 4, sourceNext := some 3, wasReady := r } }
theorem meets_TicksLockTheModule : (tick9 0).masterUid ≠ sUp.uid ∧ (portOf (sTicks true) 6).up = true ∧ (portOf (sTicks true) 7).up = true ∧
    (sTicks true).frame.sourceNext = some 3 ∧ (sTicks true).frame.lastTick = none ∧ (sTicks true).frame.sourceValid = false ∧ (sTicks false).frame.everLocked = false ∧
    (portOf { sTicks true with ring := { pairs := [(3, { upPair with up := {} })] } } 7).up = false ∧
    { sTicks true with frame := { sourceValid := true } }.frame.sourceValid = true := by decide +kernel
theorem test_tick : (after (.tickReceived 3 (tick9 2001)) (sTicks true)).frame.slewing = true ∧ (after (.tickReceived 3 (tick9 (-2000))) (sTicks true)).frame.locked = true ∧
    (after (.tickReceived 3 (tick9 0)) (sTicks true)).frame.counter = 4 ∧ (after (.tickReceived 3 (tick9 0)) (sTicks false)).frame.counter = 9 := by decide +kernel
theorem test_tick_goes_on : (portOf (after (.tickReceived 3 (tick9 0)) (sTicks true)) 7).out.map (·.typ) = [2] := by decide +kernel
theorem test_tick_loss : (after .tickLoss { sTicks true with frame := { sourceValid := true } }).frame.missed = 3 := by decide +kernel

def portFs (en : Nat) : List (Nat × Nat) := [(0, 0x0A), (8, 3), (9, en)]
def sPortCmd (p : Pair) (en : Nat) : State := { sCmd (portFs en) with power := { sOn.power with d2 := true }, ring := { pairs := [(3, p)] } }
theorem meets_PortControl : AtUnit (sPortCmd upPair 0) 0x0A 9 (cmd9 (portFs 0)) ∧ (pairOf (sPortCmd upPair 0) 3).draining = none ∧ (sPortCmd upPair 0).ring.imports = [] ∧
    pairOfCmd (cmd9 (portFs 0)) = 3 ∧ (pairOf (sPortCmd {} 0) 3).easel = .closed ∧ AtUnit (sPortCmd upPair 1) 0x0A 9 (cmd9 (portFs 1)) ∧
    (pairOf (sPortCmd upPair 1) 3).state = .up ∧ (pairOf (sPortCmd {} 1) 3).state = .down := by unfold AtUnit; decide +kernel
def sDrain : State := sPortCmd { upPair with draining := some 9 } 0
def sClosing : State := sPortCmd { state := .down, easel := .closing, draining := some 9, drained := true } 0
theorem meets_PortControl_end : (pairOf sDrain 3).draining = some 9 ∧ (pairOf sDrain 3).drained = false ∧ sDrain.red.tags = [] ∧ (pairOf sClosing 3).easel = .closing ∧
    (pairOf sClosing 3).draining = some 9 ∧ cmdOf sClosing 9 = some (cmd9 (portFs 0)) := by decide +kernel
theorem meets_PortControl_fault : (pairOf (sPortCmd { state := .fault, faultMs := [5] } 1) 3).state = .fault ∧ (pairOf (sPortCmd { state := .fault } 0) 3).easel = .closed ∧
    (pairOf (sPortCmd { state := .fault } 0) 3).enabling = [] ∧ (pairOf sDrain 3).easel ≠ .closed := by decide +kernel
/-- The RING feature of pair 3: MASTER_PRI 9 with ENABLE as given. -/
def ringFs (en : Nat) : List (Nat × Nat) := [(0, 3), (8, 0x14), (10, 3), (16, 0x24 + en)]
def sRing (en : Nat) (p : Pair) : State := { sCmd (ringFs en) with ring := { pairs := [(3, p)] } }
theorem meets_PortControl_feature : AtUnit (sRing 1 { state := .fault }) 0x03 9 (cmd9 (ringFs 1)) ∧ pktField (cmd9 (ringFs 1)).pkt 8 1 = 0x14 ∧
    pktField (cmd9 (ringFs 1)).pkt 10 2 = 3 ∧ bitOf (featDw (cmd9 (ringFs 1)).pkt 0) 0 = true ∧ AtUnit (sRing 0 upPair) 0x03 9 (cmd9 (ringFs 0)) ∧
    bitOf (featDw (cmd9 (ringFs 0)).pkt 0) 0 = false ∧ (pairOf (sRing 0 upPair) 3).easel ≠ .closed ∧ (sRing 0 upPair).ring.imports = [] := by
  unfold AtUnit; decide +kernel
theorem test_port_drain : (after (.easelClosed 3) (after (.portDrainEnd 3) sDrain)).host.done.map (fun r => (r.tag, r.status.cls)) = [(9, 0)] := by decide +kernel
theorem test_ring_feature : (pairOf (after (.setFeatureRing 9) (sRing 1 { state := .fault })) 3).masterPri = 9 ∧
    (pairOf (after (.setFeatureRing 9) (sRing 1 { state := .fault })) 3).state = .identifying ∧
    (pairOf (after (.setFeatureRing 9) (sRing 0 upPair)) 3).draining = some 0 := by decide +kernel

/-- Entry 0 receives into slot 0, entry 1 sends; the peer is module 7 on ring 3. -/
def strEntry (r : Bool) : StreamEntry := { receive := r, ring := 3, route := 0, peerStream := 2, peerContext := 4, peerUid := 7, slot := 0, window := 4096 }
def sStr : State :=
  { sUp with
    ctxs := [(1, { state := .blocked, quotaT1 := 16, prog := some { progOfWords [1] 1 with streams := [strEntry true, strEntry false] }, joined := [0]
                   cores := [(0, { tickets := [(2, { out := some { toT1 with w0 := 0x3000000000000040 } })] })] })]
    objs := [(objId 1 7, scr)] }
theorem meets_StreamsAndImports : streamEntryAt sStr 1 0 = some (strEntry true) ∧ streamEntryAt sStr 1 1 = some (strEntry false) ∧ peerKnown sStr (strEntry false) = true ∧
    landingObj sStr 1 (strEntry true) = some (objId 1 7) ∧ landingOk sStr 1 (strEntry true) = true ∧ inS2 sStr = false ∧
    (objOf sStr (objId 1 7)).map (·.size) = some 65536 ∧ 0 ∈ (ctxOf sStr 1).joined ∧ (ctxOf sStr 1).streamIn = none ∧ (pairOf sStr 3).dn.up = true := by decide +kernel
theorem meets_StreamsAndImports_ask : WayTo sStr 3 7 true ∧ receives sStr 3 7 4 2 1 0 = some (strEntry true) ∧ receives sStr 3 7 4 3 1 0 = none := by
  unfold WayTo; decide +kernel
theorem meets_StreamsAndImports_ticket : wfCore core0 = true ∧ (ticketOf (coreOf sStr core0) 2).out = some { toT1 with w0 := 0x3000000000000040 } ∧
    dDstKind { toT1 with w0 := 0x3000000000000040 } = 3 := by decide +kernel
def expObj : Obj := { kind := .persistent, size := 65536, objNo := 3, exported := true, copy := some { data := { cells := [(3, 9)] } } }
def sExp : State := { sUp with objs := [(objId 1 7, expObj)] }
def impReq (sent : Nat) : ImportReq := { obj := objId 1 8, granule := 0, sent := sent }
def impObj : Obj := { kind := .import_, size := 65536, ring := 3, peerUid := 7, copy := some { missing := [0] } }
def sImp (sent : Nat) : State := { sUp with objs := [(objId 1 8, impObj)], ring := { sUp.ring with imports := [impReq sent] } }
theorem meets_StreamsAndImports_import : (portOf sExp 6).up = true ∧ sExp.host.devState = .ready ∧ (pairOf sExp (portPair 6)).draining = none ∧
    (pairOf sExp (portPair 6)).oversize = false ∧ objOf sExp (objId 1 9) = none ∧ objOf sExp (objId 1 7) = some expObj ∧ 0 < granules expObj ∧
    inS2 (asleep 2 sUp) = true := by decide +kernel
theorem meets_StreamsAndImports_data : inS2 (sImp 1) = false ∧ (sImp 1).ring.imports.filter (fun i => i.obj = objId 1 8 && i.granule = 0) = [impReq 1] ∧
    (impReq 1).tag = 0 ∧ objOf (sImp 1) (objId 1 8) = some impObj ∧ impObj.fillTags = [] ∧ (zeros 65536).length = 65536 := by
  refine ⟨?_, ?_, ?_, ?_, ?_, List.length_replicate⟩ <;> decide +kernel
theorem meets_StreamsAndImports_again : importOf (sImp 2) (objId 1 8) 0 = some (impReq 2) ∧ (portOf (sImp 2) (sidePort impObj.ring (impReq 2).dn)).up = true ∧
    (pairOf (sImp 2) impObj.ring).draining = none ∧ importOf (sImp 3) (objId 1 8) 0 = some (impReq 3) ∧ (impReq 3).otherWay < 3 ∧
    reaches (sImp 3) impObj.ring (!(impReq 3).dn) impObj.peerUid = true := by decide +kernel
theorem test_stream_data : ((objOf (after (.streamDataReceived 1 0 64 ⟨7, ([5] ++ zeros 63)⟩ false true 3 4) sStr) (objId 1 7)).bind (·.copy)).map (fun m => storeByte m.data 64) = some 5 ∧
    (ctxOf (after (.streamDataReceived 1 0 64 ⟨7, ([5] ++ zeros 63)⟩ false true 3 4) sStr) 1).state = .runnable := by decide +kernel
theorem test_stream_stranger : ctxOf (after (.streamDataReceived 1 0 64 ⟨8, ([5] ++ zeros 63)⟩ false true 3 4) sStr) 1 = ctxOf sStr 1 := by decide +kernel
theorem test_stream_ask : (after (.streamConnect 3 7 (.ask 4 2 1 0)) sStr).ring.out.map (fun m => m.body.take 3) = [[2, 4, 2]] := by decide +kernel
theorem test_stream_timeout : ticketOf (coreOf (after (.streamTimeout core0 2) sStr) core0) 2 = { result := 2 } ∧
    ticketOf (coreOf (after (.streamCompletionReceived core0 2) sStr) core0) 2 = {} := by decide +kernel
theorem test_import_absent : (after (.importRequestReceived 6 1 9 0 ⟨0, 77⟩) sExp).ring.out.map (fun m => (m.kind, m.index, m.body)) = [(3, 77, [])] := by decide +kernel
theorem test_import_again : ∀ n ∈ [2, 3], (after (.importTimeout (objId 1 8) 0) (sImp n)).ring.out.map (fun m => (m.kind, m.dn)) = [(2, decide (n = 2))] := by
  decide +kernel

/-! ### Reduction -/

/-- A list of one bucket: tag 5, generation 2, E4M3, 64 elements, K 4, NORESID; ring 3, two participants. -/
def redBytes : List Byte :=
  [1, 0, 3, 2, 8, 0, 0, 0] ++ zeros 56 ++ leBytes 8 State.reset.uid.toNat ++ [7] ++ zeros 7 ++ zeros 240 ++
  [5, 0x20, 3, 0, 64, 0, 0, 0, 4, 0, 1, 0, 0, 0, 0, 0] ++ leBytes 8 (objId 1 7) ++ zeros 8
def redFs (op : Nat) : List (Nat × Nat) := [(0, op), (2, 1), (8, 5), (10, 1), (56, 352), (60, 1)]
def openFs : List (Nat × Nat) := [(0, 0x70), (2, 1), (56, 352), (60, 1)]
def sOpen : State := { withCtx outCtx [(objId 1 7, scr)] (sCmdS openFs redBytes) with red := { available := true }, ring := sUp.ring }
theorem meets_ReductionBuckets : AtUnit sOpen 0x70 9 (cmd9s openFs redBytes) ∧ redBehind sOpen (cmd9s openFs redBytes) = false ∧
    ctxDefined sOpen 1 = true ∧ byteField redBytes 0 2 = 1 ∧ 320 + 32 ≤ pktBufLen (cmd9s openFs redBytes).pkt ∧ sOpen.red.available = true ∧
    AtUnit { sOpen with red := {} } 0x70 9 (cmd9s openFs redBytes) ∧ redBehind { sOpen with red := {} } (cmd9s openFs redBytes) = false := by
  unfold AtUnit; decide +kernel
theorem meets_ReductionBuckets_entry :
    firstErr (listErrs sOpen 1 redBytes ++ pieceErrs 320 32 (fun _ e => entryErrs sOpen 1 [5] e) [bucketEntry redBytes 0]) = none ∧
    firstErr (listErrs { sOpen with red := {} } 1 redBytes ++
      pieceErrs 320 32 (fun _ e => entryErrs { sOpen with red := {} } 1 [5] e) [bucketEntry redBytes 0]) = none ∧
    entryTag (bucketEntry redBytes 0) = 5 ∧ genBad sOpen (bucketEntry redBytes 0) = false ∧
    genBad { sOpen with red := { tags := [(5, { lastGen := some 0 })] } } (bucketEntry redBytes 0) = true := by decide +kernel
def tag5 : RedTag := { state := .armed, gen := 2, ctx := 1, fmt := 3, nelem := 64, k := 4, noresid := true, sum := objId 1 7, ring := 3, parts := [7, State.reset.uid] }
def sRed (op : Nat) (k : RedTag) (objs : SMap Obj) : State :=
  { withCtx outCtx objs (sCmd (redFs op)) with red := { tags := [(5, k)] }, ring := sUp.ring }
theorem meets_ReductionBuckets_close : AtUnit (sRed 0x71 tag5 []) 0x71 9 (cmd9 (redFs 0x71)) ∧ tagRange (cmd9 (redFs 0x71)) = [5] ∧
    isOpenTag (tagOf (sRed 0x71 tag5 []) 5) = true ∧ isOpenTag (tagOf (sRed 0x71 { tag5 with state := .done } []) 5) = false ∧
    (ctxOf (sRed 0x71 tag5 []) 1).steps = [] ∧ (tagOf (sRed 0x71 tag5 []) 5).ctx = 1 ∧ redBehind (sRed 0x71 tag5 []) (cmd9 (redFs 0x71)) = false ∧
    AtUnit (sRed 0x72 tag5 []) 0x72 9 (cmd9 (redFs 0x72)) ∧ redBehind (sRed 0x72 tag5 []) (cmd9 (redFs 0x72)) = false := by unfold AtUnit; decide +kernel
theorem test_red_close : tagOf (after (.redClose 9) (sRed 0x71 { tag5 with state := .done } [])) 5 = { lastGen := some 2 } := by decide +kernel

def sSum (k : RedTag) : State := sRed 0x71 k [(objId 1 7, { scr with copy := some {} })]
theorem meets_ReductionTrafficAndSteps : tagOf (sSum { tag5 with state := .open_ }) 5 = { tag5 with state := .open_ } ∧ (7 : Word64) ∈ tag5.parts ∧
    (7 : Word64) ≠ (sSum tag5).uid ∧ armedFor tag5 2 = true ∧ armedFor tag5 3 = false ∧ 0 < chunkCount tag5 ∧ ownerOf tag5 5 0 = ownPart (sSum tag5) tag5 ∧
    (ctxOf (sSum tag5) 1).steps = [] ∧ 1 < tag5.parts.length ∧ inS2 (sSum tag5) = false ∧ tag5.pcrc ≠ 1 ∧
    mapGet [] tag5.added 0 = [] ∧ (objOf (sSum tag5) tag5.sum).any (fun o => o.copy.any (fun m => m.missing = [])) = true ∧ 4 * 3 + 4 ≤ sumSpan (sSum tag5) tag5 0 := by
  decide +kernel
theorem meets_ReductionTrafficAndSteps_way : shortest (sSum tag5) 3 7 = some true ∧ (pairOf (sSum tag5) 3).draining = none ∧ posOf (sSum tag5) 3 7 = 0 := by
  decide +kernel
theorem test_ready : (tagOf (after (.ready 3 7 5 2 0) (sSum { tag5 with state := .open_ })) 5).state = .armed ∧
    (tagOf (after (.ready 3 7 5 3 0) (sSum { tag5 with state := .open_ })) 5).cause = 2 ∧
    (tagOf (after (.ready 3 7 5 2 1) (sSum { tag5 with state := .open_ })) 5).cause = 3 := by decide +kernel
theorem test_contrib : ((objOf (after (.contrib 3 7 5 2 0 [(3, 0x3F80)] false) (sSum tag5)) (objId 1 7)).bind (·.copy)).map (fun m => leNat (storeRead m.data 12 4)) =
    some 0x3F800000 ∧ (tagOf (after (.contrib 3 7 5 3 0 [] false) (sSum tag5)) 5).rejected = 1 := by decide +kernel
theorem test_result : (tagOf (after (.result 3 7 5 2 0 [(3, 0x3F800000)] false) (sSum tag5)) 5).state = .done := by decide +kernel
theorem test_abandon : (tagOf (after (.abandon 5 2 1) (sSum tag5)) 5).cause = 5 := by decide +kernel
theorem test_thin : thin 1 [0x3F800001, 0xC0000000] = some ([(1, 0xC000)], [0x3F800001, 0], 2) := by decide +kernel

/-- A transfer of the 64 codes at T1 0 to bucket tag 4, where the other module owns chunk 0. -/
def redDesc : Desc := { w0 := 0x4000000000000040, w1 := 0x10000000, w2 := 0x400001, w3 := 0x4000000040 }
def tag4 : RedTag := { tag5 with parts := [7, State.reset.uid] }
def sThin : State :=
  { sRun with
    ctxs := [(1, { state := .runnable, inSlice := true, alloc := [5], quotaT1 := 16, prog := some (progOfWords [1] 1)
                   cores := [(0, { tickets := [(2, { out := some redDesc })], t0 := { cells := [(0x41, 0x38)] } })] })]
    red := { tags := [(4, tag4)] }, ring := sUp.ring }
theorem meets_ReductionTrafficAndSteps_chunk : progOf (ctxOf sThin 1) false = some (progOfWords [1] 1) ∧ (ticketOf (coreOf sThin core0) 2).out = some redDesc ∧
    dDstKind redDesc = 4 ∧ dTag redDesc = 4 ∧ tagOf sThin 4 = tag4 ∧ (contribChunks redDesc)[0]? = some 0 ∧ chunkLen tag4 0 = 64 ∧ ownPart sThin tag4 = 1 ∧
    (ctxOf sThin 1).inSlice = true ∧ tag4.state = .armed ∧ tag4.noresid = true ∧ meetSource core0 (progOfWords [1] 1) redDesc sThin = sThin ∧
    shortest sThin 3 7 = some true ∧ (pairOf sThin 3).draining = none ∧ codesBad sThin core0 (progOfWords [1] 1) redDesc 0 64 = false ∧ ownerOf tag4 4 0 = 0 := by decide +kernel
theorem meets_ReductionTrafficAndSteps_thin : (thin 4 (((chunkCodes sThin core0 (progOfWords [1] 1) redDesc (ticketOf (coreOf sThin core0) 2) 64).zip (List.replicate 64 0)).map
    (fun x => thinSum 3 (palExp (mapGet {} (ctxOf sThin 1).palette 0)) x.1 x.2))).map (·.2.2) = some 64 := by decide +kernel
theorem test_chunk_thin : (tagOf (after (.chunkThin core0 2) sThin) 4).sent = [0] ∧ ticketOf (coreOf (after (.chunkThin core0 2) sThin) core0) 2 = {} ∧
    (after (.chunkThin core0 2) sThin).ring.out.map (fun m => (m.dest, (m.body.drop 16).take 8)) = [(0, [0, 0, 0, 0, 1, 0, 0x80, 0x3F])] := by decide +kernel

def stepFs : List (Nat × Nat) := [(0, 0x51), (2, 1)]
def residObj : Obj := { kind := .scratch, size := 65536, copy := some {} }
/-- A step of STEP_RUN 9 over tag 5 that began in frame 1 and has four frames. -/
def sStep (x : Step) (now : Word64) : State :=
  { sCmd stepFs with
    frame := { counter := now }, ctxs := [(1, { outCtx with steps := [x] })], objs := [(objId 1 7, residObj)], red := { tags := [(5, tag5)] } }
def step0 : Step := { step := 6, tag := 9, start := 1, redFrames := 4, tags := [5] }
def step1 : Step := { step0 with outcome := .reduced, halted := true, resids := [objId 1 7] }
theorem meets_ReductionTrafficAndSteps_step : (ctxOf (sStep step0 5) 1).steps = [step0] ∧ step0.outcome = .pending ∧ step0.tags = 5 :: [] ∧
    step0.start + step0.redFrames ≤ (sStep step0 5).frame.counter.toNat ∧ (ctxOf (sStep step0 5) 1).run = none ∧
    cmdOf (sStep step0 5) 9 = some (cmd9 stepFs) ∧ (∀ u ∈ step0.tags, u < 4096 ∧ isOpenTag (tagOf (sStep step0 5) u) = true) := by decide +kernel
/-- Before the deadline, with its run going on. -/
def sStepRun : State := { sStep step0 4 with ctxs := [(1, { outCtx with steps := [step0], run := some { kind := .step, tag := 9 } })] }
theorem meets_ReductionTrafficAndSteps_early : (ctxOf sStepRun 1).steps = [step0] ∧ (ctxOf sStepRun 1).run ≠ none ∧
    sStepRun.frame.counter.toNat < step0.start + step0.redFrames := by decide +kernel
def residBad : Obj := { residObj with copy := some { data := { poison := [0] } } }
theorem meets_ReductionTrafficAndSteps_commit : (ctxOf (sStep step1 4) 1).steps = [step1] ∧ step1.outcome = .reduced ∧ step1.halted = true ∧
    objOf (sStep step1 4) (objId 1 7) = some residObj ∧ cmdOf (sStep step1 4) 9 = some (cmd9 stepFs) ∧
    objOf { sStep step1 4 with objs := [(objId 1 7, residBad)] } (objId 1 7) = some residBad ∧ step0.outcome ≠ .reduced := by decide +kernel
theorem test_red_deadline : (tagOf (after (.redDeadline 1) (sStep step0 5)) 5).state = .failed ∧ (tagOf (after (.redDeadline 1) (sStep step0 4)) 5).state = .armed := by
  decide +kernel
theorem test_step_commit : (ctxOf (after (.stepCommit 1) (sStep step1 4)) 1).parity = true ∧
    ((objOf (after (.stepCommit 1) (sStep step1 4)) (objId 1 7)).bind (·.copy)).map (fun m => storeByte m.data 0) = some 1 := by decide +kernel

/-! ### The whole machine -/

theorem meets_EveryStepKeepsTheModuleWhole : Memory.wf sOn.ctrl ∧ mapWf sOn.ef.words = true ∧ mapWf sOn.ef.otp = true ∧ mapWf sOn.flash.supers = true := by decide +kernel
theorem meets_EveryCommandAnswers : Instr.WellFormed (.nop core0) = true ∧ Instr.WellFormed (.linkUp 15 0 0) = true ∧ Instr.WellFormed (.linkUp 16 0 0) = false := by
  decide +kernel
theorem meets_StepRunsTheFrontCommand : ({ sOn with pending := [.onfiRetraining] } : State).pending = .onfiRetraining :: [] ∧ sOn.pending = [] := by
  decide +kernel
theorem test_step_idle : step sOn = .next sOn := rfl
theorem test_step_front : step { sOn with pending := [.linkUp 16 0 0, .onfiRetraining] } = .fault .noSuchUnit := rfl
def sFed : State := { sOn with power := { sOn.power with d3 := true } }
theorem test_step : step { sFed with pending := [.onfiRetraining] } = .next { sFed with flash := { trained := true } } := rfl

/-! ### Units that do not exist -/

/-- The command stops with noSuchUnit. -/
def stops (i : Instr) (s : State) : Bool :=
  match exec i s with
  | .fault .noSuchUnit => true
  | _ => false

theorem smoke_ctx : Instr.WellFormed (.sliceStart 0) = false ∧ Instr.WellFormed (.sliceStart 256) = false ∧ stops (.sliceStart 0) sOn = true := by decide +kernel
theorem smoke_core : Instr.WellFormed (.nop { core0 with lcore := 25000 }) = false ∧ Instr.WellFormed (.nop { core0 with ctx := 0 }) = false ∧
    stops (.halt { core0 with lcore := 25000 }) sOn = true := by decide +kernel
theorem smoke_flash : Instr.WellFormed (.fold 32 0) = false ∧ Instr.WellFormed (.fold 0 48) = false ∧ Instr.WellFormed (.refresh 0 0 1242 0) = false ∧
    Instr.WellFormed (.refresh 0 0 0 3) = false ∧ Instr.WellFormed (.flashProgramComplete 2 48 true) = false ∧ stops (.fold 32 0) sOn = true ∧
    stops (.fold 0 48) sOn = true ∧ stops (.refresh 0 0 1242 0) sOn = true ∧ stops (.refresh 0 0 0 3) sOn = true ∧
    stops (.flashProgramComplete 2 48 true) sOn = true := by decide +kernel
theorem smoke_ring : Instr.WellFormed (.easelOpen 16) = false ∧ Instr.WellFormed (.linkLeavesUp 32) = false ∧ Instr.WellFormed (.connectorPresenceChange 8) = false ∧
    Instr.WellFormed (.ready 0 7 4096 0 0) = false ∧ Instr.WellFormed (.abandon 5 0 16) = false ∧ stops (.easelOpen 16) sOn = true ∧
    stops (.linkLeavesUp 32) sOn = true ∧ stops (.connectorPresenceChange 8) sOn = true ∧ stops (.ready 0 7 4096 0 0) sOn = true ∧
    stops (.abandon 5 0 16) sOn = true := by decide +kernel
theorem smoke_scan : Instr.WellFormed (.pageScanned 4 0 {}) = false ∧ Instr.WellFormed (.queryMergeComplete 4) = false ∧
    Instr.WellFormed (.scanUnitDisabledForService 32 0) = false ∧ Instr.WellFormed (.scanUnitDisabledForService 0 3) = false ∧
    stops (.pageScanned 4 0 {}) sOn = true ∧ stops (.queryMergeComplete 4) sOn = true ∧
    stops (.scanUnitDisabledForService 0 3) sOn = true := by decide +kernel
theorem smoke_supervisor : Instr.WellFormed (.wdtKick 8 0) = false ∧ Instr.WellFormed (.firmwareException 0 ⟨.context 0, none⟩) = false ∧
    Instr.WellFormed (.domainPowerUpComplete 4) = false ∧ Instr.WellFormed (.domainPowerUpComplete 30) = false ∧ stops (.wdtKick 8 0) sOn = true ∧
    stops (.firmwareException 0 ⟨.context 0, none⟩) sOn = true ∧ stops (.domainPowerUpComplete 4) sOn = true := by decide +kernel
theorem smoke_memory : Instr.WellFormed (.scrubAccess 8 0 none false 0) = false ∧ Instr.WellFormed (.postAccepted 1 250) = false ∧
    stops (.scrubAccess 8 0 none false 0) sOn = true ∧ stops (.postAccepted 1 250) sOn = true := by decide +kernel

end Sys2Proof.Tests
end

section
/-! SUPPORT. Proofs of the scope statements (chapter 0): no command refuses or gets stuck, undefined registers are inert, and every step keeps
the module whole. -/

namespace Sys2Proof.Machine

/-! ### Undefined BAR0 offsets (R18) -/

/-- The offsets from 0x40 on that a read or a write gives a meaning, outside CAP0 to CAP7. -/
def definedOffsets : List Nat := [0x40, 0x44, 0x48, 0x4C, 0x100, 0x104, 0x108, 0x10C, 0x110, 0x114, 0x118, 0x11C, 0x200, 0x204, 0x208]

theorem bar0Read_undefined {off : Nat} (s : State) (ht : 0x40 ≤ off) (hc : off < 0x300 ∨ 0x320 ≤ off) (hd : off ∉ definedOffsets) :
    bar0Read s off = 0 := by
  have h₁ : ¬ off < 0x40 := by omega
  have h₂ : (decide (0x300 ≤ off) && decide (off < 0x320)) = false := by simp; omega
  unfold bar0Read
  simp only [h₁, h₂, if_false, Bool.false_eq_true]
  split
  case h_15 => rfl
  all_goals exact absurd (by decide) hd

theorem writeDword_undefined {off : Nat} (v : Nat) (s : State) (ht : 0x40 ≤ off) (hd : off ∉ definedOffsets) : writeDword off v s = s := by
  have h₁ : ¬ off < 0x40 := by omega
  unfold writeDword
  simp only [h₁, if_false]
  split
  case h_7 => rfl
  all_goals exact absurd (by decide) hd

/-- A 4-byte write outside TASK_PKT is a write of one register, and nothing where it is not aligned. -/
theorem bar0Write_four {off : Nat} (v : Word64) (s : State) (ht : 0x40 ≤ off) :
    bar0Write off 4 v s = if off % 4 = 0 then writeDword off (v.toNat % 2 ^ 32) s else s := by
  have h₁ : ¬ off ≤ 60 := by omega
  by_cases h₂ : off % 4 = 0 <;> simp [bar0Write, h₁, h₂]

/-- Settles O30: neither the read's nor the write's table of registers lists the offset. -/
theorem undefinedOffsetsReadZero : Obligations.UndefinedOffsetsReadZero := by
  intro off v s ht hc hd
  refine ⟨bar0Read_undefined s ht hc hd, ?_⟩
  have hw : bar0Write off 4 v s = s := by
    rw [bar0Write_four v s ht, writeDword_undefined _ s ht hd, ite_self]
  exact congrArg Host.Outcome.next (by rw [hw, ite_self])

/-! ### What every command leaves alone or keeps canonical

`lasting` picks the parts of the state that the statement speaks of. An operation that leaves every one of them has an equation
`lasting_<operation>`; one that writes a superblock, the embedded flash or the control SRAM has an implication `keeps_<operation>`, which carries
`Lasting.Keeps` from the state it starts in to the state it leaves. -/

/-- The queue, the part, the MODULE_UID and the contents whose canonical form is kept. -/
structure Lasting where
  pending : List Instr
  part : Part
  uid : Word64
  ctrl : List Host.Cell
  words : SMap Word64
  otp : SMap Word64
  supers : SMap Super

def lasting (s : State) : Lasting := ⟨s.pending, s.part, s.uid, s.ctrl.cells, s.ef.words, s.ef.otp, s.flash.supers⟩

def Lasting.Canonical (a : Lasting) : Prop :=
  cellsWf a.ctrl = true ∧ mapWf a.words = true ∧ mapWf a.otp = true ∧ mapWf a.supers = true

/-- `Lasting.Canonical` is the canonical form of the statements. -/
theorem canonical_lasting (s : State) : (lasting s).Canonical ↔ Claims.Canonical s := Iff.rfl

/-- From `a` to `b` the queue, the part and the UID stay, and the canonical form is kept. -/
structure Lasting.Keeps (a b : Lasting) : Prop where
  pending : b.pending = a.pending
  part : b.part = a.part
  uid : b.uid = a.uid
  canonical : a.Canonical → b.Canonical

@[simp] theorem Lasting.Keeps.refl (a : Lasting) : a.Keeps a := ⟨rfl, rfl, rfl, id⟩

theorem Lasting.Keeps.trans {a b c : Lasting} (h : a.Keeps b) (g : b.Keeps c) : a.Keeps c :=
  ⟨g.pending.trans h.pending, g.part.trans h.part, g.uid.trans h.uid, g.canonical ∘ h.canonical⟩

/-! #### Record updates, branches and folds -/

@[simp] theorem lasting_mk (pending nonce part uid pcie host arb frame power sec ctxs swaps phys objs inFlight flash scan ring red ef ctrl scrub
    hbmRest idle logs) : lasting ⟨pending, nonce, part, uid, pcie, host, arb, frame, power, sec, ctxs, swaps, phys, objs, inFlight, flash, scan,
      ring, red, ef, ctrl, scrub, hbmRest, idle, logs⟩ = ⟨pending, part, uid, ctrl.cells, ef.words, ef.otp, flash.supers⟩ := (rfl)

/-- The way back from `lasting_mk`, where no part of `lasting` was updated. -/
@[simp] theorem lasting_eta (s : State) :
    (⟨s.pending, s.part, s.uid, s.ctrl.cells, s.ef.words, s.ef.otp, s.flash.supers⟩ : Lasting) = lasting s := (rfl)

@[simp] theorem lasting_ite (c : Prop) [Decidable c] (s t : State) : lasting (if c then s else t) = if c then lasting s else lasting t :=
  apply_ite _ _ _ _

@[simp] theorem lasting_foldl {α : Type} {f : State → α → State} (h : ∀ s a, lasting (f s a) = lasting s) (l : List α) (s : State) :
    lasting (l.foldl f s) = lasting s := by
  induction l generalizing s with
  | nil => rfl
  | cons a l ih => rw [List.foldl_cons, ih, h]

/-- A fold that counts beside the state. -/
theorem lasting_foldl_fst {α β : Type} {f : State × β → α → State × β} (h : ∀ p a, lasting (f p a).1 = lasting p.1) (l : List α)
    (p : State × β) : lasting (l.foldl f p).1 = lasting p.1 := by
  induction l generalizing p with
  | nil => rfl
  | cons a l ih => rw [List.foldl_cons, ih, h]

section
variable {base : Lasting}

@[simp] theorem keeps_ite (c : Prop) [Decidable c] (a b : Lasting) : base.Keeps (if c then a else b) ↔ if c then base.Keeps a else base.Keeps b := by
  split <;> rfl

@[simp] theorem keeps_foldl {α : Type} {f : State → α → State} (hf : ∀ s a, (lasting s).Keeps (lasting (f s a))) (l : List α) {s : State}
    (h : base.Keeps (lasting s)) : base.Keeps (lasting (l.foldl f s)) := by
  induction l generalizing s with
  | nil => exact h
  | cons a l ih => exact ih (h.trans (hf s a))

theorem keeps_supers {s : State} (h : base.Keeps (lasting s)) {m : SMap Super} (g : mapWf s.flash.supers = true → mapWf m = true) :
    base.Keeps ⟨s.pending, s.part, s.uid, s.ctrl.cells, s.ef.words, s.ef.otp, m⟩ :=
  h.trans ⟨rfl, rfl, rfl, fun ⟨hc, hw, ho, hs⟩ => ⟨hc, hw, ho, g hs⟩⟩

theorem keeps_words {s : State} (h : base.Keeps (lasting s)) {m : SMap Word64} (g : mapWf s.ef.words = true → mapWf m = true) :
    base.Keeps ⟨s.pending, s.part, s.uid, s.ctrl.cells, m, s.ef.otp, s.flash.supers⟩ :=
  h.trans ⟨rfl, rfl, rfl, fun ⟨hc, hw, ho, hs⟩ => ⟨hc, g hw, ho, hs⟩⟩

theorem keeps_otp {s : State} (h : base.Keeps (lasting s)) {m : SMap Word64} (g : mapWf s.ef.otp = true → mapWf m = true) :
    base.Keeps ⟨s.pending, s.part, s.uid, s.ctrl.cells, s.ef.words, m, s.flash.supers⟩ :=
  h.trans ⟨rfl, rfl, rfl, fun ⟨hc, hw, ho, hs⟩ => ⟨hc, hw, g ho, hs⟩⟩

theorem keeps_ctrl {s : State} (h : base.Keeps (lasting s)) {m : List Host.Cell} (g : cellsWf s.ctrl.cells = true → cellsWf m = true) :
    base.Keeps ⟨s.pending, s.part, s.uid, m, s.ef.words, s.ef.otp, s.flash.supers⟩ :=
  h.trans ⟨rfl, rfl, rfl, fun ⟨hc, hw, ho, hs⟩ => ⟨g hc, hw, ho, hs⟩⟩

/-- An operation that works on a scratch state and hands over its flash only. -/
@[simp] theorem keeps_flash {s t : State} (h : base.Keeps (lasting s)) (g : (lasting s).Keeps (lasting t)) :
    base.Keeps ⟨s.pending, s.part, s.uid, s.ctrl.cells, s.ef.words, s.ef.otp, t.flash.supers⟩ :=
  h.trans ⟨rfl, rfl, rfl, fun c =>
    have ⟨hc, hw, ho, _⟩ := c
    have ⟨_, _, _, hs⟩ := g.canonical c
    ⟨hc, hw, ho, hs⟩⟩

end

/-! #### Contents that an update of their holder leaves or keeps canonical -/

@[simp] theorem cells_storeMeet (bad : List Nat) (m : Store) : (storeMeet bad m).cells = m.cells := rfl

@[simp] theorem words_suspendErase (e : Ef) : (suspendErase e).words = e.words := by simp [suspendErase, apply_ite Ef.words]

@[simp] theorem otp_suspendErase (e : Ef) : (suspendErase e).otp = e.otp := by simp [suspendErase, apply_ite Ef.otp]

@[simp] theorem words_startPoison (e : Ef) : (startPoison e).words = e.words := by unfold startPoison; split <;> simp [apply_ite Ef.words]

@[simp] theorem otp_startPoison (e : Ef) : (startPoison e).otp = e.otp := by unfold startPoison; split <;> simp [apply_ite Ef.otp]

@[simp] theorem words_lockWrite (sp : Nat) (v : BitVec 4) (e : Ef) : (lockWrite sp v e).words = e.words := by simp [lockWrite, apply_ite Ef.words]

@[simp] theorem otp_lockWrite (sp : Nat) (v : BitVec 4) (e : Ef) : (lockWrite sp v e).otp = e.otp := by simp [lockWrite, apply_ite Ef.otp]

@[simp] theorem words_kick (sp : Nat) (e : Ef) : (kick sp e).words = e.words := by simp [kick, apply_ite Ef.words]

@[simp] theorem otp_kick (sp : Nat) (e : Ef) : (kick sp e).otp = e.otp := by simp [kick, apply_ite Ef.otp]

@[simp] theorem words_efcRefuse (cause : Nat) (e : Ef) : (efcRefuse cause e).words = e.words := rfl

@[simp] theorem otp_efcRefuse (cause : Nat) (e : Ef) : (efcRefuse cause e).otp = e.otp := rfl

/-- Values change and keys stay. -/
theorem mapWf_mapKeyed {α : Type} (f : Nat × α → α) {m : SMap α} (h : mapWf m = true) : mapWf (m.map (fun p => (p.1, f p))) = true := by
  rw [mapWf_iff] at *
  exact List.pairwise_map.mpr h

theorem mapWf_tornProgram {m : SMap Super} (h : mapWf m = true) (o : ProgOp) : mapWf (tornProgram m o) = true := by
  unfold tornProgram
  split
  · exact h
  · exact mapWf_mapPut _ _ h

theorem mapWf_resetFlash {f : Flash} (h : mapWf f.supers = true) : mapWf (resetFlash f).supers = true :=
  mapWf_mapVals _ (List.foldlRecOn (motive := fun m => mapWf m = true) f.progQ tornProgram h (fun _ hm o _ => mapWf_tornProgram hm o))

/-! ### Operations that leave all of it -/

/-! #### Commands, records, the error log, contexts -/

@[simp] theorem lasting_updCmd {tag f s} : lasting (updCmd tag f s) = lasting s := by simp [updCmd]
@[simp] theorem lasting_completeWith {tag st result s} : lasting (completeWith tag st result s) = lasting s := by unfold completeWith; split <;> simp
@[simp] theorem lasting_complete {tag st s} : lasting (complete tag st s) = lasting s := by simp [complete]
@[simp] theorem lasting_hostWrite {addr bs s} : lasting (hostWrite addr bs s) = lasting s := by simp [hostWrite]

@[simp] theorem lasting_logEvent {source sev code ctx inst addr d0 d1 s} : lasting (logEvent source sev code ctx inst addr d0 d1 s) = lasting s := by
  simp [logEvent]

@[simp] theorem lasting_logBy {sp source sev code ctx inst addr s} : lasting (logBy sp source sev code ctx inst addr s) = lasting s := by simp [logBy]
@[simp] theorem lasting_setCtx {n c s} : lasting (setCtx n c s) = lasting s := by simp [setCtx]
@[simp] theorem lasting_updCtx {n f s} : lasting (updCtx n f s) = lasting s := by simp [updCtx]
@[simp] theorem lasting_countFor {n c s} : lasting (countFor n c s) = lasting s := by simp [countFor]

/-! #### Cores and clusters -/

@[simp] theorem lasting_setCore {r k s} : lasting (setCore r k s) = lasting s := by simp [setCore]
@[simp] theorem lasting_updCore {r f s} : lasting (updCore r f s) = lasting s := by simp [updCore]
@[simp] theorem lasting_updCluster {n lc f s} : lasting (updCluster n lc f s) = lasting s := by simp [updCluster]

/-! #### Shared operations -/

@[simp] theorem lasting_bump {s} : lasting (bump s) = lasting s := by simp [bump]
@[simp] theorem lasting_t1Write {n lc a bs s} : lasting (t1Write n lc a bs s) = lasting s := by simp [t1Write]

@[simp] theorem lasting_onClusters {n f s} (h : ∀ lc s, lasting (f lc s) = lasting s) : lasting (onClusters n f s) = lasting s :=
  lasting_foldl (fun s lc => h lc s) _ _

@[simp] theorem lasting_setFlag {n lc flag v s} : lasting (setFlag n lc flag v s) = lasting s := by simp [setFlag]
@[simp] theorem lasting_updObj {id f s} : lasting (updObj id f s) = lasting s := by unfold updObj; split <;> simp
@[simp] theorem lasting_updObjs {n f s} : lasting (updObjs n f s) = lasting s := by simp [updObjs]
@[simp] theorem lasting_updDie {ch die f s} : lasting (updDie ch die f s) = lasting s := by simp [updDie]
@[simp] theorem lasting_dropCopyOf {id s} : lasting (dropCopyOf id s) = lasting s := by simp [dropCopyOf]

theorem lasting_makeRoom {n need s t} (h : makeRoom n need s = some t) : lasting t = lasting s := by
  obtain ⟨ids, -, rfl⟩ := Option.map_eq_some_iff.mp h
  simp

@[simp] theorem lasting_bufWrite {c off bs s} : lasting (bufWrite c off bs s) = lasting s := by simp [bufWrite]
@[simp] theorem lasting_leaveS1 {s} : lasting (leaveS1 s) = lasting s := by simp [leaveS1]
@[simp] theorem lasting_startWake {s} : lasting (startWake s) = lasting s := by simp [startWake]
@[simp] theorem lasting_reply {c off bs st s} : lasting (reply c off bs st s) = lasting s := by simp [reply]
@[simp] theorem lasting_keepRunning {c left s} : lasting (keepRunning c left s) = lasting s := by simp [keepRunning]

/-! #### Raw errors -/

@[simp] theorem lasting_logWord {m req w s} : lasting (logWord m req w s) = lasting s := by simp [logWord]
@[simp] theorem lasting_logWords {m req ws s} : lasting (logWords m req ws s) = lasting s := by simp [logWords]

@[simp] theorem lasting_updRaw {m f s} : lasting (updRaw m f s) = lasting s := by
  unfold updRaw
  dsimp only
  repeat' split
  all_goals simp

@[simp] theorem lasting_applyUpset {x s} : lasting (applyUpset x s) = lasting s := by simp [applyUpset]
@[simp] theorem lasting_meetT0 {req c a n s} : lasting (meetT0 req c a n s) = lasting s := by simp [meetT0]
@[simp] theorem lasting_meetT1 {req m lc a n s} : lasting (meetT1 req m lc a n s) = lasting s := by simp [meetT1]
@[simp] theorem lasting_meetT2 {req id a n s} : lasting (meetT2 req id a n s) = lasting s := by simp [meetT2]
@[simp] theorem lasting_logStaging {c a n s} : lasting (logStaging c a n s) = lasting s := by simp [logStaging]
@[simp] theorem lasting_meetPlain {m req ws s} : lasting (meetPlain m req ws s) = lasting s := by simp [meetPlain]
@[simp] theorem lasting_meetCtrl {a n s} : lasting (meetCtrl a n s) = lasting s := by simp [meetCtrl]
@[simp] theorem lasting_updGroup {g f s} : lasting (updGroup g f s) = lasting s := by simp [updGroup]
@[simp] theorem lasting_restartEngines {g pick s} : lasting (restartEngines g pick s) = lasting s := by simp [restartEngines]

/-! #### The ring ports' link layer -/

@[simp] theorem lasting_updPair {p f s} : lasting (updPair p f s) = lasting s := by simp [updPair]
@[simp] theorem lasting_updPort {n f s} : lasting (updPort n f s) = lasting s := by simp [updPort]
@[simp] theorem lasting_flushAt {n s} : lasting (flushAt n s) = lasting s := by simp [flushAt]
@[simp] theorem lasting_sendNow {n f s} : lasting (sendNow n f s) = lasting s := by simp [sendNow]
@[simp] theorem lasting_sendRing {m s} : lasting (sendRing m s) = lasting s := by simp [sendRing]
@[simp] theorem lasting_sendTo {p route u m s} : lasting (sendTo p route u m s) = lasting s := by unfold sendTo; split <;> simp
@[simp] theorem lasting_sendConnect {p u m s} : lasting (sendConnect p u m s) = lasting s := by simp [sendConnect]
@[simp] theorem lasting_breakConns {n s} : lasting (breakConns n s) = lasting s := by simp [breakConns]

/-! #### Cluster DMA transfers -/

@[simp] theorem lasting_meetSource {r p d s} : lasting (meetSource r p d s) = lasting s := by
  refine lasting_foldl (fun s i => ?_) _ _
  split
  · simp
  · simp
  · split <;> simp

/-! #### What ends work early -/

@[simp] theorem lasting_updTag {t f s} : lasting (updTag t f s) = lasting s := by simp [updTag]
@[simp] theorem lasting_sendRed {t dests body s} : lasting (sendRed t dests body s) = lasting s := by simp [sendRed]
@[simp] theorem lasting_endCtxTickets {n pick res s} : lasting (endCtxTickets n pick res s) = lasting s := by simp [endCtxTickets]
@[simp] theorem lasting_logBucket {t cause s} : lasting (logBucket t cause s) = lasting s := by simp [logBucket]
@[simp] theorem lasting_failTag {t cause s} : lasting (failTag t cause s) = lasting s := by simp [failTag]
@[simp] theorem lasting_putStep {n st s} : lasting (putStep n st s) = lasting s := by simp [putStep]
@[simp] theorem lasting_writeStep {n st f30 s} : lasting (writeStep n st f30 s) = lasting s := by simp [writeStep]
@[simp] theorem lasting_abandonTag {t cause s} : lasting (abandonTag t cause s) = lasting s := by simp [abandonTag]
@[simp] theorem lasting_voidStep {n cause st s} : lasting (voidStep n cause st s) = lasting s := by simp [voidStep]
@[simp] theorem lasting_dropPrograms {pick s} : lasting (dropPrograms pick s) = lasting s := by simp [dropPrograms]
@[simp] theorem lasting_dropReads {pick s} : lasting (dropReads pick s) = lasting s := by simp [dropReads]
@[simp] theorem lasting_pruneFlight {s} : lasting (pruneFlight s) = lasting s := by simp [pruneFlight]
@[simp] theorem lasting_dropPosts {n s} : lasting (dropPosts n s) = lasting s := by simp [dropPosts]

@[simp] theorem lasting_sendStream {s c p d off body last t} : lasting (sendStream s c p d off body last t) = lasting t := by
  unfold sendStream
  split <;> simp

@[simp] theorem lasting_landRows {c p d ls s} : lasting (landRows c p d ls s) = lasting s := by
  unfold landRows
  split
  · simp
  · simp
  · split <;> simp

@[simp] theorem lasting_landPoison {c p d ls s} : lasting (landPoison c p d ls s) = lasting s := by
  unfold landPoison
  split
  · simp
  · simp
  · split <;> simp

@[simp] theorem lasting_moveLines {c t p d ls last s} : lasting (moveLines c t p d ls last s) = lasting s := by simp [moveLines]
@[simp] theorem lasting_pauseTransfer {c t s} : lasting (pauseTransfer c t s) = lasting s := by unfold pauseTransfer; split <;> simp
@[simp] theorem lasting_pauseCore {c s} : lasting (pauseCore c s) = lasting s := by simp [pauseCore]
@[simp] theorem lasting_pauseCtx {n s} : lasting (pauseCtx n s) = lasting s := by simp [pauseCtx]
@[simp] theorem lasting_leaveSlice {n s} : lasting (leaveSlice n s) = lasting s := by simp [leaveSlice]
@[simp] theorem lasting_dropQueries {pick s} : lasting (dropQueries pick s) = lasting s := by simp [dropQueries]
@[simp] theorem lasting_dropScratch {n s} : lasting (dropScratch n s) = lasting s := by simp [dropScratch]
@[simp] theorem lasting_faultCmd {cause r1 c s} : lasting (faultCmd cause r1 c s) = lasting s := by simp [faultCmd]
@[simp] theorem lasting_contextFault {n cause r1 s} : lasting (contextFault n cause r1 s) = lasting s := by simp [contextFault]
@[simp] theorem lasting_coreFault {r cause addr s} : lasting (coreFault r cause addr s) = lasting s := by simp [coreFault]
@[simp] theorem lasting_meetOp {r o s} : lasting (meetOp r o s) = lasting s := by simp [meetOp]
@[simp] theorem lasting_landOp {s r o} : lasting (landOp s r o) = lasting s := by simp [landOp]

@[simp] theorem lasting_landArray {r residueFail s} : lasting (landArray r residueFail s) = lasting s := by
  unfold landArray
  split
  · rfl
  · split
    · simp
    · dsimp only
      split <;> simp

@[simp] theorem lasting_endRun {n s} : lasting (endRun n s) = lasting s := by simp [endRun]

@[simp] theorem lasting_voidRunWith {n cause x st s} : lasting (voidRunWith n cause x st s) = lasting s := by
  unfold voidRunWith
  dsimp only
  split <;> simp

@[simp] theorem lasting_voidRun {n cause x s} : lasting (voidRun n cause x s) = lasting s := lasting_voidRunWith
@[simp] theorem lasting_redFail {t cause s} : lasting (redFail t cause s) = lasting s := by simp [redFail]

/-! #### The scan units' work -/

@[simp] theorem lasting_finishQuery {slot q s} : lasting (finishQuery slot q s) = lasting s := by
  unfold finishQuery
  dsimp only
  split <;> simp

/-! #### Runs of a context -/

@[simp] theorem lasting_wakeCtx {n s} : lasting (wakeCtx n s) = lasting s := by simp [wakeCtx]
@[simp] theorem lasting_startRun {n u s} : lasting (startRun n u s) = lasting s := by unfold startRun; split <;> simp
@[simp] theorem lasting_startSketch {n s} : lasting (startSketch n s) = lasting s := by unfold startSketch; split <;> simp
@[simp] theorem lasting_writeDecision {n mask frame s} : lasting (writeDecision n mask frame s) = lasting s := by simp [writeDecision]
@[simp] theorem lasting_applyDecision {n mask frame s} : lasting (applyDecision n mask frame s) = lasting s := by simp [applyDecision]
@[simp] theorem lasting_finishBatch {c data s} : lasting (finishBatch c data s) = lasting s := by simp [finishBatch]

@[simp] theorem lasting_completeBatch {n masks missed c s} : lasting (completeBatch n masks missed c s) = lasting s := by
  unfold completeBatch
  dsimp only
  repeat' split
  all_goals simp

@[simp] theorem lasting_answerLine {n s} : lasting (answerLine n s) = lasting s := by
  unfold answerLine
  dsimp only
  repeat' split
  all_goals simp

@[simp] theorem lasting_embedHalt {tag s} : lasting (embedHalt tag s) = lasting s := by unfold embedHalt; split <;> simp

@[simp] theorem lasting_runServed {n u s} : lasting (runServed n u s) = lasting s := by
  unfold runServed
  split
  · split <;> simp
  all_goals simp

@[simp] theorem lasting_settleCtx {n s} : lasting (settleCtx n s) = lasting s := by simp [settleCtx]
@[simp] theorem lasting_engineLost {s} : lasting (engineLost s) = lasting s := by simp [engineLost]
@[simp] theorem lasting_skipRest {n s} : lasting (skipRest n s) = lasting s := by simp [skipRest]
@[simp] theorem lasting_endIfHalted {n s} : lasting (endIfHalted n s) = lasting s := by unfold endIfHalted; split <;> simp

/-! #### Dies and programs -/

@[simp] theorem lasting_drawSeq {s} : lasting (drawSeq s) = lasting s := by simp [drawSeq]
@[simp] theorem lasting_resumeDies {s} : lasting (resumeDies s) = lasting s := by simp [resumeDies]

/-! #### The flash translation layer -/

@[simp] theorem lasting_enqRead {lga why s} : lasting (enqRead lga why s) = lasting s := by simp [enqRead]
@[simp] theorem lasting_startRead {s r} : lasting (startRead s r) = lasting s := by simp [startRead]

@[simp] theorem lasting_startDieReads {s} : lasting (startDieReads s) = lasting s := by
  have reads : ∀ (l : List ReadOp) (t : State), (l.foldl startRead t).flash.supers = t.flash.supers :=
    fun l t => congrArg Lasting.supers (lasting_foldl (fun _ _ => lasting_startRead) l t)
  unfold startDieReads
  simp only [lasting_mk]
  split <;> simp [reads]

@[simp] theorem lasting_startImports {s} : lasting (startImports s) = lasting s := by
  refine lasting_foldl (fun s i => ?_) _ _
  split <;> simp

@[simp] theorem lasting_markStarted {s} : lasting (markStarted s) = lasting s := by simp [markStarted]
@[simp] theorem lasting_startReads {s} : lasting (startReads s) = lasting s := by simp [startReads]
@[simp] theorem lasting_dropUnits {lga seq s} : lasting (dropUnits lga seq s) = lasting s := by simp [dropUnits]
@[simp] theorem lasting_installGranule {lga seq l s} : lasting (installGranule lga seq l s) = lasting s := by simp [installGranule]
@[simp] theorem lasting_installMerge {lga seq l s} : lasting (installMerge lga seq l s) = lasting s := by simp [installMerge]
@[simp] theorem lasting_installUnit {l t j s} : lasting (installUnit l t j s) = lasting s := by simp [installUnit]
@[simp] theorem lasting_applyTomb {t s} : lasting (applyTomb t s) = lasting s := by simp [applyTomb]
@[simp] theorem lasting_moveMap {src dst v s} : lasting (moveMap src dst v s) = lasting s := by unfold moveMap; split <;> simp
@[simp] theorem lasting_landCopy {src dst v merged s} : lasting (landCopy src dst v merged s) = lasting s := by simp [landCopy]

@[simp] theorem lasting_programEffect {o ls s} : lasting (programEffect o ls s) = lasting s := by
  unfold programEffect
  split <;> cases ls <;> simp

/-! #### The prefetch engine -/

@[simp] theorem lasting_checkPlaced {id s} : lasting (checkPlaced id s) = lasting s := by unfold checkPlaced; split <;> simp
@[simp] theorem lasting_failFills {id st s} : lasting (failFills id st s) = lasting s := by unfold failFills; split <;> simp
@[simp] theorem lasting_putGranule {id g data s} : lasting (putGranule id g data s) = lasting s := by simp [putGranule]
@[simp] theorem lasting_promoteRead {id g s} : lasting (promoteRead id g s) = lasting s := by simp [promoteRead]

@[simp] theorem lasting_issueGranule {id o post s g} : lasting (issueGranule id o post s g) = lasting s := by
  unfold issueGranule
  dsimp only
  repeat' split
  all_goals simp

@[simp] theorem lasting_issueMissing {id post s} : lasting (issueMissing id post s) = lasting s := by unfold issueMissing; split <;> simp
@[simp] theorem lasting_markRepairs {id s} : lasting (markRepairs id s) = lasting s := by simp [markRepairs]

@[simp] theorem lasting_startFill {id post s} : lasting (startFill id post s) = lasting s := by
  unfold startFill
  split
  · rfl
  · split
    · rfl
    · split
      · simp
      · split
        · simp
        · rename_i h; simp [lasting_makeRoom h]

@[simp] theorem lasting_retryFills {n s} : lasting (retryFills n s) = lasting s := by simp [retryFills]
@[simp] theorem lasting_landGranule {id g data s} : lasting (landGranule id g data s) = lasting s := by unfold landGranule; split <;> simp
@[simp] theorem lasting_deliverBinding {n b data s} : lasting (deliverBinding n b data s) = lasting s := by simp [deliverBinding]

@[simp] theorem lasting_fillBinding {id s} : lasting (fillBinding id s) = lasting s := by
  unfold fillBinding
  split
  · rfl
  · split
    · split <;> simp
    · rfl

/-! #### Reads for the host -/

@[simp] theorem lasting_finishRead {c s} : lasting (finishRead c s) = lasting s := by simp [finishRead]
@[simp] theorem lasting_readStep {tag s} : lasting (readStep tag s) = lasting s := by unfold readStep; split <;> simp
@[simp] theorem lasting_landHost {tag g data s} : lasting (landHost tag g data s) = lasting s := by simp [landHost]

@[simp] theorem lasting_startHostRead {c gs have_ s} : lasting (startHostRead c gs have_ s) = lasting s := by
  unfold startHostRead
  split
  · split <;> simp
  · dsimp only
    split <;> simp

/-! #### The status ring -/

@[simp] theorem lasting_putRecord {r s} : lasting (putRecord r s) = lasting s := by simp [putRecord]
@[simp] theorem lasting_writeDue {due s} : lasting (writeDue due s) = lasting s := by simp [writeDue]
@[simp] theorem lasting_openWindow {s} : lasting (openWindow s) = lasting s := by simp [openWindow]
@[simp] theorem lasting_writeWindow {s} : lasting (writeWindow s) = lasting s := by simp [writeWindow]

/-! #### The host's side of the module -/

@[simp] theorem lasting_goWrite {v s} : lasting (goWrite v s) = lasting s := by simp [goWrite]
@[simp] theorem lasting_drawChallenge {s} : lasting (drawChallenge s) = lasting s := by simp [drawChallenge]
@[simp] theorem lasting_endCmd {c st s} : lasting (endCmd c st s) = lasting s := by simp [endCmd]
@[simp] theorem lasting_refuse {tag p st s} : lasting (refuse tag p st s) = lasting s := by simp [refuse]

@[simp] theorem lasting_acceptPacket {p s} : lasting (acceptPacket p s) = lasting s := by
  unfold acceptPacket
  dsimp only
  repeat' split
  all_goals simp

@[simp] theorem lasting_acceptance {s} : lasting (acceptance s) = lasting s := by simp [acceptance]
@[simp] theorem lasting_write0114 {v s} : lasting (write0114 v s) = lasting s := by simp [write0114]

@[simp] theorem lasting_writeDword {off v s} : lasting (writeDword off v s) = lasting s := by
  unfold writeDword
  dsimp only
  repeat' split
  all_goals simp

@[simp] theorem lasting_bar0Write {off size v s} : lasting (bar0Write off size v s) = lasting s := by simp [bar0Write]

@[simp] theorem lasting_configStep {f s} : lasting (configStep f s) = lasting s := by
  unfold configStep
  cases f <;> simp

@[simp] theorem lasting_hostDma {tag data s} : lasting (hostDma tag data s) = lasting s := by unfold hostDma; split <;> simp
@[simp] theorem lasting_wakeFor {p s} : lasting (wakeFor p s) = lasting s := by simp [wakeFor]
@[simp] theorem lasting_releaseCmd {c s} : lasting (releaseCmd c s) = lasting s := by simp [releaseCmd]

theorem lasting_takeTurn {s t} (h : takeTurn s = some t) : lasting t = lasting s := by
  unfold takeTurn at h
  repeat' split at h
  all_goals simp at h
  all_goals simp [← h]

@[simp] theorem lasting_takeWeights {s} : lasting (takeWeights s) = lasting s := by simp [takeWeights]
@[simp] theorem lasting_newRound {s} : lasting (newRound s) = lasting s := by simp [newRound]

@[simp] theorem lasting_releaseOne {s} : lasting (releaseOne s).1 = lasting s := by
  unfold releaseOne
  split
  · simp
  · split
    · rename_i h; exact lasting_takeTurn h
    · split
      · rename_i h; simp [lasting_takeTurn h]
      · simp

@[simp] theorem lasting_releaseAll {n s} : lasting (releaseAll n s) = lasting s := by
  induction n generalizing s with
  | zero => rfl
  | succ n ih => simp [releaseAll, ih]

@[simp] theorem lasting_readBack {s} : lasting (readBack s) = lasting s := by simp [readBack]
@[simp] theorem lasting_heartbeat {s} : lasting (heartbeat s) = lasting s := by simp [heartbeat]
@[simp] theorem lasting_reportPoint {s} : lasting (reportPoint s) = lasting s := by simp [reportPoint]

/-! #### Log pages -/

@[simp] theorem lasting_noteSnap {lid s} : lasting (noteSnap lid s) = lasting s := by simp [noteSnap]

/-! #### Admin commands -/

@[simp] theorem lasting_identifyCmd {c s} : lasting (identifyCmd c s) = lasting s := by simp [identifyCmd]
@[simp] theorem lasting_getLogCmd {c s} : lasting (getLogCmd c s) = lasting s := by simp [getLogCmd]
@[simp] theorem lasting_getFeatureCmd {c s} : lasting (getFeatureCmd c s) = lasting s := by simp [getFeatureCmd]
@[simp] theorem lasting_awaitTick {c at_ s} : lasting (awaitTick c at_ s) = lasting s := by simp [awaitTick]
@[simp] theorem lasting_setFrameCmd {c s} : lasting (setFrameCmd c s) = lasting s := by simp [setFrameCmd]

@[simp] theorem lasting_setPaletteCmd {c s} : lasting (setPaletteCmd c s) = lasting s := by
  unfold setPaletteCmd
  split
  · simp
  · split <;> simp

@[simp] theorem lasting_attestCmd {c s} : lasting (attestCmd c s) = lasting s := by simp [attestCmd]

/-! #### Ending commands early -/

@[simp] theorem lasting_endRunOf {c s} : lasting (endRunOf c s) = lasting s := by simp [endRunOf]
@[simp] theorem lasting_undoPlace {c s} : lasting (undoPlace c s) = lasting s := by simp [undoPlace]
@[simp] theorem lasting_abortWrite {c st s} : lasting (abortWrite c st s) = lasting s := by simp [abortWrite]
@[simp] theorem lasting_abortStarted {c st s} : lasting (abortStarted c st s) = lasting s := by unfold abortStarted; split <;> simp
@[simp] theorem lasting_endsUnrun {c s} : lasting (endsUnrun c s) = lasting s := by simp [endsUnrun]

@[simp] theorem lasting_abortCmd {by_ byTag c s} : lasting (abortCmd by_ byTag c s).1 = lasting s := by
  simp only [abortCmd, apply_ite Prod.fst, lasting_ite]
  simp

@[simp] theorem lasting_abortList {by_ byTag cs s} : lasting (abortList by_ byTag cs s).1 = lasting s := by
  refine lasting_foldl_fst (fun a c => ?_) _ _
  split <;> simp

@[simp] theorem lasting_abortRun {tag scope pick done s} : lasting (abortRun tag scope pick done s) = lasting s := by
  unfold abortRun
  split
  · rfl
  · split <;> simp

/-! #### Scalar instructions -/

@[simp] theorem lasting_goPc {r pc s} : lasting (goPc r pc s) = lasting s := by simp [goPc]
@[simp] theorem lasting_retire {r k s} : lasting (retire r k s) = lasting s := by simp [retire]

@[simp] theorem lasting_onIssue {r i f s} (h : ∀ s, lasting (f s) = lasting s) : lasting (onIssue r i f s) = lasting s := by
  simp [onIssue, h]

@[simp] theorem lasting_regOp {r i rd v s} : lasting (regOp r i rd v s) = lasting s := by simp [regOp]
@[simp] theorem lasting_aluCmd {op c rd rs1 rs2 s} : lasting (aluCmd op c rd rs1 rs2 s) = lasting s := by simp [aluCmd]
@[simp] theorem lasting_aluICmd {op c rd rs1 imm s} : lasting (aluICmd op c rd rs1 imm s) = lasting s := by simp [aluICmd]
@[simp] theorem lasting_brCmd {op c rs1 rs2 tgt s} : lasting (brCmd op c rs1 rs2 tgt s) = lasting s := by simp [brCmd]

/-! #### Memory instructions -/

@[simp] theorem lasting_faultOr {r bad f s} (h : ∀ s, lasting (f s) = lasting s) : lasting (faultOr r bad f s) = lasting s := by
  unfold faultOr
  split <;> simp [h]

@[simp] theorem lasting_ldlCmd {c q g stepG s} : lasting (ldlCmd c q g stepG s) = lasting s := by simp [ldlCmd]
@[simp] theorem lasting_stlCmd {c q g stepG s} : lasting (stlCmd c q g stepG s) = lasting s := by simp [stlCmd]
@[simp] theorem lasting_ldmaLog {c f s} : lasting (ldmaLog c f s) = lasting s := by simp [ldmaLog]

@[simp] theorem lasting_ldmaCmd {c f s} : lasting (ldmaCmd c f s) = lasting s := by
  refine lasting_onIssue (fun s => lasting_faultOr (fun s => ?_))
  split
  · rfl
  · dsimp only
    split <;> simp

@[simp] theorem lasting_touchSource {s p d t} : lasting (touchSource s p d t) = lasting t := by
  unfold touchSource
  split
  · split <;> simp
  · rfl

@[simp] theorem lasting_cdmaCmd {c q t s} : lasting (cdmaCmd c q t s) = lasting s := by
  refine lasting_onIssue (fun s => ?_)
  split
  · rfl
  · dsimp only
    split
    · rfl
    · refine lasting_faultOr (fun s => ?_)
      split <;> simp

@[simp] theorem lasting_dmaDone {c t s} : lasting (dmaDone c t s) = lasting s := by unfold dmaDone; split <;> simp

@[simp] theorem lasting_preqCmd {c rs q s} : lasting (preqCmd c rs q s) = lasting s := by
  refine lasting_onIssue (fun s => ?_)
  split
  · rfl
  · dsimp only
    split
    · simp
    · split <;> simp

/-! #### Firmware and lifecycle -/

@[simp] theorem lasting_endWith {c cause s} : lasting (endWith c cause s) = lasting s := by simp [endWith]

@[simp] theorem lasting_lifecycleCmd {c s} : lasting (lifecycleCmd c s) = lasting s := by
  unfold lifecycleCmd
  dsimp only
  repeat' split
  all_goals simp

/-! #### Port pairs and easels -/

@[simp] theorem lasting_breakStreams {p pick s} : lasting (breakStreams p pick s) = lasting s := by simp [breakStreams]
@[simp] theorem lasting_losePeers {p s} : lasting (losePeers p s) = lasting s := by simp [losePeers]
@[simp] theorem lasting_discoverBy {p dn uid pri s} : lasting (discoverBy p dn uid pri s) = lasting s := by simp [discoverBy]
@[simp] theorem lasting_sendDiscover {p s} : lasting (sendDiscover p s) = lasting s := by simp [sendDiscover]
@[simp] theorem lasting_leaveUp {p s} : lasting (leaveUp p s) = lasting s := by simp [leaveUp]
@[simp] theorem lasting_chooseSource {s} : lasting (chooseSource s) = lasting s := by unfold chooseSource; split <;> simp
@[simp] theorem lasting_leaveRing {p s} : lasting (leaveRing p s) = lasting s := by simp [leaveRing]
@[simp] theorem lasting_closeEasel {p st s} : lasting (closeEasel p st s) = lasting s := by simp [closeEasel]
@[simp] theorem lasting_closeAllEasels {s} : lasting (closeAllEasels s) = lasting s := by simp [closeAllEasels]
@[simp] theorem lasting_endEnables {p s} : lasting (endEnables p s) = lasting s := by simp [endEnables]
@[simp] theorem lasting_endImportTag {tag g st s} : lasting (endImportTag tag g st s) = lasting s := by simp [endImportTag]
@[simp] theorem lasting_stopImports {p s} : lasting (stopImports p s) = lasting s := by simp [stopImports]
@[simp] theorem lasting_disablePair {p tag s} : lasting (disablePair p tag s) = lasting s := by simp [disablePair]
@[simp] theorem lasting_enablePair {p tag s} : lasting (enablePair p tag s) = lasting s := by simp [enablePair]
@[simp] theorem lasting_portDisableCmd {c s} : lasting (portDisableCmd c s) = lasting s := by simp [portDisableCmd]
@[simp] theorem lasting_portEnableCmd {c s} : lasting (portEnableCmd c s) = lasting s := by simp [portEnableCmd]
@[simp] theorem lasting_setRingCmd {c s} : lasting (setRingCmd c s) = lasting s := by simp [setRingCmd]
@[simp] theorem lasting_cancelPair {p s} : lasting (cancelPair p s) = lasting s := by simp [cancelPair]
@[simp] theorem lasting_drainEnd {p s} : lasting (drainEnd p s) = lasting s := by simp [drainEnd]

@[simp] theorem lasting_easelShut {p s} : lasting (easelShut p s) = lasting s := by
  unfold easelShut
  dsimp only
  repeat' split
  all_goals simp

@[simp] theorem lasting_identityDone {p dn up s} : lasting (identityDone p dn up s) = lasting s := by simp [identityDone]
@[simp] theorem lasting_readAgain {p s} : lasting (readAgain p s) = lasting s := by simp [readAgain]
@[simp] theorem lasting_retryPair {p s} : lasting (retryPair p s) = lasting s := by simp [retryPair]
@[simp] theorem lasting_linkUpAt {p hopDn hopUp s} : lasting (linkUpAt p hopDn hopUp s) = lasting s := by simp [linkUpAt]
@[simp] theorem lasting_portLeaves {n s} : lasting (portLeaves n s) = lasting s := by simp [portLeaves]
@[simp] theorem lasting_faultLink {p ms s} : lasting (faultLink p ms s) = lasting s := by simp [faultLink]
@[simp] theorem lasting_resendFrom {n ack ms s} : lasting (resendFrom n ack ms s) = lasting s := by simp [resendFrom]
@[simp] theorem lasting_forwardFlit {n f s} : lasting (forwardFlit n f s) = lasting s := by simp [forwardFlit]
@[simp] theorem lasting_acceptFlit {n f s} : lasting (acceptFlit n f s) = lasting s := by simp [acceptFlit]
@[simp] theorem lasting_dropFlit {n s} : lasting (dropFlit n s) = lasting s := by simp [dropFlit]
@[simp] theorem lasting_countFec {n symbols s} : lasting (countFec n symbols s) = lasting s := by simp [countFec]
@[simp] theorem lasting_flitIn {n image symbols ms s} : lasting (flitIn n image symbols ms s) = lasting s := by simp [flitIn]
@[simp] theorem lasting_discoverIn {n uid pri s} : lasting (discoverIn n uid pri s) = lasting s := by simp [discoverIn]
@[simp] theorem lasting_discoveryDone {p members closed s} : lasting (discoveryDone p members closed s) = lasting s := by simp [discoveryDone]
@[simp] theorem lasting_lockTick {p pair s} : lasting (lockTick p pair s) = lasting s := by simp [lockTick]
@[simp] theorem lasting_forwardTick {pair p s} : lasting (forwardTick pair p s) = lasting s := by simp [forwardTick]
@[simp] theorem lasting_tickIn {pair p s} : lasting (tickIn pair p s) = lasting s := by simp [tickIn]

/-! #### Streams and remote objects -/

@[simp] theorem lasting_ringInput {f s} (h : ∀ s, lasting (f s) = lasting s) : lasting (ringInput f s) = lasting s := by
  simp [ringInput, h]

@[simp] theorem lasting_unlink {n i s} : lasting (unlink n i s) = lasting s := by simp [unlink]

@[simp] theorem lasting_connect {pair u m s} : lasting (connect pair u m s) = lasting s := by
  unfold connect
  split
  · split <;> simp
  · split <;> simp
  all_goals simp

@[simp] theorem lasting_askStreams {s} : lasting (askStreams s) = lasting s := by
  refine lasting_foldl (fun s c => ?_) _ _
  split <;> simp

@[simp] theorem lasting_landStream {id off data poison s} : lasting (landStream id off data poison s) = lasting s := by simp [landStream]
@[simp] theorem lasting_streamDone {n i e mark seed s} : lasting (streamDone n i e mark seed s) = lasting s := by simp [streamDone]

@[simp] theorem lasting_streamIn {n i off src data poison last mark seed s} :
    lasting (streamIn n i off src data poison last mark seed s) = lasting s := by
  unfold streamIn
  dsimp only
  repeat' split
  all_goals simp

@[simp] theorem lasting_endStreamTicket {c t res s} : lasting (endStreamTicket c t res s) = lasting s := by simp [endStreamTicket]
@[simp] theorem lasting_streamLate {c t s} : lasting (streamLate c t s) = lasting s := by simp [streamLate]

@[simp] theorem lasting_answerImport {port req data poison error s} : lasting (answerImport port req data poison error s) = lasting s := by
  simp [answerImport]

@[simp] theorem lasting_serveImport {port n name g req s} : lasting (serveImport port n name g req s) = lasting s := by
  unfold serveImport
  split
  · rfl
  · split
    · simp
    · split
      · simp
      · split <;> simp

@[simp] theorem lasting_dropImport {id g s} : lasting (dropImport id g s) = lasting s := by simp [dropImport]
@[simp] theorem lasting_importIn {id g data poison error s} : lasting (importIn id g data poison error s) = lasting s := by simp [importIn]
@[simp] theorem lasting_resendImport {id g dn f s} : lasting (resendImport id g dn f s) = lasting s := by unfold resendImport; split <;> simp
@[simp] theorem lasting_importLate {id g s} : lasting (importLate id g s) = lasting s := by unfold importLate; split <;> simp

/-! #### The reduction engine -/

@[simp] theorem lasting_redFailAt {t cause s} : lasting (redFailAt t cause s) = lasting s := by simp [redFailAt]
@[simp] theorem lasting_stepCheck {n s} : lasting (stepCheck n s) = lasting s := by simp [stepCheck]
@[simp] theorem lasting_chunkFinal {t c s} : lasting (chunkFinal t c s) = lasting s := by simp [chunkFinal]
@[simp] theorem lasting_engineWrite {id a n f s} : lasting (engineWrite id a n f s) = lasting s := by unfold engineWrite; split <;> simp
@[simp] theorem lasting_sendResult {t body s} : lasting (sendResult t body s) = lasting s := by simp [sendResult]
@[simp] theorem lasting_ownerAdd {t c part entries s} : lasting (ownerAdd t c part entries s) = lasting s := by simp [ownerAdd]
@[simp] theorem lasting_ticketChunk {r t d s} : lasting (ticketChunk r t d s) = lasting s := by simp [ticketChunk]
@[simp] theorem lasting_sendContrib {t c entries s} : lasting (sendContrib t c entries s) = lasting s := by simp [sendContrib]

@[simp] theorem lasting_thinInto {r t p d c s} : lasting (thinInto r t p d c s) = lasting s := by
  unfold thinInto
  dsimp only
  repeat' split
  all_goals simp

@[simp] theorem lasting_chunkIn {r t s} : lasting (chunkIn r t s) = lasting s := by
  unfold chunkIn
  dsimp only
  repeat' split
  all_goals simp

@[simp] theorem lasting_rejectMsg {pair src t gen s} : lasting (rejectMsg pair src t gen s) = lasting s := by simp [rejectMsg]

@[simp] theorem lasting_contribIn {pair src t gen c entries poison s} : lasting (contribIn pair src t gen c entries poison s) = lasting s := by
  simp [contribIn]

@[simp] theorem lasting_resultIn {pair src t gen c entries poison s} : lasting (resultIn pair src t gen c entries poison s) = lasting s := by
  simp [resultIn]

@[simp] theorem lasting_readyIn {src t gen pcrc s} : lasting (readyIn src t gen pcrc s) = lasting s := by simp [readyIn]
@[simp] theorem lasting_abandonIn {t gen s} : lasting (abandonIn t gen s) = lasting s := by simp [abandonIn]
@[simp] theorem lasting_openBucket {n b e s} : lasting (openBucket n b e s) = lasting s := by simp [openBucket]

@[simp] theorem lasting_redOpenCmd {c s} : lasting (redOpenCmd c s) = lasting s := by
  unfold redOpenCmd
  dsimp only
  repeat' split
  all_goals simp

@[simp] theorem lasting_freeTag {t s} : lasting (freeTag t s) = lasting s := by simp [freeTag]
@[simp] theorem lasting_closeTag {n t s} : lasting (closeTag n t s) = lasting s := by simp [closeTag]
@[simp] theorem lasting_redCloseCmd {c s} : lasting (redCloseCmd c s) = lasting s := by simp [redCloseCmd]
@[simp] theorem lasting_redStatusCmd {c s} : lasting (redStatusCmd c s) = lasting s := by simp [redStatusCmd]
@[simp] theorem lasting_stepLate {n s} : lasting (stepLate n s) = lasting s := by simp [stepLate]
@[simp] theorem lasting_flipSel {id s} : lasting (flipSel id s) = lasting s := by simp [flipSel]
@[simp] theorem lasting_flipStep {n ids s} : lasting (flipStep n ids s) = lasting s := by simp [flipStep]
@[simp] theorem lasting_commitStep {n s} : lasting (commitStep n s) = lasting s := by unfold commitStep; split <;> simp

/-! #### Context commands -/

@[simp] theorem lasting_ctxCreateCmd {c s} : lasting (ctxCreateCmd c s) = lasting s := by simp [ctxCreateCmd]
@[simp] theorem lasting_finishDestroy {n s} : lasting (finishDestroy n s) = lasting s := by simp [finishDestroy]
@[simp] theorem lasting_freeTagsOf {n s} : lasting (freeTagsOf n s) = lasting s := by simp [freeTagsOf]
@[simp] theorem lasting_destroyNow {c s} : lasting (destroyNow c s) = lasting s := by simp [destroyNow]

@[simp] theorem lasting_tryDestroy {c s} : lasting (tryDestroy c s) = lasting s := by
  simp [tryDestroy]

@[simp] theorem lasting_applyQuota {c s} : lasting (applyQuota c s) = lasting s := by simp [applyQuota]
@[simp] theorem lasting_ctxQuotaCmd {c s} : lasting (ctxQuotaCmd c s) = lasting s := by simp [ctxQuotaCmd]
@[simp] theorem lasting_imageReady {c s} : lasting (imageReady c s) = lasting s := by simp [imageReady]
@[simp] theorem lasting_progLoadCmd {c s} : lasting (progLoadCmd c s) = lasting s := by unfold progLoadCmd; split <;> simp
@[simp] theorem lasting_fallbackCmd {c s} : lasting (fallbackCmd c s) = lasting s := by unfold fallbackCmd; split <;> simp

/-! #### Object commands -/

@[simp] theorem lasting_createScratch {c o s} : lasting (createScratch c o s) = lasting s := by
  unfold createScratch
  split
  · simp
  · rename_i h; simp [lasting_makeRoom h]

@[simp] theorem lasting_place {c o s} : lasting (place c o s) = lasting s := by simp [place]

@[simp] theorem lasting_objPlaceCmd {c o s} : lasting (objPlaceCmd c o s) = lasting s := by
  unfold objPlaceCmd
  dsimp only
  split <;> simp

@[simp] theorem lasting_objWriteCmd {c o s} : lasting (objWriteCmd c o s) = lasting s := by simp [objWriteCmd]
@[simp] theorem lasting_meetEdges {id a n s} : lasting (meetEdges id a n s) = lasting s := by simp [meetEdges]
@[simp] theorem lasting_objReadCmd {c o s} : lasting (objReadCmd c o s) = lasting s := by unfold objReadCmd; split <;> simp
@[simp] theorem lasting_objPinCmd {c o s} : lasting (objPinCmd c o s) = lasting s := by simp [objPinCmd]

@[simp] theorem lasting_objEvictCmd {c o s} : lasting (objEvictCmd c o s) = lasting s := by
  unfold objEvictCmd
  dsimp only
  repeat' split
  all_goals simp

@[simp] theorem lasting_finishEvict {c s} : lasting (finishEvict c s) = lasting s := by
  unfold finishEvict
  dsimp only
  split <;> simp

@[simp] theorem lasting_objDeleteCmd {c o s} : lasting (objDeleteCmd c o s) = lasting s := by simp [objDeleteCmd]
@[simp] theorem lasting_removeObj {id s} : lasting (removeObj id s) = lasting s := by simp [removeObj]

/-! #### Execution commands -/

@[simp] theorem lasting_meetInput {n len s} : lasting (meetInput n len s) = lasting s := by unfold meetInput; split <;> simp
@[simp] theorem lasting_copyInput {n bs s} : lasting (copyInput n bs s) = lasting s := by unfold copyInput; split <;> simp
@[simp] theorem lasting_joinPlan {c plan s} : lasting (joinPlan c plan s) = lasting s := by simp [joinPlan]
@[simp] theorem lasting_refuseExec {c st s} : lasting (refuseExec c st s) = lasting s := by simp [refuseExec]

@[simp] theorem lasting_takeInput {c free inLen outLen inOff outOff s} : lasting (takeInput c free inLen outLen inOff outOff s) = lasting s := by
  unfold takeInput
  dsimp only
  repeat' split
  all_goals simp

@[simp] theorem lasting_batchCmd {c s} : lasting (batchCmd c s) = lasting s := by simp [batchCmd]
@[simp] theorem lasting_stepRunCmd {c s} : lasting (stepRunCmd c s) = lasting s := by simp [stepRunCmd]
@[simp] theorem lasting_stepVoidCmd {c s} : lasting (stepVoidCmd c s) = lasting s := by simp [stepVoidCmd]

@[simp] theorem lasting_applyStepVoid {c s} : lasting (applyStepVoid c s) = lasting s := by
  unfold applyStepVoid
  dsimp only
  split <;> simp

@[simp] theorem lasting_loadProg {c s} : lasting (loadProg c s) = lasting s := by unfold loadProg; split <;> simp
@[simp] theorem lasting_loadSketch {c s} : lasting (loadSketch c s) = lasting s := by unfold loadSketch; split <;> simp
@[simp] theorem lasting_startBatch {c s} : lasting (startBatch c s) = lasting s := by simp [startBatch]
@[simp] theorem lasting_startStep {c s} : lasting (startStep c s) = lasting s := by simp [startStep]
@[simp] theorem lasting_startExec {c s} : lasting (startExec c s) = lasting s := by unfold startExec; split <;> simp

/-! #### Array instructions -/

@[simp] theorem lasting_issueArray {c o gens stepG early held late s} : lasting (issueArray c o gens stepG early held late s) = lasting s := by
  simp [issueArray]

@[simp] theorem lasting_mmaCmd {acc c f s} : lasting (mmaCmd acc c f s) = lasting s := by simp [mmaCmd]
@[simp] theorem lasting_ewCmd {op c f s} : lasting (ewCmd op c f s) = lasting s := by simp [ewCmd]

@[simp] theorem lasting_chainCmd {c f s} : lasting (chainCmd c f s) = lasting s := by
  refine lasting_onIssue (fun s => ?_)
  split <;> simp

/-! #### Barriers and flags -/

@[simp] theorem lasting_setArrivals {r cross id l s} : lasting (setArrivals r cross id l s) = lasting s := by simp [setArrivals]
@[simp] theorem lasting_barrierCheck {r cross id s} : lasting (barrierCheck r cross id s) = lasting s := by simp [barrierCheck]
@[simp] theorem lasting_barrierCmd {r i cross id s} : lasting (barrierCmd r i cross id s) = lasting s := by simp [barrierCmd]

/-! #### HALT and YIELD -/

@[simp] theorem lasting_haltBarriers {c s} : lasting (haltBarriers c s) = lasting s := by simp [haltBarriers]
@[simp] theorem lasting_haltCmd {c s} : lasting (haltCmd c s) = lasting s := by simp [haltCmd]

/-! #### Queries -/

@[simp] theorem lasting_storeQuery {slot had q s} : lasting (storeQuery slot had q s) = lasting s := by simp [storeQuery]

@[simp] theorem lasting_issueOn {s ch} : lasting (issueOn s ch) = lasting s := by
  unfold issueOn
  dsimp only
  repeat' split
  all_goals simp

@[simp] theorem lasting_issueQueries {s} : lasting (issueQueries s) = lasting s := by simp [issueQueries]

@[simp] theorem lasting_queryCmd {kind c s} : lasting (queryCmd kind c s) = lasting s := by
  unfold queryCmd
  dsimp only
  repeat' split
  all_goals simp

@[simp] theorem lasting_landWindow {q bs s} : lasting (landWindow q bs s) = lasting s := by simp [landWindow]
@[simp] theorem lasting_mergeDone {slot s} : lasting (mergeDone slot s) = lasting s := by unfold mergeDone; split <;> simp

@[simp] theorem lasting_cancelOn {ch s} : lasting (cancelOn ch s) = lasting s := by
  unfold cancelOn
  rw [lasting_foldl (fun s c => ?_)]
  · simp
  · split <;> simp

/-! #### Flash events -/

@[simp] theorem lasting_finishProg {c s} : lasting (finishProg c s) = lasting s := by
  unfold finishProg
  dsimp only
  repeat' split
  all_goals simp

@[simp] theorem lasting_progStep {o s} : lasting (progStep o s) = lasting s := by unfold progStep; split <;> simp
@[simp] theorem lasting_failWrite {s tag} : lasting (failWrite s tag) = lasting s := by unfold failWrite; split <;> simp
@[simp] theorem lasting_goReadOnly {s} : lasting (goReadOnly s) = lasting s := by simp [goReadOnly]
@[simp] theorem lasting_dropProg {id s} : lasting (dropProg id s) = lasting s := by simp [dropProg]
@[simp] theorem lasting_suspendDie {ch die s} : lasting (suspendDie ch die s) = lasting s := by simp [suspendDie]
@[simp] theorem lasting_countRefresh {cause s} : lasting (countRefresh cause s) = lasting s := by simp [countRefresh]
@[simp] theorem lasting_rawPageRead {c k pg v s} : lasting (rawPageRead c k pg v s) = lasting s := by simp [rawPageRead]

/-! #### Prefetch events -/

@[simp] theorem lasting_takePost {n p s} : lasting (takePost n p s) = lasting s := by unfold takePost; split <;> simp
@[simp] theorem lasting_acceptPost {n lc s} : lasting (acceptPost n lc s) = lasting s := by unfold acceptPost; split <;> simp
@[simp] theorem lasting_repairGranule {id g s} : lasting (repairGranule id g s) = lasting s := by unfold repairGranule; split <;> simp

/-! #### The scheduler within a frame -/

@[simp] theorem lasting_beginSwapIn {s} : lasting (beginSwapIn s) = lasting s := by unfold beginSwapIn; split <;> simp
@[simp] theorem lasting_swapInAt {n ds s} : lasting (swapInAt n ds s) = lasting s := by simp [swapInAt]
@[simp] theorem lasting_swapOut {evac n s} : lasting (swapOut evac n s) = lasting s := by simp [swapOut]

theorem lasting_takeVictims {n l s t ds} (h : takeVictims n l s = some (t, ds)) : lasting t = lasting s := by
  induction l generalizing s with
  | nil => 
    obtain ⟨_, -, h⟩ := Option.map_eq_some_iff.mp h
    cases h; rfl
  | cons v l ih =>
    unfold takeVictims at h
    split at h
    · cases h; rfl
    · simpa using ih h

@[simp] theorem lasting_placeCtx {n s} : lasting (placeCtx n s) = lasting s := by
  unfold placeCtx
  split
  · rename_i h; simp [lasting_takeVictims h]
  · rfl

@[simp] theorem lasting_closePlan {s} : lasting (closePlan s) = lasting s := by
  unfold closePlan
  split
  · rfl
  · dsimp only
    generalize e : (if awake s then (waitingCtxs s).foldl (fun s n => placeCtx n s) s else s) = t
    have h : lasting t = lasting s := by simp [← e]
    by_cases hd : t.power.d1 = true <;> simp [hd, h]

@[simp] theorem lasting_decideCtx {n s} : lasting (decideCtx n s) = lasting s := by
  unfold decideCtx
  dsimp only
  split <;> simp

@[simp] theorem lasting_snapshot {s} : lasting (snapshot s) = lasting s := by simp [snapshot]
@[simp] theorem lasting_endDutyZero {s} : lasting (endDutyZero s) = lasting s := by simp [endDutyZero]
@[simp] theorem lasting_startSlice {n s} : lasting (startSlice n s) = lasting s := by simp [startSlice]
@[simp] theorem lasting_chargeOverrun {n overrun s d} : lasting (chargeOverrun n overrun s d) = lasting s := by unfold chargeOverrun; split <;> simp
@[simp] theorem lasting_endSlice {n overrun s} : lasting (endSlice n overrun s) = lasting s := by simp [endSlice]
@[simp] theorem lasting_offReady {s} : lasting (offReady s) = lasting s := by simp [offReady]
@[simp] theorem lasting_savedOut {n s} : lasting (savedOut n s) = lasting s := by simp [savedOut]

@[simp] theorem lasting_swapDone {saveError s} : lasting (swapDone saveError s) = lasting s := by
  unfold swapDone
  dsimp only
  split <;> simp

@[simp] theorem lasting_runLate {n s} : lasting (runLate n s) = lasting s := by simp [runLate]
@[simp] theorem lasting_pipeLate {tag s} : lasting (pipeLate tag s) = lasting s := by unfold pipeLate; split <;> simp

/-! #### Sleep and power -/

@[simp] theorem lasting_wakeCmd {c s} : lasting (wakeCmd c s) = lasting s := by simp [wakeCmd]
@[simp] theorem lasting_sleepCmd {level c s} : lasting (sleepCmd level c s) = lasting s := by simp [sleepCmd]
@[simp] theorem lasting_enterS2 {retain s} : lasting (enterS2 retain s) = lasting s := by simp [enterS2]
@[simp] theorem lasting_sleepNow {s} : lasting (sleepNow s) = lasting s := by unfold sleepNow; split <;> simp
@[simp] theorem lasting_mainOff {s} : lasting (mainOff s) = lasting s := by simp [mainOff]
@[simp] theorem lasting_restoreHealth {s} : lasting (restoreHealth s) = lasting s := by simp [restoreHealth]
@[simp] theorem lasting_exitS2 {s} : lasting (exitS2 s) = lasting s := by simp [exitS2]
@[simp] theorem lasting_domOffCmd {c s} : lasting (domOffCmd c s) = lasting s := by simp [domOffCmd]
@[simp] theorem lasting_domOnCmd {c s} : lasting (domOnCmd c s) = lasting s := by simp [domOnCmd]
@[simp] theorem lasting_windowEnd {avgW s} : lasting (windowEnd avgW s) = lasting s := by simp [windowEnd]
@[simp] theorem lasting_powerSampled {w s} : lasting (powerSampled w s) = lasting s := by simp [powerSampled]
@[simp] theorem lasting_enterFault {cause s} : lasting (enterFault cause s) = lasting s := by simp [enterFault]
@[simp] theorem lasting_freeProgress {s} : lasting (freeProgress s) = lasting s := by simp [freeProgress]
@[simp] theorem lasting_firmwareStruck {sp d s} : lasting (firmwareStruck sp d s) = lasting s := by unfold firmwareStruck; split <;> simp

/-! #### The embedded-flash controller, the watchdog and the scrub engines -/

@[simp] theorem lasting_efcAnswer {sp causes start s} (hw : ∀ e, (start e).words = e.words) (ho : ∀ e, (start e).otp = e.otp) :
    lasting (efcAnswer sp causes start s) = lasting s := by
  unfold efcAnswer
  split
  · rfl
  · split <;> simp [hw, ho]

@[simp] theorem lasting_efcRegs {w otp s} : lasting (efcRegs w otp s) = lasting s := by simp [efcRegs]
@[simp] theorem lasting_efcData {d s} : lasting (efcData d s) = lasting s := by simp [efcData]
@[simp] theorem lasting_efcProgram {sp s} : lasting (efcProgram sp s) = lasting s := by simp [efcProgram]
@[simp] theorem lasting_efcErase {sp s} : lasting (efcErase sp s) = lasting s := by simp [efcErase]

@[simp] theorem lasting_arrayStall {s} : lasting (arrayStall s) = lasting s := by
  unfold arrayStall
  dsimp only
  split <;> simp

@[simp] theorem lasting_arrayFetch {sp w s} : lasting (arrayFetch sp w s) = lasting s := by simp [arrayFetch]
@[simp] theorem lasting_efcSuspend {sp s} : lasting (efcSuspend sp s) = lasting s := by simp [efcSuspend]
@[simp] theorem lasting_efcResume {sp s} : lasting (efcResume sp s) = lasting s := by simp [efcResume]
@[simp] theorem lasting_efcPoison {sp s} : lasting (efcPoison sp s) = lasting s := by simp [efcPoison]
@[simp] theorem lasting_efcCmd {sp op s} : lasting (efcCmd sp op s) = lasting s := by unfold efcCmd; split <;> simp
@[simp] theorem lasting_halfPeriod {s} : lasting (halfPeriod s) = lasting s := by simp [halfPeriod]
@[simp] theorem lasting_poisonWord {m w s} : lasting (poisonWord m w s) = lasting s := by unfold poisonWord; split <;> simp
@[simp] theorem lasting_noteEfRead {m w uncorr s} : lasting (noteEfRead m w uncorr s) = lasting s := by unfold noteEfRead; split <;> simp
@[simp] theorem lasting_efPoisonDue {m w s} : lasting (efPoisonDue m w s) = lasting s := by unfold efPoisonDue; split <;> simp
@[simp] theorem lasting_efcStore {sp off v s} : lasting (efcStore sp off v s) = lasting s := by unfold efcStore; split <;> simp
@[simp] theorem lasting_wdtStore {sp off v s} : lasting (wdtStore sp off v s) = lasting s := by unfold wdtStore; split <;> simp
@[simp] theorem lasting_regStore {sp a bs s} : lasting (regStore sp a bs s) = lasting s := by simp [regStore]
@[simp] theorem lasting_scrubBad {g m w overtaken s} : lasting (scrubBad g m w overtaken s) = lasting s := by simp [scrubBad]
@[simp] theorem lasting_scrubAdvance {g u ms s} : lasting (scrubAdvance g u ms s) = lasting s := by simp [scrubAdvance]

/-! #### Resets and start-up -/

@[simp] theorem lasting_domainsOff {s} : lasting (domainsOff s) = lasting s := by simp [domainsOff]
@[simp] theorem lasting_loadRecords {s} : lasting (loadRecords s) = lasting s := by simp [loadRecords]
@[simp] theorem lasting_startFault {cause inst s} : lasting (startFault cause inst s) = lasting s := by simp [startFault]
@[simp] theorem lasting_allDomains {s} : lasting (allDomains s) = lasting s := by simp [allDomains]
@[simp] theorem lasting_readChains {s} : lasting (readChains s) = lasting s := by simp [readChains]
@[simp] theorem lasting_rebuildMap {s} : lasting (rebuildMap s) = lasting s := by simp [rebuildMap]

/-! #### The frame tick -/

@[simp] theorem lasting_closeCmd {s c} : lasting (closeCmd s c) = lasting s := by simp [closeCmd]

@[simp] theorem lasting_eachCmd {f s} (h : ∀ s c, lasting (f s c) = lasting s) : lasting (eachCmd f s) = lasting s := by
  refine lasting_foldl (fun s c => ?_) _ _
  split <;> simp [h]

@[simp] theorem lasting_closeStats {x n done held us s} : lasting (closeStats x n done held us s) = lasting s := by simp [closeStats]
@[simp] theorem lasting_tickPower {x us s} : lasting (tickPower x us s) = lasting s := by simp [tickPower]
@[simp] theorem lasting_applyFrame {c s} : lasting (applyFrame c s) = lasting s := by simp [applyFrame]

@[simp] theorem lasting_tickFeature {s c} : lasting (tickFeature s c) = lasting s := by
  unfold tickFeature
  dsimp only
  repeat' split
  all_goals simp

@[simp] theorem lasting_sendTicks {s} : lasting (sendTicks s) = lasting s := by simp [sendTicks]
@[simp] theorem lasting_tickFrame {x s} : lasting (tickFrame x s) = lasting s := by simp [tickFrame]
@[simp] theorem lasting_sendReadies {s} : lasting (sendReadies s) = lasting s := by simp [sendReadies]

@[simp] theorem lasting_evacuate {s n} : lasting (evacuate s n) = lasting s := by
  unfold evacuate
  dsimp only
  repeat' split
  all_goals simp

@[simp] theorem lasting_tickDomains {s} : lasting (tickDomains s) = lasting s := by simp [tickDomains]

@[simp] theorem lasting_tickCtx {s n} : lasting (tickCtx s n) = lasting s := by
  unfold tickCtx
  dsimp only
  repeat' split
  all_goals simp

@[simp] theorem lasting_endFrameSlice {s n} : lasting (endFrameSlice s n) = lasting s := by simp [endFrameSlice]
@[simp] theorem lasting_endSlices {s} : lasting (endSlices s) = lasting s := by simp [endSlices]
@[simp] theorem lasting_tickPosts {s} : lasting (tickPosts s) = lasting s := by simp [tickPosts]
@[simp] theorem lasting_tickQueries {s} : lasting (tickQueries s) = lasting s := by simp [tickQueries]
@[simp] theorem lasting_dropGiven {s id} : lasting (dropGiven s id) = lasting s := by unfold dropGiven; split <;> simp
@[simp] theorem lasting_settleGiven {s id} : lasting (settleGiven s id) = lasting s := by simp [settleGiven]
@[simp] theorem lasting_tickPalette {s n} : lasting (tickPalette s n) = lasting s := by simp [tickPalette]
@[simp] theorem lasting_writePalette {c s} : lasting (writePalette c s) = lasting s := by simp [writePalette]
@[simp] theorem lasting_startEmbed {c slot q b s} : lasting (startEmbed c slot q b s) = lasting s := by simp [startEmbed]
@[simp] theorem lasting_startStream {n s} : lasting (startStream n s) = lasting s := by unfold startStream; split <;> simp

@[simp] theorem lasting_startWork {n s} : lasting (startWork n s) = lasting s := by
  unfold startWork
  split
  · simp
  · split
    · rfl
    · split
      · simp
      · split
        · rfl
        · split <;> simp

@[simp] theorem lasting_tickStart {s n} : lasting (tickStart s n) = lasting s := by simp [tickStart]
@[simp] theorem lasting_tickWake {s} : lasting (tickWake s) = lasting s := by simp [tickWake]
@[simp] theorem lasting_tickHeartbeat {s} : lasting (tickHeartbeat s) = lasting s := by simp [tickHeartbeat]
@[simp] theorem lasting_countFrameOf {s} : lasting (countFrameOf s) = lasting s := by simp [countFrameOf]

/-! ### Operations that keep it -/

section
variable {base : Lasting}

@[simp] theorem keeps_onCmd {op tag sel f s} (hf : ∀ c s, (lasting s).Keeps (lasting (f c s))) (h : base.Keeps (lasting s)) :
    base.Keeps (lasting (onCmd op tag sel f s)) := by
  unfold onCmd
  split
  · exact h
  · split
    · split
      · simp [h]
      · exact h.trans (hf _ _)
    · exact h

@[simp] theorem keeps_onRed {op tag f s} (hf : ∀ c s, (lasting s).Keeps (lasting (f c s))) (h : base.Keeps (lasting s)) :
    base.Keeps (lasting (onRed op tag f s)) :=
  keeps_onCmd (fun c s => by simp [hf]) h

@[simp] theorem keeps_onObj {op tag f s} (hf : ∀ c o s, (lasting s).Keeps (lasting (f c o s))) (h : base.Keeps (lasting s)) :
    base.Keeps (lasting (onObj op tag f s)) := by
  refine keeps_onCmd (fun c s => ?_) h
  split
  · simp
  · split
    · simp
    · split <;> simp [hf]

@[simp] theorem keeps_onBlk {op tag f s} (hf : ∀ c s, (lasting s).Keeps (lasting (f c s))) (h : base.Keeps (lasting s)) :
    base.Keeps (lasting (onBlk op tag f s)) := by
  refine keeps_onCmd (fun c s => ?_) h
  split
  · simp
  · split <;> simp [hf]

@[simp] theorem keeps_eachCmd {f s} (hf : ∀ s c, (lasting s).Keeps (lasting (f s c))) (h : base.Keeps (lasting s)) :
    base.Keeps (lasting (eachCmd f s)) := by
  refine keeps_foldl (fun s c => ?_) _ h
  split <;> simp [hf]

/-! #### Shared operations -/

@[simp] theorem keeps_updSuper {ch die n f s} (h : base.Keeps (lasting s)) : base.Keeps (lasting (updSuper ch die n f s)) :=
  keeps_supers h (mapWf_mapSet _ _ _)

/-! #### Dies and programs -/

@[simp] theorem keeps_startOn {o die n s} (h : base.Keeps (lasting s)) : base.Keeps (lasting (startOn o die n s)) := by simp [startOn, h]

@[simp] theorem keeps_startProg {s o} (h : base.Keeps (lasting s)) : base.Keeps (lasting (startProg s o)) := by
  unfold startProg
  split
  · exact h
  · dsimp only
    split
    · exact h
    · cases targetSuper s o.ch _ o.kind <;> simp [h]

@[simp] theorem keeps_startPrograms {s} (h : base.Keeps (lasting s)) : base.Keeps (lasting (startPrograms s)) := by
  unfold startPrograms
  dsimp only
  split
  · rw [lasting_mk]
    exact keeps_flash h (keeps_foldl (fun s o => keeps_startProg (.refl _)) _ (.refl _))
  · exact h

@[simp] theorem keeps_enqProg {o s} (h : base.Keeps (lasting s)) : base.Keeps (lasting (enqProg o s)) := by simp [enqProg, h]

/-! #### The flash translation layer -/

@[simp] theorem keeps_enqGranule {tag ctx obj lga data s} (h : base.Keeps (lasting s)) :
    base.Keeps (lasting (enqGranule tag ctx obj lga data s)) := by
  simp [enqGranule, h]

@[simp] theorem keeps_enqUnits {tag ctx obj lga data units s} (h : base.Keeps (lasting s)) :
    base.Keeps (lasting (enqUnits tag ctx obj lga data units s)) := by
  refine keeps_foldl (fun s us => keeps_enqProg ?_) _ h
  simp

@[simp] theorem keeps_writeHome {tag ctx obj lgaOf off bs s} (h : base.Keeps (lasting s)) :
    base.Keeps (lasting (writeHome tag ctx obj lgaOf off bs s)) := by
  simp [writeHome, h]

@[simp] theorem keeps_enqTombstone {tag ctx obj ch ranges s} (h : base.Keeps (lasting s)) :
    base.Keeps (lasting (enqTombstone tag ctx obj ch ranges s)) := by
  simp [enqTombstone, h]

@[simp] theorem keeps_enqRecord {tag ctx id o s} (h : base.Keeps (lasting s)) : base.Keeps (lasting (enqRecord tag ctx id o s)) := by
  simp [enqRecord, h]

@[simp] theorem keeps_countReads {ls s} (h : base.Keeps (lasting s)) : base.Keeps (lasting (countReads ls s)) := by simp [countReads, h]
@[simp] theorem keeps_poisonAt {p s} (h : base.Keeps (lasting s)) : base.Keeps (lasting (poisonAt p s)) := by simp [poisonAt, h]
@[simp] theorem keeps_markSoft {ch ps s} (h : base.Keeps (lasting s)) : base.Keeps (lasting (markSoft ch ps s)) := by simp [markSoft, h]

@[simp] theorem keeps_foundAt {ch lga place res s} (h : base.Keeps (lasting s)) : base.Keeps (lasting (foundAt ch lga place res s)) := by
  unfold foundAt
  split <;> simp [h]

@[simp] theorem keeps_readFound {lga res s} (h : base.Keeps (lasting s)) : base.Keeps (lasting (readFound lga res s)) := by simp [readFound, h]
@[simp] theorem keeps_enqMerge {lga s} (h : base.Keeps (lasting s)) : base.Keeps (lasting (enqMerge lga s)) := by simp [enqMerge, h]

@[simp] theorem keeps_enqCopies {kind ch die cs s} (h : base.Keeps (lasting s)) : base.Keeps (lasting (enqCopies kind ch die cs s)) := by
  simp [enqCopies, h]

@[simp] theorem keeps_emptyMore {ch die n s} (h : base.Keeps (lasting s)) : base.Keeps (lasting (emptyMore ch die n s)) := by
  unfold emptyMore
  split <;> simp [h]

@[simp] theorem keeps_emptySuper {why ch die n s} (h : base.Keeps (lasting s)) : base.Keeps (lasting (emptySuper why ch die n s)) := by
  simp [emptySuper, h]

@[simp] theorem keeps_eraseNext {ch die s} (h : base.Keeps (lasting s)) : base.Keeps (lasting (eraseNext ch die s)) := by
  unfold eraseNext
  split <;> simp [h]

@[simp] theorem keeps_flashGo {ch s} (h : base.Keeps (lasting s)) : base.Keeps (lasting (flashGo ch s)) := by
  unfold flashGo
  dsimp only
  split
  · refine keeps_startPrograms ?_
    rw [lasting_mk]
    refine keeps_flash (by simp [h]) (keeps_foldl (fun s d => by simp) _ (keeps_foldl (fun s p => by simp) _ (by simp)))
  · simp [h]

/-! #### Words of the embedded flash -/

@[simp] theorem keeps_setEf {w v s} (h : base.Keeps (lasting s)) : base.Keeps (lasting (setEf w v s)) :=
  keeps_words h (mapWf_mapSet _ _ _)

@[simp] theorem keeps_setOtp {w v s} (h : base.Keeps (lasting s)) : base.Keeps (lasting (setOtp w v s)) :=
  keeps_otp h (mapWf_mapSet _ _ _)

@[simp] theorem keeps_efWrite {w bs s} (h : base.Keeps (lasting s)) : base.Keeps (lasting (efWrite w bs s)) := by simp [efWrite, h]

@[simp] theorem keeps_efEraseSectors {a b s} (h : base.Keeps (lasting s)) : base.Keeps (lasting (efEraseSectors a b s)) :=
  keeps_words h (mapWf_filter _)

/-! #### Records in the embedded flash -/

@[simp] theorem keeps_firmErase {n s} (h : base.Keeps (lasting s)) : base.Keeps (lasting (firmErase n s)) :=
  keeps_setEf (keeps_efEraseSectors (keeps_setEf h))

@[simp] theorem keeps_openSector {n s} (h : base.Keeps (lasting s)) : base.Keeps (lasting (openSector n s)) := by simp [openSector, h]

@[simp] theorem keeps_programRecord {r n i ws s} (h : base.Keeps (lasting s)) : base.Keeps (lasting (programRecord r n i ws s)) := by
  simp [programRecord, h]

@[simp] theorem keeps_addRecord {r ws s} (h : base.Keeps (lasting s)) : base.Keeps (lasting (addRecord r ws s)) := by
  unfold addRecord
  split <;> simp [h]

@[simp] theorem keeps_dropSector {n s} (h : base.Keeps (lasting s)) : base.Keeps (lasting (dropSector n s)) := by simp [dropSector, h]

@[simp] theorem keeps_rewriteSector {n s} (h : base.Keeps (lasting s)) : base.Keeps (lasting (rewriteSector n s)) := by
  unfold rewriteSector
  split
  · exact h
  · dsimp only
    split
    · exact h
    · split
      · simp [h]
      · exact keeps_dropSector (keeps_foldl (fun s x => by simp) _ (keeps_openSector h))

@[simp] theorem keeps_recordRepair {core row s} (h : base.Keeps (lasting s)) : base.Keeps (lasting (recordRepair core row s)) := by
  simp [recordRepair, h]

@[simp] theorem keeps_cfgDrop {k s} (h : base.Keeps (lasting s)) : base.Keeps (lasting (cfgDrop k s)) := by simp [cfgDrop, h]
@[simp] theorem keeps_cfgAdd {k ws s} (h : base.Keeps (lasting s)) : base.Keeps (lasting (cfgAdd k ws s)) := by unfold cfgAdd; split <;> simp [h]
@[simp] theorem keeps_cfgPut {k ws s} (h : base.Keeps (lasting s)) : base.Keeps (lasting (cfgPut k ws s)) := by simp [cfgPut, h]
@[simp] theorem keeps_cfgAppend {k v s} (h : base.Keeps (lasting s)) : base.Keeps (lasting (cfgAppend k v s)) := by simp [cfgAppend, h]
@[simp] theorem keeps_eraseAhead {n s} (h : base.Keeps (lasting s)) : base.Keeps (lasting (eraseAhead n s)) := by simp [eraseAhead, h]

@[simp] theorem keeps_programEntry {e s} (h : base.Keeps (lasting s)) : base.Keeps (lasting (programEntry e s)) := by
  unfold programEntry
  dsimp only
  refine keeps_programRecord ?_
  split <;> simp [h]

/-! #### Admin commands -/

@[simp] theorem keeps_setBlockCmd {c s} (h : base.Keeps (lasting s)) : base.Keeps (lasting (setBlockCmd c s)) := by simp [setBlockCmd, h]

/-! #### Firmware and lifecycle -/

@[simp] theorem keeps_failedChunk {w k data s} (h : base.Keeps (lasting s)) : base.Keeps (lasting (failedChunk w k data s)) := by
  simp [failedChunk, h]

@[simp] theorem keeps_downloadCmd {c s} (h : base.Keeps (lasting s)) : base.Keeps (lasting (downloadCmd c s)) := by simp [downloadCmd, h]

@[simp] theorem keeps_commitSlot {slot s} (h : base.Keeps (lasting s)) : base.Keeps (lasting (commitSlot slot s)) := by
  unfold commitSlot
  split
  · exact h
  · exact keeps_setEf (keeps_setEf (keeps_setEf h))

@[simp] theorem keeps_commitCmd {andThen c s} (hf : ∀ c s, lasting (andThen c s) = lasting s) (h : base.Keeps (lasting s)) :
    base.Keeps (lasting (commitCmd andThen c s)) := by
  unfold commitCmd
  split
  · exact h
  · split <;> simp [h, hf]

/-! #### Context commands -/

@[simp] theorem keeps_destroyObjects {c s} (h : base.Keeps (lasting s)) : base.Keeps (lasting (destroyObjects c s)) := by
  unfold destroyObjects
  dsimp only
  split <;> simp [h]

/-! #### Object commands -/

@[simp] theorem keeps_createHome {c o s} (h : base.Keeps (lasting s)) : base.Keeps (lasting (createHome c o s)) := by simp [createHome, h]

@[simp] theorem keeps_objCreateCmd {c s} (h : base.Keeps (lasting s)) : base.Keeps (lasting (objCreateCmd c s)) := by
  unfold objCreateCmd
  dsimp only
  repeat' split
  all_goals simp [h]

@[simp] theorem keeps_applyWrite {c s} (h : base.Keeps (lasting s)) : base.Keeps (lasting (applyWrite c s)) := by
  unfold applyWrite
  dsimp only
  split <;> simp [h]

@[simp] theorem keeps_writeback {c o m s} (h : base.Keeps (lasting s)) : base.Keeps (lasting (writeback c o m s)) := by simp [writeback, h]

@[simp] theorem keeps_applyEvict {c s} (h : base.Keeps (lasting s)) : base.Keeps (lasting (applyEvict c s)) := by
  unfold applyEvict
  dsimp only
  repeat' split
  all_goals simp [h]

@[simp] theorem keeps_applyDelete {c s} (h : base.Keeps (lasting s)) : base.Keeps (lasting (applyDelete c s)) := by
  unfold applyDelete
  dsimp only
  split <;> simp [h]

/-! #### Block commands -/

@[simp] theorem keeps_blkWriteCmd {c s} (h : base.Keeps (lasting s)) : base.Keeps (lasting (blkWriteCmd c s)) := by simp [blkWriteCmd, h]
@[simp] theorem keeps_blkTrimCmd {c s} (h : base.Keeps (lasting s)) : base.Keeps (lasting (blkTrimCmd c s)) := by simp [blkTrimCmd, h]

/-! #### Queries -/

@[simp] theorem keeps_metaLost {lga codewords s} (h : base.Keeps (lasting s)) : base.Keeps (lasting (metaLost lga codewords s)) := by
  unfold metaLost
  split <;> simp [h]

@[simp] theorem keeps_scanPage {slot ch g q o r codewords soft s} (h : base.Keeps (lasting s)) :
    base.Keeps (lasting (scanPage slot ch g q o r codewords soft s)) := by
  simp [scanPage, h]

@[simp] theorem keeps_pageScan {slot ch codewords soft s} (h : base.Keeps (lasting s)) :
    base.Keeps (lasting (pageScan slot ch codewords soft s)) := by
  unfold pageScan
  split
  · exact h
  · split
    · split <;> simp [h]
    · exact h

@[simp] theorem keeps_unitMode {ch mode s} (h : base.Keeps (lasting s)) : base.Keeps (lasting (unitMode ch mode s)) := by simp [unitMode, h]

/-! #### Flash events -/

@[simp] theorem keeps_retireBlock {ch die n s} (h : base.Keeps (lasting s)) : base.Keeps (lasting (retireBlock ch die n s)) := by
  simp [retireBlock, h]

@[simp] theorem keeps_putVersions {ch die n o vs s} (h : base.Keeps (lasting s)) : base.Keeps (lasting (putVersions ch die n o vs s)) := by
  simp [putVersions, h]

@[simp] theorem keeps_progPass {o die n s} (h : base.Keeps (lasting s)) : base.Keeps (lasting (progPass o die n s)) := by simp [progPass, h]
@[simp] theorem keeps_progFail {o die n s} (h : base.Keeps (lasting s)) : base.Keeps (lasting (progFail o die n s)) := by simp [progFail, h]

@[simp] theorem keeps_programDone {id die pass s} (h : base.Keeps (lasting s)) : base.Keeps (lasting (programDone id die pass s)) := by
  unfold programDone
  dsimp only
  repeat' split
  all_goals simp [h]

@[simp] theorem keeps_levelDone {ch die n s} (h : base.Keeps (lasting s)) : base.Keeps (lasting (levelDone ch die n s)) := by
  unfold levelDone
  split
  · rw [lasting_updDie, lasting_mk]
    exact keeps_supers h (mapWf_mapKeyed _)
  · exact h

@[simp] theorem keeps_eraseDone {ch die n pass s} (h : base.Keeps (lasting s)) : base.Keeps (lasting (eraseDone ch die n pass s)) := by
  unfold eraseDone
  split
  · refine keeps_flashGo (keeps_levelDone ?_)
    split
    · simp [h]
    · exact keeps_updSuper (keeps_retireBlock (by simp [h]))
  · exact h

@[simp] theorem keeps_verifyDone {src dst merged r s} (h : base.Keeps (lasting s)) : base.Keeps (lasting (verifyDone src dst merged r s)) := by
  unfold verifyDone
  dsimp only
  split <;> simp [h]

@[simp] theorem keeps_deliverRead {x r s} (h : base.Keeps (lasting s)) : base.Keeps (lasting (deliverRead x r s)) := by
  unfold deliverRead
  split <;> simp [h]

@[simp] theorem keeps_readDone {id r s} (h : base.Keeps (lasting s)) : base.Keeps (lasting (readDone id r s)) := by
  unfold readDone
  split <;> simp [h]

@[simp] theorem keeps_foldDie {ch die s} (h : base.Keeps (lasting s)) : base.Keeps (lasting (foldDie ch die s)) := by simp [foldDie, h]
@[simp] theorem keeps_mergeStep {lga s} (h : base.Keeps (lasting s)) : base.Keeps (lasting (mergeStep lga s)) := by simp [mergeStep, h]

@[simp] theorem keeps_collect {ch die s} (h : base.Keeps (lasting s)) : base.Keeps (lasting (collect ch die s)) := by
  unfold collect
  split
  · exact h
  · split <;> simp [h]

@[simp] theorem keeps_levelWear {ch die s} (h : base.Keeps (lasting s)) : base.Keeps (lasting (levelWear ch die s)) := by
  unfold levelWear
  split <;> simp [h]

@[simp] theorem keeps_refreshSuper {ch die n cause s} (h : base.Keeps (lasting s)) : base.Keeps (lasting (refreshSuper ch die n cause s)) := by
  simp [refreshSuper, h]

@[simp] theorem keeps_patrol {ch die n errorsHigh soft s} (h : base.Keeps (lasting s)) :
    base.Keeps (lasting (patrol ch die n errorsHigh soft s)) := by
  unfold patrol
  split
  · exact h
  · dsimp only
    generalize e : (if soft then _ else _) = t
    have ht : base.Keeps (lasting t) := by
      subst e
      split <;> simp [h]
    split <;> simp [ht]

@[simp] theorem keeps_rawReadCmd {c s} (h : base.Keeps (lasting s)) : base.Keeps (lasting (rawReadCmd c s)) := by
  unfold rawReadCmd
  dsimp only
  repeat' split
  all_goals simp [h]

/-! #### The scheduler within a frame -/

@[simp] theorem keeps_wiped {n s} (h : base.Keeps (lasting s)) : base.Keeps (lasting (wiped n s)) := by
  unfold wiped
  dsimp only
  repeat' split
  all_goals simp [h]

/-! #### Sleep and power -/

@[simp] theorem keeps_saveHealth {s} (h : base.Keeps (lasting s)) : base.Keeps (lasting (saveHealth s)) := by simp [saveHealth, h]

theorem keeps_putSystem {kind lga s l p t} (e : putSystem kind lga s = some (l, p, t)) (h : base.Keeps (lasting s)) : base.Keeps (lasting t) := by
  obtain ⟨q, -, e⟩ := Option.map_eq_some_iff.mp e
  cases e
  simp [h]

@[simp] theorem keeps_putCkpt {s} (h : base.Keeps (lasting s)) : base.Keeps (lasting (putCkpt s)) := by
  unfold putCkpt
  split
  · exact h
  · rename_i e
    obtain ⟨⟨l, p, t⟩, e₁, e₂⟩ := Option.bind_eq_some_iff.mp e
    simp [keeps_putSystem e₂ (keeps_putSystem e₁ h)]

@[simp] theorem keeps_writeCheckpoint {s} (h : base.Keeps (lasting s)) : base.Keeps (lasting (writeCheckpoint s)) := by simp [writeCheckpoint, h]

@[simp] theorem keeps_reachS3 {s} (h : base.Keeps (lasting s)) : base.Keeps (lasting (reachS3 s)) := by
  unfold reachS3
  split
  · simp [resetWatchdog, h]
  · exact h

/-! #### The embedded-flash controller, the watchdog and the scrub engines -/

@[simp] theorem keeps_landWord {s} (h : base.Keeps (lasting s)) : base.Keeps (lasting (landWord s)) := by simp [landWord, h]
@[simp] theorem keeps_failWord {s} (h : base.Keeps (lasting s)) : base.Keeps (lasting (failWord s)) := by simp [failWord, h]
@[simp] theorem keeps_opDone {fail s} (h : base.Keeps (lasting s)) : base.Keeps (lasting (opDone fail s)) := by simp [opDone, h]
@[simp] theorem keeps_tornSector {s} (h : base.Keeps (lasting s)) : base.Keeps (lasting (tornSector s)) := by simp [tornSector, h]
@[simp] theorem keeps_settleArray {s} (h : base.Keeps (lasting s)) : base.Keeps (lasting (settleArray s)) := by simp [settleArray, h]

@[simp] theorem keeps_efCorrected {m w s} (h : base.Keeps (lasting s)) : base.Keeps (lasting (efCorrected m w s)) := by
  unfold efCorrected
  split <;> simp [h]

@[simp] theorem keeps_readEfWord {otp w s} (h : base.Keeps (lasting s)) : base.Keeps (lasting (readEfWord otp w s)) := by
  unfold readEfWord
  split <;> simp [h]

@[simp] theorem keeps_spRead {a n s} (h : base.Keeps (lasting s)) : base.Keeps (lasting (spRead a n s).1) := by
  unfold spRead
  split <;> simp [h]

@[simp] theorem keeps_spAccess {sp x s} (h : base.Keeps (lasting s)) : base.Keeps (lasting (spAccess sp x s).1) := by
  unfold spAccess
  split
  · exact h
  · split
    · simp [h]
    · simp [h]
    · split
      · exact keeps_ctrl h (fun g => cellsWf_cellsWrite g _ _)
      · simp [h]

@[simp] theorem keeps_scrubFix {g m w overtaken s} (h : base.Keeps (lasting s)) : base.Keeps (lasting (scrubFix g m w overtaken s)) := by
  simp [scrubFix, h]

@[simp] theorem keeps_scrubWord {g m w overtaken s} (h : base.Keeps (lasting s)) : base.Keeps (lasting (scrubWord g m w overtaken s)) := by
  unfold scrubWord
  split <;> simp [h]

/-! #### Resets and start-up -/

@[simp] theorem keeps_saveErrors {s} (h : base.Keeps (lasting s)) : base.Keeps (lasting (saveErrors s)) := by simp [saveErrors, h]

@[simp] theorem keeps_intentSteps {i s} (h : base.Keeps (lasting s)) : base.Keeps (lasting (intentSteps i s)) := by
  unfold intentSteps
  extract_lets s₁ s₂ s₃ s₄ s₅ s₆ s₇
  have h₁ : base.Keeps (lasting s₁) := by simp [s₁, h]
  have h₂ : base.Keeps (lasting s₂) := by
    cases e : i.owner <;> simp [s₂, e, h₁]
  have h₃ : base.Keeps (lasting s₃) := by simp [s₃, h₂]
  have h₄ : base.Keeps (lasting s₄) := by simp [s₄, h₃]
  have h₅ : base.Keeps (lasting s₅) := by simp [s₅, h₄]
  have h₆ : base.Keeps (lasting s₆) := by simp [s₆, h₅]
  have h₇ : base.Keeps (lasting s₇) := by simp [s₇, h₆]
  simp [h₇]

@[simp] theorem keeps_wipeVolatile {s} (h : base.Keeps (lasting s)) : base.Keeps (lasting (wipeVolatile s)) := by
  have g : base.Keeps (lasting (closeAllEasels (settleArray s))) := by simp [h]
  exact g.trans ⟨rfl, rfl, rfl, fun ⟨_, hw, ho, hs⟩ => ⟨rfl, hw, ho, mapWf_resetFlash hs⟩⟩

@[simp] theorem keeps_resetWith {cause s} (h : base.Keeps (lasting s)) : base.Keeps (lasting (resetWith cause s)) := by simp [resetWith, h]
@[simp] theorem keeps_powerUp {s} (h : base.Keeps (lasting s)) : base.Keeps (lasting (powerUp s)) := by simp [powerUp, h]
@[simp] theorem keeps_standbyGone {s} (h : base.Keeps (lasting s)) : base.Keeps (lasting (standbyGone s)) := by simp [standbyGone, h]
@[simp] theorem keeps_loseMain {s} (h : base.Keeps (lasting s)) : base.Keeps (lasting (loseMain s)) := by simp [loseMain, h]
@[simp] theorem keeps_perstPin {v s} (h : base.Keeps (lasting s)) : base.Keeps (lasting (perstPin v s)) := by simp [perstPin, h]
@[simp] theorem keeps_wdtReset {s} (h : base.Keeps (lasting s)) : base.Keeps (lasting (wdtReset s)) := by simp [wdtReset, h]

@[simp] theorem keeps_resumeIntent {s} (h : base.Keeps (lasting s)) : base.Keeps (lasting (resumeIntent s)) := by
  unfold resumeIntent
  split <;> simp [h]

@[simp] theorem keeps_eraseArray {s} (h : base.Keeps (lasting s)) : base.Keeps (lasting (eraseArray s)) := by
  unfold eraseArray
  split
  · exact keeps_words h (fun _ => rfl)
  · exact h

@[simp] theorem keeps_selfTest {s f} (h : base.Keeps (lasting s)) : base.Keeps (lasting (selfTest s f)) := by simp [selfTest, h]
@[simp] theorem keeps_selfTests {rows s} (h : base.Keeps (lasting s)) : base.Keeps (lasting (selfTests rows s)) := by simp [selfTests, h]
@[simp] theorem keeps_makeKeys {s} (h : base.Keeps (lasting s)) : base.Keeps (lasting (makeKeys s)) := by simp [makeKeys, h]
@[simp] theorem keeps_startImage {slot s} (h : base.Keeps (lasting s)) : base.Keeps (lasting (startImage slot s)) := by simp [startImage, h]

@[simp] theorem keeps_startWith {r s} (h : base.Keeps (lasting s)) : base.Keeps (lasting (startWith r s)) := by
  unfold startWith
  dsimp only
  generalize e : makeKeys _ = t
  have ht : base.Keeps (lasting t) := by
    rw [← e]
    refine keeps_makeKeys ?_
    rw [lasting_loadRecords]
    refine keeps_eraseArray (keeps_resumeIntent ?_)
    rw [lasting_loadRecords]
    exact keeps_ctrl h (fun _ => rfl)
  split
  · simp [ht]
  · repeat' split
    all_goals simp [ht]

@[simp] theorem keeps_applyRevoke {slot s} (h : base.Keeps (lasting s)) : base.Keeps (lasting (applyRevoke slot s)) := by simp [applyRevoke, h]
@[simp] theorem keeps_applySvn {slot s} (h : base.Keeps (lasting s)) : base.Keeps (lasting (applySvn slot s)) := by simp [applySvn, h]

@[simp] theorem keeps_applyRequests {s} (h : base.Keeps (lasting s)) : base.Keeps (lasting (applyRequests s)) := by
  unfold applyRequests
  split <;> simp [h]

@[simp] theorem keeps_reachReady {s} (h : base.Keeps (lasting s)) : base.Keeps (lasting (reachReady s)) := by simp [reachReady, h]
@[simp] theorem keeps_loseWordlines {ls s} (h : base.Keeps (lasting s)) : base.Keeps (lasting (loseWordlines ls s)) := by simp [loseWordlines, h]

@[simp] theorem keeps_loadCkpt {k s} (h : base.Keeps (lasting s)) : base.Keeps (lasting (loadCkpt k s)) :=
  keeps_supers h (mapWf_mapKeyed _)

@[simp] theorem keeps_mapDone {ms unreadable s} (h : base.Keeps (lasting s)) : base.Keeps (lasting (mapDone ms unreadable s)) := by
  unfold mapDone
  dsimp only
  repeat' split
  all_goals simp [h]

@[simp] theorem keeps_sanitiseDone {s} (h : base.Keeps (lasting s)) : base.Keeps (lasting (sanitiseDone s)) := by
  unfold sanitiseDone
  split
  · refine keeps_reachReady ?_
    rw [lasting_bump, lasting_mk]
    exact keeps_supers (keeps_cfgDrop h) (mapWf_mapVals _)
  · exact h

/-! #### The frame tick -/

@[simp] theorem keeps_saveMap {s} (h : base.Keeps (lasting s)) : base.Keeps (lasting (saveMap s)) := by simp [saveMap, h]

@[simp] theorem keeps_applyIntent {i s} (h : base.Keeps (lasting s)) : base.Keeps (lasting (applyIntent i s)) := by
  simp only [applyIntent, lasting_mk, lasting_eta]
  refine keeps_intentSteps (keeps_cfgPut (keeps_cfgDrop ?_))
  split <;> simp [h]

@[simp] theorem keeps_afterWin {s} (h : base.Keeps (lasting s)) : base.Keeps (lasting (afterWin s)) := by
  unfold afterWin
  dsimp only
  repeat' split
  all_goals simp [h]

@[simp] theorem keeps_updateCmd {s c} (h : base.Keeps (lasting s)) : base.Keeps (lasting (updateCmd s c)) := by simp [updateCmd, h]
@[simp] theorem keeps_tickWork {s} (h : base.Keeps (lasting s)) : base.Keeps (lasting (tickWork s)) := by simp [tickWork, h]

@[simp] theorem keeps_openFrame {x us s} (h : base.Keeps (lasting s)) : base.Keeps (lasting (openFrame x us s)) := by
  refine keeps_startPrograms ?_
  simp [h]

@[simp] theorem keeps_tick {x s} (h : base.Keeps (lasting s)) : base.Keeps (lasting (tick x s)) := by simp [tick, h]

end

/-! ### Every command -/

/-- Every command answers through the guard of its unit, and what it answers keeps `lasting`: by the lemma of the operation it runs, but for the
commands that first look at what they carry. -/
theorem exec_unitOp (i : Instr) (s : State) : ∃ t, exec i s = unitOp i.WellFormed t ∧ (lasting s).Keeps (lasting t) := by
  cases i
  case hostDmaError => exact ⟨_, rfl, by split <;> simp⟩
  case poisonedTlpReceived => exact ⟨_, rfl, by split <;> simp⟩
  case efSuspend => exact ⟨_, rfl, by split <;> simp⟩
  case lifecycle => exact ⟨_, rfl, by simp [lifecycleRow]⟩
  case ret =>
    refine ⟨_, rfl, ?_⟩
    rw [lasting_onIssue (fun s => ?_)]
    · exact .refl _
    · dsimp only
      split <;> simp
  case firmwareException sp x =>
    refine ⟨_, rfl, ?_⟩
    cases x.access with
    | none => simp
    | some a => by_cases hd : s.power.d1 = true <;> simp [hd]
  all_goals exact ⟨_, rfl, by simp⟩

/-- Settles O60: a command is `unitOp` of the check that its unit exists. -/
theorem everyCommandAnswers : Obligations.EveryCommandAnswers := by
  intro i s
  obtain ⟨t, ht, -⟩ := exec_unitOp i s
  rw [ht]
  exact ⟨fun h => ⟨t, unitOp_of h t⟩, fun h => unitOp_absent h t⟩

theorem exec_keeps {i : Instr} {s t : State} (h : exec i s = .next t) : (lasting s).Keeps (lasting t) := by
  obtain ⟨u, hu, keeps⟩ := exec_unitOp i s
  obtain ⟨-, rfl⟩ := unitOp_next.mp (hu.symm.trans h)
  exact keeps

/-- Settles O59: the front command runs on the queue's rest, and every command keeps `lasting`. -/
theorem everyStepKeepsTheModuleWhole : Obligations.EveryStepKeepsTheModuleWhole := by
  intro s t h
  unfold step at h
  split at h
  · next hq =>
    cases h
    simp [hq]
  · next c rest hq =>
    obtain ⟨hpending, hpart, huid, hcanonical⟩ := exec_keeps h
    exact ⟨hcanonical, huid, hpart, by rw [hq]; exact hpending⟩

end Sys2Proof.Machine
end

section
/-! SUPPORT. Proofs of the frame and timing statements (chapter 2): the frame counter's registers and the status ring (O29, O32). -/

namespace Sys2Proof.Machine
open Claims

/-! ### The frame counter's registers (R47) -/

@[simp] theorem goWrite_frame (v : Word32) (s : State) : (goWrite v s).frame = s.frame := by
  unfold goWrite
  split <;> rfl

@[simp] theorem write0114_frame (v : Nat) (s : State) : (write0114 v s).frame = s.frame := rfl

@[simp] theorem writeDword_frame (off v : Nat) (s : State) : (writeDword off v s).frame = s.frame := by
  unfold writeDword
  dsimp only
  repeat' split
  all_goals simp

@[simp] theorem bar0Write_frame (off n : Nat) (v : Word64) (s : State) : (bar0Write off n v s).frame = s.frame := by
  unfold bar0Write
  repeat' split
  all_goals simp

theorem bar0Read_frameHi (s : State) : bar0Read s 0x208 = s.frame.capture.toNat / 2 ^ 32 := by
  simp [bar0Read]

theorem execFrameLoRead_captures {s : State} (h : s.pcie.mse = true) : exec .frameLoRead s = .next { s with
    frame := { s.frame with capture := s.frame.counter }, host := { s.host with readData := BitVec.ofNat 64 (s.frame.counter.toNat % 2 ^ 32) } } := by
  simp [exec, execFrameLoRead, bar0On, h]

/-- Settles O29: the two reads capture, FRAME_HI reads the capture, and no path of a register write touches the frame unit. -/
theorem frameCounterReads : Obligations.FrameCounterReads := by
  refine ⟨fun s h => execFrameLoRead_captures h, fun s h => ?_, fun s h => ?_, bar0Read_frameHi, fun off n v s => ?_⟩
  · simp [exec, execFrameWideRead, bar0On, h]
  · exact ⟨_, execFrameLoRead_captures h, bar0Read_frameHi _⟩
  · refine ⟨_, rfl, ?_⟩
    split
    · exact bar0Write_frame off n v s
    · rfl

/-! ### The status ring's registers and its heartbeat -/

theorem bitOf_toNat {w : Nat} (v : BitVec w) (n : Nat) : bitOf v.toNat n = v.getLsbD n := by
  simp [bitOf, BitVec.getLsbD, Nat.testBit_eq_decide_div_mod_eq]

theorem leBytes_length (n v : Nat) : (leBytes n v).length = n := by
  induction n generalizing v with
  | zero => rfl
  | succ n ih => simp [leBytes, ih]

theorem recordBytes_length (phase : Bool) (r : Record) : (recordBytes phase r).length = 32 := by
  simp [recordBytes, leBytes_length, zeros]

theorem hostWrite_of_ne {bs : List Byte} (h : bs ≠ []) (a : Nat) (s : State) :
    hostWrite a bs s = { s with host := { s.host with hostOut := s.host.hostOut ++ [{ addr := a, data := bs }] } } := by
  simp [hostWrite, h]

/-- A record without result bytes is one write of 32 bytes to the next slot. -/
theorem putRecord_noResult {r : Record} (h : r.result = []) (s : State) :
    putRecord r s = { s with host := { s.host with
      hostOut := s.host.hostOut ++ [{ addr := ringBase s.host + 32 * ((s.host.tail + s.host.written) % ringSize s.host)
                                      data := recordBytes (if (s.host.tail + s.host.written) / ringSize s.host % 2 = 1 then !s.host.phase else s.host.phase) r }]
      written := s.host.written + 1, winRecs := s.host.winRecs + 1, winBytes := s.host.winBytes + 32 } } := by
  have hne (p : Bool) : recordBytes p r ≠ [] := by
    intro e
    simpa [e] using recordBytes_length p r
  simp [putRecord, h, resultBytes, hostWrite_of_ne (hne _)]

/-- TAIL passes the end of the ring at most once in a window. -/
theorem wraps_iff {i n : Nat} (h : i < 2 * n) : i / n % 2 = 1 ↔ n ≤ i := by
  by_cases hi : i < n
  · simp [Nat.div_eq_of_lt hi, hi]
  · have : i / n = 1 := Nat.div_eq_of_lt_le (by omega) (by omega)
    simp [this, Nat.le_of_not_lt hi]

theorem execStatusRingEnable_eq {s : State} (h : s.pcie.mse = true) (v : Word32) : exec (.statusRingEnable v) s = .next (write0114 v.toNat s) := by
  simp [exec, execStatusRingEnable, bar0On, h]

theorem execHbEnableWrite_eq {s : State} (h : s.pcie.mse = true) (v : Word32) : exec (.hbEnableWrite v) s = .next (write0114 v.toNat s) := by
  simp [exec, execHbEnableWrite, bar0On, h]

/-- The record a due heartbeat writes. -/
def heartbeatRecord (s : State) : Record :=
  eventRecord s 2 (devStateWord s) (s.frame.counter.toNat / 2 ^ 32) (outstanding s)

/-- A due heartbeat with room in the ring is written where nothing waits before it and the window has room, and held otherwise. -/
theorem heartbeat_due {s : State} (he : s.host.enable = true) (hb : s.host.hbEnable = true) (hd : s.host.hbInterval ≤ s.host.hbCount) :
    heartbeat s = if freeSlots s.host < 3 then { s with host := { s.host with hbCount := 0 } }
      else if ringOpen s && s.host.heldRecs.isEmpty && decide (s.host.winRecs < windowRecords s.pcie ∧ s.host.winBytes + 32 ≤ windowBytes s.pcie) then
        putRecord (heartbeatRecord s) { s with host := { s.host with hbCount := 0 } }
      else { s with host := { s.host with hbCount := 0, heldRecs := s.host.heldRecs ++ [{ heartbeatRecord s with deferred := true }] } } := by
  have hfit (r : Record) (hr : r.result = []) :
      (fitCount (windowRecords s.pcie - s.host.winRecs) (windowBytes s.pcie - s.host.winBytes) [r] = 1) ↔
        s.host.winRecs < windowRecords s.pcie ∧ s.host.winBytes + 32 ≤ windowBytes s.pcie := by
    simp [fitCount, resultBytes, hr]
    omega
  unfold heartbeat
  rw [if_pos (by simp [he, hb, hd])]
  simp only [hfit (eventRecord _ 2 _ _ _) rfl]
  rfl

/-- Settles O32: the write of 0x0114 field by field, the read-back's one wrap, and the three places a due heartbeat can go. -/
theorem statusRingRegistersAndHeartbeat : Obligations.StatusRingRegistersAndHeartbeat := by
  refine ⟨fun v s hm hv he => ⟨fun hlo hhi => ?_, fun hsize => ?_⟩, fun v s hm hv he hb hoff => ?_, fun s ht hw => ?_, fun s he hb hd => ⟨fun hf => ?_, fun hf ho hh hr hy => ?_, fun hf ho => ?_⟩⟩
  · refine ⟨_, execStatusRingEnable_eq hm v, rfl, ?_⟩
    simp [write0114, bitOf_toNat, hv, he, hlo, hhi]
  · refine ⟨_, execStatusRingEnable_eq hm v, rfl, ?_⟩
    simp [write0114, bitOf_toNat, hv, he]
    omega
  · refine ⟨_, execHbEnableWrite_eq hm v, rfl, ?_⟩
    simp [write0114, bitOf_toNat, hv, he, hb, hoff]
  · simp [exec, execStatusReadbackComplete, readBack, ringSize, wraps_iff (show s.host.tail + s.host.written < 2 * 2 ^ s.host.log2Size by omega)]
  · simp [exec, execHeartbeatDue, heartbeat_due he hb hd, hf]
  · have e : exec .heartbeatDue s = .next (putRecord (heartbeatRecord s) { s with host := { s.host with hbCount := 0 } }) := by
      simp [exec, execHeartbeatDue, heartbeat_due he hb hd, Nat.not_lt.mpr hf, ho, hh, hr, hy]
    rw [putRecord_noResult rfl] at e
    exact ⟨_, _, e, rfl, rfl, rfl, rfl, recordBytes_length _ _, rfl⟩
  · have e := heartbeat_due he hb hd
    rw [if_neg (Nat.not_lt.mpr hf), ho] at e
    exact ⟨_, _, congrArg Host.Outcome.next e, rfl, rfl, rfl⟩

end Sys2Proof.Machine
end

section
/-! SUPPORT. Proofs of the frame and timing statements (chapter 2): the parts of the state that the teardown of work leaves, and the tick source's choice. -/

namespace Sys2Proof.Machine
open Claims
structure Steady where
  pcie : Pcie
  arb : Arb
  frame : FrameUnit
  power : Power
  sec : Sec
  ef : Ef

def steady (s : State) : Steady := ⟨s.pcie, s.arb, s.frame, s.power, s.sec, s.ef⟩

@[simp] theorem steady_mk (pending nonce part uid pcie host arb frame power sec ctxs swaps phys objs inFlight flash scan ring red ef ctrl scrub
    hbmRest idle logs) : steady ⟨pending, nonce, part, uid, pcie, host, arb, frame, power, sec, ctxs, swaps, phys, objs, inFlight, flash, scan,
      ring, red, ef, ctrl, scrub, hbmRest, idle, logs⟩ = ⟨pcie, arb, frame, power, sec, ef⟩ := (rfl)

@[simp] theorem steady_eta (s : State) : (⟨s.pcie, s.arb, s.frame, s.power, s.sec, s.ef⟩ : Steady) = steady s := (rfl)

@[simp] theorem steady_ite (c : Prop) [Decidable c] (s t : State) : steady (if c then s else t) = if c then steady s else steady t :=
  apply_ite _ _ _ _

@[simp] theorem steady_foldl {α : Type} {f : State → α → State} (h : ∀ s a, steady (f s a) = steady s) (l : List α) (s : State) :
    steady (l.foldl f s) = steady s := by
  induction l generalizing s with
  | nil => rfl
  | cons a l ih => rw [List.foldl_cons, ih, h]

@[simp] theorem steady_updCmd {tag f s} : steady (updCmd tag f s) = steady s := by simp [updCmd]
@[simp] theorem steady_completeWith {tag st result s} : steady (completeWith tag st result s) = steady s := by unfold completeWith; split <;> simp
@[simp] theorem steady_complete {tag st s} : steady (complete tag st s) = steady s := by simp [complete]
@[simp] theorem steady_logEvent {source sev code ctx inst addr d0 d1 s} : steady (logEvent source sev code ctx inst addr d0 d1 s) = steady s := by
  simp [logEvent]
@[simp] theorem steady_setCtx {n c s} : steady (setCtx n c s) = steady s := by simp [setCtx]
@[simp] theorem steady_updCtx {n f s} : steady (updCtx n f s) = steady s := by simp [updCtx]
@[simp] theorem steady_countFor {n c s} : steady (countFor n c s) = steady s := by simp [countFor]
@[simp] theorem steady_setCore {r k s} : steady (setCore r k s) = steady s := by simp [setCore]
@[simp] theorem steady_updCore {r f s} : steady (updCore r f s) = steady s := by simp [updCore]
@[simp] theorem steady_updCluster {n lc f s} : steady (updCluster n lc f s) = steady s := by simp [updCluster]
@[simp] theorem steady_bump {s} : steady (bump s) = steady s := by simp [bump]
@[simp] theorem steady_t1Write {n lc a bs s} : steady (t1Write n lc a bs s) = steady s := by simp [t1Write]
@[simp] theorem steady_onClusters {n f s} (h : ∀ lc s, steady (f lc s) = steady s) : steady (onClusters n f s) = steady s :=
  steady_foldl (fun s lc => h lc s) _ _
@[simp] theorem steady_setFlag {n lc flag v s} : steady (setFlag n lc flag v s) = steady s := by simp [setFlag]
@[simp] theorem steady_updObj {id f s} : steady (updObj id f s) = steady s := by unfold updObj; split <;> simp
@[simp] theorem steady_updObjs {n f s} : steady (updObjs n f s) = steady s := by simp [updObjs]
@[simp] theorem steady_logWord {m req w s} : steady (logWord m req w s) = steady s := by simp [logWord]
@[simp] theorem steady_logWords {m req ws s} : steady (logWords m req ws s) = steady s := by simp [logWords]
/-- Only the embedded flash among the memories that meet raw errors belongs to `Steady`. -/
@[simp] theorem steady_meetBanks {c req ws s} : steady (meetPlain (.banks c) req ws s) = steady s := by simp [meetPlain, updRaw]
@[simp] theorem steady_meetT0 {req c a n s} : steady (meetT0 req c a n s) = steady s := by simp [meetT0]
@[simp] theorem steady_updPair {p f s} : steady (updPair p f s) = steady s := by simp [updPair]
@[simp] theorem steady_updPort {n f s} : steady (updPort n f s) = steady s := by simp [updPort]
@[simp] theorem steady_flushAt {n s} : steady (flushAt n s) = steady s := by simp [flushAt]
@[simp] theorem steady_sendRing {m s} : steady (sendRing m s) = steady s := by simp [sendRing]
@[simp] theorem steady_sendTo {p route u m s} : steady (sendTo p route u m s) = steady s := by unfold sendTo; split <;> simp
@[simp] theorem steady_sendConnect {p u m s} : steady (sendConnect p u m s) = steady s := by simp [sendConnect]
@[simp] theorem steady_breakConns {n s} : steady (breakConns n s) = steady s := by simp [breakConns]
@[simp] theorem steady_updTag {t f s} : steady (updTag t f s) = steady s := by simp [updTag]
@[simp] theorem steady_sendRed {t dests body s} : steady (sendRed t dests body s) = steady s := by simp [sendRed]
@[simp] theorem steady_endCtxTickets {n pick res s} : steady (endCtxTickets n pick res s) = steady s := by simp [endCtxTickets]
@[simp] theorem steady_logBucket {t cause s} : steady (logBucket t cause s) = steady s := by simp [logBucket]
@[simp] theorem steady_failTag {t cause s} : steady (failTag t cause s) = steady s := by simp [failTag]
@[simp] theorem steady_putStep {n st s} : steady (putStep n st s) = steady s := by simp [putStep]
@[simp] theorem steady_writeStep {n st f30 s} : steady (writeStep n st f30 s) = steady s := by simp [writeStep]
@[simp] theorem steady_abandonTag {t cause s} : steady (abandonTag t cause s) = steady s := by simp [abandonTag]
@[simp] theorem steady_voidStep {n cause st s} : steady (voidStep n cause st s) = steady s := by simp [voidStep]
@[simp] theorem steady_dropPrograms {pick s} : steady (dropPrograms pick s) = steady s := by simp [dropPrograms]
@[simp] theorem steady_dropReads {pick s} : steady (dropReads pick s) = steady s := by simp [dropReads]
@[simp] theorem steady_pruneFlight {s} : steady (pruneFlight s) = steady s := by simp [pruneFlight]
@[simp] theorem steady_dropPosts {n s} : steady (dropPosts n s) = steady s := by simp [dropPosts]
@[simp] theorem steady_sendStream {s c p d off body last t} : steady (sendStream s c p d off body last t) = steady t := by
  unfold sendStream
  split <;> simp
@[simp] theorem steady_landRows {c p d ls s} : steady (landRows c p d ls s) = steady s := by
  unfold landRows
  split
  · simp
  · simp
  · split <;> simp
@[simp] theorem steady_moveLines {c t p d ls last s} : steady (moveLines c t p d ls last s) = steady s := by simp [moveLines]
@[simp] theorem steady_pauseTransfer {c t s} : steady (pauseTransfer c t s) = steady s := by unfold pauseTransfer; split <;> simp
@[simp] theorem steady_pauseCore {c s} : steady (pauseCore c s) = steady s := by simp [pauseCore]
@[simp] theorem steady_pauseCtx {n s} : steady (pauseCtx n s) = steady s := by simp [pauseCtx]
@[simp] theorem steady_leaveSlice {n s} : steady (leaveSlice n s) = steady s := by simp [leaveSlice]
@[simp] theorem steady_dropQueries {pick s} : steady (dropQueries pick s) = steady s := by simp [dropQueries]
@[simp] theorem steady_dropScratch {n s} : steady (dropScratch n s) = steady s := by simp [dropScratch]
@[simp] theorem steady_faultCmd {cause r1 c s} : steady (faultCmd cause r1 c s) = steady s := by simp [faultCmd]
@[simp] theorem steady_contextFault {n cause r1 s} : steady (contextFault n cause r1 s) = steady s := by simp [contextFault]
@[simp] theorem steady_coreFault {r cause addr s} : steady (coreFault r cause addr s) = steady s := by simp [coreFault]
@[simp] theorem steady_meetOp {r o s} : steady (meetOp r o s) = steady s := by simp [meetOp]
@[simp] theorem steady_landOp {s r o} : steady (landOp s r o) = steady s := by simp [landOp]
@[simp] theorem steady_landArray {r residueFail s} : steady (landArray r residueFail s) = steady s := by
  unfold landArray
  split
  · rfl
  · split
    · simp
    · dsimp only
      split <;> simp
@[simp] theorem steady_endRun {n s} : steady (endRun n s) = steady s := by simp [endRun]
@[simp] theorem steady_voidRunWith {n cause x st s} : steady (voidRunWith n cause x st s) = steady s := by
  unfold voidRunWith
  dsimp only
  split <;> simp
@[simp] theorem steady_voidRun {n cause x s} : steady (voidRun n cause x s) = steady s := steady_voidRunWith
@[simp] theorem steady_redFail {t cause s} : steady (redFail t cause s) = steady s := by simp [redFail]
@[simp] theorem steady_settleCtx {n s} : steady (settleCtx n s) = steady s := by simp [settleCtx]
@[simp] theorem steady_breakStreams {p pick s} : steady (breakStreams p pick s) = steady s := by simp [breakStreams]
@[simp] theorem steady_losePeers {p s} : steady (losePeers p s) = steady s := by simp [losePeers]
@[simp] theorem steady_discoverBy {p dn uid pri s} : steady (discoverBy p dn uid pri s) = steady s := by simp [discoverBy]
@[simp] theorem steady_sendDiscover {p s} : steady (sendDiscover p s) = steady s := by simp [sendDiscover]
@[simp] theorem steady_leaveUp {p s} : steady (leaveUp p s) = steady s := by simp [leaveUp]

/-! ### What a reset leaves (R46, R471, R490) -/

@[simp] theorem power_of_steady {s t : State} (h : steady s = steady t) : s.power = t.power := congrArg Steady.power h

/-- The choice of a tick source leaves everything but the frame unit. -/
theorem steady_chooseSource (s : State) : steady (chooseSource s) = { steady s with frame := (chooseSource s).frame } := by
  unfold chooseSource
  repeat' split
  all_goals rfl

@[simp] theorem counter_chooseSource (s : State) : (chooseSource s).frame.counter = s.frame.counter := by
  unfold chooseSource
  repeat' split
  all_goals rfl

/-- What the parts of `Steady` are after the easels have closed: all as before, the tick source of the frame unit apart. -/
def SteadyButSource (s t : State) : Prop := steady t = { steady s with frame := t.frame } ∧ t.frame.counter = s.frame.counter

theorem SteadyButSource.refl (s : State) : SteadyButSource s s := ⟨rfl, rfl⟩

theorem SteadyButSource.trans {s t u : State} (h : SteadyButSource s t) (g : SteadyButSource t u) : SteadyButSource s u :=
  ⟨by rw [g.1, h.1], g.2.trans h.2⟩

theorem SteadyButSource.of_eq {s t : State} (h : steady t = steady s) : SteadyButSource s t :=
  have hf : t.frame = s.frame := congrArg Steady.frame h
  ⟨by rw [h, hf]; rfl, by rw [hf]⟩

theorem steadyButSource_chooseSource (s : State) : SteadyButSource s (chooseSource s) := ⟨steady_chooseSource s, counter_chooseSource s⟩

theorem steadyButSource_masterRings (v : BitVec 16) (s : State) : SteadyButSource s { s with frame := { s.frame with masterRings := v } } := ⟨rfl, rfl⟩

theorem steadyButSource_leaveRing (p : Nat) (s : State) : SteadyButSource s (leaveRing p s) := by
  have hleave : SteadyButSource s (leaveUp p s) := .of_eq steady_leaveUp
  have hpair (f : Pair → Pair) (t : State) : SteadyButSource t (updPair p f t) := .of_eq steady_updPair
  have hlose (t : State) : SteadyButSource t (losePeers p t) := .of_eq steady_losePeers
  exact (((hleave.trans (hpair _ _)).trans (steadyButSource_masterRings _ _)).trans (steadyButSource_chooseSource _)).trans (hlose _)

theorem steadyButSource_closeEasel (p : Nat) (st : PairState) (s : State) : SteadyButSource s (closeEasel p st s) :=
  (SteadyButSource.of_eq steady_updPair).trans (steadyButSource_leaveRing p _)

theorem steadyButSource_closeAllEasels (s : State) : SteadyButSource s (closeAllEasels s) := by
  unfold closeAllEasels
  generalize List.range (portPairs s) = l
  induction l generalizing s with
  | nil => exact .refl s
  | cons p l ih => exact (steadyButSource_closeEasel p .down s).trans (ih _)

end Sys2Proof.Machine
end

section
/-! SUPPORT. Proofs of the frame and timing statements (chapter 2): resets and standby power (O18, O19). -/

namespace Sys2Proof.Machine
open Claims

/-- Of the embedded-flash block the settling of the array changes words only, and outside it at most the counter of free values. -/
def OnlyArraySettles (s t : State) : Prop :=
  t = { s with ef := t.ef, nonce := t.nonce } ∧ t.ef.expired = s.ef.expired ∧ t.ef.missing = s.ef.missing

theorem OnlyArraySettles.refl (s : State) : OnlyArraySettles s s := ⟨rfl, rfl, rfl⟩

theorem OnlyArraySettles.trans {s t u : State} (h : OnlyArraySettles s t) (g : OnlyArraySettles t u) : OnlyArraySettles s u := by
  obtain ⟨ht, he, hm⟩ := h
  obtain ⟨hu, ge, gm⟩ := g
  exact ⟨by rw [hu, ht], ge.trans he, gm.trans hm⟩

theorem OnlyArraySettles.foldl {α : Type} {f : State → α → State} (h : ∀ s a, OnlyArraySettles s (f s a)) (l : List α) (s : State) :
    OnlyArraySettles s (l.foldl f s) := by
  induction l generalizing s with
  | nil => exact .refl s
  | cons a l ih => exact (h s a).trans (ih _)

theorem onlyArraySettles_landWord (s : State) : OnlyArraySettles s (landWord s) := by
  unfold landWord
  repeat' split
  all_goals exact ⟨rfl, rfl, rfl⟩

theorem onlyArraySettles_tornSector (s : State) : OnlyArraySettles s (tornSector s) := by
  refine .trans (.foldl (fun t w => ?_) _ _) ⟨rfl, rfl, rfl⟩
  dsimp only
  split <;> exact ⟨rfl, rfl, rfl⟩

theorem onlyArraySettles_settleArray (s : State) : OnlyArraySettles s (settleArray s) := by
  have hland : OnlyArraySettles s (if s.ef.busy && s.ef.activeOp != 2 then landWord s else s) := by
    split
    · exact onlyArraySettles_landWord s
    · exact .refl s
  unfold settleArray
  dsimp only
  split
  · exact hland.trans (onlyArraySettles_tornSector _)
  · exact hland

/-- The state from which `wipeVolatile` takes what outlasts a reset. -/
theorem steady_settled (s : State) : ∃ e, e.expired = s.ef.expired ∧ e.missing = s.ef.missing ∧
    SteadyButSource { s with ef := e } (closeAllEasels (settleArray s)) := by
  obtain ⟨ht, he, hm⟩ := onlyArraySettles_settleArray s
  refine ⟨(settleArray s).ef, he, hm, ?_⟩
  refine .trans (.of_eq ?_) (steadyButSource_closeAllEasels _)
  rw [ht]
  rfl

theorem wipeVolatile_power (s : State) :
    (wipeVolatile s).power = { resetPower s.power with lastKnown := mgmtShown (closeAllEasels (settleArray s)) } := by
  obtain ⟨e, -, -, hs, -⟩ := steady_settled s
  have hp : (closeAllEasels (settleArray s)).power = s.power := congrArg Steady.power hs
  simp only [wipeVolatile, hp]

theorem wipeVolatile_sec (s : State) : (wipeVolatile s).sec = { s.sec with intent := none, identity := false } := by
  obtain ⟨e, -, -, hs, -⟩ := steady_settled s
  have hp : (closeAllEasels (settleArray s)).sec = s.sec := congrArg Steady.sec hs
  simp only [wipeVolatile, hp]

theorem wipeVolatile_frame (s : State) : (wipeVolatile s).frame = { counter := s.frame.counter } := by
  obtain ⟨e, -, -, -, hc⟩ := steady_settled s
  simp only [wipeVolatile, hc]

theorem wipeVolatile_ef (s : State) : (wipeVolatile s).ef.expired = s.ef.expired ∧ (wipeVolatile s).ef.missing = s.ef.missing := by
  obtain ⟨e, he, hm, hs, -⟩ := steady_settled s
  have hp : (closeAllEasels (settleArray s)).ef = e := congrArg Steady.ef hs
  simp only [wipeVolatile, resetEf, hp, he, hm, and_self]

/-- What every entry of a map satisfies, and the default with them, every key reads. -/
theorem mapGet_of_forall {α : Type} {P : α → Prop} {d : α} (hd : P d) {m : SMap α} (h : ∀ p ∈ m, P p.2) (k : Nat) : P (mapGet d m k) := by
  unfold mapGet
  induction m with
  | nil => exact hd
  | cons p m ih =>
    obtain ⟨hp, hm⟩ := List.forall_mem_cons.mp h
    unfold mapFind
    split
    · exact hp
    · exact ih hm

/-- No context keeps a run, a program, a core or a cluster over a reset (R471). -/
theorem ctxOf_wipeVolatile (s : State) (n : Nat) : (ctxOf (wipeVolatile s) n).run = none ∧ (ctxOf (wipeVolatile s) n).prog = none ∧
    (ctxOf (wipeVolatile s) n).cores = [] ∧ (ctxOf (wipeVolatile s) n).clusters = [] := by
  have hreset (c : Context) : (resetCtx c).run = none ∧ (resetCtx c).prog = none ∧ (resetCtx c).cores = [] ∧ (resetCtx c).clusters = [] := by
    unfold resetCtx
    split <;> exact ⟨rfl, rfl, rfl, rfl⟩
  refine mapGet_of_forall (P := fun c : Context => c.run = none ∧ c.prog = none ∧ c.cores = [] ∧ c.clusters = []) ⟨rfl, rfl, rfl, rfl⟩ (fun p hp => ?_) n
  obtain ⟨q, -, rfl⟩ := List.mem_map.mp (List.mem_filter.mp hp).1
  exact hreset q.2

/-- A reset leaves the reset state with its cause. -/
theorem resetLeaves_resetWith (cause : Nat) (s : State) : ResetLeaves cause s (resetWith cause s) := by
  obtain ⟨hpending, hpart, huid, -⟩ := keeps_resetWith (cause := cause) (Lasting.Keeps.refl (lasting s))
  refine ⟨rfl, rfl, rfl, rfl, rfl, rfl, rfl, rfl, rfl, rfl, rfl, rfl, rfl, rfl, rfl, ctxOf_wipeVolatile _, rfl, ?_, wipeVolatile_frame _, ?_, ?_, hpart, huid,
    hpending⟩
  · simp only [resetWith, drawChallenge, restoreHealth, wipeVolatile_power]
    rfl
  · simp [resetWith, drawChallenge]
  · simp only [resetWith, drawChallenge, restoreHealth, wipeVolatile_sec]

/-- It speaks of no more of the power control than the cause and the count. -/
theorem resetLeaves_withPower {cause : Nat} {s t : State} (h : ResetLeaves cause s t) {p : Power} (hc : p.resetCause = t.power.resetCause)
    (hr : p.resets = t.power.resets) : ResetLeaves cause s { t with power := p } := by
  unfold ResetLeaves at *
  dsimp only
  rw [hc, hr]
  exact h

theorem mainDomainsOff_loseMain {s : State} (hs : s.power.standby = true) (hd : s.power.d1 = true) :
    ResetLeaves 1 s (loseMain s) ∧ MainDomainsOff (loseMain s) := by
  have e : loseMain s = domainsOff (resetWith 1 s) := by simp [loseMain, hs, hd]
  rw [e]
  exact ⟨resetLeaves_withPower (resetLeaves_resetWith 1 s) rfl rfl, rfl, rfl, rfl, rfl, rfl, rfl⟩

theorem resetWith_expired (cause : Nat) (s : State) : (resetWith cause s).ef.expired = decide (cause = 5) := by
  simp only [resetWith, drawChallenge, restoreHealth, (wipeVolatile_ef _).1]

theorem resetWith_missing (cause : Nat) (s : State) : (resetWith cause s).ef.missing = s.ef.missing := by
  simp only [resetWith, drawChallenge, restoreHealth, (wipeVolatile_ef _).2]

/-- Settles O18: every source runs `resetWith` with its cause; what each adds lies in the power control or in the watchdog's record. -/
theorem resetSourcesLeaveTheResetState : Obligations.ResetSourcesLeaveTheResetState := by
  refine ⟨fun s hs hd => ?_, fun s hs h3 hp => ?_, fun s hs h3 hp => ?_, fun s hd hp => ?_, fun s hd hw => ?_⟩
  · obtain ⟨hreset, hoff⟩ := mainDomainsOff_loseMain hs hd
    refine ⟨⟨_, congrArg Host.Outcome.next (if_pos hd), resetLeaves_withPower hreset rfl rfl, hoff, rfl⟩,
      ⟨_, rfl, resetLeaves_withPower hreset rfl rfl, hoff, rfl⟩⟩
  · refine ⟨_, ?_, resetLeaves_withPower (resetLeaves_resetWith 2 s) (p := { (resetWith 2 s).power with perst := true }) rfl rfl, rfl⟩
    simp [exec, execPerst, perstPin, hs, h3, hp]
  · refine ⟨_, ?_, resetLeaves_withPower (resetLeaves_resetWith 8 s) (p := { (resetWith 8 s).power with perst := false }) rfl rfl, rfl, ?_⟩
    · simp [exec, execPerst, perstPin, hs, h3, hp]
    · simp only [resetWith, drawChallenge, restoreHealth, wipeVolatile_power]
      rfl
  · have hl : linkThere s = true := by simp [linkThere, hd, hp]
    exact ⟨⟨_, congrArg Host.Outcome.next (if_pos hl), resetLeaves_resetWith 3 s⟩,
      ⟨_, congrArg Host.Outcome.next (if_pos hl), resetLeaves_resetWith 4 s⟩⟩
  · refine ⟨_, ?_, resetLeaves_resetWith 5 { s with ef := { s.ef with missing := ~~~s.ef.kicked, efOp := s.ef.busy || s.ef.suspended } },
      resetWith_expired _ _, resetWith_missing _ _⟩
    simp [exec, execWdtExpiry, wdtReset, hd, hw]

/-- Settles O19: standby power starts and ends with the volatile state wiped and the main domains off. -/
theorem standbyPowerComesAndGoes : Obligations.StandbyPowerComesAndGoes := by
  refine ⟨fun s => ⟨_, rfl, rfl, rfl, rfl, rfl, rfl, rfl, rfl, ⟨rfl, rfl, rfl, rfl, rfl, rfl⟩, ?_⟩,
    fun s => ⟨_, rfl, rfl, rfl, rfl, rfl, rfl, rfl, rfl, rfl, rfl⟩, fun s => rfl⟩
  exact (keeps_powerUp (Lasting.Keeps.refl (lasting s))).uid

end Sys2Proof.Machine
end

section
/-! SUPPORT. Proofs of the frame and timing statements (chapter 2): the ports of a pair and the ticks of a ring (O53). -/

namespace Sys2Proof.Machine
open Claims

/-! ### The two ports of a pair -/

theorem portOf_updPort_self (n : Nat) (f : Port → Port) (s : State) : portOf (updPort n f s) n = f (portOf s n) := by
  by_cases hn : n % 2 = 0 <;> simp [portOf, updPort, hn]

theorem portOf_updPort_ne {m n : Nat} (h : m ≠ n) (f : Port → Port) (s : State) : portOf (updPort n f s) m = portOf s m := by
  by_cases hp : m / 2 = n / 2
  · have hpar : (m % 2 = 0) = ¬ n % 2 = 0 := by rw [eq_iff_iff]; omega
    by_cases hn : n % 2 = 0 <;> simp [portOf, updPort, hp, hpar, hn]
  · simp [portOf, updPort, hp]

theorem pairOf_updPort_ne {q n : Nat} (h : q ≠ portPair n) (f : Port → Port) (s : State) : pairOf (updPort n f s) q = pairOf s q :=
  pairOf_updPair_ne h _ _

/-- A flit that carries no number goes out as it is, but for the ACK, NAK and credits that are due. -/
theorem putFlit_unnumbered {f : Flit} (h : unnumbered f = true) (p : Port) :
    ∃ g, (putFlit f p).out = p.out ++ [g] ∧ g.typ = f.typ ∧ g.payload = f.payload ∧ g.ack = BitVec.ofNat 8 p.rxSeq ∧ g.nak = p.nakDue := by
  simp only [putFlit, h, if_true]
  exact ⟨_, rfl, rfl, rfl, rfl, rfl⟩

@[simp] theorem portOf_bump (s : State) (m : Nat) : portOf (bump s) m = portOf s m := rfl

/-! ### Ticks (R44 to R46, R359) -/

theorem execTickReceived_eq {pair : Nat} (h : pair < 16) (p : TickPayload) (s : State) :
    exec (.tickReceived pair p) s = .next (tickIn pair p s) := unitOp_of (by simpa [wfPair] using h) _

theorem tickIn_own {pair : Nat} {p : TickPayload} {s : State} (h : p.masterUid = s.uid) : tickIn pair p s = s := by
  simp [tickIn, h]

/-- The first tick of a ring that the module is to follow is forwarded, then taken. -/
theorem tickIn_next {pair : Nat} {p : TickPayload} {s : State} (hu : p.masterUid ≠ s.uid)
    (hup : (portOf s (if p.viaDn then 2 * pair else 2 * pair + 1)).up = true) (hn : s.frame.sourceNext = some pair) (hl : s.frame.lastTick = none) :
    tickIn pair p s = lockTick p pair (forwardTick pair p s) := by
  have hport : (if p.viaDn then (pairOf s pair).dn.up else (pairOf s pair).up.up) = true := by
    have h1 : (2 * pair + 1) / 2 = pair := by omega
    cases hv : p.viaDn <;> simpa [hv, portOf, h1] using hup
  have hf : (forwardTick pair p s).frame = s.frame := rfl
  simp [tickIn, hport, hu, hf, hn, betterTick, hl]

theorem forwardTick_eq (pair : Nat) (p : TickPayload) (s : State) :
    forwardTick pair p s = { s with ring := { s.ring with pairs := (forwardTick pair p s).ring.pairs }, nonce := s.nonce + 1 } := rfl

theorem portSends_forwardTick {pair : Nat} {p : TickPayload} {s : State} (hup : (portOf s (sidePort pair (!p.viaDn))).up = true) :
    ∃ g acc, PortSends (sidePort pair (!p.viaDn)) [g] s (forwardTick pair p s) ∧ g.typ = 2 ∧ p.accDelayNs ≤ acc ∧
      g.payload = tickBytes p.frame.toNat p.periodUs p.nextUs p.ring (p.hops + 1) p.masterUid acc := by
  set acc := p.accDelayNs + (if p.viaDn then (pairOf s pair).hopDn else (pairOf s pair).hopUp) + (Config.free64 s.nonce).toNat % 2 ^ 16 with hacc
  obtain ⟨g, hout, htyp, hpay, -⟩ := putFlit_unnumbered (f := tickFlit (tickBytes p.frame.toNat p.periodUs p.nextUs p.ring (p.hops + 1) p.masterUid acc)) rfl
    (portOf s (sidePort pair (!p.viaDn)))
  refine ⟨g, acc, ?_, htyp, by omega, hpay⟩
  have hport := portOf_updPort_self (sidePort pair (!p.viaDn))
    (fun x => if x.up then putFlit (tickFlit (tickBytes p.frame.toNat p.periodUs p.nextUs p.ring (p.hops + 1) p.masterUid acc)) x else x) s
  rw [if_pos hup] at hport
  exact (congrArg Port.out hport).trans hout

theorem portOf_forwardTick_down {pair : Nat} {p : TickPayload} {s : State} (hup : (portOf s (sidePort pair (!p.viaDn))).up = false) (m : Nat) :
    portOf (forwardTick pair p s) m = portOf s m := by
  rw [forwardTick, portOf_bump, sendNow]
  by_cases hm : m = sidePort pair (!p.viaDn)
  · rw [hm, portOf_updPort_self, if_neg (by simp [hup])]
  · exact portOf_updPort_ne hm _ _

theorem sat16_toInt {i : Int} (hl : -32767 ≤ i) (hh : i ≤ 32767) : (sat16 i).toInt = i := by
  rw [sat16, min_eq_right hh, max_eq_right hl, BitVec.toInt_ofInt]
  exact Int.bmod_eq_of_le (by omega) (by omega)

/-- With no source followed yet, the offset is that of the tick's frame to the counter, and the frame its marker opens is the present one. -/
theorem lockTick_frame {s : State} (hv : s.frame.sourceValid = false) (p : TickPayload) (pair : Nat) (n : Word64)
    (hn : n = if s.frame.wasReady = false ∧ s.frame.everLocked = false then p.frame else s.frame.counter) :
    (lockTick p pair s).frame = { s.frame with
      counter := n, sourceOff := n - p.frame, sourceRing := pair, sourceValid := true, sourceNext := none, everLocked := true, missed := 0
      effPeriod := p.periodUs, announced := p.nextUs, known := [(n.toNat + 1, p.nextUs)], lastTick := some (p.frame, p.hops, p.viaDn)
      lockErr := sat16 p.errNs
      locked := decide (p.errNs.natAbs ≤ 2000) || !s.frame.wasReady, slewing := !decide (p.errNs.natAbs ≤ 2000) && s.frame.wasReady
      slewAny := s.frame.slewAny || (!decide (p.errNs.natAbs ≤ 2000) && s.frame.wasReady)
      lockedAll := s.frame.lockedAll && (decide (p.errNs.natAbs ≤ 2000) || !s.frame.wasReady) } := by
  have hc : (if !s.frame.wasReady && !s.frame.everLocked then p.frame else s.frame.counter) = n := by
    rw [hn]; cases s.frame.wasReady <;> cases s.frame.everLocked <;> rfl
  have hopen : p.frame + (n - p.frame) = n := by bv_omega
  simp only [lockTick, hc]
  simp [hv, hopen]

/-- Choosing again once the source is lost keeps the module free-running at its own counter and period. -/
theorem chooseSource_lost {s : State} (hv : s.frame.sourceValid = false) : ∃ next : Option Nat,
    chooseSource s = { s with frame := { s.frame with
      sourceNext := next, locked := (chooseSource s).frame.locked, slewing := (chooseSource s).frame.slewing } } ∧
    (s.frame.locked = false → (chooseSource s).frame.locked = false) ∧ (s.frame.slewing = false → (chooseSource s).frame.slewing = false) := by
  unfold chooseSource
  split
  · simp only [hv, Bool.false_and, Bool.false_eq_true, if_false]
    split
    · exact ⟨none, by rw [← hv], fun _ => rfl, fun _ => rfl⟩
    · exact ⟨_, rfl, id, id⟩
  · exact ⟨none, by rw [← hv], fun _ => rfl, fun _ => rfl⟩

/-- Settles O53: the tick is forwarded by `forwardTick`, which leaves the frame unit, and then taken by `lockTick`. -/
theorem ticksLockTheModule : Obligations.TicksLockTheModule := by
  unfold Obligations.TicksLockTheModule
  refine ⟨fun pair p s hp => ⟨fun hu => by rw [execTickReceived_eq hp, tickIn_own hu], fun hu hup hn hl hv => ?_⟩, fun s => ⟨fun hv => ?_, fun hv => ?_⟩⟩
  · have hfar : (if p.viaDn then 2 * pair + 1 else 2 * pair) = sidePort pair (!p.viaDn) := by cases p.viaDn <;> rfl
    have hframe := lockTick_frame (s := forwardTick pair p s) hv p pair _ rfl
    refine ⟨_, _, by rw [execTickReceived_eq hp, tickIn_next hu hup hn hl], rfl, rfl, ?_, ?_, ?_, ?_, ?_, ?_⟩
    · rw [hfar]; exact portSends_forwardTick
    · rw [hfar]; exact portOf_forwardTick_down
    · rw [hframe]; rfl
    · rw [hframe]; exact sat16_toInt
    · intro hr
      have hr' : (forwardTick pair p s).frame.wasReady = true := hr
      rw [hframe]; simp [hr']
    · intro hr
      have hr' : (forwardTick pair p s).frame.wasReady = false := hr
      rw [hframe]; simp [hr']
  · exact congrArg Host.Outcome.next (if_neg (by simp [hv]))
  · obtain ⟨next, heq, hlock, hslew⟩ := chooseSource_lost (s := { s with frame := { s.frame with
      locked := false, lockedAll := false, sourceValid := false, slewing := false, missed := 3 } }) rfl
    refine ⟨_, congrArg Host.Outcome.next (if_pos hv), ?_, hlock rfl, hslew rfl, ?_⟩
    · rw [heq]
    · rw [heq]; exact ⟨rfl, rfl, rfl, rfl, rfl⟩
end Sys2Proof.Machine
end

section
/-! SUPPORT. Proofs of the frame and timing statements (chapter 2): what the movement of data leaves: contexts but for cores and clusters. -/

namespace Sys2Proof.Machine
open Claims

/-! ### What the movement of data leaves: all but cores, clusters, objects and the ring (R130, R132) -/

/-- A context but for its cores and clusters. -/
def outline (c : Context) : Context := { c with cores := [], sketchCores := [], clusters := [] }

/-- The state but for cores, clusters, objects, the ring and the free values. -/
def besideTransfers (s : State) : State × (Nat → Context) :=
  ({ s with ctxs := [], objs := [], ring := {}, nonce := 0 }, fun m => outline (ctxOf s m))

@[simp] theorem besideTransfers_foldl {α : Type} {f : State → α → State} (h : ∀ s a, besideTransfers (f s a) = besideTransfers s) (l : List α)
    (s : State) : besideTransfers (l.foldl f s) = besideTransfers s := by
  induction l generalizing s with
  | nil => rfl
  | cons a l ih => rw [List.foldl_cons, ih, h]

theorem besideTransfers_updCtx {f : Context → Context} (h : ∀ c, outline (f c) = outline c) (n : Nat) (s : State) :
    besideTransfers (updCtx n f s) = besideTransfers s := by
  refine Prod.ext rfl (funext fun m => ?_)
  change outline (ctxOf (updCtx n f s) m) = outline (ctxOf s m)
  by_cases hm : m = n
  · rw [hm, ctxOf_updCtx_self, h]
  · rw [ctxOf_updCtx_ne hm]

@[simp] theorem besideTransfers_updCore (r : CoreRef) (f : Core → Core) (s : State) : besideTransfers (updCore r f s) = besideTransfers s :=
  besideTransfers_updCtx (fun _ => by split <;> rfl) _ _

@[simp] theorem besideTransfers_updCluster (n lc : Nat) (f : Cluster → Cluster) (s : State) :
    besideTransfers (updCluster n lc f s) = besideTransfers s := by
  unfold updCluster; rw [besideTransfers_updCtx]; intro c; rfl

@[simp] theorem besideTransfers_bump (s : State) : besideTransfers (bump s) = besideTransfers s := rfl

@[simp] theorem besideTransfers_updObj (id : Nat) (f : Obj → Obj) (s : State) : besideTransfers (updObj id f s) = besideTransfers s := by
  unfold updObj; split <;> rfl

@[simp] theorem besideTransfers_updPort (n : Nat) (f : Port → Port) (s : State) : besideTransfers (updPort n f s) = besideTransfers s := rfl

@[simp] theorem besideTransfers_flushAt (n : Nat) (s : State) : besideTransfers (flushAt n s) = besideTransfers s := rfl

@[simp] theorem besideTransfers_ring (r : Ring) (s : State) : besideTransfers { s with ring := r } = besideTransfers s := rfl

@[simp] theorem besideTransfers_sendRing (m : RingMsg) (s : State) : besideTransfers (sendRing m s) = besideTransfers s := by
  unfold sendRing; dsimp only
  split
  · rw [besideTransfers_flushAt, besideTransfers_updPort, besideTransfers_ring]
  · rfl

@[simp] theorem besideTransfers_sendTo (p route : Nat) (u : Word64) (m : RingMsg) (s : State) :
    besideTransfers (sendTo p route u m s) = besideTransfers s := by
  unfold sendTo; split <;> simp

@[simp] theorem besideTransfers_sendStream (s : State) (c : CoreRef) (p : Program) (d : Desc) (off : Nat) (body : List Byte) (last : Bool) (t : State) :
    besideTransfers (sendStream s c p d off body last t) = besideTransfers t := by
  unfold sendStream; split <;> simp

@[simp] theorem besideTransfers_landRows (c : CoreRef) (p : Program) (d : Desc) (ls : NewLines) (s : State) :
    besideTransfers (landRows c p d ls s) = besideTransfers s := by
  unfold landRows
  split
  · simp
  · simp
  · split <;> simp

@[simp] theorem besideTransfers_moveLines (c : CoreRef) (t : Nat) (p : Program) (d : Desc) (ls : NewLines) (last : Bool) (s : State) :
    besideTransfers (moveLines c t p d ls last s) = besideTransfers s := by
  unfold moveLines; dsimp only; split <;> simp

@[simp] theorem besideTransfers_pauseTransfer (c : CoreRef) (t : Nat) (s : State) : besideTransfers (pauseTransfer c t s) = besideTransfers s := by
  unfold pauseTransfer
  split
  · dsimp only
    split
    · split <;> simp
    · simp
  · rfl

@[simp] theorem besideTransfers_pauseCtx (n : Nat) (s : State) : besideTransfers (pauseCtx n s) = besideTransfers s := by
  simp [pauseCtx, pauseCore]

/-- Nothing outstanding, nothing to pause. -/
theorem pauseCtx_idle {n : Nat} {s : State} (h : ∀ p ∈ (ctxOf s n).cores ++ (ctxOf s n).sketchCores, ∀ u ∈ p.2.tickets, u.2.out = none) :
    pauseCtx n s = s := by
  have none_of {m : SMap Core} (hm : ∀ p ∈ m, p ∈ (ctxOf s n).cores ++ (ctxOf s n).sketchCores) :
      m.filter (fun k => k.2.tickets.any (fun t => t.2.out.isSome)) = [] := by
    rw [List.filter_eq_nil_iff]
    intro k hk
    have := h k (hm k hk)
    simp only [List.any_eq_true, not_exists, not_and]
    exact fun u hu => by simp [this u hu]
  simp [pauseCtx, none_of (m := (ctxOf s n).cores) (fun p hp => List.mem_append_left _ hp),
    none_of (m := (ctxOf s n).sketchCores) (fun p hp => List.mem_append_right _ hp)]

end Sys2Proof.Machine
end

section
/-! SUPPORT. Proofs of the frame and timing statements (chapter 2): the plan, the swap engine's queue and the snapshot (O46). -/

namespace Sys2Proof.Machine
open Claims

/-! ### The plan and the swap engine's queue (R325 to R331) -/

theorem ctxOf_congr {s t : State} (h : t.ctxs = s.ctxs) (m : Nat) : ctxOf t m = ctxOf s m := by rw [ctxOf, ctxOf, h]

/-- The context has its place, and its swap-ins are queued. -/
def queuedAt (n : Nat) (ds : List Nat) (s : State) : State :=
  { updCtx n (fun c => { c with place := ds }) s with swaps := s.swaps ++ swapOps n ds true }

theorem swapInAt_eq (n : Nat) (ds : List Nat) (s : State) : swapInAt n ds s = beginSwapIn (queuedAt n ds s) := rfl

theorem queuedAt_swaps (n : Nat) (ds : List Nat) (s : State) : (queuedAt n ds s).swaps = s.swaps ++ swapOps n ds true := rfl

theorem ctxOf_queuedAt_self (n : Nat) (ds : List Nat) (s : State) : ctxOf (queuedAt n ds s) n = { ctxOf s n with place := ds } :=
  (ctxOf_congr rfl n).trans (ctxOf_updCtx_self n (fun c => { c with place := ds }) s)

theorem ctxOf_queuedAt_ne {n m : Nat} (h : m ≠ n) (ds : List Nat) (s : State) : ctxOf (queuedAt n ds s) m = ctxOf s m :=
  (ctxOf_congr rfl m).trans (ctxOf_updCtx_ne h (fun c => { c with place := ds }) s)

theorem execFramePlanClose_eq (s : State) : exec .framePlanClose s = .next (closePlan s) := rfl

theorem closePlan_eq {s : State} (h : s.frame.planClosed = false) {t : State}
    (ht : (if awake s then (waitingCtxs s).foldl (fun s n => placeCtx n s) s else s) = t) :
    closePlan s = { t with frame := { t.frame with planClosed := true, plan := if awake t then planOf t else [] }
                           ef := if t.power.d1 then suspendErase t.ef else t.ef } := by
  subst ht; simp [closePlan, h]

/-- A context that fits without a victim is placed where it fits. -/
theorem placeCtx_fits {s : State} {n : Nat} {ds : List Nat} (h : placeAt s n = some ds) : placeCtx n s = swapInAt n ds s := by
  have hv : ∀ l, takeVictims n l s = some (s, ds)
    | [] => by simp [takeVictims, h]
    | _ :: _ => by simp [takeVictims, h]
  simp [placeCtx, hv]

theorem swapInAt_host (n : Nat) (ds : List Nat) (s : State) : (swapInAt n ds s).host = s.host := by
  simp only [swapInAt, beginSwapIn]; split
  · rfl
  · split <;> rfl

theorem swapInAt_objs (n : Nat) (ds : List Nat) (s : State) : (swapInAt n ds s).objs = s.objs := by
  simp only [swapInAt, beginSwapIn]; split
  · rfl
  · split <;> rfl

theorem swapInAt_swaps (n : Nat) (ds : List Nat) (s : State) : (swapInAt n ds s).swaps = s.swaps ++ swapOps n ds true := by
  simp only [swapInAt, beginSwapIn]; split
  · rfl
  · split <;> rfl

/-- The swap engine reaches a context that was placed. -/
theorem beginSwapIn_reaches {s : State} {o : SwapOp} {l : List SwapOp} (hs : s.swaps = o :: l) (hi : o.swapIn = true) (hp : (ctxOf s o.ctx).place ≠ []) :
    beginSwapIn s = updCtx o.ctx (fun c => { c with
        state := .swappingIn, alloc := c.place, place := [], quotaT1 := placedT1 c, lowerT1 := none
        charges := c.charges.filter (fun p => c.place.contains p.1), credits := c.credits.filter (fun p => c.place.contains p.1) }) s := by
  unfold beginSwapIn
  rw [hs]
  exact if_pos (by simp [hi, hp])

/-- At a swap-out, or where its context has its domains, or with no operation left, the engine's head begins nothing. -/
theorem beginSwapIn_idle {s : State} (h : ∀ o l, s.swaps = o :: l → o.swapIn = true → (ctxOf s o.ctx).place = []) : beginSwapIn s = s := by
  unfold beginSwapIn
  split
  · rfl
  · rename_i o ho
    obtain ⟨l, hl⟩ := List.head?_eq_some_iff.mp ho
    exact if_neg (by
      intro hc
      obtain ⟨hi, hp⟩ : o.swapIn = true ∧ (ctxOf s o.ctx).place ≠ [] := by simpa using hc
      exact hp (h o l hl hi))

theorem framePlanClose_waiting {s : State} {n : Nat} {ds : List Nat} (hc : s.frame.planClosed = false) (hr : s.host.devState = .ready)
    (hw : waitingCtxs s = [n]) (hp : placeAt s n = some ds) (hd : ds ≠ []) :
    ∃ t, exec .framePlanClose s = .next t ∧ t.frame.planClosed = true ∧ t.host = s.host ∧ t.objs = s.objs ∧
        t.swaps = s.swaps ++ ds.map (fun d => ({ ctx := n, domain := d, swapIn := true } : SwapOp)) ∧
        (s.swaps = [] → (ctxOf t n).state = .swappingIn ∧ (ctxOf t n).alloc = ds ∧ ∀ m, m ≠ n → ctxOf t m = ctxOf s m) ∧
        (∀ o l, s.swaps = o :: l → o.swapIn = false → ctxOf t n = { ctxOf s n with place := ds } ∧ ∀ m, m ≠ n → ctxOf t m = ctxOf s m) := by
  have hfold : (if awake s then (waitingCtxs s).foldl (fun s n => placeCtx n s) s else s) = swapInAt n ds s := by
    rw [if_pos (by simpa [awake] using hr), hw, List.foldl_cons, List.foldl_nil, placeCtx_fits hp]
  rw [execFramePlanClose_eq, closePlan_eq hc hfold]
  refine ⟨_, rfl, rfl, swapInAt_host _ _ _, swapInAt_objs _ _ _, swapInAt_swaps _ _ _, fun hs => ?_, fun o l hs ho => ?_⟩
  · obtain ⟨d, ds', rfl⟩ := List.exists_cons_of_ne_nil hd
    have heq := (swapInAt_eq n (d :: ds') s).trans (beginSwapIn_reaches (o := { ctx := n, domain := d, swapIn := true }) (l := swapOps n ds' true)
      (by simp [queuedAt_swaps, hs, swapOps]) rfl (by simp [ctxOf_queuedAt_self]))
    refine ⟨(congrArg (fun u => (ctxOf u n).state) heq).trans ?_, (congrArg (fun u => (ctxOf u n).alloc) heq).trans ?_, fun m hm =>
      (congrArg (fun u => ctxOf u m) heq).trans ?_⟩
    · rw [ctxOf_updCtx_self]
    · rw [ctxOf_updCtx_self, ctxOf_queuedAt_self]
    · rw [ctxOf_updCtx_ne hm, ctxOf_queuedAt_ne hm]
  · have hidle : beginSwapIn (queuedAt n ds s) = queuedAt n ds s := beginSwapIn_idle (fun p k hk hi => absurd hi (by
      have hpo : o = p := by simpa [queuedAt_swaps, hs] using congrArg List.head? hk
      simp [← hpo, ho]))
    have heq : swapInAt n ds s = queuedAt n ds s := (swapInAt_eq n ds s).trans hidle
    exact ⟨(congrArg (fun u => ctxOf u n) heq).trans (ctxOf_queuedAt_self n ds s), fun m hm =>
      (congrArg (fun u => ctxOf u m) heq).trans (ctxOf_queuedAt_ne hm ds s)⟩

/-! ### The snapshot (R51, R234) -/

theorem mapGet_mapVals {α : Type} {f : α → α} {d : α} (hf : f d = d) (m : SMap α) (k : Nat) : mapGet d (mapVals f m) k = f (mapGet d m k) := by
  rw [mapGet, mapFind_mapVals, mapGet]
  cases mapFind k m with
  | none => exact hf.symm
  | some _ => rfl

@[simp] theorem clusterOf_updCluster_ne {n lc k : Nat} (h : lc ≠ k) (g : Cluster → Cluster) (s : State) :
    clusterOf (updCluster n k g s) n lc = clusterOf s n lc := by
  simp [clusterOf, updCluster, h]

/-- What is done once on every cluster of a list leaves each of them as its own turn makes it. -/
theorem clusterOf_foldl {g : Cluster → Cluster} {n : Nat} {f : Nat → State → State}
    (hself : ∀ lc s, clusterOf (f lc s) n lc = g (clusterOf s n lc)) (hne : ∀ lc k s, lc ≠ k → clusterOf (f k s) n lc = clusterOf s n lc)
    {l : List Nat} (hl : l.Nodup) (s : State) {lc : Nat} (h : lc ∈ l) : clusterOf (l.foldl (fun s lc => f lc s) s) n lc = g (clusterOf s n lc) := by
  have frame (l : List Nat) (s : State) (h : lc ∉ l) : clusterOf (l.foldl (fun s lc => f lc s) s) n lc = clusterOf s n lc := by
    induction l generalizing s with
    | nil => rfl
    | cons k l ih =>
      obtain ⟨hk, hl⟩ : lc ≠ k ∧ lc ∉ l := by simpa using h
      rw [List.foldl_cons, ih _ hl, hne _ _ _ hk]
  induction l generalizing s with
  | nil => exact absurd h List.not_mem_nil
  | cons k l ih =>
    obtain ⟨hk, hl⟩ := List.nodup_cons.mp hl
    rw [List.foldl_cons]
    by_cases hkl : lc = k
    · subst hkl; rw [frame l _ hk, hself]
    · rw [ih hl _ (List.mem_of_ne_of_mem hkl h), hne _ _ _ hkl]

/-- A cluster that the decision line is written on: its first line, and F31 (R234). -/
def decided (line : List Byte) (k : Cluster) : Cluster :=
  { k with t1 := storeWrite 64 k.t1 0 line, flags := k.flags ||| ((1 : Word32) <<< 31) }

def decisionLine (n : Nat) (mask : Mask) (frame : Nat) (s : State) : List Byte :=
  leBytes 32 mask.toNat ++ leBytes 8 frame ++ leBytes 2 ((List.range 256).filter (fun i => mask.getLsbD i)).length ++
    leBytes 1 (if (ctxOf s n).sketch.isSome then 1 else 0) ++ zeros 21

theorem decisionLine_length (n : Nat) (mask : Mask) (frame : Nat) (s : State) : (decisionLine n mask frame s).length = 64 := by
  simp [decisionLine, leBytes_length, zeros]

theorem decisionLine_getD (n : Nat) (mask : Mask) (frame : Nat) (s : State) {i : Nat} (hi : i < 32) :
    (decisionLine n mask frame s).getD (i - 0) 0 = (leBytes 32 mask.toNat).getD i 0 := by
  simp only [decisionLine, List.append_assoc, Nat.sub_zero]
  exact List.getD_append _ _ _ _ (by rw [leBytes_length]; exact hi)

theorem writeDecision_eq (n : Nat) (mask : Mask) (frame : Nat) (s : State) : writeDecision n mask frame s =
    (lclusters s n).foldl (fun u lc => setFlag n lc 31 true (t1Write n lc 0 (decisionLine n mask frame s) u)) s := by
  unfold writeDecision onClusters decisionLine; rfl

theorem clusterOf_writeDecision {n lc : Nat} {s : State} (h : lc ∈ lclusters s n) (mask : Mask) (frame : Nat) :
    clusterOf (writeDecision n mask frame s) n lc = decided (decisionLine n mask frame s) (clusterOf s n lc) := by
  rw [writeDecision_eq]
  generalize decisionLine n mask frame s = line
  refine clusterOf_foldl (f := fun lc u => setFlag n lc 31 true (t1Write n lc 0 line u)) (g := decided line)
    (fun k u => ?_) (fun i k u hik => ?_) List.nodup_range s h
  · rw [setFlag, clusterOf_updCluster_self, t1Write, clusterOf_updCluster_self]; rfl
  · rw [setFlag, clusterOf_updCluster_ne hik, t1Write, clusterOf_updCluster_ne hik]

theorem besideTransfers_writeDecision (n : Nat) (mask : Mask) (frame : Nat) (s : State) :
    besideTransfers (writeDecision n mask frame s) = besideTransfers s := by
  simp [writeDecision, onClusters, setFlag, t1Write]

theorem outline_of {s t : State} (h : besideTransfers t = besideTransfers s) (m : Nat) : outline (ctxOf t m) = outline (ctxOf s m) :=
  congrFun (congrArg Prod.snd h) m

theorem clusterOf_updCtx {f : Context → Context} {n : Nat} {s : State} (h : (f (ctxOf s n)).clusters = (ctxOf s n).clusters) (lc : Nat) :
    clusterOf (updCtx n f s) n lc = clusterOf s n lc := by
  rw [clusterOf, ctxOf_updCtx_self, h, clusterOf]

theorem clusterOf_startSketch (n lc : Nat) (s : State) : clusterOf (startSketch n s) n lc = clusterOf s n lc := by
  unfold startSketch
  split
  · split
    · rfl
    · exact clusterOf_updCtx rfl lc
  · rfl

theorem startSketch_masks {n : Nat} {s : State} {u : Run} (h : (ctxOf s n).run = some u) :
    ∃ v, (ctxOf (startSketch n s) n).run = some v ∧ v.masks = u.masks := by
  unfold startSketch
  split
  · rename_i w d hw hd
    split
    · exact ⟨u, h, rfl⟩
    · rw [ctxOf_updCtx_self]
      exact ⟨_, rfl, by rw [Option.some.inj (h.symm.trans hw)]⟩
  · exact ⟨u, h, rfl⟩

/-- The run's marks gain those of the snapshot. -/
def marked (mask : Mask) (c : Context) : Context :=
  { c with run := c.run.map (fun u => { u with masks := u.masks ||| mask, missed := if c.sketch.isSome then u.missed else u.missed ||| mask }) }

theorem applyDecision_eq (n : Nat) (mask : Mask) (frame : Nat) (s : State) : applyDecision n mask frame s =
    if mask = 0 then updCtx n (marked mask) (writeDecision n mask frame s) else startSketch n (updCtx n (marked mask) (writeDecision n mask frame s)) := rfl

theorem clusterOf_applyDecision {n lc : Nat} {s : State} (h : lc ∈ lclusters s n) (mask : Mask) (frame : Nat) :
    clusterOf (applyDecision n mask frame s) n lc = decided (decisionLine n mask frame s) (clusterOf s n lc) := by
  have hmark : clusterOf (updCtx n (marked mask) (writeDecision n mask frame s)) n lc = decided (decisionLine n mask frame s) (clusterOf s n lc) :=
    (clusterOf_updCtx rfl lc).trans (clusterOf_writeDecision h mask frame)
  rw [applyDecision_eq]
  split
  · exact hmark
  · rw [clusterOf_startSketch, hmark]

theorem applyDecision_masks {n : Nat} {s : State} {u : Run} (h : (ctxOf s n).run = some u) (mask : Mask) (frame : Nat) :
    ∃ v, (ctxOf (applyDecision n mask frame s) n).run = some v ∧ v.masks = u.masks ||| mask := by
  have hrun : (ctxOf (writeDecision n mask frame s) n).run = some u :=
    (congrArg Context.run (outline_of (besideTransfers_writeDecision n mask frame s) n)).trans h
  obtain ⟨w, hw, hm⟩ : ∃ w, (ctxOf (updCtx n (marked mask) (writeDecision n mask frame s)) n).run = some w ∧ w.masks = u.masks ||| mask := by
    rw [ctxOf_updCtx_self, marked, hrun]; exact ⟨_, rfl, rfl⟩
  rw [applyDecision_eq]
  split
  · exact ⟨w, hw, hm⟩
  · obtain ⟨v, hv, hvm⟩ := startSketch_masks hw
    exact ⟨v, hv, hvm.trans hm⟩

/-- The snapshot's counts of one context and of the frame. -/
def requestsCounted (n : Nat) (s : State) : State :=
  let k := countMask 256 (markedMask s n)
  let t := countFor n (if (ctxOf s n).sketch.isSome then { sketch := k } else { missed := k }) s
  { t with logs := { t.logs with cur := { t.logs.cur with requests := t.logs.cur.requests + ((ctxOf s n).run.map (·.nreq)).getD 0 } } }

theorem decideCtx_runnable {n : Nat} {s : State} (h : (ctxOf s n).state = .runnable) :
    decideCtx n s = applyDecision n (markedMask s n) s.frame.counter.toNat (requestsCounted n s) := by
  unfold decideCtx; simp only [h]; rfl

theorem ctxOf_requestsCounted (n : Nat) (s : State) : ∃ st, ctxOf (requestsCounted n s) n = { ctxOf s n with stats := st } :=
  ⟨_, (ctxOf_congr (s := countFor n _ s) rfl n).trans (ctxOf_updCtx_self n _ _)⟩

theorem lclusters_requestsCounted (n : Nat) (s : State) : lclusters (requestsCounted n s) n = lclusters s n := by
  obtain ⟨st, hst⟩ := ctxOf_requestsCounted n s
  simp only [lclusters, allocClusters, hst]; rfl

theorem deadlineSnapshot_runnable {n : Nat} {c : Context} {s : State} (hd : s.frame.snapDone = false) (hr : s.host.devState = .ready)
    (hs : s.ctxs = [(n, c)]) (hc : c.state = .runnable) :
    ∃ t, exec .deadlineSnapshot s = .next t ∧ t.frame.snapDone = true ∧
      (∀ lc ∈ lclusters s n, (clusterOf t n lc).flags.getLsbD 31 = true ∧
        (∀ i, i < 32 → storeByte (t1Of t n lc) i = (leBytes 32 (markedMask s n).toNat).getD i 0)) ∧
      (∀ u, c.run = some u → ∃ v, (ctxOf t n).run = some v ∧ v.masks = u.masks ||| markedMask s n) := by
  have hctx : ctxOf s n = c := by simp [ctxOf, hs, mapGet, mapFind]
  obtain ⟨st, hst⟩ := ctxOf_requestsCounted n s
  have heq : snapshot s = { decideCtx n s with frame := { (decideCtx n s).frame with snapDone := true } } := by
    simp [snapshot, hd, awake, hr, hs]
  rw [decideCtx_runnable (hctx ▸ hc)] at heq
  refine ⟨_, rfl, by rw [heq], fun lc hlc => ?_, fun u hu => ?_⟩
  · rw [← lclusters_requestsCounted] at hlc
    have hk : clusterOf (snapshot s) n lc = decided (decisionLine n (markedMask s n) s.frame.counter.toNat (requestsCounted n s))
        (clusterOf (requestsCounted n s) n lc) := by
      rw [heq]; exact clusterOf_applyDecision hlc _ _
    refine ⟨?_, fun i hi => ?_⟩
    · rw [hk, decided]; simp
    · rw [t1Of, hk, decided, storeByte_storeWrite, decisionLine_getD _ _ _ _ hi, decisionLine_length, if_pos ⟨Nat.zero_le i, by omega⟩]
  · rw [heq]
    exact applyDecision_masks (by rw [hst, hctx]; exact hu) _ _

end Sys2Proof.Machine
end

section
/-! SUPPORT. Proofs of the frame and timing statements (chapter 2): slices, the swap engine and late PIPE batches (O46). -/

namespace Sys2Proof.Machine
open Claims

/-! ### Slices (R61, R331 to R335) -/

theorem wfCtx_of {n : Nat} (h1 : 1 ≤ n) (h2 : n ≤ 255) : wfCtx n = true := by simp [wfCtx, h1, h2]

/-- A context whose slice begins with `len` ns, at a duty. -/
def sliceBegun (duty len : Nat) (c : Context) : Context :=
  { c with
    inSlice := true, cut := false, cores := mapVals (resumeCore (duty != 0)) c.cores, sketchCores := mapVals (resumeCore (duty != 0)) c.sketchCores
    charges := addCharges ((mapVals (chargeLeft len) c.charges).filter (fun p => p.2 != 0)) c.credits, credits := [] }

theorem startSlice_ready {n : Nat} {s : State} (h : sliceReady s n = true) : startSlice n s =
    updCtx n (sliceBegun s.power.duty (sliceNs s n)) { s with frame := { s.frame with slices := s.frame.slices.filter (· != n) } } := if_pos h

theorem coreOf_sliceBegun {t s : State} {n duty len : Nat} (h : ctxOf t n = sliceBegun duty len (ctxOf s n)) {r : CoreRef} (hr : r.ctx = n) :
    coreOf t r = resumeCore (duty != 0) (coreOf s r) := by
  have hidle : resumeCore (duty != 0) {} = {} := by cases (duty != 0) <;> rfl
  subst hr
  unfold coreOf
  rw [h]
  cases r.sketch
  · exact mapGet_mapVals hidle _ _
  · exact mapGet_mapVals hidle _ _

theorem startQueued_phase (k : Core) : (startQueued k).phase = k.phase := by unfold startQueued; split <;> rfl

theorem startQueued_t0 (k : Core) : (startQueued k).t0 = k.t0 := by unfold startQueued; split <;> rfl

theorem startQueued_streaming {k : Core} (h : k.streaming = none) : (startQueued k).streaming = k.queuedOp := by simp [startQueued, h]

/-- A core but for its array goes on where it yielded. -/
def resumedPhase (k : Core) : Core :=
  match k.phase with
  | .yielded _ => { k with phase := .running }
  | _ => k

theorem resumeCore_eq (starts : Bool) (k : Core) : resumeCore starts k = if starts then startQueued (resumedPhase k) else resumedPhase k := by
  unfold resumeCore resumedPhase; rfl

theorem resumedPhase_eq (k : Core) : resumedPhase k = { k with phase := (resumedPhase k).phase } := by unfold resumedPhase; split <;> rfl

theorem resumeCore_phase (starts : Bool) {k : Core} {b : Bool} (h : k.phase = .yielded b) : (resumeCore starts k).phase = .running := by
  have hr : (resumedPhase k).phase = .running := by simp [resumedPhase, h]
  rw [resumeCore_eq]; split
  · rw [startQueued_phase, hr]
  · exact hr

theorem resumeCore_t0 (starts : Bool) (k : Core) : (resumeCore starts k).t0 = k.t0 := by
  have hr : (resumedPhase k).t0 = k.t0 := by rw [resumedPhase_eq]
  rw [resumeCore_eq]; split
  · rw [startQueued_t0, hr]
  · exact hr

theorem resumeCore_streaming (starts : Bool) {k : Core} (h : k.streaming = none) :
    (resumeCore starts k).streaming = if starts then k.queuedOp else none := by
  have hr : (resumedPhase k).streaming = none := by rw [resumedPhase_eq]; exact h
  have hq : (resumedPhase k).queuedOp = k.queuedOp := by rw [resumedPhase_eq]
  rw [resumeCore_eq]; split
  · rw [startQueued_streaming hr, hq]
  · exact hr

theorem sliceStart_ready {n : Nat} {s : State} (h1 : 1 ≤ n) (h2 : n ≤ 255) (h : sliceReady s n = true) :
    ∃ t, exec (.sliceStart n) s = .next t ∧ t = { s with ctxs := t.ctxs, frame := { s.frame with slices := s.frame.slices.filter (· != n) } } ∧
      (ctxOf t n).inSlice = true ∧ (ctxOf t n).cut = false ∧ (ctxOf t n).credits = [] ∧ (∀ m, m ≠ n → ctxOf t m = ctxOf s m) ∧
      (∀ r : CoreRef, r.ctx = n → (∀ b, (coreOf s r).phase = .yielded b → (coreOf t r).phase = .running) ∧
        ((coreOf s r).streaming = none → (coreOf t r).streaming = if s.power.duty = 0 then none else (coreOf s r).queuedOp) ∧
        (coreOf t r).t0 = (coreOf s r).t0) := by
  have hctx : ctxOf (startSlice n s) n = sliceBegun s.power.duty (sliceNs s n) (ctxOf s n) := by
    rw [startSlice_ready h, ctxOf_updCtx_self]; rfl
  refine ⟨startSlice n s, unitOp_of (wfCtx_of h1 h2) _, by rw [startSlice_ready h]; rfl, by rw [hctx]; rfl, by rw [hctx]; rfl, by rw [hctx]; rfl,
    fun m hm => ?_, fun r hr => ?_⟩
  · rw [startSlice_ready h, ctxOf_updCtx_ne hm]; rfl
  · rw [coreOf_sliceBegun hctx hr]
    refine ⟨fun b hb => resumeCore_phase _ hb, fun hs => ?_, resumeCore_t0 _ _⟩
    rw [resumeCore_streaming _ hs]
    by_cases hd : s.power.duty = 0 <;> simp [hd]

theorem sliceStart_waits {n : Nat} {s : State} (h1 : 1 ≤ n) (h2 : n ≤ 255) (h : sliceReady s n = false) : exec (.sliceStart n) s = .next s :=
  (unitOp_of (wfCtx_of h1 h2) _).trans (congrArg Host.Outcome.next (if_neg (by simp [h])))

/-- The state after a slice has been left, before an overrun is charged. -/
def sliceOver (n : Nat) (s : State) : State := updCtx n (fun c => { c with cut := false }) (leaveSlice n s)

theorem endSlice_inSlice {n : Nat} {s : State} (h : (ctxOf s n).inSlice = true) (overrun : Nat) : endSlice n overrun s =
    let t := if overrun = 0 then sliceOver n s else (ctxOf (sliceOver n s) n).alloc.foldl (chargeOverrun n overrun) (sliceOver n s)
    { t with logs := { t.logs with cur := { t.logs.cur with overrun := max t.logs.cur.overrun (overrun / 100) } } } := if_neg (by simp [h])

theorem sliceOver_eq {n : Nat} {s : State} (h : (ctxOf s n).inSlice = true) :
    sliceOver n s = updCtx n (fun c => { c with cut := false }) (updCtx n (fun c => { c with inSlice := false }) (pauseCtx n s)) := by
  rw [sliceOver, leaveSlice, if_pos h]

/-- Whatever the pause moves, the contexts but for cores and clusters stand as they did, the one's slice apart. -/
theorem outline_sliceOver_self {n : Nat} {s : State} (h : (ctxOf s n).inSlice = true) :
    outline (ctxOf (sliceOver n s) n) = { outline (ctxOf s n) with inSlice := false, cut := false } := by
  rw [sliceOver_eq h, ctxOf_updCtx_self, ctxOf_updCtx_self]
  have ho := outline_of (besideTransfers_pauseCtx n s) n
  rw [← ho]; rfl

theorem outline_sliceOver_ne {n m : Nat} {s : State} (h : (ctxOf s n).inSlice = true) (hm : m ≠ n) :
    outline (ctxOf (sliceOver n s) m) = outline (ctxOf s m) := by
  rw [sliceOver_eq h, ctxOf_updCtx_ne hm, ctxOf_updCtx_ne hm]
  exact outline_of (besideTransfers_pauseCtx n s) m

theorem sliceOver_frame {n : Nat} {s : State} (h : (ctxOf s n).inSlice = true) : (sliceOver n s).frame = s.frame := by
  rw [sliceOver_eq h]
  exact congrArg (fun v => v.1.frame) (besideTransfers_pauseCtx n s)

theorem sliceOver_host {n : Nat} {s : State} (h : (ctxOf s n).inSlice = true) : (sliceOver n s).host = s.host := by
  rw [sliceOver_eq h]
  exact congrArg (fun v => v.1.host) (besideTransfers_pauseCtx n s)

theorem sliceOver_logs {n : Nat} {s : State} (h : (ctxOf s n).inSlice = true) : (sliceOver n s).logs = s.logs := by
  rw [sliceOver_eq h]
  exact congrArg (fun v => v.1.logs) (besideTransfers_pauseCtx n s)

theorem displaced_sliceOver {n : Nat} {s : State} (h : (ctxOf s n).inSlice = true) (d : Nat) : displaced (sliceOver n s) d = displaced s d := by
  have hctx (m : Nat) : (ctxOf (sliceOver n s) m).alloc = (ctxOf s m).alloc ∧ (ctxOf (sliceOver n s) m).state = (ctxOf s m).state := by
    by_cases hm : m = n
    · subst hm
      have ho := outline_sliceOver_self h
      exact ⟨(congrArg Context.alloc ho :), (congrArg Context.state ho :)⟩
    · have ho := outline_sliceOver_ne h hm
      exact ⟨(congrArg Context.alloc ho :), (congrArg Context.state ho :)⟩
  unfold displaced
  rw [sliceOver_frame h]
  simp only [fun m => (hctx m).1, fun m => (hctx m).2]

theorem mapGet_addCharges_single (a : SMap Int) (d : Nat) (x : Int) : mapGet 0 (addCharges a [(d, x)]) d = mapGet 0 a d + x := by
  simp [addCharges]

theorem sliceOver_idle {n : Nat} {s : State} (h : (ctxOf s n).inSlice = true)
    (hi : ∀ p ∈ (ctxOf s n).cores ++ (ctxOf s n).sketchCores, ∀ u ∈ p.2.tickets, u.2.out = none) :
    sliceOver n s = updCtx n (fun c => { c with cut := false }) (updCtx n (fun c => { c with inSlice := false }) s) := by
  rw [sliceOver_eq h, pauseCtx_idle hi]

theorem execSliceEnd_eq {n : Nat} (h1 : 1 ≤ n) (h2 : n ≤ 255) (ns : Nat) (s : State) : exec (.sliceEnd n ns) s = .next (endSlice n ns s) :=
  unitOp_of (wfCtx_of h1 h2) _

theorem sliceEnd_idle {n : Nat} {s : State} (h1 : 1 ≤ n) (h2 : n ≤ 255) (h : (ctxOf s n).inSlice = true)
    (hi : ∀ p ∈ (ctxOf s n).cores ++ (ctxOf s n).sketchCores, ∀ u ∈ p.2.tickets, u.2.out = none) :
    ∃ t, exec (.sliceEnd n 0) s = .next t ∧ t = { s with ctxs := t.ctxs } ∧ ctxOf t n = { ctxOf s n with inSlice := false, cut := false } ∧
      (∀ m, m ≠ n → ctxOf t m = ctxOf s m) := by
  have heq : endSlice n 0 s = sliceOver n s := by
    rw [endSlice_inSlice h, if_pos rfl]
    simp
  refine ⟨sliceOver n s, by rw [execSliceEnd_eq h1 h2, heq], ?_, ?_, fun m hm => ?_⟩
  · rw [sliceOver_idle h hi]; rfl
  · rw [sliceOver_idle h hi, ctxOf_updCtx_self, ctxOf_updCtx_self]
  · rw [sliceOver_idle h hi, ctxOf_updCtx_ne hm, ctxOf_updCtx_ne hm]

/-- An overrun on one domain: its context is charged, the one it displaced there is credited. -/
theorem ctxOf_chargeOverrun (n ns : Nat) (s : State) (d : Nat) :
    (ctxOf (chargeOverrun n ns s d) n).charges = addCharges (ctxOf s n).charges [(d, -(ns : Int))] ∧
    (ctxOf (chargeOverrun n ns s d) n).inSlice = (ctxOf s n).inSlice ∧ (ctxOf (chargeOverrun n ns s d) n).cut = (ctxOf s n).cut ∧
    (∀ m, m ≠ n → displaced s d = some m → (ctxOf (chargeOverrun n ns s d) m).credits = addCharges (ctxOf s m).credits [(d, (ns : Int))]) := by
  unfold chargeOverrun
  cases hd : displaced s d with
  | none => exact ⟨by simp, by simp, by simp, fun m _ h => absurd h (by simp)⟩
  | some k =>
    by_cases hk : n = k
    · subst hk
      exact ⟨by simp, by simp, by simp, fun m hm h => absurd (Option.some.inj h).symm hm⟩
    · refine ⟨by simp [hk], by simp [hk], by simp [hk], fun m hm h => ?_⟩
      obtain rfl : k = m := Option.some.inj h
      simp [hm]

theorem chargeOverrun_host (n ns : Nat) (s : State) (d : Nat) : (chargeOverrun n ns s d).host = s.host := by
  unfold chargeOverrun; dsimp only; split <;> rfl

theorem chargeOverrun_logs (n ns : Nat) (s : State) (d : Nat) : (chargeOverrun n ns s d).logs = s.logs := by
  unfold chargeOverrun; dsimp only; split <;> rfl

theorem sliceEnd_overrun {n ns d : Nat} {s : State} (h1 : 1 ≤ n) (h2 : n ≤ 255) (h : (ctxOf s n).inSlice = true) (hns : 0 < ns)
    (ha : (ctxOf s n).alloc = [d]) :
    ∃ t, exec (.sliceEnd n ns) s = .next t ∧ (ctxOf t n).inSlice = false ∧ (ctxOf t n).cut = false ∧
      t.host = s.host ∧ mapGet 0 (ctxOf t n).charges d = mapGet 0 (ctxOf s n).charges d - ns ∧
      t.logs.cur.overrun = max s.logs.cur.overrun (ns / 100) ∧
      (∀ m, m ≠ n → displaced s d = some m → mapGet 0 (ctxOf t m).credits d = mapGet 0 (ctxOf s m).credits d + ns) := by
  have hself := outline_sliceOver_self h
  have halloc : (ctxOf (sliceOver n s) n).alloc = [d] := (congrArg Context.alloc hself :).trans ha
  obtain ⟨hcharge, hslice, hcut, hcredit⟩ := ctxOf_chargeOverrun n ns (sliceOver n s) d
  have heq : endSlice n ns s = _ := endSlice_inSlice h ns
  rw [if_neg (by omega), halloc, List.foldl_cons, List.foldl_nil] at heq
  refine ⟨endSlice n ns s, execSliceEnd_eq h1 h2 ns s, ?_, ?_, ?_, ?_, ?_, fun m hm hd => ?_⟩ <;> rw [heq]
  · exact hslice.trans (congrArg Context.inSlice hself :)
  · exact hcut.trans (congrArg Context.cut hself :)
  · exact (chargeOverrun_host _ _ _ _).trans (sliceOver_host h)
  · refine (congrArg (fun c => mapGet 0 c d) hcharge).trans ((mapGet_addCharges_single _ _ _).trans ?_)
    rw [show (ctxOf (sliceOver n s) n).charges = _ from (congrArg Context.charges hself :)]
    rfl
  · change max (chargeOverrun n ns (sliceOver n s) d).logs.cur.overrun (ns / 100) = _
    rw [chargeOverrun_logs, sliceOver_logs h]
  · refine (congrArg (fun c => mapGet 0 c d) (hcredit m hm ((displaced_sliceOver h d).trans hd))).trans ((mapGet_addCharges_single _ _ _).trans ?_)
    rw [show (ctxOf (sliceOver n s) m).credits = _ from (congrArg Context.credits (outline_sliceOver_ne h hm) :)]
    rfl

/-! ### The swap engine (R326 to R330, R340) -/

/-- Behind an operation that is not a swap-in nothing begins. -/
theorem beginSwapIn_swapOut {s : State} (h : ∀ p ∈ s.swaps, p.swapIn = false) : beginSwapIn s = s :=
  beginSwapIn_idle fun o l hs hi => absurd (h o (hs ▸ List.mem_cons_self)) (by simp [hi])

theorem teardownComplete_wiped {n : Nat} {s : State} {o : SwapOp} {l : List SwapOp} (h1 : 1 ≤ n) (h2 : n ≤ 255) (hs : s.swaps = o :: l)
    (hw : o.wipe = true) (ho : o.ctx = n) (hl : ∀ p ∈ l, p.swapIn = false)
    (hc : ∀ c ∈ s.host.cmds, ¬(pktOpcode c.pkt = 0x21 ∧ pktCtx c.pkt = n ∧ c.extra = 1)) :
    ∃ t, exec (.teardownComplete n) s = .next t ∧ t = { s with ctxs := t.ctxs, swaps := l } ∧
      ctxOf t n = { ctxOf s n with wiping := false, saved := false } ∧ (∀ m, m ≠ n → ctxOf t m = ctxOf s m) := by
  set t := updCtx n (fun c => { c with wiping := false, saved := false }) { s with swaps := l } with ht
  have hnone : s.host.cmds.find? (fun c => pktOpcode c.pkt = 0x21 && pktCtx c.pkt = n && c.extra = 1) = none := by
    rw [List.find?_eq_none]
    intro c hcm hp
    exact hc c hcm (by simpa [and_assoc] using hp)
  have heq : wiped n s = t := by
    unfold wiped
    simp only [hs, hw, ho, Bool.true_and, decide_true, if_true]
    rw [beginSwapIn_swapOut (by exact hl)]
    split
    · rename_i c hc
      exact absurd (hnone.symm.trans hc) (by simp)
    · rfl
  refine ⟨t, (unitOp_of (wfCtx_of h1 h2) _).trans (congrArg _ heq), rfl, ctxOf_updCtx_self _ _ _, fun m hm => ctxOf_updCtx_ne hm _ _⟩

theorem execSwapDomainComplete_eq (b : Bool) (s : State) : exec (.swapDomainComplete b) s = .next (swapDone b s) := rfl

/-- The operation at the head of the engine's queue has moved its domain. -/
theorem swapDone_head {s : State} {o : SwapOp} {l : List SwapOp} (hs : s.swaps = o :: l) (hw : o.wipe = false)
    (hp : o.swapIn = true → (ctxOf s o.ctx).place = []) : swapDone false s = beginSwapIn (savedOut o.ctx { s with swaps := l }) := by
  have hb : beginSwapIn s = s := beginSwapIn_idle (fun p k hk hi => by
    obtain ⟨rfl, -⟩ := List.cons.inj (hs.symm.trans hk)
    exact hp hi)
  unfold swapDone
  simp [hb, hs, hw]

theorem savedOut_staying {n : Nat} {s : State} (h : (ctxOf s n).state ≠ .swappingOut) : savedOut n s = s := if_pos (by simp [h])

theorem offReady_none {s : State} (h : s.power.domOff = []) : offReady s = s := by simp [offReady, h]

theorem savedOut_last {n : Nat} {s : State} (h : (ctxOf s n).state = .swappingOut) (hs : ∀ p ∈ s.swaps, p.ctx ≠ n) (hd : s.power.domOff = []) :
    savedOut n s = updCtx n (fun c => { c with state := .out, saved := true, alloc := [], evacuating := false }) s := by
  have hany : s.swaps.any (fun o => o.ctx = n) = false := by simpa using hs
  rw [savedOut, if_neg (by simp [hany, h])]
  exact offReady_none hd

theorem swapDomainComplete_next {s : State} {o p : SwapOp} {l k : List SwapOp} (hs : s.swaps = o :: l) (hw : o.wipe = false)
    (hp : o.swapIn = true → (ctxOf s o.ctx).place = []) (ho : (ctxOf s o.ctx).state ≠ .swappingOut) (hl : l = p :: k) (hi : p.swapIn = true)
    (hpl : (ctxOf s p.ctx).place ≠ []) :
    ∃ t, exec (.swapDomainComplete false) s = .next t ∧ t = { s with ctxs := t.ctxs, swaps := l } ∧ (ctxOf t p.ctx).state = .swappingIn ∧
        (ctxOf t p.ctx).alloc = (ctxOf s p.ctx).place ∧ (ctxOf t p.ctx).place = [] ∧ ∀ m, m ≠ p.ctx → ctxOf t m = ctxOf s m := by
  have heq : swapDone false s = _ := (swapDone_head hs hw hp).trans ((congrArg beginSwapIn (savedOut_staying (by exact ho))).trans
    (beginSwapIn_reaches (s := { s with swaps := l }) hl hi (by exact hpl)))
  refine ⟨_, rfl, ?_, ?_, ?_, ?_, fun m hm => ?_⟩ <;> rw [heq]
  · rfl
  · rw [ctxOf_updCtx_self]
  · rw [ctxOf_updCtx_self]; rfl
  · rw [ctxOf_updCtx_self]
  · rw [ctxOf_updCtx_ne hm]; rfl

theorem swapDomainComplete_saved {s : State} {o : SwapOp} {l : List SwapOp} (hs : s.swaps = o :: l) (hw : o.wipe = false)
    (hp : o.swapIn = true → (ctxOf s o.ctx).place = []) (ho : (ctxOf s o.ctx).state = .swappingOut) (hl : ∀ p ∈ l, p.ctx ≠ o.ctx ∧ p.swapIn = false)
    (hd : s.power.domOff = []) :
    ∃ t, exec (.swapDomainComplete false) s = .next t ∧ t = { s with ctxs := t.ctxs, swaps := l } ∧
        ctxOf t o.ctx = { ctxOf s o.ctx with state := .out, saved := true, alloc := [], evacuating := false } ∧
        (∀ m, m ≠ o.ctx → ctxOf t m = ctxOf s m) := by
  have hsaved := savedOut_last (s := { s with swaps := l }) (by exact ho) (fun p h => (hl p h).1) hd
  have heq : swapDone false s = _ := (swapDone_head hs hw hp).trans ((congrArg beginSwapIn hsaved).trans
    (beginSwapIn_swapOut (by exact fun p h => (hl p h).2)))
  refine ⟨_, rfl, ?_, ?_, fun m hm => ?_⟩ <;> rw [heq]
  · rfl
  · rw [ctxOf_updCtx_self]; rfl
  · rw [ctxOf_updCtx_ne hm]; rfl

/-! ### Late PIPE batches (R425) -/

theorem execPipeBatchTimeout_eq (tag : Nat) (s : State) : exec (.pipeBatchTimeout tag) s = .next (pipeLate tag s) := rfl

theorem tag_of_cmdOf {s : State} {tag : Nat} {c : Cmd} (h : cmdOf s tag = some c) : c.tag = tag := by
  simpa using List.find?_some h

theorem completeWith_eq {s : State} {tag : Nat} {c : Cmd} (h : cmdOf s tag = some c) (st : Status) (result : List (Nat × List Byte)) :
    completeWith tag st result s = { s with host := { s.host with
      cmds := s.host.cmds.filter (fun d => d.tag != tag), done := s.host.done ++ [recordOf s c st result] } } := by
  simp [completeWith, h]

theorem pipeLate_eq {s : State} {tag : Nat} {c : Cmd} (h : cmdOf s tag = some c) (hp : pipeWaiting c = true)
    (hr : ∀ u, (ctxOf s (pktCtx c.pkt)).run = some u → u.tag ≠ tag) :
    pipeLate tag s = if c.extra + (ctxOf s (pktCtx c.pkt)).runFrames ≤ s.frame.counter.toNat then faultCmd 0x21 0xFFFFFFFF c s else s := by
  have hrun : (ctxOf s (pktCtx c.pkt)).run.any (fun u => u.tag = tag) = false := by
    cases hu : (ctxOf s (pktCtx c.pkt)).run with
    | none => rfl
    | some u => simpa using hr u hu
  simp [pipeLate, h, hp, hrun]

/-- The result of a waiting PIPE batch whose input is sound: every request FAULTED. -/
theorem faultedResult_pipe {c : Cmd} (hp : pipeWaiting c = true) (hi : inputReady c = true) (hl : listErr c = none) :
    faultedResult c = splitWrite (bufPieces c) (pktField c.pkt 16 4) (padTo 256 (List.replicate (pktField c.pkt 8 2) 3)) := by
  obtain ⟨⟨hop, -⟩, -⟩ : (pktPipe c.pkt = true ∧ _) ∧ _ := by simpa [pipeWaiting] using hp
  have h40 : pktOpcode c.pkt = 0x40 := by
    simp only [pktPipe, Bool.and_eq_true, decide_eq_true_eq] at hop
    exact hop.1
  exact if_pos (by simp [h40, hi, hl])

theorem pipeBatchTimeout_late {tag : Nat} {c : Cmd} {s : State} (h : cmdOf s tag = some c) (hp : pipeWaiting c = true)
    (hr : ∀ u, (ctxOf s (pktCtx c.pkt)).run = some u → u.tag ≠ tag)
    (hlate : c.extra + (ctxOf s (pktCtx c.pkt)).runFrames ≤ s.frame.counter.toNat) (hi : inputReady c = true) (hl : listErr c = none) :
    ∃ t, exec (.pipeBatchTimeout tag) s = .next t ∧ OnlyHostChanges s t ∧
      t.host = { s.host with cmds := s.host.cmds.filter (fun d => d.tag != tag), done := s.host.done ++ [recordOf s c
        { cls := 4, code := 1, r0 := 0x21, r1 := 0xFFFFFFFF }
        (splitWrite (bufPieces c) (pktField c.pkt 16 4) (padTo 256 (List.replicate (pktField c.pkt 8 2) 3)))] } := by
  have htag := tag_of_cmdOf h
  have heq : pipeLate tag s = completeWith tag (stContextFault 0x21 0xFFFFFFFF)
      (splitWrite (bufPieces c) (pktField c.pkt 16 4) (padTo 256 (List.replicate (pktField c.pkt 8 2) 3))) s := by
    rw [pipeLate_eq h hp hr, if_pos hlate, faultCmd, faultedResult_pipe hp hi hl, htag]
  rw [completeWith_eq h] at heq
  refine ⟨pipeLate tag s, execPipeBatchTimeout_eq tag s, ?_, ?_⟩
  · rw [heq]; rfl
  · rw [heq]; rfl

/-- Settles O46: the plan, the snapshot, slices, the swap engine and late PIPE batches, each from its own lemmas above. -/
theorem schedulingOfAFrame : Obligations.SchedulingOfAFrame := by
  unfold Obligations.SchedulingOfAFrame
  refine ⟨fun s => ⟨fun hc => ?_, fun hc hr => ?_, fun hc hr hw => ?_, fun n ds => framePlanClose_waiting⟩,
    fun s => ⟨fun hd => ?_, fun n c => deadlineSnapshot_runnable⟩,
    fun n s h1 h2 => ⟨sliceStart_ready h1 h2, sliceStart_waits h1 h2, fun h => ⟨sliceEnd_idle h1 h2 h, fun ns d => sliceEnd_overrun h1 h2 h⟩,
      fun o l => teardownComplete_wiped h1 h2⟩,
    fun o l s hs hw hp => ⟨fun ho hl => ?_, fun ho p k hl hi _ hpl => swapDomainComplete_next hs hw hp ho hl hi hpl,
      fun ho hl hd => swapDomainComplete_saved hs hw hp ho hl hd⟩,
    fun tag c s h hp hr => ⟨pipeBatchTimeout_late h hp hr, fun hearly => ?_⟩⟩
  · exact congrArg Host.Outcome.next (if_pos hc)
  · have hfold : (if awake s then (waitingCtxs s).foldl (fun s n => placeCtx n s) s else s) = s := if_neg (by simpa [awake] using hr)
    rw [execFramePlanClose_eq, closePlan_eq hc hfold, if_neg (by simpa [awake] using hr)]
  · have hfold : (if awake s then (waitingCtxs s).foldl (fun s n => placeCtx n s) s else s) = s := by simp [hw]
    rw [execFramePlanClose_eq, closePlan_eq hc hfold, if_pos (by simpa [awake] using hr)]
  · exact congrArg Host.Outcome.next (if_pos hd)
  · rw [execSwapDomainComplete_eq, swapDone_head hs hw hp, savedOut_staying (by exact ho), beginSwapIn_swapOut (by exact hl)]
  · rw [execPipeBatchTimeout_eq, pipeLate_eq h hp hr, if_neg (by omega)]

end Sys2Proof.Machine
end

section
/-! SUPPORT. Proofs of the frame and timing statements (chapter 2): writes into a copy, and the input of execution commands (O42). -/

namespace Sys2Proof.Machine
open Claims

/-! ### What a write into a copy leaves: all but objects and logs (R307, R308) -/

/-- The state but for the objects and the logs. -/
def besideCopies (s : State) : State := { s with objs := [], logs := {} }

@[simp] theorem besideCopies_foldl {α : Type} {f : State → α → State} (h : ∀ s a, besideCopies (f s a) = besideCopies s) (l : List α)
    (s : State) : besideCopies (l.foldl f s) = besideCopies s := by
  induction l generalizing s with
  | nil => rfl
  | cons a l ih => rw [List.foldl_cons, ih, h]

@[simp] theorem besideCopies_updObj (id : Nat) (f : Obj → Obj) (s : State) : besideCopies (updObj id f s) = besideCopies s := by
  unfold updObj; split <;> rfl

@[simp] theorem besideCopies_logWords (m : CodeMemory) (req : Nat) (ws : List Nat) (s : State) :
    besideCopies (logWords m req ws s) = besideCopies s := by
  unfold logWords; rw [besideCopies_foldl]; intro s w; rfl

@[simp] theorem besideCopies_meetT2 (req id a n : Nat) (s : State) : besideCopies (meetT2 req id a n s) = besideCopies s := by
  unfold meetT2; dsimp only; split <;> simp

@[simp] theorem besideCopies_engineWrite (id a n : Nat) (f : Store → Store) (s : State) : besideCopies (engineWrite id a n f s) = besideCopies s := by
  unfold engineWrite
  split
  · rfl
  · simp [putGranule]

theorem eq_of_besideCopies {s t : State} (h : besideCopies t = besideCopies s) : t = { s with objs := t.objs, logs := t.logs } :=
  calc t = { besideCopies t with objs := t.objs, logs := t.logs } := rfl
    _ = { besideCopies s with objs := t.objs, logs := t.logs } := by rw [h]

/-! ### The input of an execution command (R210, R423) -/

theorem besideCopies_meetInput (n len : Nat) (s : State) : besideCopies (meetInput n len s) = besideCopies s := by
  unfold meetInput; split
  · rfl
  · simp [meetEdges]

theorem besideCopies_copyInput (n : Nat) (bs : List Byte) (s : State) : besideCopies (copyInput n bs s) = besideCopies s := by
  unfold copyInput; split <;> simp

theorem rawBad_clean {m : Store} (h : m.raw = []) (kind w a n : Nat) : rawBad kind w m a n = [] := by
  unfold rawBad rawWords; simp [h]

/-- A copy without raw errors is read without a find. -/
theorem meetT2_clean {s : State} {id : Nat} {o : Obj} {m : T2Copy} (ho : objOf s id = some o) (hm : o.copy = some m) (hr : m.data.raw = [])
    (req a n : Nat) : meetT2 req id a n s = s := by
  unfold meetT2
  simp [ho, hm, rawBad_clean hr]

theorem meetInput_clean {s : State} {n id : Nat} {o : Obj} {m : T2Copy} (hslot : mainSlot s n 0 = some id) (ho : objOf s id = some o)
    (hm : o.copy = some m) (hr : m.data.raw = []) (len : Nat) : meetInput n len s = s := by
  have hfold (l : List Nat) : l.foldl (fun s w => meetT2 srcHost id (w * 64) 64 s) s = s := by
    induction l with
    | nil => rfl
    | cons w l ih => rw [List.foldl_cons, meetT2_clean ho hm hr, ih]
  simp only [meetInput, hslot, meetEdges, hfold]

/-- A copy that misses no granule is written in place. -/
theorem putGranule_whole {s : State} {id : Nat} {o : Obj} {m : T2Copy} (ho : objOf s id = some o) (hm : o.copy = some m) (hg : m.missing = [])
    (g : Nat) (x : Store) : objOf (putGranule id g x s) id = some o := by
  simp [putGranule, ho, hm, hg]

theorem putGranule_ne {id j : Nat} (h : j ≠ id) (g : Nat) (x : Store) (s : State) : objOf (putGranule id g x s) j = objOf s j :=
  objOf_updObj_ne h _ _

theorem engineWrite_self {s : State} {id : Nat} {o : Obj} {m : T2Copy} (ho : objOf s id = some o) (hm : o.copy = some m) (hg : m.missing = [])
    (a n : Nat) (f : Store → Store) : objOf (engineWrite id a n f s) id = some { o with copy := some { m with data := f m.data, dirty := true } } := by
  have hfold (l : List (Nat × Nat × Nat)) : ∀ u, objOf u id = some o → objOf (l.foldl (fun u g => putGranule id g.1 (fetchedGranule u o g.1) u) u) id = some o := by
    induction l with
    | nil => exact fun _ h => h
    | cons g l ih => exact fun u hu => ih _ (putGranule_whole hu hm hg _ _)
  unfold engineWrite
  simp only [ho]
  rw [objOf_updObj_self, hfold _ _ ho]
  simp [hm]

theorem engineWrite_ne {id j : Nat} (h : j ≠ id) (a n : Nat) (f : Store → Store) (s : State) : objOf (engineWrite id a n f s) j = objOf s j := by
  have hfold (o : Obj) (l : List (Nat × Nat × Nat)) : ∀ u, objOf (l.foldl (fun u g => putGranule id g.1 (fetchedGranule u o g.1) u) u) j = objOf u j := by
    induction l with
    | nil => exact fun _ => rfl
    | cons g l ih => exact fun u => (ih _).trans (putGranule_ne h _ _ _)
  unfold engineWrite
  split
  · rfl
  · rw [objOf_updObj_ne h, hfold]

theorem patchCopy_clean {m : Store} (h : m.poison = []) (a : Nat) (bs : List Byte) : patchCopy m a bs = storeWrite 64 m a bs := by
  simp [patchCopy, storeWrite, h]

theorem copyInput_written {s : State} {n id : Nat} {o : Obj} {m : T2Copy} (hslot : mainSlot s n 0 = some id) (ho : objOf s id = some o)
    (hm : o.copy = some m) (hg : m.missing = []) (hp : m.data.poison = []) (bs : List Byte) :
    (∃ x, objOf (copyInput n bs s) id = some { o with copy := some { m with data := x, dirty := true } } ∧ BytesWritten m.data x 0 bs) ∧
      ∀ j, j ≠ id → objOf (copyInput n bs s) j = objOf s j := by
  simp only [copyInput, hslot]
  refine ⟨⟨patchCopy m.data 0 bs, engineWrite_self ho hm hg _ _ _, fun x => ?_⟩, fun j hj => engineWrite_ne hj _ _ _ _⟩
  rw [patchCopy_clean hp, storeByte_storeWrite]

/-! ### Joining a plan (R50) -/

theorem joinPlan_host (c : Cmd) (plan : Nat) (s : State) : (joinPlan c plan s).host =
    { s.host with cmds := s.host.cmds.map (fun d => if d.tag = c.tag then { d with phase := .ready, plan := plan } else d) } := by
  unfold joinPlan wakeCtx; split <;> rfl

theorem joinPlan_eq (c : Cmd) (plan : Nat) (s : State) :
    joinPlan c plan s = { s with host := (joinPlan c plan s).host, ctxs := (joinPlan c plan s).ctxs } := by
  unfold joinPlan wakeCtx; split <;> rfl

/-- An execution command that is ready is work for its context. -/
theorem hasWork_ready {s : State} {c : Cmd} (h : cmdOf s c.tag = some c) (hx : isExecution (pktOpcode c.pkt) = true) {f : Cmd → Cmd}
    (hd : (f c).pkt = c.pkt) (hr : (f c).phase = .ready) : hasWork (updCmd c.tag f s) (pktCtx c.pkt) = true := by
  have hmem : f c ∈ (updCmd c.tag f s).host.cmds := List.mem_map.mpr ⟨c, List.mem_of_find?_eq_some h, if_pos rfl⟩
  have hwants : wantsRun (updCmd c.tag f s) (pktCtx c.pkt) (f c) = true := by
    simp [wantsRun, execWaits, hd, hx, hr]
  rw [hasWork, Bool.or_eq_true]
  exact .inl (List.any_eq_true.mpr ⟨f c, hmem, hwants⟩)

theorem joinsPlan_joinPlan {s : State} {c : Cmd} (h : cmdOf s c.tag = some c) (hx : isExecution (pktOpcode c.pkt) = true) (plan : Nat) :
    JoinsPlan c (fun _ => plan) s (joinPlan c plan s) := by
  have hwork := hasWork_ready h hx (f := fun d => { d with phase := .ready, plan := plan }) rfl rfl
  refine ⟨joinPlan_host c plan s, fun n hn => ?_, ?_⟩
  · unfold joinPlan wakeCtx
    split
    · exact ctxOf_updCtx_ne hn _ _
    · rfl
  · unfold joinPlan wakeCtx
    have hctx : ctxOf (updCmd c.tag (fun d => { d with phase := .ready, plan := plan }) s) (pktCtx c.pkt) = ctxOf s (pktCtx c.pkt) := rfl
    rw [hwork, hctx, Bool.and_true]
    by_cases hb : (ctxOf s (pktCtx c.pkt)).state = .blocked
    · simp only [hb, decide_true, if_true]
      rw [ctxOf_updCtx_self, hctx]
    · simp only [hb, decide_false, Bool.false_eq_true, if_false]
      exact hctx

end Sys2Proof.Machine
end

section
/-! SUPPORT. Proofs of the frame and timing statements (chapter 2): batches, steps and the start of a run (O42). -/

namespace Sys2Proof.Machine
open Claims

/-! ### Batches and steps at their unit (R423, R425) -/

theorem cmdOf_of_atUnit {s : State} {op tag : Nat} {c : Cmd} (h : AtUnit s op tag c) : cmdOf s c.tag = some c ∧ pktOpcode c.pkt = op ∧ c.tag = tag := by
  obtain ⟨h1, h2, -⟩ := h
  have htag := tag_of_cmdOf h1
  exact ⟨htag ▸ h1, h2, htag⟩

theorem cmdOf_congr {s t : State} (h : t.host = s.host) (tag : Nat) : cmdOf t tag = cmdOf s tag := by rw [cmdOf, cmdOf, h]

theorem JoinsPlan_congr {c : Cmd} {plan : Cmd → Nat} {s u t : State} (hh : u.host = s.host) (hc : u.ctxs = s.ctxs) (h : JoinsPlan c plan u t) :
    JoinsPlan c plan s t := by
  obtain ⟨hhost, hne, hself⟩ := h
  refine ⟨by rw [hhost, hh], fun n hn => (hne n hn).trans (ctxOf_congr hc n), ?_⟩
  rw [hself, ctxOf_congr hc]

/-- Input that passes its checks, with the units at hand: the command joins its plan, with the input copied where it has one. -/
theorem takeInput_sound {c : Cmd} {s : State} {inLen outLen : Nat} (inOff outOff : Nat) (hp : (ctxOf s (pktCtx c.pkt)).prog.isSome = true)
    (hi : inLen ≠ 0 → ioOk s (pktCtx c.pkt) 0 inLen = true) (ho : outLen ≠ 0 → ioOk s (pktCtx c.pkt) 1 outLen = true)
    (hb : inLen ≠ 0 → inputBad (meetInput (pktCtx c.pkt) inLen s) (pktCtx c.pkt) inLen = none) :
    takeInput c true inLen outLen inOff outOff s = if inLen = 0 then joinPlan c c.plan s else
      joinPlan c (max c.plan (planNow (meetInput (pktCtx c.pkt) inLen s)))
        (copyInput (pktCtx c.pkt) ((cmdData c).take inLen) (meetInput (pktCtx c.pkt) inLen s)) := by
  have hnone : (ctxOf s (pktCtx c.pkt)).prog.isNone = false := by
    cases h : (ctxOf s (pktCtx c.pkt)).prog <;> simp [h] at hp ⊢
  have hin : (inLen != 0 && !ioOk s (pktCtx c.pkt) 0 inLen) = false := by
    by_cases h : inLen = 0
    · simp [h]
    · simp [hi h]
  have hout : (outLen != 0 && !ioOk s (pktCtx c.pkt) 1 outLen) = false := by
    by_cases h : outLen = 0
    · simp [h]
    · simp [ho h]
  simp only [takeInput, hnone, hin, hout, Bool.not_true, Bool.false_eq_true, if_false]
  by_cases h : inLen = 0
  · simp only [if_pos h]
  · simp only [if_neg h, hb h]

/-- What the statement says of a batch or a step that joins its plan. -/
theorem takeInput_joins {c : Cmd} {s : State} {inLen outLen : Nat} (inOff outOff : Nat) (hc : cmdOf s c.tag = some c)
    (hx : isExecution (pktOpcode c.pkt) = true) (hp : (ctxOf s (pktCtx c.pkt)).prog.isSome = true)
    (hi : inLen ≠ 0 → ioOk s (pktCtx c.pkt) 0 inLen = true) (ho : outLen ≠ 0 → ioOk s (pktCtx c.pkt) 1 outLen = true)
    (hb : inLen ≠ 0 → inputBad (meetInput (pktCtx c.pkt) inLen s) (pktCtx c.pkt) inLen = none) {t : State}
    (ht : takeInput c true inLen outLen inOff outOff s = t) :
    JoinsPlan c (fun _ => if inLen = 0 then c.plan else max c.plan (planNow s)) s t ∧
      t = { s with host := t.host, ctxs := t.ctxs, objs := t.objs, logs := t.logs } ∧
      (inLen = 0 → t.objs = s.objs ∧ t.logs = s.logs) ∧
      (∀ id o m, inLen ≠ 0 → mainSlot s (pktCtx c.pkt) 0 = some id → objOf s id = some o → o.copy = some m → m.missing = [] → m.data.poison = [] →
        m.data.raw = [] →
        (∃ x, objOf t id = some { o with copy := some { m with data := x, dirty := true } } ∧ BytesWritten m.data x 0 ((cmdData c).take inLen)) ∧
        (∀ j, j ≠ id → objOf t j = objOf s j)) := by
  rw [takeInput_sound inOff outOff hp hi ho hb] at ht
  by_cases h : inLen = 0
  · simp only [if_pos h] at ht ⊢
    have heq := joinPlan_eq c c.plan s
    refine ⟨ht ▸ joinsPlan_joinPlan hc hx _, ?_, fun _ => ?_, fun _ _ _ hn => absurd h hn⟩
    · rw [← ht, heq]
    · rw [← ht, heq]; exact ⟨rfl, rfl⟩
  · simp only [if_neg h] at ht ⊢
    set u := copyInput (pktCtx c.pkt) ((cmdData c).take inLen) (meetInput (pktCtx c.pkt) inLen s) with hu
    have hmeet := besideCopies_meetInput (pktCtx c.pkt) inLen s
    have hbeside : besideCopies u = besideCopies s := (besideCopies_copyInput _ _ _).trans hmeet
    have hhost : u.host = s.host := (congrArg State.host hbeside :)
    have hctxs : u.ctxs = s.ctxs := (congrArg State.ctxs hbeside :)
    have hplan : planNow (meetInput (pktCtx c.pkt) inLen s) = planNow s := (congrArg planNow hmeet :)
    rw [hplan] at ht
    have heq := joinPlan_eq c (max c.plan (planNow s)) u
    refine ⟨JoinsPlan_congr hhost hctxs (ht ▸ joinsPlan_joinPlan ((cmdOf_congr hhost _).trans hc) hx _), ?_, fun hz => absurd hz h, ?_⟩
    · rw [← ht, heq]
      rw [eq_of_besideCopies hbeside]
    · intro id o m _ hslot hob hm hg hpo hr
      have hobjs (j : Nat) : objOf t j = objOf u j := by rw [← ht, heq]; rfl
      rw [meetInput_clean hslot hob hm hr] at hu
      obtain ⟨⟨x, hx, hw⟩, hne⟩ := copyInput_written hslot hob hm hg hpo ((cmdData c).take inLen)
      exact ⟨⟨x, by rw [hobjs, hu, hx], hw⟩, fun j hj => by rw [hobjs, hu, hne j hj]⟩

theorem settleCtx_host (n : Nat) (s : State) : (settleCtx n s).host = s.host := by
  unfold settleCtx leaveSlice
  split
  · split
    · exact congrArg (fun v => v.1.host) (besideTransfers_pauseCtx n s)
    · rfl
  · rfl

theorem commandCompletes_refuseExec {s : State} {c : Cmd} (h : cmdOf s c.tag = some c) (st : Status) : CommandCompletes c st s (refuseExec c st s) :=
  (settleCtx_host _ _).trans (complete_host h st)

theorem takeInput_busy {c : Cmd} {s : State} {inLen : Nat} (inOff outOff : Nat) (hp : (ctxOf s (pktCtx c.pkt)).prog.isSome = true)
    (hi : inLen ≠ 0 → ioOk s (pktCtx c.pkt) 0 inLen = true) : takeInput c false inLen 0 inOff outOff s = refuseExec c stUnitUnavailable s := by
  have hnone : (ctxOf s (pktCtx c.pkt)).prog.isNone = false := by
    cases h : (ctxOf s (pktCtx c.pkt)).prog <;> simp [h] at hp ⊢
  have hin : (inLen != 0 && !ioOk s (pktCtx c.pkt) 0 inLen) = false := by
    by_cases h : inLen = 0
    · simp [h]
    · simp [hi h]
  simp only [takeInput, hnone, hin, Bool.false_eq_true, if_false]
  simp

/-! ### STEP_VOID (R384) -/

theorem cmdOf_updCmd_self {s : State} {tag : Nat} {c : Cmd} (h : cmdOf s tag = some c) {f : Cmd → Cmd} (hf : ∀ d, (f d).tag = d.tag) :
    cmdOf (updCmd tag f s) tag = some (f c) := by
  have htag := tag_of_cmdOf h
  have hp : ((fun d : Cmd => decide (d.tag = tag)) ∘ fun d => if d.tag = tag then f d else d) = fun d => decide (d.tag = tag) := by
    funext d
    by_cases hd : d.tag = tag <;> simp [hd, hf]
  change (s.host.cmds.map (fun d => if d.tag = tag then f d else d)).find? (fun d => decide (d.tag = tag)) = some (f c)
  rw [List.find?_map, hp]
  change (cmdOf s tag).map _ = _
  rw [h, Option.map_some, if_pos htag]

theorem complete_onlyHost (tag : Nat) (st : Status) (s : State) : OnlyHostChanges s (complete tag st s) := by
  unfold complete completeWith; split <;> rfl

theorem commandCompletes_complete {s : State} {c d : Cmd} (h : cmdOf s c.tag = some d) (hd : d.pkt = c.pkt) (st : Status) :
    CommandCompletes c st s (complete c.tag st s) := by
  have htag := tag_of_cmdOf h
  have hrec : recordOf s d st [] = recordOf s c st [] := by simp [recordOf, hd, htag]
  rw [CommandCompletes, complete_host h, hrec]

theorem flipSel_beside (id : Nat) (s : State) : besideCopies (flipSel id s) = besideCopies s := by
  unfold flipSel; dsimp only; split <;> simp

theorem applyStepVoid_none {s : State} {c : Cmd} (h1 : (ctxOf s (pktCtx c.pkt)).steps = []) (h2 : (ctxOf s (pktCtx c.pkt)).lastStep = none) :
    applyStepVoid c s = complete c.tag (stSuccess 0 0 0) s := by
  simp [applyStepVoid, h1, h2]

theorem applyStepVoid_last {s : State} {c : Cmd} {j : Nat} {ids : List Nat} (h1 : (ctxOf s (pktCtx c.pkt)).steps = [])
    (h2 : (ctxOf s (pktCtx c.pkt)).lastStep = some (j, ids)) : applyStepVoid c s =
    if j = pktField c.pkt 8 4 then
      complete c.tag (stSuccess 2 0 0) (updCtx (pktCtx c.pkt) (fun x => { x with lastStep := none }) (flipStep (pktCtx c.pkt) ids s))
    else complete c.tag (stSuccess 0 0 0) s := by
  simp [applyStepVoid, h1, h2]

/-! ### A run starts (R111, R381, R425) -/

theorem mapFind_map_key {α : Type} (f : Nat → α) (k : Nat) (l : List Nat) (h : k ∈ l) : mapFind k (l.map (fun i => (i, f i))) = some (f k) := by
  induction l with
  | nil => exact absurd h List.not_mem_nil
  | cons i l ih =>
    by_cases hk : k = i
    · subst hk; simp [mapFind]
    · have hl : k ∈ l := List.mem_of_ne_of_mem hk h
      simpa [mapFind, Ne.symm hk] using ih hl

theorem mapGet_initCores {p : Program} {i : Nat} (h : i < progCores p) (seed : Word64) (m : SMap Core) :
    mapGet {} (initCores p seed m) i = initCore p seed i (mapGet {} m i) := by
  rw [mapGet, initCores, mapFind_map_key _ _ _ (List.mem_range.mpr h), Option.getD_some]

/-- A context in which the run `u` has started, with these cores, and holds a step of this kind. -/
def Started (u : Run) (cores : SMap Core) (c : Context) : Prop := c.run = some u ∧ c.state = .runnable ∧ c.cores = cores

theorem started_startRun {n : Nat} {s : State} {p : Program} (h : (ctxOf s n).prog = some p) (u : Run) :
    Started u (initCores p u.seed (ctxOf s n).cores) (ctxOf (startRun n u s) n) := by
  unfold startRun
  simp only [h]
  rw [ctxOf_updCtx_self]
  exact ⟨rfl, rfl, rfl⟩

/-- A step's line is written into clusters alone. -/
theorem ctxOf_writeStep (n : Nat) (st : Step) (b : Bool) (s : State) : ∃ k, ctxOf (writeStep n st b s) n = { ctxOf s n with clusters := k } := by
  have one (lc : Nat) (g : Cluster → Cluster) (u : State) : ∃ k, ctxOf (updCluster n lc g u) n = { ctxOf u n with clusters := k } :=
    ⟨_, ctxOf_updCtx_self n _ u⟩
  unfold writeStep onClusters
  generalize lclusters s n = l
  induction l generalizing s with
  | nil => exact ⟨_, rfl⟩
  | cons lc l ih =>
    rw [List.foldl_cons]
    obtain ⟨k, hk⟩ := ih (setFlag n lc 30 b (t1Write n lc 64 (stepLine (ctxOf s n).parity st) s))
    obtain ⟨i, hi⟩ := one lc (fun c => { c with flags := if b then c.flags ||| ((1 : Word32) <<< 30) else c.flags &&& ~~~((1 : Word32) <<< 30) })
      (t1Write n lc 64 (stepLine (ctxOf s n).parity st) s)
    obtain ⟨j, hj⟩ := one lc (fun c => { c with t1 := storeWrite 64 c.t1 64 (stepLine (ctxOf s n).parity st) }) s
    exact ⟨k, by rw [hk]; unfold setFlag t1Write at *; rw [hi, hj]⟩

/-- The steps of a context that hold the step a command started. -/
def HoldsStep (c : Cmd) (start : Nat) (x : Step) : Prop :=
  x.tag = c.tag ∧ x.step = pktField c.pkt 8 4 ∧ x.start = start ∧ x.redFrames = pktField c.pkt 12 2

/-- A step put back with its outcome: the context's run stands, and so does the step of the command. -/
theorem started_putStep {u : Run} {cores : SMap Core} {c : Cmd} {start n : Nat} {st : Step} {o : StepOutcome} {s : State}
    (h : Started u cores (ctxOf s n) ∧ ∃ x ∈ (ctxOf s n).steps, HoldsStep c start x) (hst : st.tag = c.tag → HoldsStep c start st) :
    let t := writeStep n { st with outcome := o } true (putStep n { st with outcome := o } s)
    Started u cores (ctxOf t n) ∧ ∃ x ∈ (ctxOf t n).steps, HoldsStep c start x := by
  obtain ⟨⟨hrun, hstate, hcores⟩, x, hx, hholds⟩ := h
  obtain ⟨k, hk⟩ := ctxOf_writeStep n { st with outcome := o } true (putStep n { st with outcome := o } s)
  rw [putStep, ctxOf_updCtx_self] at hk
  refine ⟨by rw [putStep, hk]; exact ⟨hrun, hstate, hcores⟩, ?_⟩
  rw [putStep, hk]
  by_cases htag : x.tag = st.tag
  · exact ⟨{ st with outcome := o }, List.mem_map.mpr ⟨x, hx, if_pos htag⟩, hst (htag ▸ hholds.1)⟩
  · exact ⟨x, List.mem_map.mpr ⟨x, hx, if_neg htag⟩, hholds⟩

theorem started_stepCheck {u : Run} {cores : SMap Core} {c : Cmd} {start n : Nat} {s : State}
    (h : Started u cores (ctxOf s n) ∧ ∃ x ∈ (ctxOf s n).steps, HoldsStep c start x)
    (hst : ∀ st ∈ (ctxOf s n).steps, st.tag = c.tag → HoldsStep c start st) :
    Started u cores (ctxOf (stepCheck n s) n) ∧ ∃ x ∈ (ctxOf (stepCheck n s) n).steps, HoldsStep c start x := by
  unfold stepCheck
  have hl : ∀ st ∈ (ctxOf s n).steps.filter (fun st => st.outcome = .pending && st.tags.all (fun t => st.doneTags.contains t) &&
    s.frame.counter.toNat < st.start + st.redFrames), st.tag = c.tag → HoldsStep c start st := fun st hm => hst st (List.mem_of_mem_filter hm)
  revert hl
  generalize (ctxOf s n).steps.filter _ = l
  clear hst
  intro hl
  induction l generalizing s with
  | nil => exact h
  | cons st l ih =>
    rw [List.foldl_cons]
    exact ih (started_putStep h (hl st List.mem_cons_self)) (fun x hx => hl x (List.mem_cons_of_mem _ hx))

/-- The run of a batch (R425). -/
def batchRun (c : Cmd) (s : State) : Run :=
  { kind := if pktPipe c.pkt then .pipe else .batch, tag := c.tag, startFrame := s.frame.counter.toNat, seed := BitVec.ofNat 64 (pktField c.pkt 40 8)
    arg0 := BitVec.ofNat 64 (pktField c.pkt 24 8), arg1 := BitVec.ofNat 64 (pktField c.pkt 32 8), nreq := pktField c.pkt 8 2 }

/-- The run of a step (R381). -/
def stepRun (c : Cmd) (s : State) : Run :=
  { kind := .step, tag := c.tag, startFrame := s.frame.counter.toNat, seed := BitVec.ofNat 64 (pktField c.pkt 40 8)
    arg0 := BitVec.ofNat 64 (pktField c.pkt 24 8), arg1 := BitVec.ofNat 64 (pktField c.pkt 32 8) }

/-- The command runs since this frame. -/
def nowRunning (c : Cmd) (s : State) : State := updCmd c.tag (fun d => { d with phase := .running, extra := s.frame.counter.toNat }) s

theorem startBatch_eq (c : Cmd) (s : State) : startBatch c s = startRun (pktCtx c.pkt) (batchRun c s) (nowRunning c s) := rfl

theorem started_startBatch {c : Cmd} {s : State} {p : Program} (h : (ctxOf s (pktCtx c.pkt)).prog = some p) :
    Started (batchRun c s) (initCores p (batchRun c s).seed (ctxOf s (pktCtx c.pkt)).cores) (ctxOf (startBatch c s) (pktCtx c.pkt)) :=
  started_startRun (s := nowRunning c s) h (batchRun c s)

/-- The step that a command starts, its buckets fixed (R381). -/
def newStep (c : Cmd) (s : State) : Step :=
  let tags := stepTags s (pktCtx c.pkt) (pktField c.pkt 8 4)
  let t := startRun (pktCtx c.pkt) (stepRun c s) (nowRunning c s)
  { step := pktField c.pkt 8 4, tag := c.tag, start := s.frame.counter.toNat, redFrames := pktField c.pkt 12 2, tags := tags, resids := tagResids t tags }

theorem startStep_eq (c : Cmd) (s : State) : startStep c s =
    stepCheck (pktCtx c.pkt) (writeStep (pktCtx c.pkt) (newStep c s) false
      (updCtx (pktCtx c.pkt) (fun x => { x with lastStep := none, steps := x.steps ++ [newStep c s] })
        (startRun (pktCtx c.pkt) (stepRun c s) (nowRunning c s)))) := rfl

theorem startRun_steps (n : Nat) (u : Run) (s : State) : (ctxOf (startRun n u s) n).steps = (ctxOf s n).steps := by
  unfold startRun; split
  · rfl
  · rw [ctxOf_updCtx_self]

theorem started_startStep {c : Cmd} {s : State} {p : Program} (h : (ctxOf s (pktCtx c.pkt)).prog = some p)
    (hs : ∀ x ∈ (ctxOf s (pktCtx c.pkt)).steps, x.tag ≠ c.tag) :
    Started (stepRun c s) (initCores p (stepRun c s).seed (ctxOf s (pktCtx c.pkt)).cores) (ctxOf (startStep c s) (pktCtx c.pkt)) ∧
      ∃ x ∈ (ctxOf (startStep c s) (pktCtx c.pkt)).steps, HoldsStep c s.frame.counter.toNat x := by
  have hnew : HoldsStep c s.frame.counter.toNat (newStep c s) := ⟨rfl, rfl, rfl, rfl⟩
  obtain ⟨hrun, hstate, hcores⟩ := started_startRun (s := nowRunning c s) h (stepRun c s)
  have hsteps : (ctxOf (startRun (pktCtx c.pkt) (stepRun c s) (nowRunning c s)) (pktCtx c.pkt)).steps = (ctxOf s (pktCtx c.pkt)).steps :=
    startRun_steps _ _ _
  rw [startStep_eq]
  obtain ⟨k, hk⟩ := ctxOf_writeStep (pktCtx c.pkt) (newStep c s) false
    (updCtx (pktCtx c.pkt) (fun x => { x with lastStep := none, steps := x.steps ++ [newStep c s] })
      (startRun (pktCtx c.pkt) (stepRun c s) (nowRunning c s)))
  rw [ctxOf_updCtx_self] at hk
  refine started_stepCheck ⟨by rw [hk]; exact ⟨hrun, hstate, hcores⟩, newStep c s, ?_, hnew⟩ (fun st hm htag => ?_)
  · rw [hk]; exact List.mem_append_right _ List.mem_cons_self
  · rw [hk] at hm
    rcases List.mem_append.mp hm with hold | hlast
    · exact absurd htag (hs st (hsteps ▸ hold))
    · rw [List.mem_singleton.mp hlast]; exact hnew

end Sys2Proof.Machine
end

section
/-! SUPPORT. Proofs of the frame and timing statements (chapter 2): answers and STEP_VOID (O42). -/

namespace Sys2Proof.Machine
open Claims

/-! ### The answer line (R425) -/

theorem cellsOf_zeros (a n : Nat) : cellsOf a (zeros n) = [] := by
  induction n generalizing a with
  | zero => rfl
  | succ n ih => simpa [cellsOf, zeros, List.replicate_succ] using ih (a + 1)

theorem leNat_zeros (n : Nat) : leNat (zeros n) = 0 := by
  induction n with
  | zero => rfl
  | succ n ih => simpa [leNat, zeros, List.replicate_succ] using ih

/-- What has been zeroed reads as zero. -/
theorem leNat_storeRead_zeroed (w : Nat) (m : Store) (a n : Nat) : leNat (storeRead (storeWrite w m a (zeros n)) a n) = 0 := by
  have hlen : (zeros n).length = n := by simp [zeros]
  have hcells : (cellsWrite m.cells a (zeros n)).filter (fun c => a ≤ c.1 && c.1 < a + n) = [] := by
    simp only [cellsWrite, cellsOf_zeros, hlen, List.append_nil, List.filter_append, List.filter_filter, List.append_eq_nil_iff, List.filter_eq_nil_iff]
    exact ⟨fun c _ => by simp; omega, fun c _ => by simp⟩
  rw [storeRead, storeWrite, cellsRead, hcells]
  cases n with
  | zero => rfl
  | succ n => exact leNat_zeros (n + 1)

theorem meetT1_clean {s : State} {m lc a n : Nat} (h : rawBad 4 64 (t1Of s m lc) a n = []) (req : Nat) : meetT1 req m lc a n s = s := by
  simp [meetT1, h]

theorem t1Of_congr {s t : State} (h : t.ctxs = s.ctxs) (n lc : Nat) : t1Of t n lc = t1Of s n lc := by
  simp only [t1Of, clusterOf, ctxOf_congr h]

theorem t1Of_t1Write (n lc a : Nat) (bs : List Byte) (s : State) : t1Of (t1Write n lc a bs s) n lc = storeWrite 64 (t1Of s n lc) a bs := by
  rw [t1Of, t1Write, clusterOf_updCluster_self, t1Of]

/-- Without an object in slot 1 the answer needs no read: the batch completes. -/
theorem completeBatch_plain {n : Nat} {s : State} {p : Program} (hp : (ctxOf s n).prog = some p) (h : slotObj s p 1 = none) (masks missed : Mask)
    (c : Cmd) : ∃ st result, completeBatch n masks missed c s = completeWith c.tag st result s := by
  unfold completeBatch
  simp only [hp, Option.bind_some, h]
  exact ⟨_, _, rfl⟩

theorem completeWith_ends {s : State} {c : Cmd} (h : c ∈ s.host.cmds) (st : Status) (result : List (Nat × List Byte)) :
    cmdOf (completeWith c.tag st result s) c.tag = none ∧ ∃ r ∈ (completeWith c.tag st result s).host.done, r.tag = c.tag := by
  obtain ⟨d, hd⟩ : ∃ d, cmdOf s c.tag = some d := by
    cases hf : cmdOf s c.tag with
    | none => exact absurd (List.find?_eq_none.mp hf c h) (by simp)
    | some d => exact ⟨d, rfl⟩
  rw [completeWith_eq hd]
  refine ⟨List.find?_eq_none.mpr fun x hx => ?_, recordOf s d st result, List.mem_append_right _ List.mem_cons_self, tag_of_cmdOf hd⟩
  have hne := (List.mem_filter.mp hx).2
  simpa using hne

theorem answerLine_names {n : Nat} {s : State} {c : Cmd} (hr : rawBad 4 64 (t1Of s n 0) 128 64 = []) (hh : storeHit 64 (t1Of s n 0) 128 64 = false)
    (ht : leNat (storeRead (t1Of s n 0) 128 8) ≠ 0)
    (hf : s.host.cmds.find? (fun d => pktCtx d.pkt = n && pipeWaiting d && pktField d.pkt 24 8 = leNat (storeRead (t1Of s n 0) 128 8)) = some c) :
    answerLine n s = completeBatch n (((ctxOf s n).run.map (fun u => u.mark ||| u.masks)).getD 0) (((ctxOf s n).run.map (·.missed)).getD 0) c
      (t1Write n 0 128 (zeros 64) s) := by
  unfold answerLine
  simp only [meetT1_clean hr, hh, ht, t1Write_host, hf, Bool.false_eq_true, if_false]

theorem slotObj_congr {s t : State} (h : t.objs = s.objs) (p : Program) (i : Nat) : slotObj t p i = slotObj s p i := by
  have hobj (id : Nat) : objOf t id = objOf s id := by rw [objOf, objOf, h]
  unfold slotObj
  cases p.slots[i]? with
  | none => rfl
  | some id => simp [hobj]

theorem answerLine_completes {c : Cmd} {n : Nat} {p : Program} {s : State} (hp : (ctxOf s n).prog = some p) (hslot : slotObj s p 1 = none)
    (hr : rawBad 4 64 (t1Of s n 0) 128 64 = []) (hh : storeHit 64 (t1Of s n 0) 128 64 = false) (ht : leNat (storeRead (t1Of s n 0) 128 8) ≠ 0)
    (hf : s.host.cmds.find? (fun d => pktCtx d.pkt = n && pipeWaiting d && pktField d.pkt 24 8 = leNat (storeRead (t1Of s n 0) 128 8)) = some c) :
    cmdOf (answerLine n s) c.tag = none ∧ (∃ r ∈ (answerLine n s).host.done, r.tag = c.tag) ∧
      leNat (storeRead (t1Of (answerLine n s) n 0) 128 64) = 0 := by
  have hprog : (ctxOf (t1Write n 0 128 (zeros 64) s) n).prog = some p := by
    rw [← hp]; exact (congrArg Context.prog (ctxOf_updCtx_self n _ s) :)
  obtain ⟨st, result, heq⟩ := completeBatch_plain hprog ((slotObj_congr (by simp) p 1).trans hslot)
    (((ctxOf s n).run.map (fun u => u.mark ||| u.masks)).getD 0) (((ctxOf s n).run.map (·.missed)).getD 0) c
  rw [answerLine_names hr hh ht hf, heq]
  obtain ⟨hgone, hdone⟩ := completeWith_ends (s := t1Write n 0 128 (zeros 64) s) (List.mem_of_find?_eq_some hf) st result
  refine ⟨hgone, hdone, ?_⟩
  have hctxs : (completeWith c.tag st result (t1Write n 0 128 (zeros 64) s)).ctxs = (t1Write n 0 128 (zeros 64) s).ctxs := by simp
  rw [t1Of_congr hctxs, t1Of_t1Write, leNat_storeRead_zeroed]

/-! ### The commands (R384, R423) -/

theorem startExec_core {c : Cmd} {s : State} {p : Program} {i : Nat} {u : Run} {t : State} (hi : i < progCores p)
    (h : Started u (initCores p u.seed (ctxOf s (pktCtx c.pkt)).cores) (ctxOf t (pktCtx c.pkt))) :
    coreOf t { ctx := pktCtx c.pkt, sketch := false, lcore := i } =
      initCore p u.seed i (coreOf s { ctx := pktCtx c.pkt, sketch := false, lcore := i }) := by
  obtain ⟨-, -, hcores⟩ := h
  change mapGet {} (ctxOf t (pktCtx c.pkt)).cores i = _
  rw [hcores, mapGet_initCores hi]
  rfl

theorem stepVoid_waits {tag : Nat} {c : Cmd} {s : State} (h : AtUnit s 0x42 tag c) (hd : ctxDefined s (pktCtx c.pkt) = true) :
    ∃ t, exec (.stepVoid tag) s = .next t ∧ OnlyHostChanges s t ∧ WaitsForTick c s t ∧
      TakenUpLater c { c with phase := .ready, extra := 0 } closeCmd
        (fun u => (ctxOf u (pktCtx c.pkt)).steps = [] ∧ (ctxOf u (pktCtx c.pkt)).lastStep = none) (fun u v => OnlyHostChanges u v) t := by
  obtain ⟨hc, hop, htag⟩ := cmdOf_of_atUnit h
  have hcmd : stepVoidCmd c s = awaitTick c 0 s := if_neg (by simp [hd])
  refine ⟨awaitTick c 0 s, ?_, rfl, ⟨0, rfl⟩, cmdOf_updCmd_self hc (fun _ => rfl), fun u hu hmay => ?_⟩
  · change unitOp true (onCmd 0x42 tag anyPkt stepVoidCmd s) = _
    rw [onCmd_atUnit h rfl, hcmd, unitOp_ok]
  · have hclose : closeCmd u { c with phase := .ready, extra := 0 } = complete c.tag (stSuccess 0 0 0) u :=
      (if_pos (by simp [awaits, hop])).trans (applyStepVoid_none (c := { c with phase := .ready, extra := 0 }) hmay.1 hmay.2)
    rw [hclose]
    exact ⟨commandCompletes_complete hu rfl _, complete_onlyHost _ _ _⟩

theorem applyStepVoid_revokes {c : Cmd} {s : State} {ids : List Nat} (hc : cmdOf s c.tag = some c) (h1 : (ctxOf s (pktCtx c.pkt)).steps = [])
    (h2 : (ctxOf s (pktCtx c.pkt)).lastStep = some (pktField c.pkt 8 4, ids)) :
    CommandCompletes c (stSuccess 2 0 0) s (applyStepVoid c s) ∧
      (ctxOf (applyStepVoid c s) (pktCtx c.pkt)).parity = !(ctxOf s (pktCtx c.pkt)).parity ∧
      (ctxOf (applyStepVoid c s) (pktCtx c.pkt)).lastStep = none := by
  set n := pktCtx c.pkt with hn
  set u := ids.foldl (fun s id => flipSel id s) s with hu
  have hbeside : besideCopies u = besideCopies s := besideCopies_foldl (fun t id => flipSel_beside id t) ids s
  set v := updCtx n (fun x => { x with lastStep := none }) (updCtx n (fun c => { c with parity := !c.parity }) u) with hv
  have hhost : v.host = s.host := (congrArg State.host hbeside :)
  have hframe : v.frame = s.frame := (congrArg State.frame hbeside :)
  have hctx : ctxOf u n = ctxOf s n := (congrArg (fun x => ctxOf x n) hbeside :)
  have heq : applyStepVoid c s = complete c.tag (stSuccess 2 0 0) v := by rw [applyStepVoid_last h1 h2, if_pos rfl]; rfl
  have hctxs : (complete c.tag (stSuccess 2 0 0) v).ctxs = v.ctxs := by simp
  have hself : ctxOf (applyStepVoid c s) n = { ctxOf s n with parity := !(ctxOf s n).parity, lastStep := none } := by
    rw [heq, ctxOf_congr hctxs, hv, ctxOf_updCtx_self, ctxOf_updCtx_self, hctx]
  refine ⟨?_, by rw [hself], by rw [hself]⟩
  have hdone : CommandCompletes c (stSuccess 2 0 0) v (complete c.tag (stSuccess 2 0 0) v) :=
    commandCompletes_complete ((cmdOf_congr hhost _).trans hc) rfl _
  rw [CommandCompletes, hhost] at hdone
  rw [heq, CommandCompletes, hdone]
  simp [recordOf, hframe]

/-- The start of a batch or of a step (R111, R381, R425). -/
theorem startExec_starts {c : Cmd} {s : State} {p : Program} {i n : Nat} (hn : n = pktCtx c.pkt) (hp : (ctxOf s n).prog = some p)
    (hi : i < progCores p) (hop : pktOpcode c.pkt = 0x40 ∨ pktOpcode c.pkt = 0x41) (hs : ∀ x ∈ (ctxOf s n).steps, x.tag ≠ c.tag) :
    ∃ u, (ctxOf (startExec c s) n).run = some u ∧ u.tag = c.tag ∧ u.seed = BitVec.ofNat 64 (pktField c.pkt 40 8) ∧
      u.arg0 = BitVec.ofNat 64 (pktField c.pkt 24 8) ∧ u.arg1 = BitVec.ofNat 64 (pktField c.pkt 32 8) ∧
      (pktOpcode c.pkt = 0x40 → u.nreq = pktField c.pkt 8 2 ∧ u.kind = if pktPipe c.pkt then .pipe else .batch) ∧
      (pktOpcode c.pkt = 0x41 → u.kind = .step ∧ ∃ x ∈ (ctxOf (startExec c s) n).steps, x.tag = c.tag ∧ x.step = pktField c.pkt 8 4 ∧
        x.start = s.frame.counter.toNat ∧ x.redFrames = pktField c.pkt 12 2) ∧
      (ctxOf (startExec c s) n).state = .runnable ∧
      coreOf (startExec c s) { ctx := n, sketch := false, lcore := i } =
        initCore p u.seed i (coreOf s { ctx := n, sketch := false, lcore := i }) := by
  subst hn
  rcases hop with hop | hop
  · have heq : startExec c s = startBatch c s := by unfold startExec; rw [hop]; rfl
    have hst := started_startBatch (c := c) hp
    rw [heq]
    exact ⟨batchRun c s, hst.1, rfl, rfl, rfl, rfl, fun _ => ⟨rfl, rfl⟩, fun h => absurd (hop.symm.trans h) (by decide), hst.2.1,
      startExec_core hi hst⟩
  · have heq : startExec c s = startStep c s := by unfold startExec; rw [hop]; rfl
    obtain ⟨hst, hstep⟩ := started_startStep (c := c) hp hs
    rw [heq]
    exact ⟨stepRun c s, hst.1, rfl, rfl, rfl, rfl, fun h => absurd (hop.symm.trans h) (by decide), fun _ => ⟨rfl, hstep⟩, hst.2.1,
      startExec_core hi hst⟩

/-- Settles O42: input and plan by `takeInput_joins`, STEP_VOID by its wait and its boundary, starts by `startExec_starts`, answers by
`answerLine_completes`. -/
theorem executionCommands : Obligations.ExecutionCommands := by
  unfold Obligations.ExecutionCommands
  refine ⟨fun op tag inLen i c s hi h hp hin hbad => ?_, fun tag c s h hr hp hin => ?_, fun tag c s => stepVoid_waits,
    fun c s n k hc hn hk hs => ⟨fun ids hl => ?_, fun j ids hj hl => ?_⟩,
    fun c s p i n hn hp hi hop hs => startExec_starts hn hp hi hop hs, fun c n p s hp hslot hr hh ht hf => answerLine_completes hp hslot hr hh ht hf⟩
  · obtain ⟨hc, hop, htag⟩ := cmdOf_of_atUnit h
    rcases hi with ⟨rfl, hpipe, rfl, rfl, hout⟩ | ⟨rfl, hpipe, rfl, rfl, hout⟩ | ⟨rfl, hred, rfl, rfl⟩
    · refine ⟨_, ?_, takeInput_joins 12 20 hc (by rw [hop]; rfl) hp hin hout hbad rfl⟩
      change unitOp true (onCmd 0x40 tag (fun p => !pktPipe p) batchCmd s) = _
      rw [onCmd_atUnit h (by simp [hpipe]), unitOp_ok, batchCmd]
    · refine ⟨_, ?_, takeInput_joins 12 20 hc (by rw [hop]; rfl) hp hin hout hbad rfl⟩
      change unitOp true (onCmd 0x40 tag pktPipe batchCmd s) = _
      rw [onCmd_atUnit h hpipe, unitOp_ok, batchCmd]
    · refine ⟨_, ?_, takeInput_joins (outLen := 0) 16 16 hc (by rw [hop]; rfl) hp hin (fun h0 => absurd rfl h0) hbad rfl⟩
      change unitOp true (onCmd 0x41 tag anyPkt stepRunCmd s) = _
      rw [onCmd_atUnit h rfl, unitOp_ok, stepRunCmd, hred]
  · obtain ⟨hc, hop, htag⟩ := cmdOf_of_atUnit h
    refine ⟨refuseExec c stUnitUnavailable s, ?_, commandCompletes_refuseExec hc _⟩
    change unitOp true (onCmd 0x41 tag anyPkt stepRunCmd s) = _
    rw [onCmd_atUnit h rfl, unitOp_ok, stepRunCmd, hr, takeInput_busy 16 16 hp hin]
  · subst hn hk
    exact applyStepVoid_revokes hc hs hl
  · subst hn hk
    rw [applyStepVoid_last hs hl, if_neg hj]
    exact ⟨commandCompletes_complete hc rfl _, complete_onlyHost _ _ _⟩

end Sys2Proof.Machine
end

section
/-! SUPPORT. Proofs of the frame and timing statements (chapter 2): what the flash's own work leaves: versions, maps and counters. -/

namespace Sys2Proof.Machine
open Claims

/-! ### What the flash's own work leaves (R56, R241, R260 to R262) -/

/-- A superblock but for what starting and counting change: its versions, its wear and what is wanted of it. -/
def superBody (x : Super) : Super := { x with state := .erased, slc := false, use := .data, reads := 0 }

/-- An object but for the note that its reads have begun. -/
def unstarted (o : Obj) : Obj := { o with started := false }

/-- Dies start and resume reads, programs and erases, and relocations are queued: no version, map entry or counter of the flash changes, no
queued program is lost, no read is added, and of the rest of the module only free values, the ring and the note of begun reads. -/
structure FlashRuns (s t : State) : Prop where
  rest : t = { s with nonce := t.nonce, objs := t.objs, flash := t.flash, ring := t.ring }
  flash : t.flash = { s.flash with
    supers := t.flash.supers, dies := t.flash.dies, progQ := t.flash.progQ, readQ := t.flash.readQ, nextId := t.flash.nextId, credit := t.flash.credit }
  supers : ∀ k, superBody (mapGet {} t.flash.supers k) = superBody (mapGet {} s.flash.supers k)
  objs : ∀ id, (objOf t id).map unstarted = (objOf s id).map unstarted
  progs : ∀ p ∈ s.flash.progQ, ∃ q ∈ t.flash.progQ, { q with on := p.on } = p
  queued : ∀ q ∈ t.flash.progQ, (∃ p ∈ s.flash.progQ, p.id = q.id) ∨ s.flash.nextId ≤ q.id
  nextId : s.flash.nextId ≤ t.flash.nextId
  reads : ∀ r ∈ t.flash.readQ, ∃ x ∈ s.flash.readQ, x.id = r.id

theorem FlashRuns.refl (s : State) : FlashRuns s s :=
  ⟨rfl, rfl, fun _ => rfl, fun _ => rfl, fun p hp => ⟨p, hp, rfl⟩, fun q hq => .inl ⟨q, hq, rfl⟩, le_rfl, fun r hr => ⟨r, hr, rfl⟩⟩

theorem FlashRuns.trans {s t u : State} (h : FlashRuns s t) (g : FlashRuns t u) : FlashRuns s u where
  rest := by rw [g.rest, h.rest]
  flash := by rw [g.flash, h.flash]
  supers k := (g.supers k).trans (h.supers k)
  objs id := (g.objs id).trans (h.objs id)
  progs p hp := by
    obtain ⟨q, hq, hqp⟩ := h.progs p hp
    obtain ⟨r, hr, hrq⟩ := g.progs q hq
    exact ⟨r, hr, by rw [← hqp, ← hrq]⟩
  queued q hq := by
    rcases g.queued q hq with ⟨r, hr, hrq⟩ | hlate
    · rcases h.queued r hr with ⟨p, hp, hpr⟩ | hlate
      · exact .inl ⟨p, hp, hpr.trans hrq⟩
      · exact .inr (hrq ▸ hlate)
    · exact .inr (h.nextId.trans hlate)
  nextId := h.nextId.trans g.nextId
  reads r hr := by
    obtain ⟨y, hy, hyr⟩ := g.reads r hr
    obtain ⟨x, hx, hxy⟩ := h.reads y hy
    exact ⟨x, hx, hxy.trans hyr⟩

theorem FlashRuns.foldl {α : Type} {f : State → α → State} (h : ∀ s a, FlashRuns s (f s a)) (l : List α) (s : State) : FlashRuns s (l.foldl f s) := by
  induction l generalizing s with
  | nil => exact .refl s
  | cons a l ih => exact (h s a).trans (ih _)

/-- Of work on the dies, only its part of the flash and the free values are taken. -/
theorem FlashRuns.withFlash {s t : State} (h : FlashRuns s t) {n : Nat} : FlashRuns s { s with flash := t.flash, nonce := n } :=
  ⟨rfl, h.flash, h.supers, fun _ => rfl, h.progs, h.queued, h.nextId, h.reads⟩

theorem flashRuns_bump (s : State) : FlashRuns s (bump s) := ⟨rfl, rfl, fun _ => rfl, fun _ => rfl, fun p hp => ⟨p, hp, rfl⟩, fun q hq => .inl ⟨q, hq, rfl⟩,
  le_rfl, fun r hr => ⟨r, hr, rfl⟩⟩

theorem flashRuns_dies (d : SMap Die) (s : State) : FlashRuns s { s with flash := { s.flash with dies := d } } :=
  ⟨rfl, rfl, fun _ => rfl, fun _ => rfl, fun p hp => ⟨p, hp, rfl⟩, fun q hq => .inl ⟨q, hq, rfl⟩, le_rfl, fun r hr => ⟨r, hr, rfl⟩⟩

theorem flashRuns_updDie (ch die : Nat) (f : Die → Die) (s : State) : FlashRuns s (updDie ch die f s) := flashRuns_dies _ s

theorem flashRuns_updSuper {f : Super → Super} (h : ∀ x, superBody (f x) = superBody x) (ch die n : Nat) (s : State) :
    FlashRuns s (updSuper ch die n f s) := by
  refine ⟨rfl, rfl, fun k => ?_, fun _ => rfl, fun p hp => ⟨p, hp, rfl⟩, fun q hq => .inl ⟨q, hq, rfl⟩, le_rfl, fun r hr => ⟨r, hr, rfl⟩⟩
  change superBody (mapGet {} (mapSet {} (superKey ch die n) (f (superOf s ch die n)) s.flash.supers) k) = _
  rw [mapGet_mapSet]
  split
  · rename_i hk; rw [h, hk]; rfl
  · rfl

theorem flashRuns_ring (r : Ring) (s : State) : FlashRuns s { s with ring := r } := ⟨rfl, rfl, fun _ => rfl, fun _ => rfl, fun p hp => ⟨p, hp, rfl⟩,
  fun q hq => .inl ⟨q, hq, rfl⟩, le_rfl, fun r hr => ⟨r, hr, rfl⟩⟩

theorem sendRing_eq (m : RingMsg) (s : State) : ∃ r, sendRing m s = { s with ring := r } := by
  unfold sendRing; dsimp only
  split
  · exact ⟨(flushAt _ _).ring, rfl⟩
  · exact ⟨s.ring, rfl⟩

theorem flashRuns_sendRing (m : RingMsg) (s : State) : FlashRuns s (sendRing m s) := by
  obtain ⟨r, hr⟩ := sendRing_eq m s
  rw [hr]; exact flashRuns_ring r s

theorem flashRuns_startOn (o : ProgOp) (die n : Nat) (s : State) : FlashRuns s (startOn o die n s) := by
  have hsuper := flashRuns_updSuper (f := fun x => { x with state := .open_, slc := progSlc o.kind, use := progUse o.kind }) (fun _ => rfl) o.ch die n s
  refine (hsuper.trans (flashRuns_updDie o.ch die (fun x => { x with work := some (.program o.id), suspended := false }) _)).trans ?_
  refine ⟨rfl, rfl, fun _ => rfl, fun _ => rfl, fun p hp => ?_, fun q hq => ?_, le_rfl, fun r hr => ⟨r, hr, rfl⟩⟩
  · refine ⟨_, List.mem_map.mpr ⟨p, hp, rfl⟩, ?_⟩
    split <;> rfl
  · obtain ⟨p, hp, rfl⟩ := List.mem_map.mp hq
    refine .inl ⟨p, hp, ?_⟩
    split <;> rfl

theorem flashRuns_startProg (s : State) (o : ProgOp) : FlashRuns s (startProg s o) := by
  unfold startProg
  split
  · exact .refl s
  · dsimp only
    split
    · exact .refl s
    · rename_i die _
      cases targetSuper s o.ch die o.kind with
      | none => exact .refl s
      | some n => exact flashRuns_startOn o die n s

theorem flashRuns_startPrograms (s : State) : FlashRuns s (startPrograms s) := by
  unfold startPrograms
  split
  · exact (FlashRuns.foldl flashRuns_startProg _ s).withFlash
  · exact (FlashRuns.refl s).withFlash

theorem flashRuns_queue (o : ProgOp) (s : State) :
    FlashRuns s { s with flash := { s.flash with progQ := s.flash.progQ ++ [{ o with id := s.flash.nextId }], nextId := s.flash.nextId + 1 } } := by
  refine ⟨rfl, rfl, fun _ => rfl, fun _ => rfl, fun p hp => ⟨p, List.mem_append_left _ hp, rfl⟩, fun q hq => ?_, Nat.le_succ _, fun r hr => ⟨r, hr, rfl⟩⟩
  rcases List.mem_append.mp hq with hq | hq
  · exact .inl ⟨q, hq, rfl⟩
  · rw [List.mem_singleton.mp hq]; exact .inr le_rfl

theorem flashRuns_enqProg (o : ProgOp) (s : State) : FlashRuns s (enqProg o s) := (flashRuns_queue o s).trans (flashRuns_startPrograms _)

/-- The program is queued as it was given, under a number of its own. -/
theorem enqProg_queues (o : ProgOp) (s : State) : ∃ q ∈ (enqProg o s).flash.progQ, { q with on := o.on } = { o with id := s.flash.nextId } :=
  (flashRuns_startPrograms _).progs { o with id := s.flash.nextId } (List.mem_append_right _ List.mem_cons_self)

theorem flashRuns_countReads (ls : List Loc) (s : State) : FlashRuns s (countReads ls s) := by
  have hone (u : State) (l : Loc) : FlashRuns u (updSuper l.ch l.die l.super (fun x => { x with reads := x.reads + 1 }) u) :=
    flashRuns_updSuper (f := fun x => { x with reads := x.reads + 1 }) (fun _ => rfl) l.ch l.die l.super u
  exact FlashRuns.foldl hone ls s

theorem flashRuns_enqCopies (kind : ProgKind) (ch : Nat) (die : Option Nat) (cs : List Copy) (s : State) : FlashRuns s (enqCopies kind ch die cs s) :=
  (flashRuns_countReads _ s).trans (FlashRuns.foldl (fun s _ => flashRuns_enqProg _ s) _ _)

theorem flashRuns_emptyMore (ch die n : Nat) (s : State) : FlashRuns s (emptyMore ch die n s) := by
  unfold emptyMore
  split
  · exact .refl s
  · exact flashRuns_enqCopies _ _ _ _ s

theorem flashRuns_eraseNext (ch die : Nat) (s : State) : FlashRuns s (eraseNext ch die s) := by
  unfold eraseNext
  dsimp only
  split
  · exact .refl s
  · split
    · exact .refl s
    · exact (flashRuns_updSuper (f := fun x => { x with state := .erasing }) (fun _ => rfl) _ _ _ s).trans (flashRuns_updDie _ _ _ _)

theorem flashRuns_readQ {f : ReadOp → ReadOp} (h : ∀ x, (f x).id = x.id) (s : State) :
    FlashRuns s { s with flash := { s.flash with readQ := s.flash.readQ.map f } } := by
  refine ⟨rfl, rfl, fun _ => rfl, fun _ => rfl, fun p hp => ⟨p, hp, rfl⟩, fun q hq => .inl ⟨q, hq, rfl⟩, le_rfl, fun r hr => ?_⟩
  obtain ⟨x, hx, rfl⟩ := List.mem_map.mp hr
  exact ⟨x, hx, (h x).symm⟩

theorem flashRuns_startRead (s : State) (r : ReadOp) : FlashRuns s (startRead s r) := by
  unfold startRead
  split
  · exact .refl s
  · exact (flashRuns_readQ (fun x => by split <;> rfl) s).trans (flashRuns_bump _)

theorem flashRuns_startDieReads (s : State) : FlashRuns s (startDieReads s) := by
  unfold startDieReads
  have hposts := FlashRuns.foldl flashRuns_startRead (s.flash.readQ.filter (fun r => !readFill r)) s
  dsimp only
  split
  · exact hposts.withFlash
  · exact (hposts.trans (FlashRuns.foldl flashRuns_startRead _ _)).withFlash

theorem flashRuns_startImports (s : State) : FlashRuns s (startImports s) := by
  unfold startImports
  refine FlashRuns.foldl (fun s i => ?_) _ s
  split
  · exact .refl s
  · exact (flashRuns_ring _ s).trans (flashRuns_sendRing _ _)

theorem flashRuns_markStarted (s : State) : FlashRuns s (markStarted s) := by
  refine ⟨rfl, rfl, fun _ => rfl, fun id => ?_, fun p hp => ⟨p, hp, rfl⟩, fun q hq => .inl ⟨q, hq, rfl⟩, le_rfl, fun r hr => ⟨r, hr, rfl⟩⟩
  change (mapFind id (s.objs.map _)).map unstarted = (mapFind id s.objs).map unstarted
  induction s.objs with
  | nil => rfl
  | cons p m ih =>
    simp only [List.map_cons, mapFind]
    split
    · simp only [Option.map_some]; split <;> rfl
    · exact ih

theorem flashRuns_startReads (s : State) : FlashRuns s (startReads s) := by
  unfold startReads
  refine FlashRuns.trans ?_ ((flashRuns_startImports _).trans (flashRuns_markStarted _))
  split
  · exact flashRuns_startDieReads s
  · exact .refl s

theorem flashRuns_resumeDies (s : State) : FlashRuns s (resumeDies s) := flashRuns_dies _ s

theorem flashRuns_flashGo (ch : Nat) (s : State) : FlashRuns s (flashGo ch s) := by
  have hreads := (flashRuns_resumeDies s).trans (flashRuns_startReads _)
  unfold flashGo
  dsimp only
  split
  · have hmore := FlashRuns.foldl (fun u (p : Nat × Nat) => flashRuns_emptyMore ch p.1 p.2 u) (chSupers (startReads (resumeDies s)) ch) (startReads (resumeDies s))
    refine hreads.trans (FlashRuns.trans ?_ (flashRuns_startPrograms _))
    refine FlashRuns.withFlash ?_
    exact hmore.trans (FlashRuns.foldl (fun u d => flashRuns_eraseNext ch d u) _ _)
  · exact hreads

end Sys2Proof.Machine
end

section
/-! SUPPORT. Proofs of the frame and timing statements (chapter 2): programs that pass, and the last one of a command. -/

namespace Sys2Proof.Machine
open Claims

/-! ### A program ends on its die (R255, R256, R269) -/

/-- The state but for the flash. -/
def besideFlash (s : State) : State := { s with flash := {} }

@[simp] theorem besideFlash_foldl {α : Type} {f : State → α → State} (h : ∀ s a, besideFlash (f s a) = besideFlash s) (l : List α) (s : State) :
    besideFlash (l.foldl f s) = besideFlash s := by
  induction l generalizing s with
  | nil => rfl
  | cons a l ih => rw [List.foldl_cons, ih, h]

@[simp] theorem besideFlash_flash (f : Flash) (s : State) : besideFlash { s with flash := f } = besideFlash s := rfl

@[simp] theorem besideFlash_enqRead (lga : Nat) (why : ReadFor) (s : State) : besideFlash (enqRead lga why s) = besideFlash s := rfl

@[simp] theorem besideFlash_applyTomb (t : Slot) (s : State) : besideFlash (applyTomb t s) = besideFlash s := rfl

@[simp] theorem besideFlash_installGranule (lga seq : Nat) (l : Loc) (s : State) : besideFlash (installGranule lga seq l s) = besideFlash s := by
  unfold installGranule; split <;> rfl

@[simp] theorem besideFlash_installUnit (l : Loc) (t : Slot) (j : Nat) (s : State) : besideFlash (installUnit l t j s) = besideFlash s := by
  unfold installUnit; split <;> rfl

@[simp] theorem besideFlash_installMerge (lga seq : Nat) (l : Loc) (s : State) : besideFlash (installMerge lga seq l s) = besideFlash s := by
  unfold installMerge; split <;> rfl

@[simp] theorem besideFlash_moveMap (src dst : Loc) (v : Version) (s : State) : besideFlash (moveMap src dst v s) = besideFlash s := by
  unfold moveMap
  split
  · exact besideFlash_foldl (fun _ _ => by split <;> rfl) _ _
  · exact besideFlash_foldl (fun _ _ => by dsimp only; split <;> rfl) _ _
  · rfl

@[simp] theorem besideFlash_landCopy (src dst : Loc) (v : Version) (merged : Bool) (s : State) :
    besideFlash (landCopy src dst v merged s) = besideFlash s := by
  unfold landCopy; split <;> simp

theorem besideFlash_programEffect (o : ProgOp) (ls : List Loc) (s : State) : besideFlash (programEffect o ls s) = besideFlash s := by
  unfold programEffect
  split
  · cases ls.head? <;> simp
  · cases ls.head? <;> simp
  · split
    · exact besideFlash_foldl (fun u t => besideFlash_applyTomb t u) _ s
    · rfl
  · cases ls.head? <;> simp
  · exact besideFlash_foldl (fun u p => besideFlash_enqRead _ _ u) _ s
  · exact besideFlash_foldl (fun u p => besideFlash_landCopy _ _ _ _ u) _ s

/-- What a program wrote stands on its die, and has been counted. -/
def programmed (o : ProgOp) (die n : Nat) (s : State) : State :=
  let t := putVersions o.ch die n o (progVersions o s.flash.seq) (drawSeq (dropProg o.id s))
  { t with flash := { t.flash with
    bytesFlash := t.flash.bytesFlash + 65536 * progWidth o.kind, bytesHost := t.flash.bytesHost + progBytes o } }

/-- The places of a program's versions. -/
def placesOf (o : ProgOp) (die n : Nat) (s : State) : List Loc := progPlaces o die n (superOf s o.ch die n).next

theorem progPass_eq (o : ProgOp) (die n : Nat) (s : State) :
    progPass o die n s = progStep o (programEffect o (placesOf o die n s) (programmed o die n s)) := rfl

theorem besideFlash_programmed (o : ProgOp) (die n : Nat) (s : State) : besideFlash (programmed o die n s) = besideFlash s := by
  unfold programmed
  rw [besideFlash_flash]; rfl

/-- The die is idle again. -/
def dieDone (o : ProgOp) (die : Nat) (s : State) : State := updDie o.ch die (fun x => { x with work := none }) s

theorem execFlashProgramComplete_eq {id die n : Nat} {o : ProgOp} {s : State} (hd : die < 48) (hf : s.flash.progQ.find? (fun o => o.id = id) = some o)
    (ho : o.on = some (die, n)) (hs : (dieOf s o.ch die).suspended = false) (hp : flashOn s = true) (pass : Bool) :
    exec (.flashProgramComplete id die pass) s =
      .next (flashGo o.ch (if pass then progPass o die n (dieDone o die s) else progFail o die n (dieDone o die s))) := by
  have heq : programDone id die pass s = flashGo o.ch (if pass then progPass o die n (dieDone o die s) else progFail o die n (dieDone o die s)) := by
    unfold programDone
    simp only [hf, ho, hs, hp]
    simp only [bne_self_eq_false, Bool.not_true, Bool.or_false, Bool.false_eq_true, if_false]
    rfl
  rw [← heq]
  exact unitOp_of (by simpa using hd) _

theorem flashGo_host (ch : Nat) (s : State) : (flashGo ch s).host = s.host := by rw [(flashRuns_flashGo ch s).rest]

/-- The last program of a command other than a deletion completes it. -/
theorem progStep_last {o : ProgOp} {c : Cmd} {s : State} (hc : cmdOf s o.tag = some c) (hl : c.left ≤ 1) (hr : c.result = none)
    (h21 : pktOpcode c.pkt ≠ 0x21) (h36 : pktOpcode c.pkt ≠ 0x36) : progStep o s = complete o.tag (stSuccess 0 0 0) s := by
  have htag := tag_of_cmdOf hc
  simp only [progStep, hc, hl, if_true, finishProg, hr]
  rw [htag]

theorem commandCompletes_after {u w : State} {c d : Cmd} (h : cmdOf u c.tag = some d) (hd : d.pkt = c.pkt) (hh : w.host = u.host)
    (hf : w.frame.counter = u.frame.counter) (st : Status) : CommandCompletes c st u (complete c.tag st w) := by
  have hdone := commandCompletes_complete ((cmdOf_congr hh _).trans h) hd st
  rw [CommandCompletes] at hdone ⊢
  rw [hdone, hh]
  simp [recordOf, hf]

theorem lastProgramCompletes_of {c : Cmd} (h21 : pktOpcode c.pkt ≠ 0x21) (h36 : pktOpcode c.pkt ≠ 0x36) : LastProgramCompletes c := by
  intro u d o die n hd hpkt hl hr hf htag ho hdie hs hp
  rw [execFlashProgramComplete_eq hdie hf ho hs hp, if_pos rfl]
  set w := programEffect o (placesOf o die n (dieDone o die u)) (programmed o die n (dieDone o die u)) with hw
  have hbeside : besideFlash w = besideFlash u := (besideFlash_programEffect _ _ _).trans (besideFlash_programmed _ _ _ _)
  have hhost : w.host = u.host := (congrArg State.host hbeside :)
  have hframe : w.frame = u.frame := (congrArg State.frame hbeside :)
  have hcmd : cmdOf w o.tag = some d := by rw [cmdOf_congr hhost, htag]; exact hd
  have hdt : d.tag = c.tag := tag_of_cmdOf hd
  refine ⟨_, rfl, ?_⟩
  have hstep : progPass o die n (dieDone o die u) = complete d.tag (stSuccess 0 0 0) w := by
    rw [progPass_eq, progStep_last hcmd hl hr (by rwa [hpkt]) (by rwa [hpkt]), htag, hdt]
  rw [hstep, CommandCompletes, flashGo_host]
  exact commandCompletes_after (by rw [hdt]; exact hd) rfl hhost (by rw [hframe]) _

end Sys2Proof.Machine
end

section
/-! SUPPORT. Proofs of the frame and timing statements (chapter 2): commands that wait for a tick, and ARBITRATION (O37). -/

namespace Sys2Proof.Machine
open Claims

/-! ### Commands that wait for a tick (R40, R41, R178, R483, R506) -/

theorem atUnit_opcode {s : State} {op tag : Nat} {c : Cmd} (h : AtUnit s op tag c) : pktOpcode c.pkt = op := h.2.1

/-- A command that its unit makes wait, and that its unit then completes on a state of the same host interface and frame. -/
theorem takenUpLater_awaitTick {s w : State} {c : Cmd} {k : Nat} {act : State → Cmd → State} {may : State → Prop} {post : State → State → Prop}
    (hc : cmdOf s c.tag = some c) (hw : w.host = s.host)
    (h : ∀ u, may u → ∃ v, act u { c with phase := .ready, extra := k } = complete c.tag (stSuccess 0 0 0) v ∧ v.host = u.host ∧
      v.frame.counter = u.frame.counter ∧ post u (complete c.tag (stSuccess 0 0 0) v)) :
    TakenUpLater c { c with phase := .ready, extra := k } act may post (awaitTick c k w) := by
  refine ⟨cmdOf_updCmd_self ((cmdOf_congr hw _).trans hc) (fun _ => rfl), fun u hu hmay => ?_⟩
  obtain ⟨v, hact, hhost, hframe, hpost⟩ := h u hmay
  rw [hact]
  exact ⟨commandCompletes_after hu rfl hhost hframe _, hpost⟩

theorem execSetFeature_eq {s : State} {tag : Nat} {c : Cmd} (h : AtUnit s 0x03 tag c) {fid : Nat} (hf : pktField c.pkt 8 1 = fid) (f : Cmd → State → State) :
    unitOp true (onCmd 0x03 tag (isFeature fid) f s) = .next (f c s) := by
  rw [onCmd_atUnit h (by simpa [isFeature] using hf), unitOp_ok]

/-! ### ARBITRATION (R411) -/

/-- The weights that a command sets. -/
def weighted (c : Cmd) (a : Arb) : Arb :=
  { a with wHigh := bitsOf (featDw c.pkt 0) 7 0, wMedium := bitsOf (featDw c.pkt 0) 15 8, wLow := bitsOf (featDw c.pkt 0) 23 16 }

/-- The new weights of one command take effect, and it completes. -/
def takeWeight (s : State) (c : Cmd) : State := complete c.tag (stSuccess 0 0 0) { s with arb := weighted c s.arb }

theorem takeWeights_eq (s : State) : takeWeights s = (s.host.cmds.filter (featureWaits 0x15)).foldl takeWeight s := rfl

/-- Copies of one command that waits for its weights take effect once. -/
theorem foldl_takeWeight {c : Cmd} {s : State} (hc : cmdOf s c.tag = some c) {l : List Cmd} (hl : ∀ d ∈ l, d = c) (hne : l ≠ []) :
    l.foldl takeWeight s = takeWeight s c := by
  have hgone : cmdOf (takeWeight s c) c.tag = none :=
    (completeWith_ends (s := { s with arb := weighted c s.arb }) (List.mem_of_find?_eq_some hc) _ []).1
  have hsame : weighted c (takeWeight s c).arb = (takeWeight s c).arb := by simp [takeWeight, weighted]
  have hagain : takeWeight (takeWeight s c) c = takeWeight s c := by
    conv_lhs => rw [takeWeight, hsame]
    exact complete_none hgone _
  have hrest (k : List Cmd) (hk : ∀ d ∈ k, d = c) : k.foldl takeWeight (takeWeight s c) = takeWeight s c := by
    induction k with
    | nil => rfl
    | cons d k ih => rw [List.foldl_cons, hk d List.mem_cons_self, hagain, ih fun e he => hk e (List.mem_cons_of_mem _ he)]
  obtain ⟨d, k, rfl⟩ := List.exists_cons_of_ne_nil hne
  rw [List.foldl_cons, hl d List.mem_cons_self]
  exact hrest k fun e he => hl e (List.mem_cons_of_mem _ he)

theorem mem_cmds_of_complete {d : Cmd} {tag : Nat} {st : Status} {s : State} (h : d ∈ (complete tag st s).host.cmds) : d ∈ s.host.cmds := by
  unfold complete completeWith at h
  split at h
  · exact h
  · exact List.mem_of_mem_filter h

theorem oldestOf_none {s : State} (h : ∀ d ∈ s.host.cmds, d.phase ≠ .waiting) (cls : Nat) : oldestOf s cls = none := by
  rw [oldestOf, List.find?_eq_none]
  intro d hd
  simp [releasable, h d hd]

theorem takeTurn_none {s : State} (h : ∀ d ∈ s.host.cmds, d.phase ≠ .waiting) : takeTurn s = none := by
  simp [takeTurn, oldestOf_none h]

theorem newRound_cmds (s : State) (h : ∀ d ∈ s.host.cmds, d.phase ≠ .waiting) : ∀ d ∈ (newRound s).host.cmds, d.phase ≠ .waiting := by
  have hfold (l : List Cmd) : ∀ u : State, (∀ d ∈ u.host.cmds, d.phase ≠ .waiting) → ∀ d ∈ (l.foldl takeWeight u).host.cmds, d.phase ≠ .waiting := by
    induction l with
    | nil => exact fun _ hu => hu
    | cons c l ih => exact fun u hu => ih _ fun d hd => hu d (mem_cmds_of_complete (s := { u with arb := weighted c u.arb }) hd)
  exact hfold _ s h

/-- With no command waiting for its release, a release opportunity is a new round. -/
theorem commandRelease_newRound {s : State} (h : ∀ d ∈ s.host.cmds, d.phase ≠ .waiting) : exec .commandRelease s = .next (newRound s) := by
  have hone : releaseOne s = (newRound s, false) := by
    unfold releaseOne
    simp only [oldestOf_none h, takeTurn_none h, takeTurn_none (newRound_cmds s h)]
  change unitOp true (releaseAll (s.host.cmds.length + 1) s) = _
  simp [releaseAll, hone]

theorem setFeatureArbitration_newRound {s : State} {tag : Nat} {c : Cmd} (h : AtUnit s 0x03 tag c) (hf : pktField c.pkt 8 1 = 0x15)
    (hd : ∀ d ∈ s.host.cmds, d.phase ≠ .waiting ∧ featureWaits 0x15 d = false ∧ (d.tag = tag → d = c)) :
    ∃ t u, exec (.setFeatureArbitration tag) s = .next t ∧ OnlyHostChanges s t ∧ exec .commandRelease t = .next u ∧
      CommandCompletes c (stSuccess 0 0 0) t u ∧
      u = { t with host := u.host, arb := { s.arb with
        wHigh := bitsOf (featDw c.pkt 0) 7 0, wMedium := bitsOf (featDw c.pkt 0) 15 8, wLow := bitsOf (featDw c.pkt 0) 23 16
        cHigh := bitsOf (featDw c.pkt 0) 7 0, cMedium := bitsOf (featDw c.pkt 0) 15 8, cLow := bitsOf (featDw c.pkt 0) 23 16 } } := by
  obtain ⟨hc, hop, htag⟩ := cmdOf_of_atUnit h
  set c' : Cmd := { c with phase := .ready, extra := 0 } with hc'
  set t := awaitTick c 0 s with ht
  have hct : cmdOf t c'.tag = some c' := cmdOf_updCmd_self hc (fun _ => rfl)
  have hcmds (d : Cmd) (hm : d ∈ t.host.cmds) : d = c' ∨ (d ∈ s.host.cmds ∧ d.tag ≠ c.tag) := by
    obtain ⟨e, he, rfl⟩ := List.mem_map.mp hm
    by_cases hte : e.tag = c.tag
    · have hec : e = c := (hd e he).2.2 (hte.trans htag)
      exact .inl (by rw [if_pos hte, hec])
    · exact .inr (by rw [if_neg hte]; exact ⟨he, hte⟩)
  have hready : ∀ d ∈ t.host.cmds, d.phase ≠ .waiting := by
    intro d hm
    rcases hcmds d hm with rfl | ⟨hold, -⟩
    · simp [hc']
    · exact (hd d hold).1
  have hwait : ∀ d ∈ t.host.cmds.filter (featureWaits 0x15), d = c' := by
    intro d hm
    obtain ⟨hm, hw⟩ := List.mem_filter.mp hm
    rcases hcmds d hm with rfl | ⟨hold, -⟩
    · rfl
    · exact absurd hw (by simp [(hd d hold).2.1])
  have hself : c' ∈ t.host.cmds.filter (featureWaits 0x15) :=
    List.mem_filter.mpr ⟨List.mem_of_find?_eq_some hct, by simp [featureWaits, hc', hop, hf]⟩
  have hweights : takeWeights t = complete c'.tag (stSuccess 0 0 0) { t with arb := weighted c' t.arb } :=
    (takeWeights_eq t).trans <| foldl_takeWeight hct hwait (List.ne_nil_of_mem hself)
  refine ⟨t, newRound t, execSetFeature_eq h hf (fun c s => awaitTick c 0 s), rfl, commandRelease_newRound hready, ?_, ?_⟩
  · have hhost : (newRound t).host = (takeWeights t).host := rfl
    rw [CommandCompletes, hhost, hweights]
    exact commandCompletes_after (c := c) (w := { t with arb := weighted c' t.arb }) hct rfl rfl rfl _
  · have hround : newRound t = { takeWeights t with arb := { (takeWeights t).arb with
      cHigh := (takeWeights t).arb.wHigh, cMedium := (takeWeights t).arb.wMedium, cLow := (takeWeights t).arb.wLow } } := rfl
    rw [hround, hweights, complete_onlyHost c'.tag (stSuccess 0 0 0) { t with arb := weighted c' t.arb }]
    rfl

end Sys2Proof.Machine
end

section
/-! SUPPORT. Proofs of the frame and timing statements (chapter 2): features at their ticks and update points (O37). -/

namespace Sys2Proof.Machine
open Claims

/-! ### Features taken up at a tick or an update point (R40, R178, R317, R483, R506) -/

theorem not_frameCmd {c : Cmd} (h : ¬(pktOpcode c.pkt = 3 ∧ pktField c.pkt 8 1 = 0x10)) (n : Nat) : frameCmd n c = false := by
  rw [frameCmd]
  by_cases h3 : pktOpcode c.pkt = 3
  · have hf : pktField c.pkt 8 1 ≠ 0x10 := fun hf => h ⟨h3, hf⟩
    simp [hf]
  · simp [h3]

theorem tickFeature_frame {u : State} {d : Cmd} (hop : pktOpcode d.pkt = 3) (hf : pktField d.pkt 8 1 = 0x10) (hr : d.phase = .ready)
    (hn : d.frame + 2 ≤ u.frame.counter.toNat) : tickFeature u d = complete d.tag (stSuccess 0 0 0) { u with frame := { u.frame with
      own := bitsOf (featDw d.pkt 0) 14 0, effPct := bitsOf (featDw d.pkt 0) 22 16 } } := by
  have hcmd : (2 ≤ u.frame.counter.toNat && frameCmd (u.frame.counter.toNat - 2) d) = true := by
    simp [frameCmd, hop, hf]; omega
  rw [tickFeature, if_pos hcmd]
  simp [applyFrame, hr]

/-- The scrub group that a command sets. -/
def scrubSet (d : Cmd) (u : State) : State :=
  updGroup (pktField d.pkt 8 1) (fun g => { g with enable := pktField d.pkt 9 1 = 1, period := pktField d.pkt 12 4 }) u

theorem mapGet_scrubSet (d : Cmd) (u : State) : mapGet {} (scrubSet d u).scrub (pktField d.pkt 8 1) =
    { mapGet {} u.scrub (pktField d.pkt 8 1) with enable := decide (pktField d.pkt 9 1 = 1), period := pktField d.pkt 12 4 } := by
  simp [scrubSet, updGroup]

theorem tickFeature_scrub {u : State} {d : Cmd} (hop : pktOpcode d.pkt = 0x78) (hr : d.phase = .ready) : tickFeature u d =
    complete d.tag (stSuccess 0 0 0) (scrubSet d u) := by
  have hcmd : (2 ≤ u.frame.counter.toNat && frameCmd (u.frame.counter.toNat - 2) d) = false := by
    rw [not_frameCmd (by simp [hop]), Bool.and_false]
  simp [tickFeature, hcmd, awaits, hop, hr, scrubSet]

/-- At a tick, a feature other than FRAME that has waited for it. -/
theorem tickFeature_ready {u : State} {d : Cmd} (hop : pktOpcode d.pkt = 3) (hf : pktField d.pkt 8 1 ≠ 0x10) (hr : d.phase = .ready) :
    (2 ≤ u.frame.counter.toNat && frameCmd (u.frame.counter.toNat - 2) d) = false ∧ awaits 0x78 d = false ∧ awaits 0x03 d = true :=
  ⟨by rw [not_frameCmd (fun h => hf h.2), Bool.and_false], by simp [awaits, hop], by simp [awaits, hop, hr]⟩

theorem tickFeature_powerCap {u : State} {d : Cmd} (hop : pktOpcode d.pkt = 3) (hf : pktField d.pkt 8 1 = 0x16) (hr : d.phase = .ready) :
    tickFeature u d = complete d.tag (stSuccess 0 0 0) { u with power := { u.power with
      capW := bitsOf (featDw d.pkt 0) 11 0, throttleC := bitsOf (featDw d.pkt 5) 23 16 } } := by
  obtain ⟨hcmd, h78, h03⟩ := tickFeature_ready (u := u) hop (by simp [hf]) hr
  simp [tickFeature, hcmd, h78, h03, hf]

theorem tickFeature_basis {u : State} {d : Cmd} (hop : pktOpcode d.pkt = 3) (hf : pktField d.pkt 8 1 = 0x17) (hr : d.phase = .ready) :
    tickFeature u d = complete d.tag (stSuccess 0 0 0) { u with logs := { u.logs with
      basisRef := bitOf (featDw d.pkt 0) 0, accum := if bitOf (featDw d.pkt 0) 1 then {} else u.logs.accum } } := by
  obtain ⟨hcmd, h78, h03⟩ := tickFeature_ready (u := u) hop (by simp [hf]) hr
  simp [tickFeature, hcmd, h78, h03, hf]

/-! ### PALETTE (R177, R178) -/

theorem pieceErrs_none {l : List Nat} (h : ∀ w ∈ l, palWordErr w = []) : pieceErrs 0 4 (fun _ w => palWordErr w) l = [] := by
  rw [pieceErrs, List.flatMap_eq_nil_iff]
  intro p hp
  rw [h p.1 (List.fst_mem_of_mem_zipIdx hp), List.map_nil]

/-- Stored one after the other from a place on, the words of a list change their own places and no other. -/
theorem mapGet_storePals (first : Nat) (l : List Nat) (j : Nat) (m : SMap PalEntry) (k : Nat) :
    mapGet {} ((l.zipIdx j).foldl (fun m w => mapSet {} (first + w.2) (storePal w.1 (mapGet {} m (first + w.2))) m) m) k =
      if h : first + j ≤ k ∧ k < first + j + l.length then storePal (l[k - (first + j)]'(by omega)) (mapGet {} m k) else mapGet {} m k := by
  induction l generalizing j m with
  | nil => simp
  | cons w l ih =>
    rw [List.zipIdx_cons, List.foldl_cons, ih]
    by_cases hk : k = first + j
    · subst hk
      simp
    · rw [mapGet_mapSet_ne _ hk]
      by_cases hin : first + (j + 1) ≤ k ∧ k < first + (j + 1) + l.length
      · have hidx : k - (first + j) = k - (first + (j + 1)) + 1 := by omega
        rw [dif_pos hin, dif_pos (by simp; omega)]
        simp [hidx]
      · rw [dif_neg hin, dif_neg (by simp; omega)]

theorem updateCmd_palette {u : State} {d : Cmd} (hop : pktOpcode d.pkt = 3) (hf : pktField d.pkt 8 1 = 0x11) (hr : d.phase = .ready)
    (hp : atPoint u (pktCtx d.pkt) = true) : updateCmd u d = complete d.tag (stSuccess 0 0 0) (writePalette d u) := by
  have hw : paletteWrite d = true := by simp [paletteWrite, awaits, hop, hf, hr]
  simp [updateCmd, hp, hw]

theorem palette_writePalette (d : Cmd) (u : State) (k : Nat) : mapGet {} (ctxOf (writePalette d u) (pktCtx d.pkt)).palette k =
    if h : pktField d.pkt 12 2 ≤ k ∧ k < pktField d.pkt 12 2 + (palWords d).length then
      storePal ((palWords d)[k - pktField d.pkt 12 2]'(by omega)) (mapGet {} (ctxOf u (pktCtx d.pkt)).palette k)
    else mapGet {} (ctxOf u (pktCtx d.pkt)).palette k := by
  rw [writePalette, ctxOf_updCtx_self]
  exact mapGet_storePals (pktField d.pkt 12 2) (palWords d) 0 _ k

theorem setFeaturePalette_waits {s : State} {tag : Nat} {c : Cmd} (h : AtUnit s 0x03 tag c) (hf : pktField c.pkt 8 1 = 0x11)
    (hd : ctxDefined s (pktCtx c.pkt) = true) (hw : ∀ w ∈ palWords c, palWordErr w = []) :
    ∃ t, exec (.setFeaturePalette tag) s = .next t ∧ WaitsForTick c s t ∧ OnlyHostChanges s t ∧
      TakenUpLater c { c with phase := .ready, extra := 0 } updateCmd (fun u => atPoint u (pktCtx c.pkt) = true)
        (fun u v => (∀ i w, (palWords c)[i]? = some w →
            mapGet {} (ctxOf v (pktCtx c.pkt)).palette (pktField c.pkt 12 2 + i) =
              storePal w (mapGet {} (ctxOf u (pktCtx c.pkt)).palette (pktField c.pkt 12 2 + i))) ∧
          (∀ k, k < pktField c.pkt 12 2 ∨ pktField c.pkt 12 2 + (palWords c).length ≤ k →
            mapGet {} (ctxOf v (pktCtx c.pkt)).palette k = mapGet {} (ctxOf u (pktCtx c.pkt)).palette k)) t := by
  obtain ⟨hc, hop, -⟩ := cmdOf_of_atUnit h
  have hcmd : setPaletteCmd c s = awaitTick c 0 s := by simp [setPaletteCmd, hd, pieceErrs_none hw, firstErr]
  refine ⟨awaitTick c 0 s, (execSetFeature_eq h hf setPaletteCmd).trans (by rw [hcmd]), ⟨0, rfl⟩, rfl,
    takenUpLater_awaitTick hc rfl fun u hp => ⟨writePalette c u, updateCmd_palette (d := { c with phase := .ready, extra := 0 }) hop hf rfl hp, rfl, rfl, ?_⟩⟩
  have hpal (k : Nat) : mapGet {} (ctxOf (complete c.tag (stSuccess 0 0 0) (writePalette c u)) (pktCtx c.pkt)).palette k = _ :=
    (congrArg (fun x => mapGet {} (Context.palette x) k) (ctxOf_congr (by simp) _)).trans (palette_writePalette c u k)
  refine ⟨fun i w hi => ?_, fun k hk => ?_⟩
  · obtain ⟨hlt, hget⟩ := List.getElem?_eq_some_iff.mp hi
    rw [hpal, dif_pos ⟨Nat.le_add_right _ _, Nat.add_lt_add_left hlt _⟩]
    have hidx : pktField c.pkt 12 2 + i - pktField c.pkt 12 2 = i := by omega
    rw [← hget]
    congr 1
    exact getElem_congr_idx hidx
  · rw [hpal, dif_neg (by omega)]

/-! ### BLOCK_SPACE (R247, R248) -/

/-- The logical-block space has this many granules. -/
def blockSpace (n : Nat) (s : State) : State := { s with flash := { s.flash with blockGranules := n } }

theorem enqProg_eq (o : ProgOp) (s : State) : enqProg o s = { s with flash := (enqProg o s).flash, nonce := (enqProg o s).nonce } := rfl

/-- A tombstone over one range: its program, and one sequence number drawn. -/
theorem enqTombstone_one (tag ctx obj ch lga n : Nat) (s : State) : enqTombstone tag ctx obj ch [(lga, n)] s =
    enqProg { id := 0, tag := tag, ctx := ctx, obj := obj, kind := .record, ch := ch
              ver := { kind := .tombstone, slots := [{ lga := lga, count := n, seq := s.flash.seq }] } } (drawSeq s) := rfl

theorem setFeatureBlockSpace_reduces {s : State} {tag n : Nat} {c : Cmd} (h : AtUnit s 0x03 tag c) (hf : pktField c.pkt 8 1 = 0x12)
    (hn : n = featDw c.pkt 0 + bitsOf (featDw c.pkt 1) 7 0 * 2 ^ 32) (hq : n + quotaT3Sum s ≤ userGranules s) (hl : n < s.flash.blockGranules)
    (hr : s.flash.readOnly = false) :
    ∃ t, exec (.setFeatureBlockSpace tag) s = .next t ∧ StaysRunning c 1 s t ∧ t = { s with host := t.host, flash := t.flash, nonce := t.nonce } ∧
      t.flash.blockGranules = n ∧ t.flash.map = s.flash.map ∧ ∃ o ∈ t.flash.progQ, o.tag = c.tag ∧
      o.ver.kind = .tombstone ∧ o.ver.slots = [{ lga := blkLga n, count := s.flash.blockGranules - n, seq := s.flash.seq }] := by
  set u : State := blockSpace n s with hu
  set o : ProgOp := { id := 0, tag := c.tag, ctx := 0, obj := 0, kind := .record, ch := lgaChannel (blkLga n)
                      ver := { kind := .tombstone, slots := [{ lga := blkLga n, count := s.flash.blockGranules - n, seq := s.flash.seq }] } } with ho
  have hcmd : setBlockCmd c s = keepRunning c 1 (enqProg o (drawSeq u)) := by
    simp only [setBlockCmd, ← hn]
    rw [if_neg (by omega), if_neg (by omega), if_neg (by simp [hr]), enqTombstone_one]
    rfl
  have hflash : (enqProg o (drawSeq u)).flash = _ := (flashRuns_enqProg o (drawSeq u)).flash
  obtain ⟨q, hq, hqo⟩ := enqProg_queues o (drawSeq u)
  refine ⟨keepRunning c 1 (enqProg o (drawSeq u)), (execSetFeature_eq h hf setBlockCmd).trans (by rw [hcmd]), ?_, ?_, ?_, ?_, q, hq, ?_⟩
  · rw [enqProg_eq]; rfl
  · rw [enqProg_eq]; rfl
  · exact (congrArg Flash.blockGranules hflash :)
  · exact (congrArg Flash.map hflash :)
  · exact ⟨congrArg ProgOp.tag hqo, congrArg (fun p => p.ver.kind) hqo, congrArg (fun p => p.ver.slots) hqo⟩

/-- Settles O37: each feature by what its unit does at once and at its tick or update point, BLOCK_SPACE by its tombstone. -/
theorem featuresAreSetAtTheirTicks : Obligations.FeaturesAreSetAtTheirTicks := by
  unfold Obligations.FeaturesAreSetAtTheirTicks
  refine ⟨fun tag c s h => ?_, fun tag c s h => ?_⟩
  · obtain ⟨hc, hop, -⟩ := cmdOf_of_atUnit h
    refine ⟨fun hf hd => setFeatureArbitration_newRound h hf hd, fun hf => ?_, fun hf => ?_, fun hf => ?_,
      fun hf hd hw => setFeaturePalette_waits h hf hd hw, fun n hf hn => ⟨fun hq => ?_, fun hq hg => ?_, fun hq hl hr => ?_, fun hq hl hr =>
        ⟨lastProgramCompletes_of (by simp [hop]) (by simp [hop]), setFeatureBlockSpace_reduces h hf hn hq hl hr⟩⟩⟩
    · refine ⟨setFrameCmd c s, execSetFeature_eq h hf setFrameCmd, ⟨_, rfl⟩, rfl, takenUpLater_awaitTick hc rfl fun u hn =>
        ⟨_, tickFeature_frame (d := { c with phase := .ready, extra := _ }) hop hf rfl hn, rfl, rfl, by simp⟩⟩
    · refine ⟨awaitTick c 0 s, execSetFeature_eq h hf (fun c s => awaitTick c 0 s), ⟨0, rfl⟩, rfl, takenUpLater_awaitTick hc rfl fun u _ =>
        ⟨_, tickFeature_powerCap (d := { c with phase := .ready, extra := 0 }) hop hf rfl, rfl, rfl, complete_onlyHost _ _ _⟩⟩
    · refine ⟨awaitTick c 0 s, execSetFeature_eq h hf (fun c s => awaitTick c 0 s), ⟨0, rfl⟩, rfl, takenUpLater_awaitTick hc rfl fun u _ =>
        ⟨_, tickFeature_basis (d := { c with phase := .ready, extra := 0 }) hop hf rfl, rfl, rfl, complete_onlyHost _ _ _⟩⟩
    · have hcmd : setBlockCmd c s = complete c.tag stQuota s := by
        simp only [setBlockCmd, ← hn]; rw [if_pos hq]
      exact ⟨_, (execSetFeature_eq h hf setBlockCmd).trans (by rw [hcmd]), complete_onlyHost _ _ _, commandCompletes_complete hc rfl _⟩
    · have hcmd : setBlockCmd c s = complete c.tag (stSuccess 0 0 0) { s with flash := { s.flash with blockGranules := n } } := by
        simp only [setBlockCmd, ← hn]; rw [if_neg (by omega), if_pos hg]
      exact ⟨complete c.tag (stSuccess 0 0 0) (blockSpace n s), (execSetFeature_eq h hf setBlockCmd).trans (by rw [hcmd]; rfl),
        commandCompletes_after (w := blockSpace n s) hc rfl rfl rfl _, complete_onlyHost c.tag (stSuccess 0 0 0) (blockSpace n s)⟩
    · have hcmd : setBlockCmd c s = complete c.tag stProgramFail s := by
        simp only [setBlockCmd, ← hn]; rw [if_neg (by omega), if_neg (by omega), if_pos hr]
      exact ⟨_, (execSetFeature_eq h hf setBlockCmd).trans (by rw [hcmd]), complete_onlyHost _ _ _, commandCompletes_complete hc rfl _⟩
  · obtain ⟨hc, hop, -⟩ := cmdOf_of_atUnit h
    refine ⟨awaitTick c 0 s, ?_, ⟨0, rfl⟩, rfl, takenUpLater_awaitTick hc rfl fun u _ =>
      ⟨scrubSet c u, tickFeature_scrub (d := { c with phase := .ready, extra := 0 }) hop rfl, rfl, rfl,
        (complete_onlyHost c.tag (stSuccess 0 0 0) (scrubSet c u)).trans (by rw [complete_scrub]; rfl), by simpa using mapGet_scrubSet c u⟩⟩
    change unitOp true (onCmd 0x78 tag anyPkt (fun c s => awaitTick c 0 s) s) = _
    rw [onCmd_atUnit h rfl, unitOp_ok]

end Sys2Proof.Machine
end

section
/-! SUPPORT. Proofs of the frame and timing statements (chapter 2): granules, their bytes and the reads that bring them (O49). -/

namespace Sys2Proof.Machine
open Claims

/-! ### What the flash's own work leaves of versions and data -/

/-- Versions and maps stand: what a granule holds, at home and with the queued programs, stands with them. -/
structure SameMedia (s t : State) : Prop where
  map : t.flash.map = s.flash.map
  overlay : t.flash.overlay = s.flash.overlay
  versions : ∀ l, versionAt t l = versionAt s l

theorem SameMedia.trans {s t u : State} (h : SameMedia s t) (g : SameMedia t u) : SameMedia s u :=
  ⟨g.map.trans h.map, g.overlay.trans h.overlay, fun l => (g.versions l).trans (h.versions l)⟩

theorem SameMedia.of_supers {s t : State} (hm : t.flash.map = s.flash.map) (ho : t.flash.overlay = s.flash.overlay)
    (hs : ∀ k, superBody (mapGet {} t.flash.supers k) = superBody (mapGet {} s.flash.supers k)) : SameMedia s t := by
  refine ⟨hm, ho, fun l => ?_⟩
  have hv : (superOf t l.ch l.die l.super).vers = (superOf s l.ch l.die l.super).vers := (congrArg Super.vers (hs (superKey l.ch l.die l.super)) :)
  rw [versionAt, hv, versionAt]

theorem FlashRuns.sameMedia {s t : State} (h : FlashRuns s t) : SameMedia s t :=
  .of_supers (by rw [h.flash]) (by rw [h.flash]) h.supers

theorem homeRead_congr {s t : State} (h : SameMedia s t) (lga : Nat) : homeRead t lga = homeRead s lga := by
  have hu : overlayUnits t lga = overlayUnits s lga := by simp only [overlayUnits, h.overlay]
  unfold homeRead
  rw [hu, h.map, funext h.versions]

theorem unitNew_congr {s t : State} (h : SameMedia s t) (hq : t.flash.progQ = s.flash.progQ) (lga u : Nat) (old : Store) :
    unitNew t lga u old = unitNew s lga u old := by
  simp only [unitNew, baseSeq, unitSeq, hq, h.map, h.overlay, funext h.versions]

theorem homeNew_congr {s t : State} (h : SameMedia s t) (hq : t.flash.progQ = s.flash.progQ) (lga : Nat) : homeNew t lga = homeNew s lga := by
  simp only [homeNew, hq, homeRead_congr h, unitNew_congr h hq]

/-! ### Bytes of a pasted piece -/

theorem cellAt_shift (a x : Nat) (cs : List Host.Cell) : cellAt x (cs.map (fun c => (c.1 + a, c.2))) = if a ≤ x then cellAt (x - a) cs else 0 := by
  induction cs with
  | nil => simp [cellAt]
  | cons c cs ih =>
    simp only [List.map_cons, cellAt]
    by_cases h : c.1 + a = x
    · rw [if_pos h, if_pos (by omega), if_pos (by omega)]
    · rw [if_neg h, ih]
      split
      · rw [if_neg (by omega)]
      · rfl

theorem cellAt_append_left {x : Nat} {ds : List Host.Cell} (h : ∀ c ∈ ds, c.1 ≠ x) (cs : List Host.Cell) : cellAt x (cs ++ ds) = cellAt x cs := by
  have hd : ds.any (fun c => c.1 = x) = false := by simpa [List.any_eq_false] using h
  rw [cellAt_append]
  split
  · rfl
  · rename_i hc
    rw [cellAt_not_listed hd, cellAt_not_listed (Bool.eq_false_iff.mpr hc)]

theorem cellAt_append_right {x : Nat} {cs : List Host.Cell} (h : ∀ c ∈ cs, c.1 ≠ x) (ds : List Host.Cell) : cellAt x (cs ++ ds) = cellAt x ds := by
  have hc : cs.any (fun c => c.1 = x) = false := by simpa [List.any_eq_false] using h
  rw [cellAt_append, if_neg (by simp [hc])]

theorem storeByte_storePaste (w : Nat) (m : Store) (a n : Nat) (src : Store) (x : Nat) :
    storeByte (storePaste w m a n src) x = if a ≤ x ∧ x < a + n then storeByte src (x - a) else storeByte m x := by
  have hbelow : ∀ c ∈ m.cells.filter (fun c => c.1 < a), c.1 < a := fun c hc => by simpa using (List.mem_filter.mp hc).2
  have habove : ∀ c ∈ m.cells.filter (fun c => a + n ≤ c.1), a + n ≤ c.1 := fun c hc => by simpa using (List.mem_filter.mp hc).2
  have hin : ∀ c ∈ (src.cells.filter (fun c => c.1 < n)).map (fun c => (c.1 + a, c.2)), a ≤ c.1 ∧ c.1 < a + n := by
    intro c hc
    obtain ⟨e, he, rfl⟩ := List.mem_map.mp hc
    have hlt : e.1 < n := by simpa using (List.mem_filter.mp he).2
    exact ⟨Nat.le_add_left _ _, by omega⟩
  change cellAt x (_ ++ _ ++ _) = _
  by_cases hlow : x < a
  · rw [List.append_assoc, cellAt_append_left (by
      intro c hc
      rcases List.mem_append.mp hc with hc | hc
      · have := hin c hc; omega
      · have := habove c hc; omega), cellAt_filter (fun j => decide (j < a)), if_pos (by simpa using hlow), if_neg (by omega)]
    rfl
  · by_cases hmid : x < a + n
    · rw [cellAt_append_left (fun c hc => by have := habove c hc; omega), cellAt_append_right (fun c hc => by have := hbelow c hc; omega),
        cellAt_shift, if_pos (by omega), cellAt_filter (fun j => decide (j < n)), if_pos (by simp; omega), if_pos ⟨by omega, hmid⟩]
      rfl
    · rw [cellAt_append_right (by
        intro c hc
        rcases List.mem_append.mp hc with hc | hc
        · have := hbelow c hc; omega
        · have := hin c hc; omega), cellAt_filter (fun j => decide (a + n ≤ j)), if_pos (by simp; omega), if_neg (by omega)]
      rfl

/-! ### A granule lands (R59, R208) -/

theorem execFlashReadComplete_eq {id : Nat} {x : ReadOp} {s : State} (hf : s.flash.readQ.find? (fun x => x.id = id) = some x) (hs : x.started = true)
    (hp : flashOn s = true) (hw : ∀ t g, x.why ≠ .query t g) (r : ReadResult) : exec (.flashReadComplete id r) s =
      .next (flashGo (readChannel x) (deliverRead x r { s with flash := { s.flash with readQ := s.flash.readQ.filter (fun y => y.id != id) } })) := by
  have heq : readDone id r s =
      flashGo (readChannel x) (deliverRead x r { s with flash := { s.flash with readQ := s.flash.readQ.filter (fun y => y.id != id) } }) := by
    unfold readDone
    simp only [hf, hs, hp]
    cases hwhy : x.why with
    | query t g => exact absurd hwhy (hw t g)
    | _ => rfl
  exact congrArg Host.Outcome.next heq

theorem readFound_clean (lga : Nat) (s : State) : readFound lga .clean s = countReads (homePlaces s lga) s := rfl

/-- A sound granule lands in the copy that misses it. -/
theorem objOf_landGranule {id g : Nat} {o : Obj} {m : T2Copy} {data : Store} {s : State} (ho : objOf s id = some o) (hm : o.copy = some m)
    (hg : g ∈ m.missing) (ht : o.fillTags = []) (hp : data.poison = []) :
    objOf (landGranule id g data s) id = some { o with copy := some { m with
      data := storePaste 64 m.data (g * granuleBytes) granuleBytes data, missing := setDel g m.missing } } := by
  set o' : Obj := { o with copy := some { m with
      data := storePaste 64 m.data (g * granuleBytes) granuleBytes data, missing := setDel g m.missing } } with ho'
  have hput : objOf (putGranule id g data s) id = some o' := by
    simp [putGranule, ho, hm, hg, ho']
  have hflight : objOf (pruneFlight (putGranule id g data s)) id = some o' := hput
  have htags : o'.fillTags = [] := ht
  simp only [landGranule, ho, hp, List.isEmpty_nil, Bool.not_true, Bool.false_eq_true, if_false]
  simp only [checkPlaced, hflight, htags, List.filter_nil, List.foldl_nil, objOf_updObj_self, Option.map_some]
  rw [← htags]

theorem host_landGranule {id g : Nat} {o : Obj} {m : T2Copy} {data : Store} {s : State} (ho : objOf s id = some o) (hm : o.copy = some m)
    (hg : g ∈ m.missing) (ht : o.fillTags = []) (hp : data.poison = []) : (landGranule id g data s).host = s.host := by
  have hput : ∃ p, objOf (pruneFlight (putGranule id g data s)) id = some p ∧ p.fillTags = [] :=
    ⟨{ o with copy := some { m with data := storePaste 64 m.data (g * granuleBytes) granuleBytes data, missing := setDel g m.missing } },
      (by simp [putGranule, ho, hm, hg] : objOf (putGranule id g data s) id = _), ht⟩
  obtain ⟨p, hp', htags⟩ := hput
  simp only [landGranule, ho, hp, List.isEmpty_nil, Bool.not_true, Bool.false_eq_true, if_false]
  simp only [checkPlaced, hp', htags, List.filter_nil, List.foldl_nil, updObj_host]
  exact updObj_host _ _ _

theorem toLines_poison {m : Store} (h : m.poison = []) : (toLines m).poison = [] := by simp [toLines, h]

theorem readFound_runs (lga : Nat) (s : State) : FlashRuns s (readFound lga .clean s) := flashRuns_countReads _ s

/-- Counting reads changes superblocks alone. -/
theorem countReads_eq (ls : List Loc) (s : State) : ∃ m, countReads ls s = { s with flash := { s.flash with supers := m } } := by
  unfold countReads
  induction ls generalizing s with
  | nil => exact ⟨s.flash.supers, rfl⟩
  | cons l ls ih =>
    rw [List.foldl_cons]
    obtain ⟨m, hm⟩ := ih (updSuper l.ch l.die l.super (fun x => { x with reads := x.reads + 1 }) s)
    exact ⟨m, hm⟩

/-- An object that the flash's own work meets keeps all but the note of its reads. -/
theorem FlashRuns.objOf_some {s t : State} (h : FlashRuns s t) {id : Nat} {o : Obj} (ho : objOf s id = some o) :
    ∃ st, objOf t id = some { o with started := st } := by
  have hobj := h.objs id
  rw [ho, Option.map_some] at hobj
  obtain ⟨p, hp, hpo⟩ := Option.map_eq_some_iff.mp hobj
  refine ⟨p.started, hp.trans (congrArg some ?_)⟩
  have heq : { unstarted p with started := p.started } = { unstarted o with started := p.started } := by rw [hpo]
  exact heq

/-- The queue of reads without one. -/
def withoutRead (id : Nat) (s : State) : State := { s with flash := { s.flash with readQ := s.flash.readQ.filter (fun y => y.id != id) } }

theorem FlashRuns.read_gone {s t : State} {id : Nat} (h : FlashRuns s t) (hs : ∀ r ∈ s.flash.readQ, r.id ≠ id) : ∀ r ∈ t.flash.readQ, r.id ≠ id := by
  intro r hr
  obtain ⟨x, hx, hxr⟩ := h.reads r hr
  exact hxr ▸ hs x hx

theorem withoutRead_gone (id : Nat) (s : State) : ∀ r ∈ (withoutRead id s).flash.readQ, r.id ≠ id := by
  intro r hr
  simpa using (List.mem_filter.mp hr).2

theorem flash_landGranule (id g : Nat) (data : Store) (s : State) (hp : data.poison = []) : (landGranule id g data s).flash = s.flash := by
  unfold landGranule
  split
  · rfl
  · simp only [hp, List.isEmpty_nil, Bool.not_true, Bool.false_eq_true, if_false]
    unfold checkPlaced
    split
    · exact updObj_flash _ _ _
    · have hfold (l : List Nat) (u : State) : (l.foldl (fun s t => complete t (stSuccess 0 0 0) s) u).flash = u.flash := by
        induction l generalizing u with
        | nil => rfl
        | cons t l ih => rw [List.foldl_cons, ih]; simp
      rw [hfold, updObj_flash]
      exact updObj_flash _ _ _

theorem flashReadComplete_fill {id obj g : Nat} {post : Bool} {x : ReadOp} {o : Obj} {m : T2Copy} {s : State}
    (hf : s.flash.readQ.find? (fun x => x.id = id) = some x) (hs : x.started = true) (hw : x.why = .fill obj g post) (hon : flashOn s = true)
    (ho : objOf s obj = some o) (ht : o.fillTags = []) (hm : o.copy = some m) (hg : g ∈ m.missing) (hp : (homeNew s x.lga).poison = []) :
    ∃ t k st, exec (.flashReadComplete id .clean) s = .next t ∧ (∀ r ∈ t.flash.readQ, r.id ≠ id) ∧
      objOf t obj = some { o with copy := some k, started := st } ∧
      k.missing = setDel g m.missing ∧ k.dirty = m.dirty ∧
      (∀ i, i < 65536 → storeByte k.data (g * 65536 + i) = storeByte (homeNew s x.lga) i) ∧
      (∀ a, a < g * 65536 ∨ g * 65536 + 65536 ≤ a → storeByte k.data a = storeByte m.data a) ∧ t.host = s.host := by
  set u := readFound x.lga .clean (withoutRead id s) with hu
  have hruns : FlashRuns (withoutRead id s) u := readFound_runs _ _
  have hmedia : SameMedia s u := (SameMedia.mk rfl rfl (fun _ => rfl) : SameMedia s (withoutRead id s)) |>.trans hruns.sameMedia
  obtain ⟨sp, hsp⟩ := countReads_eq (homePlaces (withoutRead id s) x.lga) (withoutRead id s)
  have hobj : objOf u obj = some o := by rw [hu, readFound_clean, hsp]; exact ho
  have hhost : u.host = s.host := by rw [hu, readFound_clean, hsp]; rfl
  have hhome : homeNew u x.lga = homeNew s x.lga := homeNew_congr hmedia (by rw [hu, readFound_clean, hsp]; rfl) x.lga
  have hdata : (toLines (homeNew u x.lga)).poison = [] := toLines_poison (hhome ▸ hp)
  have hexec := execFlashReadComplete_eq hf hs hon (by simp [hw]) .clean
  have hdeliver : deliverRead x .clean (withoutRead id s) = landGranule obj g (toLines (homeNew u x.lga)) u := by
    unfold deliverRead; rw [hw]
  have hgo := flashRuns_flashGo (readChannel x) (landGranule obj g (toLines (homeNew u x.lga)) u)
  obtain ⟨st, hst⟩ := hgo.objOf_some (objOf_landGranule hobj hm hg ht hdata)
  refine ⟨_, _, st, hexec.trans (congrArg (fun v => Host.Outcome.next (flashGo (readChannel x) v)) hdeliver), hgo.read_gone ?_, hst, rfl, rfl,
    fun i hi => ?_, fun a ha => ?_, ?_⟩
  · rw [flash_landGranule _ _ _ _ hdata]
    exact hruns.read_gone (withoutRead_gone id s)
  · rw [storeByte_storePaste, if_pos (by simp only [granuleBytes]; omega), ← hhome]
    simp only [granuleBytes]
    rw [Nat.add_sub_cancel_left]; rfl
  · rw [storeByte_storePaste, if_neg (by simp only [granuleBytes]; omega)]
  · rw [flashGo_host, host_landGranule hobj hm hg ht hdata, hhost]

end Sys2Proof.Machine
end

section
/-! SUPPORT. Proofs of the frame and timing statements (chapter 2): the read-back of a fold and programs that pass (O49). -/

namespace Sys2Proof.Machine
open Claims

/-! ### The read-back of a fold (R258) -/

theorem flashReadComplete_verify {id : Nat} {src dst : Loc} {x : ReadOp} {v : Version} {y : Slot} {s : State}
    (hf : s.flash.readQ.find? (fun x => x.id = id) = some x) (hs : x.started = true) (hw : x.why = .verify src dst false) (hon : flashOn s = true)
    (hv : versionAt s dst = some v) (hk : v.kind = .granule) (hy : v.slots = [y]) (hm : mapFind y.lga s.flash.map = some src) :
    ∃ t, exec (.flashReadComplete id .clean) s = .next t ∧ mapFind y.lga t.flash.map = some dst ∧
      (∀ l, l ≠ y.lga → mapFind l t.flash.map = mapFind l s.flash.map) ∧ t.host = s.host := by
  set u := countReads [dst] (withoutRead id s) with hu
  obtain ⟨sp, hsp⟩ := countReads_eq [dst] (withoutRead id s)
  have hruns : FlashRuns (withoutRead id s) u := flashRuns_countReads _ _
  have hmap : u.flash.map = s.flash.map := by rw [hu, hsp]; rfl
  have hvu : versionAt u dst = some v := (hruns.sameMedia.versions dst).trans hv
  have hland : deliverRead x .clean (withoutRead id s) = { u with flash := { u.flash with map := mapPut y.lga dst u.flash.map } } := by
    have hverify : verifyDone src dst false .clean (withoutRead id s) = landCopy src dst v false u := by
      simp only [verifyDone, foundAt, ← hu, hvu]
    unfold deliverRead
    rw [hw]
    refine hverify.trans ?_
    simp [landCopy, moveMap, hk, hy, hmap, hm]
  have hgo := flashRuns_flashGo (readChannel x) { u with flash := { u.flash with map := mapPut y.lga dst u.flash.map } }
  have hexec := execFlashReadComplete_eq hf hs hon (by simp [hw]) .clean
  have hfinal : (flashGo (readChannel x) { u with flash := { u.flash with map := mapPut y.lga dst u.flash.map } }).flash.map =
      mapPut y.lga dst s.flash.map := hgo.sameMedia.map.trans (congrArg (mapPut y.lga dst) hmap)
  refine ⟨_, hexec.trans (congrArg (fun v => Host.Outcome.next (flashGo (readChannel x) v)) hland), ?_, fun l hl => ?_, ?_⟩
  · rw [hfinal, mapFind_mapPut_self]
  · rw [hfinal, mapFind_mapPut_ne hl]
  · rw [flashGo_host, hu, hsp]; rfl

/-! ### A program that passes (R255, R256) -/

/-- What the ends of commands leave of flash and logs: all but the object numbers in use. -/
def flashBody (s : State) : Flash × Logs := ({ s.flash with objNos := [] }, s.logs)

@[simp] theorem flashBody_complete (tag : Nat) (st : Status) (s : State) : flashBody (complete tag st s) = flashBody s := by
  simp [flashBody]

@[simp] theorem flashBody_updObj (id : Nat) (f : Obj → Obj) (s : State) : flashBody (updObj id f s) = flashBody s := by
  simp [flashBody]

@[simp] theorem flashBody_updCmd (tag : Nat) (f : Cmd → Cmd) (s : State) : flashBody (updCmd tag f s) = flashBody s := rfl

@[simp] theorem flashBody_objNos (l : List Nat) (s : State) : flashBody { s with flash := { s.flash with objNos := l } } = flashBody s := rfl

@[simp] theorem flashBody_finishDestroy (n : Nat) (s : State) : flashBody (finishDestroy n s) = flashBody s := rfl

@[simp] theorem flashBody_finishEvict (c : Cmd) (s : State) : flashBody (finishEvict c s) = flashBody s := by
  unfold finishEvict
  dsimp only
  split
  · split <;> simp
  · simp

@[simp] theorem flashBody_finishProg (c : Cmd) (s : State) : flashBody (finishProg c s) = flashBody s := by
  unfold finishProg
  split
  · split
    · dsimp only
      split <;> simp
    · split <;> simp
  · split <;> simp

@[simp] theorem flashBody_progStep (o : ProgOp) (s : State) : flashBody (progStep o s) = flashBody s := by
  unfold progStep
  split
  · rfl
  · dsimp only; split <;> simp

/-- The place that a write of one granule takes. -/
def writePlace (o : ProgOp) (die n : Nat) (s : State) : Loc := { ch := o.ch, die := die, super := n, pos := (superOf s o.ch die n).next }

theorem programEffect_write {o : ProgOp} {y : Slot} (hk : o.kind = .write) (hy : o.ver.slots = [y]) (die n : Nat) (s u : State) :
    programEffect o (placesOf o die n s) u = installGranule y.lga y.seq (writePlace o die n s) u := by
  simp [programEffect, hk, hy, placesOf, progPlaces, progSlc, writePlace]

theorem vers_programmed {o : ProgOp} (hk : o.kind = .write) (die n : Nat) (s : State) : (superOf (programmed o die n s) o.ch die n).vers =
    mapPut (superOf s o.ch die n).next { o.ver with pseq := s.flash.seq } (superOf s o.ch die n).vers := by
  have hself : superOf (programmed o die n s) o.ch die n = superOf (putVersions o.ch die n o (progVersions o s.flash.seq) (drawSeq (dropProg o.id s))) o.ch die n := rfl
  have hold : superOf (drawSeq (dropProg o.id s)) o.ch die n = superOf s o.ch die n := rfl
  have hvs : progVersions o s.flash.seq = [{ o.ver with pseq := s.flash.seq }] := by simp [progVersions, hk, progSlc]
  rw [hself, putVersions, superOf, updSuper, mapGet_mapSet_self, hold, hvs]
  rfl

theorem versionAt_programmed {o : ProgOp} (hk : o.kind = .write) (die n : Nat) (s : State) :
    versionAt (programmed o die n s) (writePlace o die n s) = some { o.ver with pseq := s.flash.seq } := by
  change mapFind (superOf s o.ch die n).next (superOf (programmed o die n s) o.ch die n).vers = _
  rw [vers_programmed hk, mapFind_mapPut_self]

/-- No version of the flash is a tombstone. -/
def NoTombstones (s : State) : Prop := ∀ p ∈ s.flash.supers, ∀ v ∈ p.2.vers, v.2.kind ≠ .tombstone

theorem tombSeq_none {s : State} (h : NoTombstones s) (lga : Nat) : tombSeq s lga = 0 := by
  have hnil : (allVersions s).flatMap (fun p => if p.2.kind = .tombstone then (p.2.slots.filter (fun t => slotCovers t lga)).map (·.seq) else []) = [] := by
    rw [List.flatMap_eq_nil_iff]
    intro p hp
    obtain ⟨q, hq, hpq⟩ := List.mem_flatMap.mp hp
    obtain ⟨v, hv, rfl⟩ := List.mem_map.mp hpq
    exact if_neg (h q hq v hv)
  rw [tombSeq, hnil, List.foldl_nil]

theorem mapSet_mem {α : Type} [DecidableEq α] {d v : α} {k : Nat} {m : SMap α} {p : Nat × α} (h : p ∈ mapSet d k v m) : p = (k, v) ∨ p ∈ m := by
  unfold mapSet at h
  split at h
  · exact .inr (List.mem_of_mem_filter h)
  · exact mapPut_mem h

theorem NoTombstones.super {s : State} (h : NoTombstones s) (k : Nat) : ∀ v ∈ (mapGet {} s.flash.supers k).vers, v.2.kind ≠ .tombstone :=
  mapGet_of_forall (P := fun x : Super => ∀ v ∈ x.vers, v.2.kind ≠ .tombstone) (fun _ hv => absurd hv List.not_mem_nil) h k

theorem noTombstones_programmed {o : ProgOp} (hk : o.kind = .write) (ho : o.ver.kind ≠ .tombstone) {s : State} (h : NoTombstones s) (die n : Nat) :
    NoTombstones (programmed o die n s) := by
  intro p hp v hv
  obtain ⟨x, hx⟩ : ∃ x, (programmed o die n s).flash.supers = mapSet {} (superKey o.ch die n) x s.flash.supers := ⟨_, rfl⟩
  have hself : superOf (programmed o die n s) o.ch die n = x := by rw [superOf, hx, mapGet_mapSet_self]
  rw [hx] at hp
  rcases mapSet_mem hp with rfl | hold
  · rw [← hself] at hv
    rw [vers_programmed hk] at hv
    rcases mapPut_mem hv with rfl | hv
    · exact ho
    · exact h.super _ v hv
  · exact h p hold v hv

/-- A granule that no map entry holds and no tombstone covers is installed at its place. -/
theorem installGranule_new {s : State} {lga seq : Nat} (hm : mapFind lga s.flash.map = none) (hs : 0 < seq) (ht : NoTombstones s) (l : Loc) :
    (installGranule lga seq l s).flash.map = mapPut lga l s.flash.map ∧ (installGranule lga seq l s).flash =
      { s.flash with map := (installGranule lga seq l s).flash.map, overlay := (installGranule lga seq l s).flash.overlay } := by
  have hbase : baseSeq s lga = 0 := by simp [baseSeq, hm]
  have heq : installGranule lga seq l s = dropUnits lga seq { s with flash := { s.flash with map := mapPut lga l s.flash.map } } := by
    rw [installGranule, hbase, tombSeq_none ht]
    exact if_neg (by simp; omega)
  rw [heq]
  exact ⟨rfl, rfl⟩

theorem flashProgramComplete_pass {id die n : Nat} {o : ProgOp} {y : Slot} {s : State} (hd : die < 48)
    (hf : s.flash.progQ.find? (fun o => o.id = id) = some o) (ho : o.on = some (die, n)) (hk : o.kind = .write)
    (hs : (dieOf s o.ch die).suspended = false) (hon : flashOn s = true) (hid : ∀ p ∈ s.flash.progQ, p.id < s.flash.nextId)
    (hy : o.ver.slots = [y]) (hm : mapFind y.lga s.flash.map = none) (hseq : 0 < y.seq) (ht : NoTombstones s) (hg : o.ver.kind = .granule) :
    ∃ t l v, exec (.flashProgramComplete id die true) s = .next t ∧ mapFind y.lga t.flash.map = some l ∧ l.ch = o.ch ∧ l.die = die ∧ l.super = n ∧
      versionAt t l = some v ∧ v.data = o.ver.data ∧ v.slots = o.ver.slots ∧ (∀ p ∈ t.flash.progQ, p.id ≠ id) ∧
      t.flash.bytesFlash = s.flash.bytesFlash + 65536 := by
  have hoid : o.id = id := by simpa using List.find?_some hf
  have hlt : id < s.flash.nextId := hoid ▸ hid o (List.mem_of_find?_eq_some hf)
  set u := dieDone o die s with hu
  set l := writePlace o die n u with hl
  set w := programmed o die n u with hw
  set x := installGranule y.lga y.seq l w with hx
  have htomb : NoTombstones w := noTombstones_programmed hk (by simp [hg]) (s := u) ht die n
  obtain ⟨hmap, hflash⟩ := installGranule_new (s := w) (lga := y.lga) hm hseq htomb l
  have hpass : progPass o die n u = progStep o x := by rw [progPass_eq, programEffect_write hk hy]
  have hbody : flashBody (progStep o x) = flashBody x := flashBody_progStep o x
  have hgo := flashRuns_flashGo o.ch (progStep o x)
  have hmedia : SameMedia x (progStep o x) := .of_supers (congrArg (fun b => b.1.map) hbody) (congrArg (fun b => b.1.overlay) hbody)
    (fun k => congrArg (fun b => superBody (mapGet {} b.1.supers k)) hbody)
  have hafter := hmedia.trans hgo.sameMedia
  have hqueue : (progStep o x).flash.progQ = w.flash.progQ := (congrArg (fun b => b.1.progQ) hbody :).trans (congrArg Flash.progQ hflash :)
  have hnext : (progStep o x).flash.nextId = s.flash.nextId := (congrArg (fun b => b.1.nextId) hbody :).trans (congrArg Flash.nextId hflash :)
  refine ⟨flashGo o.ch (progStep o x), l, { o.ver with pseq := u.flash.seq }, ?_, ?_, rfl, rfl, rfl, ?_, rfl, rfl, fun p hp => ?_, ?_⟩
  · rw [execFlashProgramComplete_eq hd hf ho hs hon, if_pos rfl, ← hu, hpass]
  · rw [hafter.map, hmap, mapFind_mapPut_self]
  · rw [hafter.versions]
    have hsupers : x.flash.supers = w.flash.supers := (congrArg Flash.supers hflash :)
    have hsame : versionAt x l = versionAt w l := by simp only [versionAt, superOf, hsupers]
    rw [hsame, hw, hl, versionAt_programmed hk]
  · rcases hgo.queued p hp with ⟨q, hq, hqp⟩ | hlate
    · rw [hqueue] at hq
      have hne : q.id ≠ o.id := by simpa using (List.mem_filter.mp (show q ∈ s.flash.progQ.filter (fun p => p.id != o.id) from hq)).2
      rw [← hqp, ← hoid]; exact hne
    · rw [hnext] at hlate; omega
  · have hbytes : (flashGo o.ch (progStep o x)).flash.bytesFlash = (progStep o x).flash.bytesFlash := by rw [hgo.flash]
    have hsame : (progStep o x).flash.bytesFlash = w.flash.bytesFlash :=
      (congrArg (fun b => b.1.bytesFlash) hbody :).trans (congrArg Flash.bytesFlash hflash :)
    rw [hbytes, hsame]
    change s.flash.bytesFlash + 65536 * progWidth o.kind = _
    rw [hk]; rfl

end Sys2Proof.Machine
end

section
/-! SUPPORT. Proofs of the frame and timing statements (chapter 2): programs and erases that fail, and erases (O49). -/

namespace Sys2Proof.Machine
open Claims

/-! ### A block fails (R269 to R271) -/

theorem eventLogged_logEvent (source sev code ctx inst addr d0 d1 : Nat) (s : State) :
    EventLogged source s (logEvent source sev code ctx inst addr d0 d1 s) := by
  set e : LogEntry := { seq := 0, frame := s.frame.counter.toNat, resets := s.power.resets, source := source, severity := sev
                        code := code, ctx := ctx, inst := inst, addr := addr, detail0 := d0, detail1 := d1 } with he
  change (∃ x ∈ (logAdd e s.logs).errors, x.source = source) ∨ s.logs.lost < (logAdd e s.logs).lost
  unfold logAdd
  split
  · rename_i hany
    obtain ⟨d, hd, hf⟩ := List.any_eq_true.mp hany
    refine .inl ⟨_, List.mem_map.mpr ⟨d, hd, rfl⟩, ?_⟩
    rw [if_pos hf]
    have hsrc : d.source = e.source := by
      simp only [logFolds, Bool.and_eq_true, decide_eq_true_eq] at hf
      tauto
    exact hsrc
  · split
    · exact .inr (Nat.lt_succ_self _)
    · exact .inl ⟨_, List.mem_append_right _ List.mem_cons_self, rfl⟩

theorem eventLogged_of_logs {source : Nat} {s t u : State} (h : EventLogged source s t) (hs : s.logs.lost = u.logs.lost) {v : State} (ht : v.logs = t.logs) :
    EventLogged source u v := by
  rw [EventLogged, ht, ← hs]; exact h

/-- What ended writes leave of flash and logs: all but the queued programs and the object numbers in use. -/
def flashKept (s : State) : Flash × Logs := ({ s.flash with objNos := [], progQ := [] }, s.logs)

theorem flashKept_of_body {s t : State} (h : flashBody t = flashBody s) : flashKept t = flashKept s := congrArg (fun b => ({ b.1 with progQ := [] }, b.2)) h

theorem flashKept_failWrite (s : State) (tag : Nat) : flashKept (failWrite s tag) = flashKept s := by
  unfold failWrite
  split
  · rfl
  · dsimp only
    split
    · exact (flashKept_of_body (flashBody_finishProg _ _)).trans rfl
    · rfl

theorem flashKept_foldl_failWrite (l : List Nat) (s : State) : flashKept (l.foldl failWrite s) = flashKept s := by
  induction l generalizing s with
  | nil => rfl
  | cons tag l ih => rw [List.foldl_cons, ih, flashKept_failWrite]

/-- The module stays as it is, or becomes read-only and ends the writes in progress. -/
theorem goReadOnly_cases (s : State) : goReadOnly s = s ∨
    (s.flash.readOnly = false ∧ flashKept (goReadOnly s) = flashKept { s with flash := { s.flash with readOnly := true } }) := by
  unfold goReadOnly
  split
  · exact .inl rfl
  · rename_i h
    refine .inr ⟨?_, flashKept_foldl_failWrite _ _⟩
    cases hr : s.flash.readOnly <;> simp [hr] at h ⊢

theorem goReadOnly_same {s : State} (h : (goReadOnly s).flash.readOnly = s.flash.readOnly) : goReadOnly s = s := by
  rcases goReadOnly_cases s with heq | ⟨hfalse, hkept⟩
  · exact heq
  · have htrue : (goReadOnly s).flash.readOnly = true := (congrArg (fun b => b.1.readOnly) hkept :)
    exact absurd (h.symm.trans htrue) (by simp [hfalse])

/-- Flash but for queued programs, numbers in use and read-only; and the logs. -/
def mediaState (s : State) : Flash × Logs := ({ s.flash with objNos := [], progQ := [], readOnly := false }, s.logs)

theorem mediaState_goReadOnly (s : State) : mediaState (goReadOnly s) = mediaState s := by
  rcases goReadOnly_cases s with heq | ⟨-, hkept⟩
  · rw [heq]
  · exact (congrArg (fun b => ({ b.1 with readOnly := false }, b.2)) hkept :)

theorem addRecord_ef (r : Region) (ws : List Word64) (s : State) : ∃ e, addRecord r ws s = { s with ef := e } := by
  have hopen (n : Nat) : ∃ e, openSector n s = { s with ef := e } := by
    unfold openSector
    split
    · exact ⟨_, rfl⟩
    · exact ⟨_, rfl⟩
  have hprog (n i : Nat) (u : State) : ∃ e, programRecord r n i ws u = { u with ef := e } := by
    unfold programRecord
    generalize ws.zipIdx = l
    induction l generalizing u with
    | nil => exact ⟨u.ef, rfl⟩
    | cons p l ih =>
      rw [List.foldl_cons]
      obtain ⟨e, he⟩ := ih (setEf (recordWord r n i + p.2) p.1 u)
      exact ⟨e, he⟩
  unfold addRecord
  split
  · exact ⟨s.ef, rfl⟩
  · rename_i n _
    dsimp only
    split
    · exact hprog _ _ _
    · obtain ⟨e, he⟩ := hopen n
      rw [he]
      exact hprog _ _ _

/-- A block that failed joins the list of bad blocks, in the flash's state and in embedded flash. -/
def badBlockNoted (b : Nat) (s : State) : State :=
  bump (addRecord badBlockRegion [badBlockWord b] { s with flash := { s.flash with badBlocks := s.flash.badBlocks ++ [b] } })

theorem badBlockNoted_eq (b : Nat) (s : State) : ∃ e, badBlockNoted b s =
    { s with ef := e, nonce := s.nonce + 1, flash := { s.flash with badBlocks := s.flash.badBlocks ++ [b] } } := by
  obtain ⟨e, he⟩ := addRecord_ef badBlockRegion [badBlockWord b] { s with flash := { s.flash with badBlocks := s.flash.badBlocks ++ [b] } }
  exact ⟨e, by rw [badBlockNoted, he]; rfl⟩

/-- A superblock with a bad block in it: it is to be emptied, and a spare joins it or it is retired. -/
def retiredSuper (spare : Option Nat) (plane : Nat) (x : Super) : Super :=
  { x with
    state := if spare.isNone then .retired else .closed, wanted := some .refresh
    spares := match spare with
      | none => x.spares
      | some k => mapPut plane k x.spares }

/-- The state in which a block has been retired, before the module may become read-only. -/
def blockRetired (ch die n : Nat) (s : State) : State :=
  let plane := (Config.free64 s.nonce).toNat % 4
  let t := badBlockNoted (blockNo ch die plane (blockOf (superOf s ch die n) n plane)) s
  updSuper ch die n (retiredSuper (freeSpares t ch die plane).head? plane) t

theorem retireBlock_eq (ch die n : Nat) (s : State) : retireBlock ch die n s = goReadOnly (blockRetired ch die n s) := rfl

/-- A retired block joins the list, and its superblock is to be emptied. -/
theorem blockRetired_spec (ch die n : Nat) (s : State) : ∃ e b x, blockRetired ch die n s = { s with
      ef := e, nonce := s.nonce + 1, flash := { s.flash with
        badBlocks := s.flash.badBlocks ++ [b], supers := mapSet {} (superKey ch die n) x s.flash.supers } } ∧
    x.wanted = some .refresh := by
  unfold blockRetired
  dsimp only
  generalize (Config.free64 s.nonce).toNat % 4 = plane
  generalize blockNo ch die plane (blockOf (superOf s ch die n) n plane) = b
  generalize (freeSpares (badBlockNoted b s) ch die plane).head? = spare
  obtain ⟨e, he⟩ := badBlockNoted_eq b s
  rw [he]
  exact ⟨e, b, retiredSuper spare plane (superOf s ch die n), rfl, rfl⟩

/-- What a failure leaves: one bad block more, the map, and the superblock to be emptied. -/
structure BlockFailed (ch die n : Nat) (s t : State) : Prop where
  badBlocks : t.flash.badBlocks.length = s.flash.badBlocks.length + 1
  map : t.flash.map = s.flash.map
  programFails : t.flash.programFails = s.flash.programFails
  eraseFails : t.flash.eraseFails = s.flash.eraseFails
  logs : t.logs = s.logs
  wanted : (superOf t ch die n).wanted = some .refresh
  writable : t.flash.readOnly = s.flash.readOnly → t.host = s.host ∧ t.flash.progQ = s.flash.progQ

theorem blockFailed_retireBlock (ch die n : Nat) (s : State) : BlockFailed ch die n s (retireBlock ch die n s) := by
  obtain ⟨e, b, x, hspec, hx⟩ := blockRetired_spec ch die n s
  have hmedia : mediaState (retireBlock ch die n s) = mediaState (blockRetired ch die n s) := by
    rw [retireBlock_eq]; exact mediaState_goReadOnly _
  rw [hspec] at hmedia
  refine ⟨?_, (congrArg (fun b => b.1.map) hmedia :), (congrArg (fun b => b.1.programFails) hmedia :), (congrArg (fun b => b.1.eraseFails) hmedia :),
    (congrArg (fun b => b.2) hmedia :), ?_, fun hr => ?_⟩
  · have hbad : (retireBlock ch die n s).flash.badBlocks = s.flash.badBlocks ++ [b] := (congrArg (fun b => b.1.badBlocks) hmedia :)
    rw [hbad, List.length_append]; rfl
  · have hsup : (retireBlock ch die n s).flash.supers = mapSet {} (superKey ch die n) x s.flash.supers := (congrArg (fun b => b.1.supers) hmedia :)
    rw [superOf, hsup, mapGet_mapSet_self, hx]
  · have hro : (blockRetired ch die n s).flash.readOnly = s.flash.readOnly := by rw [hspec]
    rw [retireBlock_eq] at hr
    rw [retireBlock_eq, goReadOnly_same (hr.trans hro.symm), hspec]
    exact ⟨rfl, rfl⟩

theorem FlashRuns.logs {s t : State} (h : FlashRuns s t) : t.logs = s.logs := by rw [h.rest]

theorem FlashRuns.host {s t : State} (h : FlashRuns s t) : t.host = s.host := by rw [h.rest]

theorem FlashRuns.superOf_body {s t : State} (h : FlashRuns s t) (ch die n : Nat) : superBody (superOf t ch die n) = superBody (superOf s ch die n) :=
  h.supers (superKey ch die n)

theorem FlashRuns.wanted {s t : State} (h : FlashRuns s t) (ch die n : Nat) : (superOf t ch die n).wanted = (superOf s ch die n).wanted :=
  (congrArg Super.wanted (h.superOf_body ch die n) :)

theorem FlashRuns.wear {s t : State} (h : FlashRuns s t) (ch die n : Nat) : (superOf t ch die n).wear = (superOf s ch die n).wear :=
  (congrArg Super.wear (h.superOf_body ch die n) :)

theorem FlashRuns.vers {s t : State} (h : FlashRuns s t) (ch die n : Nat) : (superOf t ch die n).vers = (superOf s ch die n).vers :=
  (congrArg Super.vers (h.superOf_body ch die n) :)

theorem FlashRuns.next {s t : State} (h : FlashRuns s t) (ch die n : Nat) : (superOf t ch die n).next = (superOf s ch die n).next :=
  (congrArg Super.next (h.superOf_body ch die n) :)

/-- A failed program in the queue: it waits again, for another die where it is an SLC program. -/
def againElsewhere (o : ProgOp) (die : Nat) (p : ProgOp) : ProgOp :=
  if p.id = o.id then { p with on := none, avoid := if progSlc p.kind then some die else p.avoid } else p

/-- A failed program has been counted and logged, and waits again. -/
def programFailed (o : ProgOp) (die n : Nat) (s : State) : State :=
  logEvent 8 1 0 0 o.ch (dieKey o.ch die) n 0 { s with flash := { s.flash with
    programFails := s.flash.programFails + 1, progQ := s.flash.progQ.map (againElsewhere o die) } }

theorem progFail_runs (o : ProgOp) (die n : Nat) (s : State) :
    FlashRuns (retireBlock o.ch die n (programFailed o die n s)) (progFail o die n s) :=
  flashRuns_enqCopies (.relocate .refresh) o.ch (some die) _ _

theorem flashProgramComplete_fail {id die n : Nat} {o : ProgOp} {s : State} (hd : die < 48)
    (hf : s.flash.progQ.find? (fun o => o.id = id) = some o) (ho : o.on = some (die, n)) (hk : o.kind = .write)
    (hs : (dieOf s o.ch die).suspended = false) (hon : flashOn s = true) :
    ∃ t, exec (.flashProgramComplete id die false) s = .next t ∧ t.flash.programFails = s.flash.programFails + 1 ∧
      t.flash.badBlocks.length = s.flash.badBlocks.length + 1 ∧ t.flash.map = s.flash.map ∧ EventLogged 8 s t ∧
      (superOf t o.ch die n).wanted = some .refresh ∧
      (t.flash.readOnly = s.flash.readOnly → t.host = s.host ∧ ∃ p ∈ t.flash.progQ, p.id = id ∧ p.avoid = some die ∧ p.ver = o.ver) := by
  have hoid : o.id = id := by simpa using List.find?_some hf
  set u := dieDone o die s with hu
  set w := programFailed o die n u with hw
  set x := retireBlock o.ch die n w with hx
  have hfail : BlockFailed o.ch die n w x := blockFailed_retireBlock _ _ _ _
  have hruns : FlashRuns x (flashGo o.ch (progFail o die n u)) := (progFail_runs o die n u).trans (flashRuns_flashGo _ _)
  have hlogged : EventLogged 8 u w := eventLogged_logEvent 8 1 0 0 o.ch (dieKey o.ch die) n 0 _
  refine ⟨flashGo o.ch (progFail o die n u), ?_, ?_, ?_, ?_, ?_, ?_, fun hr => ?_⟩
  · rw [execFlashProgramComplete_eq hd hf ho hs hon, if_neg (by simp)]
  · have hp : (flashGo o.ch (progFail o die n u)).flash.programFails = x.flash.programFails := by rw [hruns.flash]
    rw [hp, hfail.programFails]; rfl
  · have hb : (flashGo o.ch (progFail o die n u)).flash.badBlocks = x.flash.badBlocks := by rw [hruns.flash]
    rw [hb, hfail.badBlocks]; rfl
  · rw [hruns.sameMedia.map, hfail.map]; rfl
  · exact eventLogged_of_logs hlogged rfl (hruns.logs.trans hfail.logs)
  · rw [hruns.wanted, hfail.wanted]
  · have hro : (flashGo o.ch (progFail o die n u)).flash.readOnly = x.flash.readOnly := by rw [hruns.flash]
    obtain ⟨hhost, hqueue⟩ := hfail.writable (hro.symm.trans hr)
    have hmem : againElsewhere o die o ∈ x.flash.progQ := by
      rw [hqueue]; exact List.mem_map.mpr ⟨o, List.mem_of_find?_eq_some hf, rfl⟩
    obtain ⟨q, hq, hqo⟩ := hruns.progs _ hmem
    have hagain : againElsewhere o die o = { o with on := none, avoid := some die } := by simp [againElsewhere, hk, progSlc]
    rw [hagain] at hqo
    exact ⟨hruns.host.trans hhost, q, hq, (congrArg ProgOp.id hqo :).trans hoid, (congrArg ProgOp.avoid hqo :), (congrArg ProgOp.ver hqo :)⟩

/-! ### Erases (R266, R270) -/

/-- A change of each listed entry that `g` does not see is not seen by `g` under any key. -/
theorem mapGet_map_same {α β : Type} {g : α → β} {f : Nat × α → α} (hf : ∀ p, g (f p) = g p.2) (d : α) (m : SMap α) (k : Nat) :
    g (mapGet d (m.map (fun p => (p.1, f p))) k) = g (mapGet d m k) := by
  induction m with
  | nil => rfl
  | cons p m ih =>
    simp only [mapGet, List.map_cons, mapFind] at ih ⊢
    split
    · exact hf p
    · exact ih

theorem flashRuns_levelDone (ch die n : Nat) (s : State) : FlashRuns s (levelDone ch die n s) := by
  unfold levelDone
  split
  · refine FlashRuns.trans ?_ (flashRuns_updDie _ _ _ _)
    refine ⟨rfl, rfl, fun k => mapGet_map_same (fun p => ?_) _ _ k, fun _ => rfl, fun p hp => ⟨p, hp, rfl⟩, fun q hq => .inl ⟨q, hq, rfl⟩, le_rfl,
      fun r hr => ⟨r, hr, rfl⟩⟩
    split <;> rfl
  · exact .refl s

/-- The state in which an erase has ended, before the flash goes on. -/
def eraseEnded (ch die n : Nat) (pass : Bool) (s : State) : State :=
  let s := updDie ch die (fun d => { d with work := none }) s
  if pass then updSuper ch die n erasedSuper s
  else
    let s := retireBlock ch die n (logEvent 8 1 1 0 ch (dieKey ch die) n 0 { s with flash := { s.flash with eraseFails := s.flash.eraseFails + 1 } })
    updSuper ch die n (fun x => if x.state = .retired then { x with vers := [], wanted := none } else erasedSuper x) s

theorem execFlashEraseComplete_eq {ch die n : Nat} {s : State} (hw : wfSuper ch die n = true) (he : (dieOf s ch die).work = some (.erase n))
    (hs : (dieOf s ch die).suspended = false) (hon : flashOn s = true) (pass : Bool) :
    ∃ t, exec (.flashEraseComplete ch die n pass) s = .next t ∧ FlashRuns (eraseEnded ch die n pass s) t := by
  have heq : eraseDone ch die n pass s = flashGo ch (levelDone ch die n (eraseEnded ch die n pass s)) := if_pos (by simp [he, hs, hon])
  exact ⟨eraseDone ch die n pass s, unitOp_of hw _, heq ▸ (flashRuns_levelDone _ _ _ _).trans (flashRuns_flashGo _ _)⟩

theorem superOf_updSuper_self (ch die n : Nat) (f : Super → Super) (s : State) : superOf (updSuper ch die n f s) ch die n = f (superOf s ch die n) :=
  mapGet_mapSet_self _ _ _ _

theorem flashEraseComplete_pass {ch die n : Nat} {s : State} (hw : wfSuper ch die n = true) (he : (dieOf s ch die).work = some (.erase n))
    (hs : (dieOf s ch die).suspended = false) (hon : flashOn s = true) :
    ∃ t, exec (.flashEraseComplete ch die n true) s = .next t ∧
      (superOf t ch die n).wear = (superOf s ch die n).wear + (if (superOf s ch die n).slc then 1 else 10) ∧ (superOf t ch die n).vers = [] ∧
      (superOf t ch die n).next = 0 ∧ t.flash.map = s.flash.map ∧ t.host = s.host := by
  obtain ⟨t, ht, hruns⟩ := execFlashEraseComplete_eq hw he hs hon true
  have hsuper : superOf (eraseEnded ch die n true s) ch die n = erasedSuper (superOf s ch die n) :=
    superOf_updSuper_self ch die n erasedSuper (updDie ch die (fun d => { d with work := none }) s)
  refine ⟨t, ht, ?_, ?_, ?_, hruns.sameMedia.map, hruns.host⟩
  · rw [hruns.wear, hsuper]; rfl
  · rw [hruns.vers, hsuper]; rfl
  · rw [hruns.next, hsuper]; rfl

theorem flashEraseComplete_fail {ch die n : Nat} {s : State} (hw : wfSuper ch die n = true) (he : (dieOf s ch die).work = some (.erase n))
    (hs : (dieOf s ch die).suspended = false) (hon : flashOn s = true) :
    ∃ t, exec (.flashEraseComplete ch die n false) s = .next t ∧ t.flash.eraseFails = s.flash.eraseFails + 1 ∧
      t.flash.badBlocks.length = s.flash.badBlocks.length + 1 ∧ (superOf t ch die n).vers = [] ∧ t.flash.map = s.flash.map ∧ EventLogged 8 s t := by
  obtain ⟨t, ht, hruns⟩ := execFlashEraseComplete_eq hw he hs hon false
  set u := updDie ch die (fun d => { d with work := none }) s with hu
  set w := logEvent 8 1 1 0 ch (dieKey ch die) n 0 { u with flash := { u.flash with eraseFails := u.flash.eraseFails + 1 } } with hw'
  have hfail : BlockFailed ch die n w (retireBlock ch die n w) := blockFailed_retireBlock _ _ _ _
  have hended : eraseEnded ch die n false s =
      updSuper ch die n (fun x => if x.state = .retired then { x with vers := [], wanted := none } else erasedSuper x) (retireBlock ch die n w) := rfl
  rw [hended] at hruns
  have hlogged : EventLogged 8 u w := eventLogged_logEvent 8 1 1 0 ch (dieKey ch die) n 0 _
  refine ⟨t, ht, ?_, ?_, ?_, ?_, ?_⟩
  · have hp : t.flash.eraseFails = (retireBlock ch die n w).flash.eraseFails := by rw [hruns.flash]; rfl
    rw [hp, hfail.eraseFails]; rfl
  · have hb : t.flash.badBlocks = (retireBlock ch die n w).flash.badBlocks := by rw [hruns.flash]; rfl
    rw [hb, hfail.badBlocks]; rfl
  · rw [hruns.vers, superOf_updSuper_self]
    split <;> rfl
  · exact hruns.sameMedia.map.trans hfail.map
  · exact eventLogged_of_logs hlogged rfl (hruns.logs.trans hfail.logs)

end Sys2Proof.Machine
end

section
/-! SUPPORT. Proofs of the frame and timing statements (chapter 2): suspension and RAW_READ (O49). -/

namespace Sys2Proof.Machine
open Claims

/-! ### Suspension (R59) -/

/-- The start of reads changes nothing of the flash but the queue of reads. -/
theorem startReads_flash (s : State) : ∃ q, (startReads s).flash = { s.flash with readQ := q } := by
  have hone (u : State) (r : ReadOp) : ∃ q, (startRead u r).flash = { u.flash with readQ := q } := by
    unfold startRead; split
    · exact ⟨u.flash.readQ, rfl⟩
    · exact ⟨_, rfl⟩
  have hfold (l : List ReadOp) : ∀ u, ∃ q, (l.foldl startRead u).flash = { u.flash with readQ := q } := by
    induction l with
    | nil => exact fun u => ⟨u.flash.readQ, rfl⟩
    | cons r l ih =>
      intro u
      obtain ⟨q, hq⟩ := ih (startRead u r)
      obtain ⟨p, hp⟩ := hone u r
      exact ⟨q, by rw [List.foldl_cons, hq, hp]⟩
  have hdie (u : State) : ∃ q, (startDieReads u).flash = { u.flash with readQ := q } := by
    unfold startDieReads
    dsimp only
    obtain ⟨p, hp⟩ := hfold (u.flash.readQ.filter (fun r => !readFill r)) u
    split
    · exact ⟨p, hp⟩
    · obtain ⟨q, hq⟩ := hfold (u.flash.readQ.filter readFill) ((u.flash.readQ.filter (fun r => !readFill r)).foldl startRead u)
      exact ⟨q, by rw [hq, hp]⟩
  have himports (u : State) : (startImports u).flash = u.flash := by
    unfold startImports
    generalize u.ring.imports.filter (fun i => i.sent = 0 && (i.post || i.tag != 0 || !postsWait u)) = l
    induction l generalizing u with
    | nil => rfl
    | cons i l ih =>
      rw [List.foldl_cons, ih]
      split
      · rfl
      · rename_i o _
        obtain ⟨r, hr⟩ := sendRing_eq (importMsg u o i.granule (importWay u o)) { u with ring := { u.ring with imports := u.ring.imports.map (fun j =>
          if j.obj = i.obj && j.granule = i.granule && j.tag = i.tag then { j with sent := 1, dn := importWay u o } else j) } }
        rw [hr]
  have hmark (u : State) : (markStarted u).flash = u.flash := rfl
  unfold startReads
  rw [hmark, himports]
  split
  · exact hdie s
  · exact ⟨s.flash.readQ, rfl⟩

theorem dieOf_updDie_self (ch die : Nat) (f : Die → Die) (s : State) : dieOf (updDie ch die f s) ch die = f (dieOf s ch die) :=
  mapGet_mapSet_self _ _ _ _

theorem programEraseSuspend_suspends {ch die : Nat} {s : State} (hw : wfDie ch die = true) (hq : readQueuedFor s (dieKey ch die) = true)
    (hs : (dieOf s ch die).work.isSome = true) (hon : flashOn s = true) :
    ∃ t, exec (.programEraseSuspend ch die) s = .next t ∧ (dieOf t ch die).suspended = true ∧ (dieOf t ch die).work = (dieOf s ch die).work ∧
      t.flash.supers = s.flash.supers ∧ t.flash.map = s.flash.map ∧ t.flash.progQ = s.flash.progQ ∧ t.host = s.host := by
  set u := updDie ch die (fun d => { d with suspended := true }) s with hu
  have heq : suspendDie ch die s = startReads u := if_pos (by simp [hq, hs, hon])
  obtain ⟨q, hflash⟩ := startReads_flash u
  have hdie : dieOf (startReads u) ch die = { dieOf s ch die with suspended := true } := by
    rw [dieOf, hflash]; exact dieOf_updDie_self ch die (fun d => { d with suspended := true }) s
  refine ⟨startReads u, (unitOp_of hw _).trans (congrArg _ heq), by rw [hdie], by rw [hdie], ?_, ?_, ?_, (flashRuns_startReads u).host⟩
  · rw [hflash]; rfl
  · rw [hflash]; rfl
  · rw [hflash]; rfl

/-! ### RAW_READ (R272) -/

theorem padTo_length {n : Nat} {bs : List Byte} (h : bs.length ≤ n) : (padTo n bs).length = n := by
  simp [padTo, zeros]; omega

/-- A piece of a buffer write is never empty. -/
theorem splitWrite_nonempty {ps : List (Nat × Nat)} {off : Nat} {bs : List Byte} : ∀ w ∈ splitWrite ps off bs, w.2 ≠ [] := by
  induction ps generalizing off bs with
  | nil => intro w hw; simp [splitWrite] at hw
  | cons p ps ih =>
    intro w hw
    unfold splitWrite at hw
    split at hw
    · simp at hw
    · rename_i hbs
      split at hw
      · exact ih w hw
      · rename_i hoff
        rcases List.mem_cons.mp hw with rfl | hw
        · have hlen : 0 < bs.length := List.length_pos_of_ne_nil hbs
          simp [List.take_eq_nil_iff, hbs]
          omega
        · exact ih w hw

theorem repliesWith_reply (c : Cmd) (off : Nat) (bs : List Byte) (st : Status) (s : State) : RepliesWith c off bs st s (reply c off bs st s) := by
  have hfold (l : List (Nat × List Byte)) (hl : ∀ w ∈ l, w.2 ≠ []) : ∀ u : State, (l.foldl (fun s w => hostWrite w.1 w.2 s) u).host =
      { u.host with hostOut := u.host.hostOut ++ l.map (fun w => ({ addr := w.1, data := w.2 } : HostWrite)) } := by
    induction l with
    | nil => intro u; simp
    | cons w l ih =>
      intro u
      rw [List.foldl_cons, ih fun x hx => hl x (List.mem_cons_of_mem _ hx), hostWrite_of_ne (hl w List.mem_cons_self)]
      simp
  exact hfold _ splitWrite_nonempty _

theorem RepliesWith_congr {c : Cmd} {off : Nat} {bs : List Byte} {st : Status} {s t u v : State} (h : RepliesWith c off bs st s t) (hs : s.host = u.host)
    (ht : v.host = t.host) : RepliesWith c off bs st u v := by
  rw [RepliesWith, ht, ← hs]; exact h

theorem rawFree_length (s : State) (k n : Nat) (v : List Byte) : (rawFree s k n v).length = n := padTo_length (by simp)

theorem metaBytes_length (v : Version) (pg : Nat) : (metaBytes v pg).length = 128 := by
  have hslots (n : Nat) (f : Slot → Nat) : (slotBytes n v f).length = 4 * n := by
    simp [slotBytes, leBytes_length]; omega
  unfold metaBytes
  simp only [List.length_append, leBytes_length, hslots]
  split <;> simp [leBytes_length, hslots, zeros]

theorem spareBytes_length (s : State) (k : Nat) (v : Version) (pg : Nat) : (spareBytes s k v pg).length = 2048 := by
  simp only [spareBytes, List.length_append, rawFree_length]
  split <;> simp [metaBytes_length, zeros]

theorem rawData_length (s : State) (v : Version) (pg : Nat) : (rawData s v pg).1.length = 16384 := by
  have hone (p : Prop) [Decidable p] (bs : List Byte) : (if p then zeros 4096 else padTo 4096 (bs.take 4096)).length = 4096 := by
    split
    · exact List.length_replicate
    · exact padTo_length (List.length_take_le _ _)
  simp only [rawData, List.length_flatMap, hone]
  rfl

theorem rawLen_le (c : Cmd) : rawLen c ≤ 18432 := by unfold rawLen; split <;> omega

/-- RAW_READ's page: its bytes, and SUCCESS or a media error. -/
theorem rawPageRead_replies (c : Cmd) (k pg : Nat) (v : Version) (s : State) :
    ∃ bs st, RepliesWith c 0 bs st s (rawPageRead c k pg v s) ∧ bs.length = rawLen c ∧ (st.cls = 0 ∨ (st.cls = 3 ∧ st.code = 1)) := by
  unfold rawPageRead
  dsimp only
  split
  · exact ⟨_, stSuccess 0 0 0, RepliesWith_congr (repliesWith_reply _ _ _ _ (bump s)) rfl rfl, rawFree_length _ _ _ _, .inl rfl⟩
  · refine ⟨_, _, RepliesWith_congr (repliesWith_reply _ _ _ _ (bump s)) rfl rfl, ?_, ?_⟩
    · have hle := rawLen_le c
      simp [rawData_length, spareBytes_length]; omega
    · unfold readStatus
      split
      · exact .inl rfl
      · exact .inr ⟨rfl, rfl⟩

theorem rawRead_cases {tag ch die : Nat} {k : Option Nat} {c : Cmd} {s : State} (h : AtUnit s 0x79 tag c) (hch : ch = pktField c.pkt 8 1)
    (hdie : die = pktField c.pkt 9 1) (hfree : dieFree s (dieKey ch die) = true) (hon : flashOn s = true)
    (hk : superAt s ch die (pktField c.pkt 10 1) (pktField c.pkt 12 2) = k) (hp : ∀ n, k = some n → (superOf s ch die n).slc = true → pktField c.pkt 14 2 ≤ 383) :
    ((∀ n, k = some n → (dieOf s ch die).work ≠ some (.erase n)) →
      ∃ t bs st, exec (.rawRead tag) s = .next t ∧ RepliesWith c 0 bs st s t ∧
        bs.length = (if bitOf (pktField c.pkt 16 1) 0 then 18432 else 16384) ∧ (st.cls = 0 ∨ (st.cls = 3 ∧ st.code = 1))) ∧
    (∀ n, k = some n → (dieOf s ch die).work = some (.erase n) → ∃ t, exec (.rawRead tag) s = .next t ∧ CommandCompletes c stBusyErase s t) := by
  obtain ⟨hc, -, -⟩ := cmdOf_of_atUnit h
  have hexec : exec (.rawRead tag) s = .next (rawReadCmd c s) := by
    change unitOp true (onCmd 0x79 tag anyPkt rawReadCmd s) = _
    rw [onCmd_atUnit h rfl, unitOp_ok]
  subst hch hdie
  have hpage : (((k.map (superOf s (pktField c.pkt 8 1) (pktField c.pkt 9 1))).getD {}).slc && decide (383 < pktField c.pkt 14 2)) = false := by
    cases k with
    | none => rfl
    | some n =>
      cases hslc : (superOf s (pktField c.pkt 8 1) (pktField c.pkt 9 1) n).slc with
      | false => simp [hslc]
      | true => have := hp n rfl hslc; simp; omega
  have herase (n : Nat) (hn : k = some n) (hw : (dieOf s (pktField c.pkt 8 1) (pktField c.pkt 9 1)).work = some (.erase n)) :
      rawReadCmd c s = flashGo (pktField c.pkt 8 1) (complete c.tag stBusyErase s) := by
    subst hn
    simp only [rawReadCmd, hk, hpage, hfree, hon]
    simp [hw]
  have hpageRead (hw : ∀ n, k = some n → (dieOf s (pktField c.pkt 8 1) (pktField c.pkt 9 1)).work ≠ some (.erase n)) :
      ∃ bs st v, rawReadCmd c s = flashGo (pktField c.pkt 8 1) v ∧ RepliesWith c 0 bs st s v ∧ bs.length = rawLen c ∧
        (st.cls = 0 ∨ (st.cls = 3 ∧ st.code = 1)) := by
    have hany : k.any (fun n => (dieOf s (pktField c.pkt 8 1) (pktField c.pkt 9 1)).work = some (.erase n)) = false := by
      cases k with
      | none => rfl
      | some n => simpa using hw n rfl
    simp only [rawReadCmd, hk, hpage, hfree, hon, hany, Bool.not_true, Bool.or_false, Bool.false_eq_true, if_false]
    split
    · exact ⟨_, stSuccess 0 0 0, _, rfl, RepliesWith_congr (repliesWith_reply _ _ _ _ (bump s)) rfl rfl, rawFree_length _ _ _ _, .inl rfl⟩
    · rename_i v _
      obtain ⟨bs, st, hreply, hlen, hst⟩ := rawPageRead_replies c _ _ v (countReads _ s)
      exact ⟨bs, st, _, rfl, RepliesWith_congr hreply (flashRuns_countReads _ s).host rfl, hlen, hst⟩
  refine ⟨fun hw => ?_, fun n hn hw => ?_⟩
  · obtain ⟨bs, st, v, heq, hreply, hlen, hst⟩ := hpageRead hw
    exact ⟨rawReadCmd c s, bs, st, hexec, heq ▸ RepliesWith_congr hreply rfl (flashGo_host _ _), hlen, hst⟩
  · refine ⟨rawReadCmd c s, hexec, ?_⟩
    rw [herase n hn hw, CommandCompletes, flashGo_host]
    exact commandCompletes_complete hc rfl _

/-- Settles O49: each end of a flash operation by its own lemma above. -/
theorem flashOperationsComplete : Obligations.FlashOperationsComplete := by
  unfold Obligations.FlashOperationsComplete
  exact ⟨fun id obj g post x o m s hf hs hw hon ho ht hm hg hp => flashReadComplete_fill hf hs hw hon ho ht hm hg hp,
    fun id src dst x v y s hf hs hw hon hv hk hy hm => flashReadComplete_verify hf hs hw hon hv hk hy hm,
    fun id die n o s hd hf ho hk hs hon hid =>
      ⟨fun y hy hm hseq ht hg => flashProgramComplete_pass hd hf ho hk hs hon hid hy hm hseq ht hg, flashProgramComplete_fail hd hf ho hk hs hon⟩,
    fun ch die n s hw he hs hon => ⟨flashEraseComplete_pass hw he hs hon, flashEraseComplete_fail hw he hs hon⟩,
    fun ch die s hw hq hs hon => programEraseSuspend_suspends hw hq hs hon,
    fun tag ch die k c s h hch hdie hfree hon hk hp => rawRead_cases h hch hdie hfree hon hk hp⟩

end Sys2Proof.Machine
end

section
/-! SUPPORT. Proofs of the frame and timing statements (chapter 2): what a port sends (O52). -/

namespace Sys2Proof.Machine
open Claims

/-! ### What a port sends (R355 to R357) -/

/-- IDLE flits that carry what a port owes change nothing else of it. -/
structure DuesSent (p q : Port) (l : List Flit) : Prop where
  eq : q = { p with ackDue := q.ackDue, nakDue := q.nakDue, credDue := q.credDue, out := p.out ++ l }
  idle : ∀ g ∈ l, g.typ = 0 ∧ g.ack = BitVec.ofNat 8 p.rxSeq

theorem DuesSent.refl (p : Port) : DuesSent p p [] := ⟨by simp, by simp⟩

theorem DuesSent.trans {p q r : Port} {l k : List Flit} (h : DuesSent p q l) (g : DuesSent q r k) : DuesSent p r (l ++ k) := by
  have hrx : q.rxSeq = p.rxSeq := by rw [h.eq]
  refine ⟨?_, fun f hf => (List.mem_append.mp hf).elim (h.idle f) fun hk => hrx ▸ g.idle f hk⟩
  rw [g.eq, h.eq]
  simp

/-- The IDLE flit that goes out next. -/
def dueFlit (p : Port) : Flit :=
  let v := ((List.range 4).find? (fun v => p.credDue.getD v 0 != 0)).getD 0
  { typ := 0, ack := BitVec.ofNat 8 p.rxSeq, nak := p.nakDue, cvc := v, cred := min 31 (p.credDue.getD v 0) }

theorem duesSent_putFlit_idle (p : Port) : DuesSent p (putFlit idleFlit p) [dueFlit p] := ⟨rfl, by simp [dueFlit]⟩

theorem putFlit_idle_nakDue (p : Port) : (putFlit idleFlit p).nakDue = false := rfl

theorem duesSent_sendDues (n : Nat) (p : Port) : ∃ l, DuesSent p (sendDues n p) l ∧ (p.nakDue = false → ∀ g ∈ l, g.nak = false) := by
  induction n generalizing p with
  | zero => exact ⟨[], .refl p, by simp⟩
  | succ n ih =>
    unfold sendDues
    split
    · obtain ⟨l, hl, hnak⟩ := ih (putFlit idleFlit p)
      exact ⟨_, (duesSent_putFlit_idle p).trans hl, fun h => List.forall_mem_cons.mpr ⟨h, hnak (putFlit_idle_nakDue p)⟩⟩
    · exact ⟨[], .refl p, by simp⟩

/-- What is due goes out at once, a NAK with the first flit only. -/
theorem duesSent_of_due {p : Port} (h : hasDues p = true) :
    ∃ g l, DuesSent p (sendDues duesFuel p) (g :: l) ∧ g.nak = p.nakDue ∧ ∀ k ∈ l, k.nak = false := by
  have he : sendDues duesFuel p = sendDues 11 (putFlit idleFlit p) := by
    rw [duesFuel, sendDues, if_pos h]
  obtain ⟨l, hl, hnak⟩ := duesSent_sendDues 11 (putFlit idleFlit p)
  exact ⟨dueFlit p, l, he ▸ (duesSent_putFlit_idle p).trans hl, rfl, hnak (putFlit_idle_nakDue p)⟩

/-- Sending the waiting flits changes what is sent, due and held for a resend, and uses credits. -/
def FlitsSent (p q : Port) : Prop :=
  ∃ l, q = { p with ackDue := q.ackDue, nakDue := q.nakDue, credDue := q.credDue, out := p.out ++ l, replay := q.replay
                    txSeq := q.txSeq, credits := q.credits, wait := q.wait }

theorem FlitsSent.refl (p : Port) : FlitsSent p p := ⟨[], by simp⟩

theorem FlitsSent.trans {p q r : Port} (h : FlitsSent p q) (g : FlitsSent q r) : FlitsSent p r := by
  obtain ⟨l, hl⟩ := h
  obtain ⟨k, hk⟩ := g
  refine ⟨l ++ k, ?_⟩
  rw [hk, hl]
  simp

theorem flitsSent_wait (p : Port) (w : List (Flit × Bool)) : FlitsSent p { p with wait := w } := ⟨[], by simp⟩

theorem flitsSent_putFlit (f : Flit) (p : Port) : FlitsSent p (putFlit f p) := by
  unfold putFlit
  split <;> exact ⟨_, rfl⟩

theorem flitsSent_flushPort (p : Port) : FlitsSent p (flushPort p) := by
  suffices h : ∀ (l : List (Flit × Bool)) (q : Port), FlitsSent p q → FlitsSent p (l.foldl (fun q f =>
      if q.wait.any (fun g => g.1.vc = f.1.vc) || !maySend f.1 q then { q with wait := q.wait ++ [f] } else putFlit f.1 q) q) from
    h _ _ (flitsSent_wait p [])
  intro l
  induction l with
  | nil => exact fun q hq => hq
  | cons f l ih =>
    intro q hq
    rw [List.foldl_cons]
    refine ih _ ?_
    split
    · exact hq.trans (flitsSent_wait q _)
    · exact hq.trans (flitsSent_putFlit _ q)

/-- A numbered flit goes out as it is, but for its number and what it carries along. -/
theorem putFlit_numbered {f : Flit} (h : unnumbered f = false) (p : Port) : ∃ g, (putFlit f p).out = p.out ++ [g] ∧ g.typ = f.typ ∧ g.vc = f.vc ∧
    g.poison = f.poison ∧ g.first = f.first ∧ g.last = f.last ∧ g.payload = f.payload ∧ g.seq = BitVec.ofNat 8 p.txSeq ∧
    (putFlit f p).txSeq = (p.txSeq + 1) % 256 := by
  have hn : ¬ unnumbered f = true := by simp [h]
  unfold putFlit
  dsimp only
  rw [if_neg hn]
  exact ⟨_, rfl, rfl, rfl, rfl, rfl, rfl, rfl, rfl, rfl⟩

/-- A forwarded flit leaves a port where nothing waits, which has a credit and room for it, at once. -/
theorem flushPort_queueFwd {p : Port} {f : Flit} (hw : p.wait = []) (hl : p.later = []) (hc : p.credits.getD f.vc 0 ≠ 0) (hr : p.replay.length < 64) :
    ∃ o, flushPort (queueFwd f p) = putFlit f { p with open_ := o } := by
  have hmay (o : List Nat) : maySend f { p with open_ := o } = true := by simpa [maySend, hr] using hc
  have hq : ∃ o, queueFwd f p = { p with open_ := o, wait := [(f, true)] } := by
    unfold queueFwd
    simp only [hw, hl]
    split
    · exact ⟨_, rfl⟩
    · exact ⟨_, by rw [← hl]; rfl⟩
  obtain ⟨o, ho⟩ := hq
  refine ⟨o, ?_⟩
  have hp : ({ p with open_ := o, wait := [] } : Port) = { p with open_ := o } := by rw [← hw]
  rw [ho]
  simp [flushPort, hp, hw, hmay]

end Sys2Proof.Machine
end

section
/-! SUPPORT. Proofs of the frame and timing statements (chapter 2): ports and pairs of a state, and flits that are dropped (O52). -/

namespace Sys2Proof.Machine
open Claims

/-! ### Ports and pairs of a state -/

theorem farPort_ne (n : Nat) : farPort n ≠ n := by unfold farPort; split <;> omega

theorem farPort_farPort (n : Nat) : farPort (farPort n) = n := by unfold farPort; split <;> split <;> omega

theorem portPair_farPort (n : Nat) : portPair (farPort n) = portPair n := by unfold portPair farPort; split <;> omega

/-- A pair but for its ports. -/
def offPorts (x : Pair) : Pair := { x with dn := {}, up := {} }

theorem offPorts_updPort (n : Nat) (f : Port → Port) (s : State) (q : Nat) : offPorts (pairOf (updPort n f s) q) = offPorts (pairOf s q) := by
  by_cases hq : q = n / 2
  · subst hq
    rw [updPort, pairOf_updPair_self]
    split <;> rfl
  · rw [pairOf_updPort_ne hq]

theorem offPorts_flushAt (n : Nat) (s : State) (q : Nat) : offPorts (pairOf (flushAt n s) q) = offPorts (pairOf s q) := by
  unfold flushAt
  dsimp only
  rw [offPorts_updPort, offPorts_updPort]

/-- Counters and marks of a pair are not its ports. -/
theorem portOf_updPair {f : Pair → Pair} (hd : ∀ x, (f x).dn = x.dn) (hu : ∀ x, (f x).up = x.up) (p m : Nat) (s : State) :
    portOf (updPair p f s) m = portOf s m := by
  by_cases hm : m / 2 = p
  · simp [portOf, hm, hd, hu]
  · simp [portOf, hm]

theorem portOf_flushAt_self (n : Nat) (s : State) : portOf (flushAt n s) n = flushPort (portOf s n) := by
  unfold flushAt
  dsimp only
  rw [portOf_updPort_ne (farPort_ne n).symm, portOf_updPort_self]

/-- The other port sends at most what it owes. -/
theorem portOf_flushAt_far (n : Nat) (s : State) : ∃ l, DuesSent (portOf s (farPort n)) (portOf (flushAt n s) (farPort n)) l := by
  unfold flushAt
  dsimp only
  rw [portOf_updPort_self, portOf_updPort_ne (farPort_ne n)]
  split
  · obtain ⟨l, ⟨heq, hidle⟩, -⟩ := duesSent_sendDues duesFuel { portOf s (farPort n) with
      credDue := (List.range 4).map (fun v => (portOf s (farPort n)).credDue.getD v 0 +
        (fwdWaiting (portOf s n) v - fwdWaiting (flushPort (portOf s n)) v)) }
    exact ⟨l, heq, hidle⟩
  · exact ⟨[], .refl _⟩

theorem onlyPairChanges_refl (p : Nat) (s : State) : OnlyPairChanges p s s := ⟨rfl, fun _ _ => rfl⟩

theorem onlyPairChanges_trans {p : Nat} {s t u : State} (h : OnlyPairChanges p s t) (g : OnlyPairChanges p t u) : OnlyPairChanges p s u := by
  obtain ⟨ht, hq⟩ := h
  obtain ⟨hu, gq⟩ := g
  exact ⟨by rw [hu, ht], fun q hne => (gq q hne).trans (hq q hne)⟩

theorem onlyPairChanges_updPair (p : Nat) (f : Pair → Pair) (s : State) : OnlyPairChanges p s (updPair p f s) :=
  ⟨rfl, fun _ h => pairOf_updPair_ne h _ _⟩

theorem onlyPairChanges_updPort (n : Nat) (f : Port → Port) (s : State) : OnlyPairChanges (portPair n) s (updPort n f s) :=
  onlyPairChanges_updPair _ _ s

theorem onlyPairChanges_flushAt (n : Nat) (s : State) : OnlyPairChanges (portPair n) s (flushAt n s) := by
  have hfar (f : Port → Port) (t : State) : OnlyPairChanges (portPair n) t (updPort (farPort n) f t) :=
    portPair_farPort n ▸ onlyPairChanges_updPort (farPort n) f t
  unfold flushAt
  exact onlyPairChanges_trans (onlyPairChanges_updPort n _ s) (hfar _ _)

theorem execFlitReceived_eq {n : Nat} (h : n < 32) (f : FlitArrival) (s : State) :
    exec (.flitReceived n f) s = .next (flitIn n f.image f.symbols f.ms s) := unitOp_of (by simpa [wfPort] using h) _

theorem execNakReceived_eq {n : Nat} (h : n < 32) (k : NakArrival) (s : State) :
    exec (.nakReceived n k) s = .next (if (portOf s n).up then resendFrom n k.ack.toNat k.ms s else s) := unitOp_of (by simpa [wfPort] using h) _

/-! ### A flit that is dropped (R357) -/

/-- One more flit that was bad or out of order. -/
def countCrc (n : Nat) (s : State) : State := updPair (portPair n) (fun x => { x with crcErrors := stick32 (x.crcErrors + 1) }) s

theorem portOf_countCrc (n m : Nat) (s : State) : portOf (countCrc n s) m = portOf s m :=
  portOf_updPair (f := fun x => { x with crcErrors := stick32 (x.crcErrors + 1) }) (fun _ => rfl) (fun _ => rfl) _ _ _

theorem portOf_countFec (n k m : Nat) (s : State) : portOf (countFec n k s) m = portOf s m :=
  portOf_updPair (f := fun x => { x with fecSymbols := stick32 (x.fecSymbols + k) }) (fun _ => rfl) (fun _ => rfl) _ _ _

/-- A port refuses what comes until a resend. -/
def sendNak (p : Port) : Port := sendDues duesFuel { p with nakOut := true, nakDue := true }

/-- Only the first flit of a run that is dropped draws a NAK. -/
theorem dropFlit_eq (n : Nat) (s : State) : dropFlit n s = if (portOf s n).nakOut then countCrc n s else updPort n sendNak (countCrc n s) := by
  rw [← portOf_countCrc n n s]
  rfl

theorem portOf_dropFlit_self (n : Nat) (s : State) : portOf (dropFlit n s) n = if (portOf s n).nakOut then portOf s n else sendNak (portOf s n) := by
  rw [dropFlit_eq]
  split
  · exact portOf_countCrc _ _ _
  · rw [portOf_updPort_self, portOf_countCrc]

theorem portOf_dropFlit_ne {m n : Nat} (h : m ≠ n) (s : State) : portOf (dropFlit n s) m = portOf s m := by
  rw [dropFlit_eq]
  split
  · exact portOf_countCrc _ _ _
  · rw [portOf_updPort_ne h, portOf_countCrc]

theorem onlyPairChanges_dropFlit (n : Nat) (s : State) : OnlyPairChanges (portPair n) s (dropFlit n s) := by
  have hcount : OnlyPairChanges (portPair n) s (countCrc n s) := onlyPairChanges_updPair _ _ _
  rw [dropFlit_eq]
  split
  · exact hcount
  · exact onlyPairChanges_trans hcount (onlyPairChanges_updPort _ _ _)

theorem crcErrors_dropFlit (n : Nat) (s : State) :
    (pairOf (dropFlit n s) (portPair n)).crcErrors = stick32 ((pairOf s (portPair n)).crcErrors + 1) := by
  have hcount : (pairOf (countCrc n s) (portPair n)).crcErrors = stick32 ((pairOf s (portPair n)).crcErrors + 1) := by
    rw [countCrc, pairOf_updPair_self]
  rw [dropFlit_eq]
  split
  · exact hcount
  · exact (congrArg Pair.crcErrors (offPorts_updPort n sendNak (countCrc n s) (portPair n)) :).trans hcount

theorem crcErrors_countFec (n k : Nat) (s : State) : (pairOf (countFec n k s) (portPair n)).crcErrors = (pairOf s (portPair n)).crcErrors := by
  rw [countFec, pairOf_updPair_self]

/-- A bad flit, or one out of order, is dropped; its FEC symbols may have been counted before. -/
theorem flitIn_dropped {n symbols : Nat} {image : List Byte} {s : State} (ms : Nat) (hup : (portOf s n).up = true)
    (hbad : 15 < symbols ∨ flitSound image = false ∨ (unnumbered (flitOf image) = false ∧ (flitOf image).seq.toNat ≠ ((portOf s n).rxSeq + 1) % 256)) :
    flitIn n image symbols ms s = dropFlit n s ∨ flitIn n image symbols ms s = dropFlit n (countFec n symbols s) := by
  have hport : portOf (countFec n symbols s) n = portOf s n := portOf_countFec _ _ _ _
  unfold flitIn
  rw [if_neg (by simp [hup])]
  split
  · exact .inl rfl
  next hgood =>
    obtain ⟨hsym, hsound⟩ : symbols ≤ 15 ∧ flitSound image = true := by simpa using hgood
    obtain ⟨hnum, hseq⟩ : unnumbered (flitOf image) = false ∧ (flitOf image).seq.toNat ≠ ((portOf s n).rxSeq + 1) % 256 := by
      rcases hbad with h | h | h
      · omega
      · simp [hsound] at h
      · exact h
    have hout : outOfOrder (portOf (countFec n symbols s) n) (flitOf image) = true := by simp [outOfOrder, hport, hnum, hseq]
    exact .inr (if_pos hout)

theorem dropFlit_refused {n : Nat} (s : State) : ∃ l, (portOf (dropFlit n s) n).rxSeq = (portOf s n).rxSeq ∧ (portOf (dropFlit n s) n).nakOut = true ∧
    PortSends n l s (dropFlit n s) ∧ (if (portOf s n).nakOut then l = []
      else ∃ g k, l = g :: k ∧ g.typ = 0 ∧ g.nak = true ∧ g.ack = BitVec.ofNat 8 (portOf s n).rxSeq ∧ ∀ h ∈ k, h.nak = false) := by
  unfold PortSends
  rw [portOf_dropFlit_self, sendNak]
  split
  next hnak => exact ⟨[], rfl, hnak, by simp, rfl⟩
  next hnak =>
    obtain ⟨g, k, ⟨heq, hidle⟩, hg, hk⟩ := duesSent_of_due (p := { portOf s n with nakOut := true, nakDue := true }) (by simp [hasDues])
    obtain ⟨htyp, hack⟩ := hidle g List.mem_cons_self
    rw [heq]
    exact ⟨_, rfl, rfl, rfl, g, k, rfl, htyp, hg, hack, hk⟩

/-! ### A flit in order (R355, R356) -/

/-- A sound numbered flit in order: what it acknowledges lets the port send, then it is taken. -/
theorem flitIn_inOrder {n symbols : Nat} {image : List Byte} {f : Flit} {s : State} (ms : Nat) (hup : (portOf s n).up = true) (hsym : symbols ≤ 15)
    (hsound : flitSound image = true) (hf : flitOf image = f) (hnum : unnumbered f = false) (hnak : f.nak = false)
    (hseq : f.seq.toNat = ((portOf s n).rxSeq + 1) % 256) :
    flitIn n image symbols ms s = acceptFlit n f (flushAt n (updPort n (takeAck f) (countFec n symbols s))) := by
  have hport : portOf (countFec n symbols s) n = portOf s n := portOf_countFec _ _ _ _
  have hout : outOfOrder (portOf (countFec n symbols s) n) f = false := by simp [outOfOrder, hport, hnum, hseq]
  have hstill : (portOf (flushAt n (updPort n (takeAck f) (countFec n symbols s))) n).up = true := by
    rw [portOf_flushAt_self, portOf_updPort_self, hport]
    obtain ⟨l, hl⟩ := flitsSent_flushPort (takeAck f (portOf s n))
    rw [hl]
    exact hup
  unfold flitIn
  rw [if_neg (by simp [hup]), if_neg (by simp [hsym, hsound]), hf]
  dsimp only
  rw [hout, if_neg Bool.false_ne_true, hnak, if_neg Bool.false_ne_true, if_neg (by simp [hnum, hstill])]

end Sys2Proof.Machine
end

section
/-! SUPPORT. Proofs of the frame and timing statements (chapter 2): flits that are taken, and resends (O52). -/

namespace Sys2Proof.Machine
open Claims

/-! ### A flit that is taken (R355, R356) -/

/-- A port notes a flit in order. -/
def noteFlit (here dest : Nat) (f : Flit) (p : Port) : Port :=
  { p with rxSeq := f.seq.toNat, nakOut := false, ackDue := true, route := mapSet here f.vc dest p.route }

/-- The buffer space of a flit is free. -/
def freeSpace (f : Flit) (p : Port) : Port := { p with credDue := p.credDue.set f.vc (p.credDue.getD f.vc 0 + 1) }

theorem acceptFlit_here {n : Nat} {f : Flit} {s : State} {here : Nat} (hh : (pairOf s (portPair n)).position = here)
    (hd : flitDest here (portOf s n) f = here) :
    acceptFlit n f s = updPort n (sendDues duesFuel) (updPort n (freeSpace f) (updPort n (noteFlit here here f) s)) := by
  unfold acceptFlit
  dsimp only
  rw [hh, hd, if_pos rfl]
  rfl

theorem acceptFlit_forward {n : Nat} {f : Flit} {s : State} {here dest : Nat} (hh : (pairOf s (portPair n)).position = here)
    (hd : flitDest here (portOf s n) f = dest) (hne : dest ≠ here) (hup : (portOf s (farPort n)).up = true)
    (hdrain : (pairOf s (portPair n)).draining = none) :
    acceptFlit n f s =
      updPort n (sendDues duesFuel) (flushAt (farPort n) (updPort (farPort n) (queueFwd f) (updPort n (noteFlit here dest f) s))) := by
  have hfar : (portOf (updPort n (noteFlit here dest f) s) (farPort n)).up = true := by rw [portOf_updPort_ne (farPort_ne n), hup]
  have hfree : (pairOf (updPort n (noteFlit here dest f) s) (portPair n)).draining = none :=
    (congrArg Pair.draining (offPorts_updPort n (noteFlit here dest f) s (portPair n)) :).trans hdrain
  have hfwd : forwardFlit n f (updPort n (noteFlit here dest f) s) =
      flushAt (farPort n) (updPort (farPort n) (queueFwd f) (updPort n (noteFlit here dest f) s)) := by
    rw [forwardFlit, if_pos (by simp [hfar, hfree])]
  unfold acceptFlit
  dsimp only
  rw [hh, hd, if_neg hne]
  exact congrArg (updPort n (sendDues duesFuel)) hfwd

/-- A port that owes an ACK sends it, with the last number it took. -/
theorem sendDues_acks {p : Port} (h : p.ackDue = true) :
    ∃ l g, (sendDues duesFuel p).out = p.out ++ (l ++ [g]) ∧ g.typ = 0 ∧ g.ack = BitVec.ofNat 8 p.rxSeq ∧
      (sendDues duesFuel p).rxSeq = p.rxSeq ∧ (sendDues duesFuel p).nakOut = p.nakOut := by
  obtain ⟨g, l, ⟨heq, hidle⟩, -⟩ := duesSent_of_due (p := p) (by simp [hasDues, h])
  obtain ⟨htyp, hack⟩ := hidle _ (List.getLast_mem (List.cons_ne_nil g l))
  refine ⟨(g :: l).dropLast, _, ?_, htyp, hack, ?_⟩
  · rw [heq, List.dropLast_append_getLast]
  · rw [heq]
    exact ⟨rfl, rfl⟩

/-- The state in which a flit in order is taken: its symbols are counted, and what it acknowledges has let the port send. -/
def ackTaken (n symbols : Nat) (f : Flit) (s : State) : State := flushAt n (updPort n (takeAck f) (countFec n symbols s))

theorem onlyPairChanges_ackTaken (n symbols : Nat) (f : Flit) (s : State) : OnlyPairChanges (portPair n) s (ackTaken n symbols f s) :=
  have hcount : OnlyPairChanges (portPair n) s (countFec n symbols s) := onlyPairChanges_updPair _ _ _
  onlyPairChanges_trans (onlyPairChanges_trans hcount (onlyPairChanges_updPort n _ _)) (onlyPairChanges_flushAt n _)

theorem offPorts_ackTaken (n symbols : Nat) (f : Flit) (s : State) :
    offPorts (pairOf (ackTaken n symbols f s) (portPair n)) = offPorts (pairOf (countFec n symbols s) (portPair n)) :=
  (offPorts_flushAt n _ _).trans (offPorts_updPort n _ _ _)

theorem position_ackTaken (n symbols : Nat) (f : Flit) (s : State) :
    (pairOf (ackTaken n symbols f s) (portPair n)).position = (pairOf s (portPair n)).position := by
  refine (congrArg Pair.position (offPorts_ackTaken n symbols f s) :).trans ?_
  change (pairOf (countFec n symbols s) (portPair n)).position = _
  rw [countFec, pairOf_updPair_self]

theorem draining_ackTaken (n symbols : Nat) (f : Flit) (s : State) :
    (pairOf (ackTaken n symbols f s) (portPair n)).draining = (pairOf s (portPair n)).draining := by
  refine (congrArg Pair.draining (offPorts_ackTaken n symbols f s) :).trans ?_
  change (pairOf (countFec n symbols s) (portPair n)).draining = _
  rw [countFec, pairOf_updPair_self]

theorem fecSymbols_ackTaken (n symbols : Nat) (f : Flit) (s : State) :
    (pairOf (ackTaken n symbols f s) (portPair n)).fecSymbols = stick32 ((pairOf s (portPair n)).fecSymbols + symbols) := by
  refine (congrArg Pair.fecSymbols (offPorts_ackTaken n symbols f s) :).trans ?_
  change (pairOf (countFec n symbols s) (portPair n)).fecSymbols = _
  rw [countFec, pairOf_updPair_self]

theorem portOf_ackTaken_self (n symbols : Nat) (f : Flit) (s : State) : FlitsSent (takeAck f (portOf s n)) (portOf (ackTaken n symbols f s) n) := by
  rw [ackTaken, portOf_flushAt_self, portOf_updPort_self, portOf_countFec]
  exact flitsSent_flushPort _

theorem portOf_ackTaken_far (n symbols : Nat) (f : Flit) (s : State) :
    ∃ l, DuesSent (portOf s (farPort n)) (portOf (ackTaken n symbols f s) (farPort n)) l := by
  obtain ⟨l, hl⟩ := portOf_flushAt_far n (updPort n (takeAck f) (countFec n symbols s))
  rw [portOf_updPort_ne (farPort_ne n), portOf_countFec] at hl
  exact ⟨l, hl⟩

theorem flitDest_ackTaken (here n symbols : Nat) (f : Flit) (s : State) :
    flitDest here (portOf (ackTaken n symbols f s) n) f = flitDest here (portOf s n) f := by
  obtain ⟨l, hl⟩ := portOf_ackTaken_self n symbols f s
  have hroute : (portOf (ackTaken n symbols f s) n).route = (portOf s n).route := by rw [hl]; rfl
  unfold flitDest
  rw [hroute]

/-- A flit for this module is acknowledged by the last flit that its port sends. -/
theorem acceptFlit_here_acks {n symbols : Nat} {f : Flit} {s : State}
    (hd : flitDest (pairOf s (portPair n)).position (portOf s n) f = (pairOf s (portPair n)).position) :
    ∃ t l g, acceptFlit n f (ackTaken n symbols f s) = t ∧ OnlyPairChanges (portPair n) s t ∧ (portOf t n).rxSeq = f.seq.toNat ∧
      (portOf t n).nakOut = false ∧ PortSends n (l ++ [g]) s t ∧ g.typ = 0 ∧ g.ack = f.seq ∧
      (pairOf t (portPair n)).fecSymbols = stick32 ((pairOf s (portPair n)).fecSymbols + symbols) := by
  set here := (pairOf s (portPair n)).position
  set u := ackTaken n symbols f s
  have ht := acceptFlit_here (position_ackTaken n symbols f s) ((flitDest_ackTaken _ n symbols f s).trans hd)
  obtain ⟨l, hl⟩ := portOf_ackTaken_self n symbols f s
  have hout : (portOf u n).out = (portOf s n).out ++ l := by rw [hl]; rfl
  obtain ⟨k, g, hsent, htyp, hack, hrx, hnak⟩ := sendDues_acks (p := freeSpace f (noteFlit here here f (portOf u n))) rfl
  refine ⟨_, l ++ k, g, ht, ?_, ?_, ?_, ?_, htyp, ?_, ?_⟩
  · exact onlyPairChanges_trans (onlyPairChanges_ackTaken n symbols f s) (onlyPairChanges_trans
      (onlyPairChanges_trans (onlyPairChanges_updPort n _ _) (onlyPairChanges_updPort n _ _)) (onlyPairChanges_updPort n _ _))
  · rw [portOf_updPort_self, portOf_updPort_self, portOf_updPort_self]
    exact hrx
  · rw [portOf_updPort_self, portOf_updPort_self, portOf_updPort_self]
    exact hnak
  · unfold PortSends
    rw [portOf_updPort_self, portOf_updPort_self, portOf_updPort_self]
    refine hsent.trans ?_
    change (portOf u n).out ++ (k ++ [g]) = _
    rw [hout]
    simp
  · rw [hack]
    change BitVec.ofNat 8 f.seq.toNat = f.seq
    simp
  · refine (congrArg Pair.fecSymbols (((offPorts_updPort n _ _ _).trans (offPorts_updPort n _ _ _)).trans (offPorts_updPort n _ _ (portPair n))) :).trans ?_
    exact fecSymbols_ackTaken n symbols f s

/-- A flit for another member is the last one that the other port sends. -/
theorem acceptFlit_forward_sends {n symbols : Nat} {f : Flit} {s : State} (hnum : unnumbered f = false)
    (hd : flitDest (pairOf s (portPair n)).position (portOf s n) f ≠ (pairOf s (portPair n)).position)
    (hup : (portOf s (farPort n)).up = true) (hdrain : (pairOf s (portPair n)).draining = none)
    (hwait : (portOf s (farPort n)).wait = []) (hlater : (portOf s (farPort n)).later = [])
    (hcred : (portOf s (farPort n)).credits.getD f.vc 0 ≠ 0) (hroom : (portOf s (farPort n)).replay.length < 64) :
    ∃ t l g, acceptFlit n f (ackTaken n symbols f s) = t ∧ OnlyPairChanges (portPair n) s t ∧ (portOf t n).rxSeq = f.seq.toNat ∧
      PortSends (farPort n) (l ++ [g]) s t ∧ g.typ = f.typ ∧ g.vc = f.vc ∧ g.poison = f.poison ∧ g.first = f.first ∧ g.last = f.last ∧
      g.payload = f.payload ∧ g.seq = BitVec.ofNat 8 (portOf s (farPort n)).txSeq ∧
      (portOf t (farPort n)).txSeq = ((portOf s (farPort n)).txSeq + 1) % 256 := by
  obtain ⟨l, hl⟩ := portOf_ackTaken_far n symbols f s
  set here := (pairOf s (portPair n)).position
  set u := ackTaken n symbols f s
  set dest := flitDest here (portOf s n) f
  have hupu : (portOf u (farPort n)).up = true := by rw [hl.eq]; exact hup
  have ht := acceptFlit_forward (position_ackTaken n symbols f s) (flitDest_ackTaken _ n symbols f s) hd hupu
    ((draining_ackTaken n symbols f s).trans hdrain)
  obtain ⟨o, ho⟩ := flushPort_queueFwd (p := portOf u (farPort n)) (f := f) (by rw [hl.eq]; exact hwait) (by rw [hl.eq]; exact hlater)
    (by rw [hl.eq]; exact hcred) (by rw [hl.eq]; exact hroom)
  obtain ⟨g, hout, htyp, hvc, hpoison, hfirst, hlast, hpay, hseq, htx⟩ := putFlit_numbered hnum { portOf u (farPort n) with open_ := o }
  set v := updPort (farPort n) (queueFwd f) (updPort n (noteFlit here dest f) u)
  have hfar (h : Port → Port) : portOf (updPort n h (flushAt (farPort n) v)) (farPort n) = putFlit f { portOf u (farPort n) with open_ := o } := by
    rw [portOf_updPort_ne (farPort_ne n), portOf_flushAt_self, portOf_updPort_self, portOf_updPort_ne (farPort_ne n), ho]
  obtain ⟨k, hk⟩ := portOf_flushAt_far (farPort n) v
  rw [farPort_farPort, portOf_updPort_ne (farPort_ne n).symm, portOf_updPort_self] at hk
  have hrx : (portOf (updPort n (sendDues duesFuel) (flushAt (farPort n) v)) n).rxSeq = f.seq.toNat := by
    obtain ⟨j, hj, -⟩ := duesSent_sendDues duesFuel (portOf (flushAt (farPort n) v) n)
    rw [portOf_updPort_self, hj.eq, hk.eq]
    rfl
  have hpair (h : Port → Port) (w : State) : OnlyPairChanges (portPair n) w (updPort (farPort n) h w) :=
    portPair_farPort n ▸ onlyPairChanges_updPort (farPort n) h w
  have hflush (w : State) : OnlyPairChanges (portPair n) w (flushAt (farPort n) w) := portPair_farPort n ▸ onlyPairChanges_flushAt (farPort n) w
  refine ⟨_, l, g, ht, ?_, hrx, ?_, htyp, hvc, hpoison, hfirst, hlast, hpay, ?_, ?_⟩
  · exact onlyPairChanges_trans (onlyPairChanges_ackTaken n symbols f s) (onlyPairChanges_trans (onlyPairChanges_trans (onlyPairChanges_trans
      (onlyPairChanges_updPort n _ _) (hpair _ _)) (hflush _)) (onlyPairChanges_updPort n _ _))
  · unfold PortSends
    rw [hfar, hout]
    change (portOf u (farPort n)).out ++ [g] = _
    rw [hl.eq, List.append_assoc]
  · rw [hseq]
    change BitVec.ofNat 8 (portOf u (farPort n)).txSeq = _
    rw [hl.eq]
  · rw [hfar, htx]
    change ((portOf u (farPort n)).txSeq + 1) % 256 = _
    rw [hl.eq]

/-! ### Resends (R357) -/

theorem ackReplay_of_split {a b : List Flit} {f : Flit} {ack : Byte} (hf : f.seq = ack) (ha : ∀ g ∈ a, g.seq ≠ ack) :
    ackReplay ack.toNat (a ++ f :: b) = b := by
  have hne (g : Flit) (hg : g ∈ a) : (g.seq.toNat != ack.toNat) = true := by
    simpa [BitVec.toNat_inj] using ha g hg
  have hany : (a ++ f :: b).any (fun g => g.seq.toNat = ack.toNat) = true := by simp [hf]
  rw [ackReplay, if_pos hany, List.dropWhile_append_of_pos hne, List.dropWhile_cons_of_neg (by simp [hf])]
  rfl

theorem ackReplay_of_absent {l : List Flit} {ack : Byte} (h : ∀ g ∈ l, g.seq ≠ ack) : ackReplay ack.toNat l = l := by
  have hany : ¬ l.any (fun g => g.seq.toNat = ack.toNat) = true := by simpa [BitVec.toNat_inj] using h
  rw [ackReplay, if_neg hany]

/-- The flits `l` are sent again, for the `k`-th time; `ack` goes with them. -/
def resent (l : List Flit) (k : Nat) (p : Port) : Port :=
  { p with replay := l, resends := k, out := p.out ++ l.map (fun f => { f with ack := BitVec.ofNat 8 p.rxSeq }) }

/-- One more resend of a pair. -/
def countResend (p : Nat) (s : State) : State := updPair p (fun x => { x with resends := stick32 (x.resends + 1) }) s

theorem portOf_countResend (p m : Nat) (s : State) : portOf (countResend p s) m = portOf s m :=
  portOf_updPair (f := fun x => { x with resends := stick32 (x.resends + 1) }) (fun _ => rfl) (fun _ => rfl) _ _ _

theorem resends_countResend_updPort (n : Nat) (f : Port → Port) (s : State) :
    (pairOf (countResend (portPair n) (updPort n f s)) (portPair n)).resends = stick32 ((pairOf s (portPair n)).resends + 1) := by
  have hr : (pairOf (updPort n f s) (portPair n)).resends = (pairOf s (portPair n)).resends :=
    (congrArg Pair.resends (offPorts_updPort n f s (portPair n)) :)
  rw [countResend, pairOf_updPair_self, hr]

/-- What follows ACK in the replay buffer is sent again, for the first time where ACK has taken a flit out of it. -/
theorem resendFrom_eq {n ack : Nat} {s : State} {l : List Flit} {k : Nat} (ms : Nat) (hl : ackReplay ack (portOf s n).replay = l) (hne : l ≠ [])
    (hk : (if l.length < (portOf s n).replay.length then 1 else (portOf s n).resends + 1) = k) :
    resendFrom n ack ms s = if 3 ≤ k then faultLink (portPair n) ms (countResend (portPair n) (updPort n (resent l k) s))
      else countResend (portPair n) (updPort n (resent l k) s) := by
  have he : ¬ l.isEmpty = true := by simpa using hne
  unfold resendFrom
  dsimp only
  rw [hl, hk, if_neg he]
  rfl

end Sys2Proof.Machine
end

section
/-! SUPPORT. Proofs of the frame and timing statements (chapter 2): the election, the order of the members and DISCOVER (O52). -/

namespace Sys2Proof.Machine
open Claims

/-! ### The election (R43, R360) and the order of the members (R353) -/

theorem exists_dropWhile_cons {α : Type} {p : α → Bool} {l : List α} (h : ∃ x ∈ l, p x = false) :
    ∃ y b, l.dropWhile p = y :: b ∧ p y = false := by
  obtain ⟨x, hx, hpx⟩ := h
  induction l with
  | nil => simp at hx
  | cons y l ih =>
    cases hy : p y with
    | false => exact ⟨y, l, by simp [hy], hy⟩
    | true =>
      rw [List.dropWhile_cons_of_pos hy]
      rcases List.mem_cons.mp hx with rfl | hl
      · simp [hy] at hpx
      · exact ih hl

theorem getElem?_length_takeWhile {α : Type} {p : α → Bool} {l : List α} (h : ∃ x ∈ l, p x = false) :
    ∃ y, l[(l.takeWhile p).length]? = some y ∧ p y = false := by
  obtain ⟨y, b, hy, hpy⟩ := exists_dropWhile_cons h
  refine ⟨y, ?_, hpy⟩
  have hl : l.takeWhile p ++ y :: b = l := by rw [← hy, List.takeWhile_append_dropWhile]
  have hget : (l.takeWhile p ++ y :: b)[(l.takeWhile p).length]? = some y := by simp
  rwa [hl] at hget

theorem mem_fromLowest {l : List (Word64 × Nat)} {x : Word64 × Nat} : x ∈ fromLowest l ↔ x ∈ l := by
  conv_rhs => rw [← List.takeWhile_append_dropWhile (p := fun m => m.1.toNat != (l.map (·.1.toNat)).foldl min (2 ^ 64)) (l := l)]
  simp only [fromLowest, List.mem_append]
  exact or_comm

theorem length_fromLowest (l : List (Word64 × Nat)) : (fromLowest l).length = l.length := by
  conv_rhs => rw [← List.takeWhile_append_dropWhile (p := fun m => m.1.toNat != (l.map (·.1.toNat)).foldl min (2 ^ 64)) (l := l)]
  simp only [fromLowest, List.length_append]
  exact Nat.add_comm _ _

/-- The members are turned round until the lowest UID comes first. -/
theorem fromLowest_rotates {l : List (Word64 × Nat)} (h : l ≠ []) :
    ∃ a m b, l = a ++ m :: b ∧ fromLowest l = m :: b ++ a ∧ ∀ x ∈ l, m.1.toNat ≤ x.1.toNat := by
  set low := (l.map (·.1.toNat)).foldl min (2 ^ 64) with hlow
  obtain ⟨k, hk⟩ : ∃ k, (l.map (·.1.toNat)).min? = some k := by
    rw [← Option.isSome_iff_exists]
    simpa using h
  obtain ⟨hmem, hle⟩ := List.min?_eq_some_iff.mp hk
  obtain ⟨x, hx, hxk⟩ := List.mem_map.mp hmem
  have hlk : low = k := by
    rw [hlow, List.foldl_min, hk, Option.getD_some]
    exact min_eq_right (hxk ▸ x.1.isLt.le)
  obtain ⟨m, b, hm, hlm⟩ := exists_dropWhile_cons (p := fun m : Word64 × Nat => m.1.toNat != low) (l := l) ⟨x, hx, by simp [hxk, hlk]⟩
  have hmk : m.1.toNat = k := by simpa [hlk] using hlm
  refine ⟨l.takeWhile (fun m => m.1.toNat != low), m, b, ?_, ?_, fun y hy => ?_⟩
  · rw [← hm, List.takeWhile_append_dropWhile]
  · rw [← hm]
    rfl
  · rw [hmk]
    exact hle _ (List.mem_map.mpr ⟨y, hy, rfl⟩)

/-- The better of two candidates. -/
def better (best : Option (Word64 × Nat)) (m : Word64 × Nat) : Option (Word64 × Nat) :=
  match best with
  | none => some m
  | some b => if b.2 < m.2 || (b.2 = m.2 && m.1.toNat < b.1.toNat) then some m else best

theorem electMaster_eq (l : List (Word64 × Nat)) : electMaster l = (((l.filter (fun m => m.2 != 0)).foldl better none).map Prod.fst).getD 0 := by
  have he : electMaster l = match (l.filter (fun m => m.2 != 0)).foldl better none with | some m => m.1 | none => 0 := rfl
  rw [he]
  cases (l.filter (fun m => m.2 != 0)).foldl better none <;> rfl

/-- `m` is no worse a master than `x`. -/
def NoWorse (m x : Word64 × Nat) : Prop := x.2 < m.2 ∨ (x.2 = m.2 ∧ m.1.toNat ≤ x.1.toNat)

theorem NoWorse.trans {m x y : Word64 × Nat} (h : NoWorse m x) (g : NoWorse x y) : NoWorse m y := by
  unfold NoWorse at *
  omega

theorem better_some (b m : Word64 × Nat) : ∃ c, better (some b) m = some c ∧ (c = b ∨ c = m) ∧ NoWorse c b ∧ NoWorse c m := by
  by_cases h : b.2 < m.2 ∨ (b.2 = m.2 ∧ m.1.toNat < b.1.toNat)
  · refine ⟨m, ?_, .inr rfl, ?_, ?_⟩
    · exact if_pos (by simpa using h)
    · unfold NoWorse; omega
    · unfold NoWorse; omega
  · refine ⟨b, ?_, .inl rfl, ?_, ?_⟩
    · exact if_neg (by simpa using h)
    · unfold NoWorse; omega
    · unfold NoWorse; omega

theorem foldl_better (l : List (Word64 × Nat)) (b : Word64 × Nat) :
    ∃ c, l.foldl better (some b) = some c ∧ c ∈ b :: l ∧ ∀ x ∈ b :: l, NoWorse c x := by
  induction l generalizing b with
  | nil => exact ⟨b, rfl, by simp, by simp [NoWorse]⟩
  | cons m l ih =>
    obtain ⟨d, hd, hmem, hdb, hdm⟩ := better_some b m
    obtain ⟨c, hc, hcl, hbest⟩ := ih d
    obtain ⟨hcd, hrest⟩ := List.forall_mem_cons.mp hbest
    refine ⟨c, by rw [List.foldl_cons, hd, hc], ?_, List.forall_mem_cons.mpr ⟨hcd.trans hdb, List.forall_mem_cons.mpr ⟨hcd.trans hdm, hrest⟩⟩⟩
    rcases List.mem_cons.mp hcl with rfl | hl
    · rcases hmem with rfl | rfl <;> simp
    · simp [hl]

theorem electMaster_none {l : List (Word64 × Nat)} (h : ∀ x ∈ l, x.2 = 0) : electMaster l = 0 := by
  have hf : l.filter (fun m => m.2 != 0) = [] := by simpa using h
  rw [electMaster_eq, hf]
  rfl

/-- The elected master is eligible and no worse than any other eligible member. -/
theorem electMaster_best {l : List (Word64 × Nat)} {x : Word64 × Nat} (hx : x ∈ l) (hpri : x.2 ≠ 0) :
    ∃ m ∈ l, electMaster l = m.1 ∧ m.2 ≠ 0 ∧ NoWorse m x := by
  have hxf : x ∈ l.filter (fun m => m.2 != 0) := List.mem_filter.mpr ⟨hx, by simpa using hpri⟩
  rw [electMaster_eq]
  cases hf : l.filter (fun m => m.2 != 0) with
  | nil => simp [hf] at hxf
  | cons b k =>
    obtain ⟨c, hc, hmem, hbest⟩ := foldl_better k b
    obtain ⟨hcl, hcpri⟩ := List.mem_filter.mp (hf ▸ hmem)
    exact ⟨c, hcl, by rw [List.foldl_cons]; exact congrArg (fun o => (Option.map Prod.fst o).getD 0) hc, by simpa using hcpri, hbest x (hf ▸ hxf)⟩

/-! ### A discovery that is complete (R353) -/

theorem chooseSource_onlyFrame (s : State) : chooseSource s = { s with frame := (chooseSource s).frame } ∧
    (chooseSource s).frame.masterRings = s.frame.masterRings := by
  unfold chooseSource
  repeat' split
  all_goals exact ⟨rfl, rfl⟩

theorem losePeers_noTags {s : State} (h : s.red.tags = []) (p : Nat) : losePeers p s = s := by
  simp [losePeers, h]

/-- What a discovery leaves of a pair. -/
def discovered (uid : Word64) (members : List (Word64 × Nat)) (closed : Bool) (x : Pair) : Pair :=
  let l := fromLowest members
  { x with members := l, memberList := true, closed := closed, line := if closed then [] else members.map (·.1)
           position := (l.takeWhile (fun m => m.1 != uid)).length, oversize := 32 < l.length, masterUid := electMaster l }

/-- The rings that this module is the master of, after one has elected its master. -/
def electedRings (p : Nat) (mine : Bool) (rings : BitVec 16) : BitVec 16 :=
  if mine then rings ||| ((1 : BitVec 16) <<< p) else rings &&& ~~~((1 : BitVec 16) <<< p)

theorem getLsbD_electedRings {p q : Nat} (hq : q < 16) (mine : Bool) (rings : BitVec 16) :
    (electedRings p mine rings).getLsbD q = if q = p then mine else rings.getLsbD q := by
  have hbit : ((1 : BitVec 16) <<< p).getLsbD q = decide (q = p) := by
    have hone : BitVec.getLsbD (1 : BitVec 16) (q - p) = decide (q - p = 0) := BitVec.getLsbD_one
    rw [BitVec.getLsbD_shiftLeft, hone, Bool.eq_iff_iff]
    simp
    omega
  cases mine with
  | true =>
    rw [electedRings, if_pos rfl, BitVec.getLsbD_or, hbit]
    by_cases h : q = p <;> simp [h]
  | false =>
    rw [electedRings, if_neg Bool.false_ne_true, BitVec.getLsbD_and, BitVec.getLsbD_not, hbit]
    by_cases h : q = p <;> simp [h, hq]

/-- The state in which the discovery has set the pair and the master bit. -/
def memberSet (p : Nat) (members : List (Word64 × Nat)) (closed : Bool) (s : State) : State :=
  { updPair p (discovered s.uid members closed) s with frame := { s.frame with
      masterRings := electedRings p (electMaster (fromLowest members) = s.uid) s.frame.masterRings } }

theorem discoveryDone_eq {p : Nat} {members : List (Word64 × Nat)} {s : State} (closed : Bool) (hup : (pairOf s p).dn.up = true ∨ (pairOf s p).up.up = true)
    (hself : ∃ m ∈ members, m.1 = s.uid) (ht : s.red.tags = []) : ∃ c,
    discoveryDone p members closed s = chooseSource { memberSet p members closed s with ctxs := c } := by
  have hany : (members.any fun m => m.1 = s.uid) = true := by simpa using hself
  have hrings : (if electMaster (fromLowest members) = s.uid then s.frame.masterRings ||| ((1 : BitVec 16) <<< p)
      else s.frame.masterRings &&& ~~~((1 : BitVec 16) <<< p)) = electedRings p (electMaster (fromLowest members) = s.uid) s.frame.masterRings := by
    unfold electedRings
    by_cases h : electMaster (fromLowest members) = s.uid <;> simp [h]
  have hset : discoveryDone p members closed s = chooseSource (losePeers p (breakStreams p
      (fun e => 32 < (fromLowest members).length || !(fromLowest members).any (fun m => m.1 = e.peerUid)) (memberSet p members closed s))) := by
    unfold discoveryDone memberSet
    dsimp only
    rw [if_neg (by rcases hup with h | h <;> simp [h, hany]), ← hrings]
    rfl
  have hkeep := losePeers_noTags (s := breakStreams p
    (fun e => 32 < (fromLowest members).length || !(fromLowest members).any (fun m => m.1 = e.peerUid)) (memberSet p members closed s)) ht p
  exact ⟨_, hset.trans (congrArg chooseSource hkeep)⟩

theorem execDiscoveryComplete_eq {p : Nat} (h : p < 16) (members : List (Word64 × Nat)) (closed : Bool) (s : State) :
    exec (.discoveryComplete p members closed) s = .next (discoveryDone p members closed s) := unitOp_of (by simpa [wfPair] using h) _

theorem pairOf_memberSet (p q : Nat) (members : List (Word64 × Nat)) (closed : Bool) (s : State) :
    pairOf (memberSet p members closed s) q = if q = p then discovered s.uid members closed (pairOf s p) else pairOf s q := by
  change pairOf (updPair p (discovered s.uid members closed) s) q = _
  split
  next h => rw [h, pairOf_updPair_self]
  next h => rw [pairOf_updPair_ne h]

/-- A pair after a discovery: the members from the lowest UID on, this module's position, and the best of the eligible members as master. -/
theorem discovered_shows {uid : Word64} {members : List (Word64 × Nat)} (closed : Bool) (x : Pair) (hself : ∃ m ∈ members, m.1 = uid) :
    (∃ a h b, members = a ++ h :: b ∧ (discovered uid members closed x).members = h :: b ++ a ∧ ∀ y ∈ members, h.1.toNat ≤ y.1.toNat) ∧
    ((discovered uid members closed x).members[(discovered uid members closed x).position]?).map (fun m => m.1) = some uid ∧
    ((∀ y ∈ members, y.2 = 0) → (discovered uid members closed x).masterUid = 0) ∧
    (∀ y ∈ members, y.2 ≠ 0 → ∃ m ∈ members, (discovered uid members closed x).masterUid = m.1 ∧ m.2 ≠ 0 ∧ NoWorse m y) := by
  obtain ⟨me, hme, huid⟩ := hself
  refine ⟨fromLowest_rotates (List.ne_nil_of_mem hme), ?_, fun hnone => ?_, fun y hy hpri => ?_⟩
  · obtain ⟨m, hm, hmu⟩ := getElem?_length_takeWhile (p := fun m : Word64 × Nat => m.1 != uid) (l := fromLowest members)
      ⟨me, mem_fromLowest.mpr hme, by simp [huid]⟩
    refine (congrArg (Option.map Prod.fst) hm).trans ?_
    simpa using hmu
  · exact electMaster_none fun y hy => hnone y (mem_fromLowest.mp hy)
  · obtain ⟨m, hm, hmaster, hmpri, hbest⟩ := electMaster_best (mem_fromLowest.mpr hy) hpri
    exact ⟨m, mem_fromLowest.mp hm, hmaster, hmpri, hbest⟩

/-! ### DISCOVER (R353) -/

theorem execDiscover_eq {n : Nat} (h : n < 32) (uid : Word64) (pri : Nat) (s : State) :
    exec (.discover n uid pri) s = .next (discoverIn n uid pri s) := unitOp_of (by simpa [wfPort] using h) _

theorem up_flushPort (p : Port) : (flushPort p).up = p.up := by
  obtain ⟨l, hl⟩ := flitsSent_flushPort p
  rw [hl]

theorem up_updPort {f : Port → Port} (hf : ∀ p, (f p).up = p.up) (n m : Nat) (s : State) : (portOf (updPort n f s) m).up = (portOf s m).up := by
  by_cases h : m = n
  · rw [h, portOf_updPort_self, hf]
  · rw [portOf_updPort_ne h]

theorem up_flushAt (n m : Nat) (s : State) : (portOf (flushAt n s) m).up = (portOf s m).up := by
  by_cases hn : m = n
  · rw [hn, portOf_flushAt_self, up_flushPort]
  by_cases hf : m = farPort n
  · obtain ⟨l, hl⟩ := portOf_flushAt_far n s
    rw [hf, hl.eq]
  · unfold flushAt
    dsimp only
    rw [portOf_updPort_ne hf, portOf_updPort_ne hn]

theorem up_queueOwn (l : List Flit) (p : Port) : (queueOwn l p).up = p.up := by
  unfold queueOwn
  split <;> rfl

theorem up_sendRing (m : RingMsg) (k : Nat) (s : State) : (portOf (sendRing m s) k).up = (portOf s k).up := by
  unfold sendRing
  dsimp only
  split
  · rw [up_flushAt, up_updPort (up_queueOwn _)]
    rfl
  · rfl

theorem offPorts_sendRing (m : RingMsg) (q : Nat) (s : State) : offPorts (pairOf (sendRing m s) q) = offPorts (pairOf s q) := by
  unfold sendRing
  dsimp only
  split
  · rw [offPorts_flushAt, offPorts_updPort]
    rfl
  · rfl

theorem portPair_sidePort (p : Nat) (dn : Bool) : portPair (sidePort p dn) = p := by
  unfold portPair sidePort
  split <;> omega

theorem onlyPairChanges_sendRing (m : RingMsg) (s : State) : OnlyPairChanges m.pair s (sendRing m s) := by
  unfold sendRing
  dsimp only
  split
  · have hsent (t : State) : OnlyPairChanges m.pair t
        (flushAt (sidePort m.pair m.dn) (updPort (sidePort m.pair m.dn) (queueOwn (msgFlits m)) t)) := by
      have h := onlyPairChanges_trans (onlyPairChanges_updPort (sidePort m.pair m.dn) (queueOwn (msgFlits m)) t)
        (onlyPairChanges_flushAt (sidePort m.pair m.dn) _)
      rwa [portPair_sidePort] at h
    exact onlyPairChanges_trans ⟨rfl, fun _ _ => rfl⟩ (hsent _)
  · exact onlyPairChanges_refl _ _

theorem out_sendRing {m : RingMsg} {s : State} (hup : (portOf s (sidePort m.pair m.dn)).up = true) (hd : (pairOf s m.pair).draining = none) :
    (sendRing m s).ring.out = s.ring.out ++ [m] := by
  unfold sendRing
  dsimp only
  rw [if_pos (by simp [hup, hd])]
  rfl

/-- The message by which a member is announced. -/
def discoverMsg (s : State) (p : Nat) (dn : Bool) (uid : Word64) (pri : Nat) : RingMsg :=
  { pair := p, dn := dn, typ := 3, kind := 5, src := (pairOf s p).position, body := leBytes 8 uid.toNat ++ leBytes 1 pri }

theorem discoverBy_eq (p : Nat) (dn : Bool) (uid : Word64) (pri : Nat) (s : State) :
    discoverBy p dn uid pri s = sendRing (discoverMsg s p dn uid pri) s := rfl

/-- The pair can send both ways. -/
structure BothWays (p : Nat) (s : State) : Prop where
  up : ∀ dn, (portOf s (sidePort p dn)).up = true
  open_ : (pairOf s p).draining = none

theorem BothWays.discoverBy {p : Nat} {s : State} (h : BothWays p s) (dn : Bool) (uid : Word64) (pri : Nat) :
    BothWays p (discoverBy p dn uid pri s) := by
  rw [discoverBy_eq]
  exact ⟨fun d => (up_sendRing _ _ _).trans (h.up d), (congrArg Pair.draining (offPorts_sendRing _ p s) :).trans h.open_⟩

theorem BothWays.out_discoverBy {p : Nat} {s : State} (h : BothWays p s) (dn : Bool) (uid : Word64) (pri : Nat) :
    (Machine.discoverBy p dn uid pri s).ring.out = s.ring.out ++ [discoverMsg s p dn uid pri] := out_sendRing (h.up dn) h.open_

theorem bothWays_of_ports {n : Nat} {s : State} (hup : (portOf s n).up = true) (hfar : (portOf s (farPort n)).up = true)
    (hd : (pairOf s (portPair n)).draining = none) : BothWays (portPair n) s := by
  refine ⟨fun dn => ?_, hd⟩
  have hside : sidePort (portPair n) dn = n ∨ sidePort (portPair n) dn = farPort n := by
    unfold sidePort portPair farPort
    cases dn with
    | true => rw [if_pos rfl]; split <;> omega
    | false => rw [if_neg Bool.false_ne_true]; split <;> omega
  rcases hside with h | h
  · rw [h, hup]
  · rw [h, hfar]

/-- A DISCOVER that comes in goes on; where the list does not hold its member, a discovery opens. -/
theorem discoverIn_eq {n : Nat} {uid : Word64} {s : State} (pri : Nat) (hu : uid ≠ s.uid) (hup : (portOf s n).up = true) :
    discoverIn n uid pri s =
      let t := discoverBy (portPair n) (n % 2 = 1) uid pri s
      if !(pairOf t (portPair n)).memberList || (pairOf t (portPair n)).members.any (fun m => m.1 = uid && m.2 = pri) then t
      else sendDiscover (portPair n) (updPair (portPair n) (fun x => { x with memberList := false }) t) := by
  unfold discoverIn
  dsimp only
  rw [if_neg (by simp [hup, hu])]

end Sys2Proof.Machine
end

section
/-! SUPPORT. Proofs of the frame and timing statements (chapter 2): discoveries that open, and the first resend (O52). -/

namespace Sys2Proof.Machine
open Claims

theorem BothWays.updPair {p : Nat} {s : State} (h : BothWays p s) {f : Pair → Pair} (hd : ∀ x, (f x).dn = x.dn) (hu : ∀ x, (f x).up = x.up)
    (ho : ∀ x, (f x).draining = x.draining) : BothWays p (updPair p f s) := by
  refine ⟨fun dn => ?_, ?_⟩
  · rw [portOf_updPair hd hu]
    exact h.up dn
  · rw [pairOf_updPair_self, ho]
    exact h.open_

/-- A discovery opens with this module's own DISCOVER in both directions. -/
theorem sendDiscover_sends {p : Nat} {s : State} (h : BothWays p s) : ∃ a b, OnlyPairChanges p s (sendDiscover p s) ∧
    (sendDiscover p s).ring.out = s.ring.out ++ [a, b] ∧ a.dn = true ∧ b.dn = false ∧
    (∀ x ∈ [a, b], x.kind = 5 ∧ x.pair = p ∧ x.body = leBytes 8 s.uid.toNat ++ leBytes 1 (pairOf s p).masterPri) ∧
    offPorts (pairOf (sendDiscover p s) p) = offPorts (pairOf s p) := by
  set pri := (pairOf s p).masterPri
  set u := discoverBy p true s.uid pri s
  have ht : sendDiscover p s = discoverBy p false s.uid pri u := rfl
  have hout : (discoverBy p false s.uid pri u).ring.out = s.ring.out ++ [discoverMsg s p true s.uid pri, discoverMsg u p false s.uid pri] := by
    rw [(h.discoverBy true s.uid pri).out_discoverBy, h.out_discoverBy, List.append_assoc]
    rfl
  have hoff : offPorts (pairOf (discoverBy p false s.uid pri u) p) = offPorts (pairOf s p) := (offPorts_sendRing _ p u).trans (offPorts_sendRing _ p s)
  rw [ht]
  refine ⟨_, _, onlyPairChanges_trans (onlyPairChanges_sendRing _ s) (onlyPairChanges_sendRing _ u), hout, rfl, rfl, ?_, hoff⟩
  exact List.forall_mem_cons.mpr ⟨⟨rfl, rfl, rfl⟩, List.forall_mem_singleton.mpr ⟨rfl, rfl, rfl⟩⟩

/-- A DISCOVER of a member that the list holds, or in an open discovery, goes on and does no more. -/
theorem discoverIn_known {n pri : Nat} {uid : Word64} {s : State} (hu : uid ≠ s.uid) (hup : (portOf s n).up = true)
    (hfar : (portOf s (farPort n)).up = true) (hd : (pairOf s (portPair n)).draining = none)
    (hknown : (pairOf s (portPair n)).memberList = false ∨ (uid, pri) ∈ (pairOf s (portPair n)).members) :
    ∃ t m, discoverIn n uid pri s = t ∧ OnlyPairChanges (portPair n) s t ∧ t.ring.out = s.ring.out ++ [m] ∧ m.pair = portPair n ∧
      m.kind = 5 ∧ m.dn = decide (n % 2 = 1) ∧ m.body = leBytes 8 uid.toNat ++ leBytes 1 pri ∧
      (pairOf t (portPair n)).memberList = (pairOf s (portPair n)).memberList := by
  set t := discoverBy (portPair n) (n % 2 = 1) uid pri s
  have hoff : offPorts (pairOf t (portPair n)) = offPorts (pairOf s (portPair n)) := offPorts_sendRing _ _ s
  have hlist : (pairOf t (portPair n)).memberList = (pairOf s (portPair n)).memberList := (congrArg Pair.memberList hoff :)
  have hmem : (pairOf t (portPair n)).members = (pairOf s (portPair n)).members := (congrArg Pair.members hoff :)
  have ht : discoverIn n uid pri s = t := by
    rw [discoverIn_eq pri hu hup]
    refine if_pos ?_
    rw [hlist, hmem]
    rcases hknown with h | h
    · simp [h]
    · have hany : ((pairOf s (portPair n)).members.any fun m => m.1 = uid && m.2 = pri) = true := List.any_eq_true.mpr ⟨_, h, by simp⟩
      rw [hany, Bool.or_true]
  exact ⟨t, _, ht, onlyPairChanges_sendRing _ s, (bothWays_of_ports hup hfar hd).out_discoverBy _ uid pri, rfl, rfl, rfl, rfl, hlist⟩

/-- A DISCOVER of a member that a complete list does not hold goes on, and opens a discovery. -/
theorem discoverIn_unknown {n pri : Nat} {uid : Word64} {s : State} (hu : uid ≠ s.uid) (hup : (portOf s n).up = true)
    (hfar : (portOf s (farPort n)).up = true) (hd : (pairOf s (portPair n)).draining = none)
    (hlist : (pairOf s (portPair n)).memberList = true) (hnew : (uid, pri) ∉ (pairOf s (portPair n)).members) :
    ∃ t m a b, discoverIn n uid pri s = t ∧ OnlyPairChanges (portPair n) s t ∧ t.ring.out = s.ring.out ++ [m, a, b] ∧
      m.body = leBytes 8 uid.toNat ++ leBytes 1 pri ∧ a.dn = true ∧ b.dn = false ∧
      (∀ x ∈ [a, b], x.kind = 5 ∧ x.pair = portPair n ∧ x.body = leBytes 8 s.uid.toNat ++ leBytes 1 (pairOf s (portPair n)).masterPri) ∧
      (pairOf t (portPair n)).memberList = false := by
  set p := portPair n
  have hways := bothWays_of_ports hup hfar hd
  set u := discoverBy p (n % 2 = 1) uid pri s
  set w := updPair p (fun x => { x with memberList := false }) u with hw_def
  have hoff : offPorts (pairOf u p) = offPorts (pairOf s p) := offPorts_sendRing _ _ s
  have hlistu : (pairOf u p).memberList = true := (congrArg Pair.memberList hoff :).trans hlist
  have hmem : (pairOf u p).members = (pairOf s p).members := (congrArg Pair.members hoff :)
  have hsu : OnlyPairChanges p s u := onlyPairChanges_sendRing _ s
  have huid : w.uid = s.uid := (congrArg State.uid hsu.1 :)
  have hpri : (pairOf w p).masterPri = (pairOf s p).masterPri := by
    rw [hw_def, pairOf_updPair_self]
    exact (congrArg Pair.masterPri hoff :)
  have hmsg : u.ring.out = s.ring.out ++ [discoverMsg s p (n % 2 = 1) uid pri] := hways.out_discoverBy _ uid pri
  have hwaysw : BothWays p w := BothWays.updPair (hways.discoverBy (n % 2 = 1) uid pri) (fun _ => rfl) (fun _ => rfl) (fun _ => rfl)
  obtain ⟨a, b, hchg, hout, ha, hb, hboth, hoffw⟩ := sendDiscover_sends hwaysw
  have ht : discoverIn n uid pri s = sendDiscover p w := by
    rw [discoverIn_eq pri hu hup]
    refine if_neg ?_
    rw [hlistu, hmem]
    simpa using hnew
  refine ⟨_, discoverMsg s p (n % 2 = 1) uid pri, a, b, ht, onlyPairChanges_trans hsu (onlyPairChanges_trans (onlyPairChanges_updPair p _ u) hchg),
    ?_, rfl, ha, hb, ?_, ?_⟩
  · rw [hout]
    change u.ring.out ++ [a, b] = _
    rw [hmsg, List.append_assoc]
    rfl
  · rw [huid, hpri] at hboth
    exact hboth
  · refine (congrArg Pair.memberList hoffw :).trans ?_
    change (pairOf w p).memberList = false
    rw [hw_def, pairOf_updPair_self]

/-- What ACK leaves in the replay buffer is sent again, in order, with the ACK of now. -/
theorem resendFrom_first {n ms : Nat} {ack : Byte} {s : State} {a b : List Flit} {f : Flit} (hr : (portOf s n).replay = a ++ f :: b)
    (hf : f.seq = ack) (ha : ∀ g ∈ a, g.seq ≠ ack) (hb : b ≠ []) :
    ∃ t, resendFrom n ack.toNat ms s = t ∧ OnlyPairChanges (portPair n) s t ∧
      PortSends n (b.map (fun f => { f with ack := BitVec.ofNat 8 (portOf s n).rxSeq })) s t ∧ (portOf t n).replay = b ∧
      (∀ m, m ≠ n → portOf t m = portOf s m) ∧ (pairOf t (portPair n)).resends = stick32 ((pairOf s (portPair n)).resends + 1) := by
  have hl : ackReplay ack.toNat (portOf s n).replay = b := by rw [hr, ackReplay_of_split hf ha]
  have hlen : b.length < (portOf s n).replay.length := by
    rw [hr, List.length_append, List.length_cons]
    omega
  have hport : portOf (countResend (portPair n) (updPort n (resent b 1) s)) n = resent b 1 (portOf s n) := by
    rw [portOf_countResend, portOf_updPort_self]
  have ht := (resendFrom_eq ms hl hb (if_pos hlen)).trans (if_neg (by decide))
  refine ⟨_, ht, onlyPairChanges_trans (onlyPairChanges_updPort n _ s) (onlyPairChanges_updPair _ _ _), ?_, ?_,
    fun m hm => ?_, resends_countResend_updPort n _ s⟩
  · unfold PortSends
    rw [hport]
    rfl
  · rw [hport]
    rfl
  · rw [portOf_countResend, portOf_updPort_ne hm]

end Sys2Proof.Machine
end

section
/-! SUPPORT. Proofs of the frame and timing statements (chapter 2): the links of a state and its log. -/

namespace Sys2Proof.Machine
open Claims

/-! ### What the loss of a link leaves: link faults counted, ports that are up, and the log (R357, R517) -/

/-- Counts of link faults and ports that are up, of every pair. -/
def linkView (pairs : SMap Pair) : (Nat → Nat) × (Nat → Bool) :=
  (fun q => (mapGet {} pairs q).linkFaults, fun n => (if n % 2 = 0 then (mapGet {} pairs (n / 2)).dn else (mapGet {} pairs (n / 2)).up).up)

/-- No source of a log is lost from another, unless it was counted as lost. -/
def LogsGrow (l k : Logs) : Prop := (∀ e ∈ l.errors, ∃ d ∈ k.errors, d.source = e.source) ∧ l.lost ≤ k.lost

theorem LogsGrow.refl (l : Logs) : LogsGrow l l := ⟨fun e he => ⟨e, he, rfl⟩, le_rfl⟩

theorem LogsGrow.trans {l k j : Logs} (h : LogsGrow l k) (g : LogsGrow k j) : LogsGrow l j := by
  refine ⟨fun e he => ?_, h.2.trans g.2⟩
  obtain ⟨d, hd, hde⟩ := h.1 e he
  obtain ⟨c, hc, hcd⟩ := g.1 d hd
  exact ⟨c, hc, hcd.trans hde⟩

theorem logsGrow_logAdd (e : LogEntry) (l : Logs) : LogsGrow l (logAdd e l) := by
  unfold logAdd
  split
  · refine ⟨fun d hd => ⟨_, List.mem_map.mpr ⟨d, hd, rfl⟩, ?_⟩, le_rfl⟩
    split <;> rfl
  · split
    · exact ⟨fun d hd => ⟨d, hd, rfl⟩, Nat.le_succ _⟩
    · exact ⟨fun d hd => ⟨d, List.mem_append_left _ hd, rfl⟩, le_rfl⟩

theorem eventLogged_of_logsGrow {source : Nat} {s t u : State} (h : EventLogged source s t) (g : LogsGrow t.logs u.logs) : EventLogged source s u := by
  rcases h with ⟨e, he, hs⟩ | h
  · obtain ⟨d, hd, hde⟩ := g.1 e he
    exact .inl ⟨d, hd, hde.trans hs⟩
  · exact .inr (h.trans_le g.2)

/-- The links are those of `base`, and no event has left the log. -/
def LinksKept (base s : State) : Prop := linkView s.ring.pairs = linkView base.ring.pairs ∧ LogsGrow base.logs s.logs

theorem LinksKept.refl (s : State) : LinksKept s s := ⟨rfl, .refl _⟩

section
variable {base s : State}

theorem linksKept_ite {c : Prop} [Decidable c] {t : State} (h : LinksKept base s) (g : LinksKept base t) : LinksKept base (if c then s else t) := by
  split
  · exact h
  · exact g

theorem linksKept_foldl {α : Type} {f : State → α → State} (hf : ∀ s a, LinksKept base s → LinksKept base (f s a)) (l : List α)
    (h : LinksKept base s) : LinksKept base (l.foldl f s) := by
  induction l generalizing s with
  | nil => exact h
  | cons a l ih => exact ih (hf s a h)

/-! What changes pairs or the logs keeps the links by its own lemma. -/

theorem linksKept_logEvent {source sev code ctx inst addr d0 d1} (h : LinksKept base s) : LinksKept base (logEvent source sev code ctx inst addr d0 d1 s) :=
  ⟨h.1, h.2.trans (logsGrow_logAdd _ _)⟩

theorem linkView_updPair {f : Pair → Pair} (hl : ∀ x, (f x).linkFaults = x.linkFaults) (hd : ∀ x, (f x).dn.up = x.dn.up)
    (hu : ∀ x, (f x).up.up = x.up.up) (p : Nat) (s : State) : linkView (updPair p f s).ring.pairs = linkView s.ring.pairs := by
  have hpair (q : Nat) : (pairOf (updPair p f s) q).linkFaults = (pairOf s q).linkFaults ∧ (pairOf (updPair p f s) q).dn.up = (pairOf s q).dn.up ∧
      (pairOf (updPair p f s) q).up.up = (pairOf s q).up.up := by
    by_cases hq : q = p
    · rw [hq, pairOf_updPair_self]
      exact ⟨hl _, hd _, hu _⟩
    · rw [pairOf_updPair_ne hq]
      exact ⟨rfl, rfl, rfl⟩
  refine Prod.ext (funext fun q => (hpair q).1) (funext fun n => ?_)
  change (portOf (updPair p f s) n).up = (portOf s n).up
  unfold portOf
  split
  · exact (hpair _).2.1
  · exact (hpair _).2.2

theorem linksKept_updPair {f : Pair → Pair} (hl : ∀ x, (f x).linkFaults = x.linkFaults) (hd : ∀ x, (f x).dn.up = x.dn.up)
    (hu : ∀ x, (f x).up.up = x.up.up) {p : Nat} (h : LinksKept base s) : LinksKept base (updPair p f s) :=
  ⟨(linkView_updPair hl hd hu p s).trans h.1, h.2⟩

theorem linkView_eq {t : State} (hoff : ∀ q, offPorts (pairOf t q) = offPorts (pairOf s q)) (hup : ∀ n, (portOf t n).up = (portOf s n).up) :
    linkView t.ring.pairs = linkView s.ring.pairs :=
  Prod.ext (funext fun q => (congrArg Pair.linkFaults (hoff q) :)) (funext hup)

theorem linksKept_sendRing {m} (h : LinksKept base s) : LinksKept base (sendRing m s) := by
  obtain ⟨r, hr⟩ := sendRing_eq m s
  have hlogs : (sendRing m s).logs = s.logs := by rw [hr]
  exact ⟨(linkView_eq (fun q => offPorts_sendRing m q s) (fun n => up_sendRing m n s)).trans h.1, hlogs ▸ h.2⟩

theorem linksKept_flushAt {n} (h : LinksKept base s) : LinksKept base (flushAt n s) :=
  ⟨(linkView_eq (offPorts_flushAt n s) (fun m => up_flushAt n m s)).trans h.1, h.2⟩

theorem linksKept_updPort {f : Port → Port} (hf : ∀ p, (f p).up = p.up) {n : Nat} (h : LinksKept base s) : LinksKept base (updPort n f s) :=
  ⟨(linkView_eq (offPorts_updPort n f s) (fun m => up_updPort hf n m s)).trans h.1, h.2⟩

theorem LinksKept.linkFaults (h : LinksKept base s) (q : Nat) : (pairOf s q).linkFaults = (pairOf base q).linkFaults :=
  (congrFun (congrArg Prod.fst h.1) q :)

theorem LinksKept.up (h : LinksKept base s) (n : Nat) : (portOf s n).up = (portOf base n).up := (congrFun (congrArg Prod.snd h.1) n :)

end
end Sys2Proof.Machine
end

section
/-! SUPPORT. Proofs of the frame and timing statements (chapter 2): what keeps the links. -/

namespace Sys2Proof.Machine
open Claims

section
variable {base s : State}

/-! Commands, contexts, cores, clusters and objects are neither the ring nor the log. -/

theorem linksKept_completeWith {tag st result} (h : LinksKept base s) : LinksKept base (completeWith tag st result s) := by
  unfold completeWith
  split <;> exact h

theorem linksKept_complete {tag st} (h : LinksKept base s) : LinksKept base (complete tag st s) := linksKept_completeWith h

theorem linksKept_updCtx {n f} (h : LinksKept base s) : LinksKept base (updCtx n f s) := h

theorem linksKept_updCore {r f} (h : LinksKept base s) : LinksKept base (updCore r f s) := h

theorem linksKept_updCluster {n lc f} (h : LinksKept base s) : LinksKept base (updCluster n lc f s) := h

theorem linksKept_updObj {id f} (h : LinksKept base s) : LinksKept base (updObj id f s) := by
  unfold updObj
  split <;> exact h

theorem linksKept_updObjs {n f} (h : LinksKept base s) : LinksKept base (updObjs n f s) := h

theorem linksKept_dropReads {pick} (h : LinksKept base s) : LinksKept base (dropReads pick s) := h

theorem linksKept_pruneFlight (h : LinksKept base s) : LinksKept base (pruneFlight s) := h

theorem linksKept_imports {l} (h : LinksKept base s) : LinksKept base { s with ring := { s.ring with imports := l } } := h

theorem linksKept_dropPosts {n} (h : LinksKept base s) : LinksKept base (dropPosts n s) := by
  unfold dropPosts
  exact linksKept_pruneFlight (linksKept_updObjs (linksKept_dropReads (linksKept_imports (linksKept_updCtx h))))

theorem linksKept_swaps {l} (h : LinksKept base s) : LinksKept base { s with swaps := l } := h

theorem linksKept_dropPrograms {pick} (h : LinksKept base s) : LinksKept base (dropPrograms pick s) := h

theorem linksKept_dropQueries {pick} (h : LinksKept base s) : LinksKept base (dropQueries pick s) := h

theorem linksKept_dropScratch {n} (h : LinksKept base s) : LinksKept base (dropScratch n s) := h

theorem linksKept_writeStep {n st f30} (h : LinksKept base s) : LinksKept base (writeStep n st f30 s) := by
  unfold writeStep onClusters setFlag t1Write
  exact linksKept_foldl (fun _ _ ht => linksKept_updCluster (linksKept_updCluster ht)) _ h

theorem linksKept_landRows {c p d ls} (h : LinksKept base s) : LinksKept base (landRows c p d ls s) := by
  unfold landRows
  split
  · exact h
  · exact h
  · split
    · exact h
    · exact linksKept_updObj h

theorem linksKept_landOp {r o} (h : LinksKept base s) : LinksKept base (landOp s r o) := h

theorem linksKept_breakStreams {p pick} (h : LinksKept base s) : LinksKept base (breakStreams p pick s) := h

theorem linksKept_chooseSource (h : LinksKept base s) : LinksKept base (chooseSource s) := by
  rw [(chooseSource_onlyFrame s).1]
  exact h

/-! What sends messages. -/

theorem linksKept_sendTo {p route u m} (h : LinksKept base s) : LinksKept base (sendTo p route u m s) := by
  unfold sendTo
  split
  · exact h
  · exact linksKept_sendRing h

theorem linksKept_breakConns {n} (h : LinksKept base s) : LinksKept base (breakConns n s) :=
  linksKept_updCtx (linksKept_foldl (fun _ _ ht => linksKept_sendTo ht) _ h)

theorem linksKept_sendRed {t dests body} (h : LinksKept base s) : LinksKept base (sendRed t dests body s) :=
  linksKept_foldl (fun _ _ ht => linksKept_sendTo ht) _ h

theorem linksKept_sendStream {u c p d off body last} (h : LinksKept base s) : LinksKept base (sendStream u c p d off body last s) := by
  unfold sendStream
  split
  · exact h
  · exact linksKept_sendTo h

theorem linksKept_moveLines {c t p d ls last} (h : LinksKept base s) : LinksKept base (moveLines c t p d ls last s) :=
  linksKept_ite (linksKept_sendStream h) (linksKept_landRows h)

theorem linksKept_pauseTransfer {c t} (h : LinksKept base s) : LinksKept base (pauseTransfer c t s) := by
  unfold pauseTransfer
  split
  · exact linksKept_ite (linksKept_ite h h) (linksKept_moveLines h)
  · exact h

theorem linksKept_pauseCtx {n} (h : LinksKept base s) : LinksKept base (pauseCtx n s) :=
  linksKept_foldl (fun _ _ ht => linksKept_foldl (fun _ _ hu => linksKept_pauseTransfer hu) _ ht) _ h

theorem linksKept_leaveSlice {n} (h : LinksKept base s) : LinksKept base (leaveSlice n s) :=
  linksKept_ite (linksKept_updCtx (linksKept_pauseCtx h)) h

theorem linksKept_sendDiscover {p} (h : LinksKept base s) : LinksKept base (sendDiscover p s) := linksKept_sendRing (linksKept_sendRing h)

/-! What logs, and what ends runs and steps. -/

theorem linksKept_logWords {m req ws} (h : LinksKept base s) : LinksKept base (logWords m req ws s) :=
  linksKept_foldl (fun _ _ ht => linksKept_logEvent ht) _ h

theorem linksKept_meetBanks {c req ws} (h : LinksKept base s) : LinksKept base (meetPlain (.banks c) req ws s) :=
  linksKept_updCore (linksKept_logWords h)

theorem linksKept_meetT0 {req c a n} (h : LinksKept base s) : LinksKept base (meetT0 req c a n s) := by
  unfold meetT0
  exact linksKept_ite h (linksKept_logWords (linksKept_updCore h))

theorem linksKept_meetOp {r o} (h : LinksKept base s) : LinksKept base (meetOp r o s) :=
  linksKept_foldl (fun _ _ ht => linksKept_meetT0 ht) _ h

theorem linksKept_failTag {t cause} (h : LinksKept base s) : LinksKept base (failTag t cause s) := linksKept_ite (linksKept_logEvent h) h

theorem linksKept_abandonTag {t cause} (h : LinksKept base s) : LinksKept base (abandonTag t cause s) := linksKept_sendRed (linksKept_failTag h)

theorem linksKept_voidStep {n cause st} (h : LinksKept base s) : LinksKept base (voidStep n cause st s) :=
  linksKept_writeStep (linksKept_updCtx (linksKept_foldl (fun _ _ ht => linksKept_abandonTag ht) _ h))

theorem linksKept_faultCmd {cause r1 c} (h : LinksKept base s) : LinksKept base (faultCmd cause r1 c s) := linksKept_completeWith h

theorem linksKept_contextFault {n cause r1} (h : LinksKept base s) : LinksKept base (contextFault n cause r1 s) := by
  have hquit : LinksKept base (breakConns n (pauseCtx n s)) := linksKept_breakConns (linksKept_pauseCtx h)
  unfold contextFault
  refine linksKept_ite h (linksKept_swaps (linksKept_updCtx (linksKept_foldl (fun _ _ ht => linksKept_faultCmd ht) _ ?_)))
  exact linksKept_dropScratch (linksKept_dropQueries (linksKept_dropPrograms (linksKept_dropPosts
    (linksKept_foldl (fun _ _ ht => linksKept_voidStep ht) _ hquit))))

theorem linksKept_coreFault {r cause addr} (h : LinksKept base s) : LinksKept base (coreFault r cause addr s) :=
  linksKept_contextFault (linksKept_logEvent h)

theorem linksKept_landArray {r residueFail} (h : LinksKept base s) : LinksKept base (landArray r residueFail s) := by
  unfold landArray
  split
  · exact h
  · split
    · exact linksKept_coreFault h
    · dsimp only
      split
      · exact linksKept_coreFault (linksKept_meetOp h)
      · exact linksKept_coreFault (linksKept_meetBanks (linksKept_meetOp h))
      · exact linksKept_landOp (linksKept_meetOp h)

theorem linksKept_endRun {n} (h : LinksKept base s) : LinksKept base (endRun n s) :=
  linksKept_dropPosts (linksKept_updCtx (linksKept_foldl (fun _ _ ht => linksKept_landArray ht) _ (linksKept_pauseCtx h)))

theorem linksKept_voidRun {n cause x} (h : LinksKept base s) : LinksKept base (voidRun n cause x s) := by
  have hvoid : LinksKept base (voidStep n cause x s) := linksKept_voidStep h
  have hend := linksKept_ite (c := stepRunning (voidStep n cause x s) n x.tag) (linksKept_endRun (n := n) hvoid) hvoid
  unfold voidRun voidRunWith
  dsimp only
  split
  · exact linksKept_updCtx (linksKept_complete hend)
  · exact hend

theorem linksKept_redFail {t cause} (h : LinksKept base s) : LinksKept base (redFail t cause s) :=
  linksKept_ite (linksKept_foldl (fun _ _ ht => linksKept_voidRun ht) _ (linksKept_failTag h)) h

theorem linksKept_losePeers {p} (h : LinksKept base s) : LinksKept base (losePeers p s) :=
  linksKept_foldl (fun _ _ ht => linksKept_ite (linksKept_updCtx (linksKept_leaveSlice (linksKept_redFail ht))) (linksKept_redFail ht)) _ h

/-! A pair leaves UP. -/

theorem linksKept_leaveUp {p} (h : LinksKept base s) : LinksKept base (leaveUp p s) :=
  linksKept_sendDiscover (linksKept_breakStreams (linksKept_updPair
    (f := fun x => { x with line := if x.closed then cutLine s p (!x.dn.up) else x.line, closed := false, memberList := false })
    (fun _ => rfl) (fun _ => rfl) (fun _ => rfl) h))

theorem linksKept_leaveRing {p} (h : LinksKept base s) : LinksKept base (leaveRing p s) := by
  have hpair := linksKept_updPair (f := fun x => { x with members := [], line := [], position := 0, masterUid := 0, oversize := false })
    (fun _ => rfl) (fun _ => rfl) (fun _ => rfl) (p := p) (linksKept_leaveUp (p := p) h)
  exact linksKept_losePeers (linksKept_chooseSource hpair)

theorem linksKept_endEnables {p} (h : LinksKept base s) : LinksKept base (endEnables p s) :=
  linksKept_ite h (linksKept_foldl (fun _ _ ht => linksKept_complete ht) _
    (linksKept_updPair (f := fun x => { x with enabling := [] }) (fun _ => rfl) (fun _ => rfl) (fun _ => rfl) h))

end
end Sys2Proof.Machine
end

section
/-! SUPPORT. Proofs of the frame and timing statements (chapter 2): link faults (O52). -/

namespace Sys2Proof.Machine
open Claims

/-! ### The third resend is a link fault (R357) -/

/-- Ports may go down; no link fault is counted, and no event leaves the log. -/
def LinksLost (s t : State) : Prop :=
  (∀ q, (pairOf t q).linkFaults = (pairOf s q).linkFaults) ∧ (∀ m, (portOf s m).up = false → (portOf t m).up = false) ∧ LogsGrow s.logs t.logs

theorem LinksLost.refl (s : State) : LinksLost s s := ⟨fun _ => rfl, fun _ h => h, .refl _⟩

theorem LinksLost.trans {s t u : State} (h : LinksLost s t) (g : LinksLost t u) : LinksLost s u := by
  obtain ⟨hf, hu, hl⟩ := h
  obtain ⟨gf, gu, gl⟩ := g
  exact ⟨fun q => (gf q).trans (hf q), fun m hm => gu m (hu m hm), hl.trans gl⟩

theorem LinksKept.lost {s t : State} (h : LinksKept s t) : LinksLost s t := ⟨h.linkFaults, fun m hm => (h.up m).trans hm, h.2⟩

/-- A port loses its link. -/
def loseLink (n : Nat) (s : State) : State := updPort n (fun p => { downPort p with dark := true }) s

theorem linksLost_loseLink (n : Nat) (s : State) : LinksLost s (loseLink n s) := by
  refine ⟨fun q => (congrArg Pair.linkFaults (offPorts_updPort n _ s q) :), fun m hm => ?_, .refl _⟩
  unfold loseLink
  by_cases h : m = n
  · rw [h, portOf_updPort_self]
    rfl
  · rw [portOf_updPort_ne h, hm]

theorem linksKept_portLeaves {n : Nat} {s : State} (hup : (portOf s n).up = true) : LinksKept (loseLink n s) (portLeaves n s) := by
  have hdrop : LinksKept (loseLink n s) (updPort (farPort n) dropOpen (loseLink n s)) :=
    linksKept_updPort (f := dropOpen) (fun _ => rfl) (.refl _)
  unfold portLeaves
  rw [if_pos hup]
  exact linksKept_updPair (f := fun x => { x with state := .training, reading := true }) (fun _ => rfl) (fun _ => rfl) (fun _ => rfl)
    (linksKept_leaveUp (linksKept_flushAt hdrop))

theorem linksLost_portLeaves (n : Nat) (s : State) : LinksLost s (portLeaves n s) ∧ (portOf (portLeaves n s) n).up = false := by
  by_cases hup : (portOf s n).up = true
  · have hkept := linksKept_portLeaves hup
    refine ⟨(linksLost_loseLink n s).trans hkept.lost, (hkept.up n).trans ?_⟩
    rw [loseLink, portOf_updPort_self]
    rfl
  · have hid : portLeaves n s = s := if_neg hup
    rw [hid]
    exact ⟨.refl s, by simpa using hup⟩

/-- A pair whose easel closes has no port up. -/
def closePair (st : PairState) (x : Pair) : Pair :=
  { x with easel := if x.easel = .closed then .closed else .closing, state := st, reading := false, recheck := false
           dn := downPort { x.dn with dark := false }, up := downPort { x.up with dark := false } }

theorem portOf_closePair (st : PairState) (n : Nat) (s : State) : (portOf (updPair (portPair n) (closePair st) s) n).up = false := by
  unfold portOf
  rw [show n / 2 = portPair n from rfl, pairOf_updPair_self]
  split <;> rfl

theorem linksLost_closeEasel (n : Nat) (st : PairState) (s : State) :
    LinksLost s (closeEasel (portPair n) st s) ∧ (portOf (closeEasel (portPair n) st s) n).up = false := by
  have hkept : LinksKept (updPair (portPair n) (closePair st) s) (closeEasel (portPair n) st s) := linksKept_leaveRing (.refl _)
  have hclose : LinksLost s (updPair (portPair n) (closePair st) s) := by
    refine ⟨fun q => ?_, fun m hm => ?_, .refl _⟩
    · by_cases hq : q = portPair n
      · rw [hq, pairOf_updPair_self]
        rfl
      · rw [pairOf_updPair_ne hq]
    · by_cases hm' : portPair m = portPair n
      · rw [← hm']
        exact portOf_closePair st m s
      · have hpair : pairOf (updPair (portPair n) (closePair st) s) (m / 2) = pairOf s (m / 2) := pairOf_updPair_ne hm' _ _
        unfold portOf
        rw [hpair]
        exact hm
  exact ⟨hclose.trans hkept.lost, (hkept.up n).trans (portOf_closePair st n s)⟩

/-- A link fault of a pair is counted. -/
def countFault (p ms : Nat) (s : State) : State :=
  updPair p (fun y => { y with linkFaults := stick32 (y.linkFaults + 1), faultMs := recentFaults (pairOf s p) ms }) s

/-- A link fault is counted and logged, and takes both ports of its pair down. -/
theorem faultLink_shows {n : Nat} {s : State} (ms : Nat) (hup : (portOf s n).up = true) :
    (pairOf (faultLink (portPair n) ms s) (portPair n)).linkFaults = stick32 ((pairOf s (portPair n)).linkFaults + 1) ∧
    (portOf (faultLink (portPair n) ms s) n).up = false ∧ EventLogged 10 s (faultLink (portPair n) ms s) := by
  set p := portPair n
  set u := logEvent 10 0 0 0 p 0 0 0 (countFault p ms s)
  have hu : (pairOf u p).linkFaults = stick32 ((pairOf s p).linkFaults + 1) := by
    change (pairOf (countFault p ms s) p).linkFaults = _
    rw [countFault, pairOf_updPair_self]
  have hlogged : EventLogged 10 s u := eventLogged_of_logs (eventLogged_logEvent 10 0 0 0 p 0 0 0 (countFault p ms s)) rfl rfl
  suffices h : LinksLost u (faultLink p ms s) ∧ (portOf (faultLink p ms s) n).up = false from
    ⟨(h.1.1 p).trans hu, h.2, eventLogged_of_logsGrow hlogged h.1.2.2⟩
  have hany : (pairOf s p).dn.up = true ∨ (pairOf s p).up.up = true := by
    have hport : (if n % 2 = 0 then (pairOf s p).dn else (pairOf s p).up).up = true := hup
    split at hport
    · exact .inl hport
    · exact .inr hport
  have he : faultLink p ms s = if 3 ≤ (recentFaults (pairOf s p) ms).length then endEnables p (closeEasel p .fault u)
      else portLeaves (2 * p) (portLeaves (2 * p + 1) u) := if_pos (by simpa using hany)
  rw [he]
  split
  · obtain ⟨hlost, hdown⟩ := linksLost_closeEasel n .fault u
    have hkept : LinksKept (closeEasel p .fault u) (endEnables p (closeEasel p .fault u)) := linksKept_endEnables (.refl _)
    exact ⟨hlost.trans hkept.lost, (hkept.up n).trans hdown⟩
  · obtain ⟨hlost1, hdown1⟩ := linksLost_portLeaves (2 * p + 1) u
    obtain ⟨hlost2, hdown2⟩ := linksLost_portLeaves (2 * p) (portLeaves (2 * p + 1) u)
    refine ⟨hlost1.trans hlost2, ?_⟩
    have hn : n = 2 * p ∨ n = 2 * p + 1 := by
      change n = 2 * (n / 2) ∨ n = 2 * (n / 2) + 1
      omega
    rcases hn with hn | hn
    · rw [hn]
      exact hdown2
    · rw [hn]
      exact hlost2.2.1 _ hdown1

/-- A NAK that acknowledges nothing, after two resends of the oldest flit, is a link fault. -/
theorem resendFrom_third {n ms : Nat} {ack : Byte} {s : State} (hup : (portOf s n).up = true) (habs : ∀ g ∈ (portOf s n).replay, g.seq ≠ ack)
    (hne : (portOf s n).replay ≠ []) (hk : 2 ≤ (portOf s n).resends) :
    ∃ t, resendFrom n ack.toNat ms s = t ∧ (pairOf t (portPair n)).linkFaults = stick32 ((pairOf s (portPair n)).linkFaults + 1) ∧
      (portOf t n).up = false ∧ EventLogged 10 s t := by
  set k := (portOf s n).resends + 1
  set u := countResend (portPair n) (updPort n (resent (portOf s n).replay k) s)
  have ht : resendFrom n ack.toNat ms s = faultLink (portPair n) ms u :=
    (resendFrom_eq ms (ackReplay_of_absent habs) hne (if_neg (Nat.lt_irrefl _))).trans (if_pos (by omega))
  have hkept : LinksKept s u := linksKept_updPair (f := fun x => { x with resends := stick32 (x.resends + 1) }) (fun _ => rfl) (fun _ => rfl) (fun _ => rfl)
    (linksKept_updPort (f := resent (portOf s n).replay k) (fun _ => rfl) (.refl s))
  obtain ⟨hfaults, hdown, hlogged⟩ := faultLink_shows ms ((hkept.up n).trans hup)
  exact ⟨_, ht, by rw [hfaults, hkept.linkFaults], hdown, eventLogged_of_logs hlogged rfl rfl⟩

end Sys2Proof.Machine
end

section
/-! SUPPORT. Proofs of the frame and timing statements (chapter 2): flits and discovery (O52). -/

namespace Sys2Proof.Machine
open Claims

theorem execNakReceived_up {n : Nat} (h : n < 32) {s : State} (hup : (portOf s n).up = true) (k : NakArrival) :
    exec (.nakReceived n k) s = .next (resendFrom n k.ack.toNat k.ms s) := by
  rw [execNakReceived_eq h, if_pos hup]

/-- A flit that is dropped, with its FEC symbols counted or not. -/
theorem flitIn_refused {n symbols ms : Nat} {image : List Byte} {s : State} (hup : (portOf s n).up = true)
    (hbad : 15 < symbols ∨ flitSound image = false ∨ (unnumbered (flitOf image) = false ∧ (flitOf image).seq.toNat ≠ ((portOf s n).rxSeq + 1) % 256)) :
    ∃ t l, flitIn n image symbols ms s = t ∧ OnlyPairChanges (portPair n) s t ∧
      (pairOf t (portPair n)).crcErrors = stick32 ((pairOf s (portPair n)).crcErrors + 1) ∧ (portOf t n).rxSeq = (portOf s n).rxSeq ∧
      (portOf t n).nakOut = true ∧ PortSends n l s t ∧ (∀ m, m ≠ n → portOf t m = portOf s m) ∧
      (if (portOf s n).nakOut then l = []
       else ∃ g k, l = g :: k ∧ g.typ = 0 ∧ g.nak = true ∧ g.ack = BitVec.ofNat 8 (portOf s n).rxSeq ∧ ∀ h ∈ k, h.nak = false) := by
  obtain ⟨u, hin, hchg, hport, hcrc⟩ : ∃ u, flitIn n image symbols ms s = dropFlit n u ∧ OnlyPairChanges (portPair n) s u ∧
      (∀ m, portOf u m = portOf s m) ∧ (pairOf u (portPair n)).crcErrors = (pairOf s (portPair n)).crcErrors := by
    rcases flitIn_dropped ms hup hbad with h | h
    · exact ⟨s, h, onlyPairChanges_refl _ _, fun _ => rfl, rfl⟩
    · exact ⟨_, h, onlyPairChanges_updPair _ _ s, (portOf_countFec n symbols · s), crcErrors_countFec n symbols s⟩
  obtain ⟨l, hrx, hnak, hsends, hl⟩ := dropFlit_refused (n := n) u
  unfold PortSends at hsends
  rw [hport] at hrx hsends hl
  exact ⟨_, l, hin, onlyPairChanges_trans hchg (onlyPairChanges_dropFlit n u), hcrc ▸ crcErrors_dropFlit n u, hrx, hnak, hsends,
    fun m hm => (portOf_dropFlit_ne hm u).trans (hport m), hl⟩

/-- A discovery that is complete changes the pair, the streams and the choice of the tick source, and no other pair. -/
theorem discoveryDone_shows {p : Nat} {members : List (Word64 × Nat)} {s : State} (closed : Bool)
    (hup : (pairOf s p).dn.up = true ∨ (pairOf s p).up.up = true) (hself : ∃ m ∈ members, m.1 = s.uid) (ht : s.red.tags = []) :
    ∃ t, discoveryDone p members closed s = t ∧ t = { s with ring := { s.ring with pairs := t.ring.pairs }, ctxs := t.ctxs, frame := t.frame } ∧
      pairOf t p = discovered s.uid members closed (pairOf s p) ∧ (∀ q, q ≠ p → pairOf t q = pairOf s q) ∧
      t.frame.masterRings = electedRings p (electMaster (fromLowest members) = s.uid) s.frame.masterRings ∧ t.frame.counter = s.frame.counter := by
  obtain ⟨c, hc⟩ := discoveryDone_eq closed hup hself ht
  set u : State := { memberSet p members closed s with ctxs := c }
  obtain ⟨hframe, hrings⟩ := chooseSource_onlyFrame u
  have hpair (q : Nat) : pairOf (chooseSource u) q = if q = p then discovered s.uid members closed (pairOf s p) else pairOf s q := by
    rw [hframe]
    exact pairOf_memberSet p q members closed s
  refine ⟨_, hc, ?_, (hpair p).trans (if_pos rfl), fun q hq => (hpair q).trans (if_neg hq), hrings, counter_chooseSource u⟩
  rw [hframe]
  rfl

/-- Settles O52: `flitIn` drops or takes a flit, `resendFrom` sends again or faults the link, `discoverIn` passes a DISCOVER on, and
`discoveryDone` orders the members and elects their master. -/
theorem flitsAndDiscovery : Obligations.FlitsAndDiscovery := by
  unfold Obligations.FlitsAndDiscovery
  refine ⟨fun n symbols ms image f s hn hup hsym hsound hf hnum hnak hseq => ?_, fun n symbols ms image s hn hup hbad => ?_,
    fun n ms ack s hn hup => ⟨fun a b f hr hf ha hb => ?_, fun habs hne hk => ?_⟩,
    fun n pri uid s hn => ⟨fun hu => ?_, fun hu hup hfar hd => ⟨fun hknown => ?_, fun hlist hnew => ?_⟩⟩,
    fun p members closed s hp hup hself ht => ?_⟩
  · rw [execFlitReceived_eq hn, flitIn_inOrder ms hup hsym hsound hf hnum hnak hseq]
    refine ⟨fun hd => ?_, fun hd hfar hdrain hwait hlater hcred hroom => ?_⟩
    · obtain ⟨t, l, g, ht, hrest⟩ := acceptFlit_here_acks (symbols := symbols) hd
      exact ⟨t, l, g, congrArg Host.Outcome.next ht, hrest⟩
    · obtain ⟨t, l, g, ht, hrest⟩ := acceptFlit_forward_sends (symbols := symbols) hnum hd hfar hdrain hwait hlater hcred hroom
      exact ⟨t, l, g, congrArg Host.Outcome.next ht, hrest⟩
  · obtain ⟨t, l, ht, hrest⟩ := flitIn_refused (ms := ms) hup hbad
    exact ⟨t, l, by rw [execFlitReceived_eq hn, ht], hrest⟩
  · obtain ⟨t, ht, hrest⟩ := resendFrom_first (ms := ms) hr hf ha hb
    exact ⟨t, by rw [execNakReceived_up hn hup, ht], hrest⟩
  · obtain ⟨t, ht, hrest⟩ := resendFrom_third (ms := ms) hup habs hne hk
    exact ⟨t, by rw [execNakReceived_up hn hup, ht], hrest⟩
  · have hown : discoverIn n uid pri s = s := if_pos (by simp [hu])
    rw [execDiscover_eq hn, hown]
  · obtain ⟨t, m, ht, hrest⟩ := discoverIn_known hu hup hfar hd hknown
    exact ⟨t, m, by rw [execDiscover_eq hn, ht], hrest⟩
  · obtain ⟨t, m, a, b, ht, hrest⟩ := discoverIn_unknown hu hup hfar hd hlist hnew
    exact ⟨t, m, a, b, by rw [execDiscover_eq hn, ht], hrest⟩
  · obtain ⟨t, hdone, heq, hpair, hother, hrings, hcounter⟩ := discoveryDone_shows closed hup hself ht
    obtain ⟨horder, hplace, hnone, hbest⟩ := discovered_shows closed (pairOf s p) hself
    refine ⟨t, by rw [execDiscoveryComplete_eq hp, hdone], heq, hother, ?_⟩
    rw [hpair]
    refine ⟨rfl, rfl, rfl, ?_, horder, hplace, hnone, hbest, fun q hq => ?_, hcounter⟩
    · change decide (32 < (fromLowest members).length) = _
      rw [length_fromLowest]
    · rw [hrings, getLsbD_electedRings hq]
      rfl

end Sys2Proof.Machine
end

section
/-! SUPPORT. Proofs of the matrix array statements (chapter 3): what a program fault does to its context (R137, R340, R497). -/

namespace Sys2Proof.Machine
open Claims

/-! ### Events stay in the log, or are counted as lost (R497, R498) -/

/-- What an entry says of its event: source, code and context. -/
def eventKind (e : LogEntry) : Nat × Nat × Nat := (e.source, e.code, e.ctx)

/-- The log has an entry of this kind, or has lost more events than `l`. -/
def HasEvent (kind : Nat × Nat × Nat) (l k : Logs) : Prop := (∃ e ∈ k.errors, eventKind e = kind) ∨ l.lost < k.lost

theorem eventKind_of_folds {d e : LogEntry} (h : logFolds d e = true) : eventKind d = eventKind e := by
  simp only [logFolds, Bool.and_eq_true, decide_eq_true_eq] at h
  obtain ⟨⟨⟨⟨⟨⟨hsource, hcode⟩, hctx⟩, -⟩, -⟩, -⟩, -⟩ := h
  simp [eventKind, hsource, hcode, hctx]

theorem hasEvent_logAdd (e : LogEntry) (l : Logs) : HasEvent (eventKind e) l (logAdd e l) := by
  unfold logAdd
  split
  · rename_i hany
    obtain ⟨d, hd, hfolds⟩ := List.any_eq_true.mp hany
    have hkind : eventKind d = eventKind e := eventKind_of_folds hfolds
    refine .inl ⟨_, List.mem_map.mpr ⟨d, hd, rfl⟩, ?_⟩
    rw [if_pos hfolds]
    exact hkind
  · split
    · exact .inr (Nat.lt_succ_self _)
    · exact .inl ⟨_, List.mem_append_right _ List.mem_cons_self, rfl⟩

/-- Every kind of event in the one log stands in the other too, which has lost no fewer. -/
def LogsKeep (l k : Logs) : Prop := (∀ e ∈ l.errors, ∃ d ∈ k.errors, eventKind d = eventKind e) ∧ l.lost ≤ k.lost

theorem LogsKeep.refl (l : Logs) : LogsKeep l l := ⟨fun e he => ⟨e, he, rfl⟩, le_rfl⟩

theorem LogsKeep.trans {l k j : Logs} (h : LogsKeep l k) (g : LogsKeep k j) : LogsKeep l j := by
  refine ⟨fun e he => ?_, h.2.trans g.2⟩
  obtain ⟨d, hd, hde⟩ := h.1 e he
  obtain ⟨c, hc, hcd⟩ := g.1 d hd
  exact ⟨c, hc, hcd.trans hde⟩

theorem logsKeep_logAdd (e : LogEntry) (l : Logs) : LogsKeep l (logAdd e l) := by
  unfold logAdd
  split
  · refine ⟨fun d hd => ⟨_, List.mem_map.mpr ⟨d, hd, rfl⟩, ?_⟩, le_rfl⟩
    split <;> rfl
  · split
    · exact ⟨fun d hd => ⟨d, hd, rfl⟩, Nat.le_succ _⟩
    · exact ⟨fun d hd => ⟨d, List.mem_append_left _ hd, rfl⟩, le_rfl⟩

theorem HasEvent.keep {kind : Nat × Nat × Nat} {l k j : Logs} (h : HasEvent kind l k) (g : LogsKeep k j) : HasEvent kind l j := by
  rcases h with ⟨e, he, hkind⟩ | hlost
  · obtain ⟨d, hd, hde⟩ := g.1 e he
    exact .inl ⟨d, hd, hde.trans hkind⟩
  · exact .inr (hlost.trans_le g.2)

theorem faultLogged_of_hasEvent {n cause : Nat} {s t : State} (h : HasEvent (1, cause, n) s.logs t.logs) : FaultLogged n cause s t := by
  refine h.imp (fun ⟨e, he, hkind⟩ => ⟨e, he, ?_⟩) id
  simpa [eventKind] using hkind

/-! ### What the end of work leaves: physical cores, the states of contexts, the log (R340) -/

/-- From `s` to `t` physical cores and the states of contexts stay, and the log keeps its events. -/
structure WorkEnds (s t : State) : Prop where
  phys : t.phys = s.phys
  ctxState : ∀ n, (ctxOf t n).state = (ctxOf s n).state
  logs : LogsKeep s.logs t.logs

theorem WorkEnds.refl (s : State) : WorkEnds s s := ⟨rfl, fun _ => rfl, .refl _⟩

theorem WorkEnds.trans {s t u : State} (h : WorkEnds s t) (g : WorkEnds t u) : WorkEnds s u :=
  ⟨g.phys.trans h.phys, fun n => (g.ctxState n).trans (h.ctxState n), h.logs.trans g.logs⟩

theorem WorkEnds.foldl {α : Type} {f : State → α → State} (h : ∀ s a, WorkEnds s (f s a)) (l : List α) (s : State) :
    WorkEnds s (l.foldl f s) := by
  induction l generalizing s with
  | nil => exact .refl s
  | cons a l ih => exact (h s a).trans (ih _)

/-- Physical cores, contexts and the log are as before. -/
theorem WorkEnds.of_eq {s t : State} (hphys : t.phys = s.phys) (hctxs : t.ctxs = s.ctxs) (hlogs : t.logs = s.logs) : WorkEnds s t :=
  ⟨hphys, fun n => by rw [ctxOf_congr hctxs], hlogs ▸ .refl _⟩

/-- Moving data and sending messages end no work. -/
theorem WorkEnds.of_transfers {s t : State} (h : besideTransfers t = besideTransfers s) : WorkEnds s t :=
  ⟨congrArg (fun v => v.1.phys) h, fun n => (congrArg Context.state (outline_of h n) :),
    (congrArg (fun v => v.1.logs) h : t.logs = s.logs) ▸ .refl _⟩

theorem WorkEnds.updCtx {f : Context → Context} {n : Nat} {s t : State} (g : WorkEnds s t) (h : ∀ c, (f c).state = c.state) :
    WorkEnds s (updCtx n f t) := by
  refine g.trans ⟨rfl, fun m => ?_, .refl _⟩
  by_cases hm : m = n
  · rw [hm, ctxOf_updCtx_self, h]
  · rw [ctxOf_updCtx_ne hm]

theorem workEnds_breakConns (n : Nat) (s : State) : WorkEnds s (breakConns n s) := by
  unfold breakConns
  refine .updCtx (.foldl (fun u e => ?_) _ s) fun _ => rfl
  exact .of_transfers (besideTransfers_sendTo _ _ _ _ u)

theorem workEnds_failTag (t cause : Nat) (s : State) : WorkEnds s (failTag t cause s) := by
  unfold failTag
  split
  · set k := updTag t (fun k => { k with state := .failed, cause := cause }) s
    have hmarked : WorkEnds s k := .of_eq rfl rfl rfl
    have htickets : WorkEnds s (endCtxTickets (tagOf s t).ctx (fun d => dDstKind d = 4 && dTag d = t) 2 k) := hmarked.updCtx fun _ => rfl
    exact htickets.trans ⟨rfl, fun _ => rfl, logsKeep_logAdd _ _⟩
  · exact .refl s

theorem workEnds_abandonTag (t cause : Nat) (s : State) : WorkEnds s (abandonTag t cause s) :=
  (workEnds_failTag t cause s).trans (.foldl (fun u _ => .of_transfers (besideTransfers_sendTo _ _ _ _ u)) _ _)

theorem workEnds_putStep (n : Nat) (st : Step) (s : State) : WorkEnds s (putStep n st s) := .updCtx (.refl s) fun _ => rfl

theorem workEnds_writeStep (n : Nat) (st : Step) (f30 : Bool) (s : State) : WorkEnds s (writeStep n st f30 s) :=
  .of_transfers (by simp [writeStep, onClusters, setFlag, t1Write])

theorem workEnds_voidStep (n cause : Nat) (st : Step) (s : State) : WorkEnds s (voidStep n cause st s) :=
  ((WorkEnds.foldl (fun u t => workEnds_abandonTag t cause u) _ s).trans (workEnds_putStep n _ _)).trans (workEnds_writeStep n _ true _)

theorem workEnds_dropPosts (n : Nat) (s : State) : WorkEnds s (dropPosts n s) := by
  have hneeds : WorkEnds s (updCtx n (fun c => { c with needs := [], clusters := mapVals (fun k => { k with posts := [] }) c.clusters }) s) :=
    .updCtx (.refl s) fun _ => rfl
  exact ⟨hneeds.phys, hneeds.ctxState, hneeds.logs⟩

theorem workEnds_faultCmd (cause r1 : Nat) (c : Cmd) (s : State) : WorkEnds s (faultCmd cause r1 c s) :=
  .of_eq (by simp [faultCmd]) (by simp [faultCmd]) (by simp [faultCmd])

/-! ### The commands that a fault ends -/

theorem completeWith_cmds (tag : Nat) (st : Status) (result : List (Nat × List Byte)) (s : State) :
    (completeWith tag st result s).host.cmds = s.host.cmds.filter (fun d => d.tag != tag) := by
  cases h : cmdOf s tag with
  | none =>
    have hgone : ∀ d ∈ s.host.cmds, (d.tag != tag) = true := by simpa [cmdOf] using h
    rw [completeWith, h, List.filter_eq_self.mpr hgone]
  | some c => rw [completeWith_eq h]

theorem foldl_faultCmd_cmds (cause r1 : Nat) (l : List Cmd) (s : State) :
    (l.foldl (fun s c => faultCmd cause r1 c s) s).host.cmds = s.host.cmds.filter (fun d => l.all (fun c => d.tag != c.tag)) := by
  induction l generalizing s with
  | nil => simp
  | cons c l ih => rw [List.foldl_cons, ih, faultCmd, completeWith_cmds, List.filter_filter]; simp [Bool.and_comm]

/-- The state after every outstanding command of the context has ended with CONTEXT_FAULT. -/
def commandsFaulted (n cause r1 : Nat) (s : State) : State := (s.host.cmds.filter (faultEnds n)).foldl (fun s c => faultCmd cause r1 c s) s

theorem workEnds_commandsFaulted (n cause r1 : Nat) (s : State) : WorkEnds s (commandsFaulted n cause r1 s) :=
  .foldl (fun u c => workEnds_faultCmd cause r1 c u) _ s

theorem faultEnds_commandsFaulted (n cause r1 : Nat) (s : State) : ∀ d ∈ (commandsFaulted n cause r1 s).host.cmds, faultEnds n d = false := by
  intro d hd
  rw [commandsFaulted, foldl_faultCmd_cmds, List.mem_filter, List.all_eq_true] at hd
  obtain ⟨hmem, hother⟩ := hd
  by_contra hends
  simpa using hother d (List.mem_filter.mpr ⟨hmem, by simpa using hends⟩)

/-! ### The context fault (R340) -/

/-- The state after the run's own work has ended: transfers, connections, steps and posts. -/
def runStopped (n : Nat) (s : State) : State :=
  let t := breakConns n (pauseCtx n s)
  dropPosts n ((ctxOf t n).steps.foldl (fun s st => voidStep n 11 st s) t)

/-- The state after the programs of its commands, its queries and its SCRATCH objects have gone too. -/
def workStopped (n : Nat) (s : State) : State :=
  dropScratch n (dropQueries (fun q => q.ctx = n)
    (dropPrograms (fun p => p.ctx = n && p.tag != 0 && (cmdOf (runStopped n s) p.tag).any (faultEnds n)) (runStopped n s)))

theorem workEnds_runStopped (n : Nat) (s : State) : WorkEnds s (runStopped n s) := by
  have hpause : WorkEnds s (pauseCtx n s) := .of_transfers (besideTransfers_pauseCtx n s)
  exact ((hpause.trans (workEnds_breakConns n _)).trans (.foldl (fun u st => workEnds_voidStep n 11 st u) _ _)).trans (workEnds_dropPosts n _)

/-- Programs, queries and SCRATCH objects are none of what `WorkEnds` speaks of. -/
theorem workEnds_drops (n : Nat) (pick : ProgOp → Bool) (query : Query → Bool) (s : State) :
    WorkEnds s (dropScratch n (dropQueries query (dropPrograms pick s))) := .of_eq rfl rfl rfl

theorem workEnds_workStopped (n : Nat) (s : State) : WorkEnds s (workStopped n s) :=
  (workEnds_runStopped n s).trans (workEnds_drops n _ _ _)

/-- What a fault leaves of a context. -/
def tornCtx (c : Context) : Context :=
  { wipedCtx c with state := if c.state = .destroying then .destroying else if isResident c then .teardown else c.state }

/-- The context is torn down, and its save area waits to be zeroed. -/
def contextTorn (n : Nat) (s : State) : State :=
  let t := updCtx n tornCtx s
  { t with swaps := t.swaps.filter (fun o => o.ctx != n) ++ [{ ctx := n, domain := 0, swapIn := false, wipe := true }] }

theorem ctxOf_contextTorn (n : Nat) (s : State) : ctxOf (contextTorn n s) n = tornCtx (ctxOf s n) := ctxOf_updCtx_self n tornCtx s

theorem tornCtx_state {c : Context} (h : c.state = .runnable) : (tornCtx c).state = .teardown := by simp [tornCtx, h, isResident]

theorem contextFault_eq {n : Nat} {s : State} (h : (ctxOf s n).state ≠ .free) (cause r1 : Nat) :
    contextFault n cause r1 s = contextTorn n (commandsFaulted n cause r1 (workStopped n s)) := by
  unfold contextFault contextTorn commandsFaulted workStopped runStopped
  rw [if_neg h]
  rfl

theorem contextFault_tearsDown {n : Nat} {s : State} (h : (ctxOf s n).state = .runnable) (cause r1 : Nat) :
    LogsKeep s.logs (contextFault n cause r1 s).logs ∧ (contextFault n cause r1 s).phys = s.phys ∧
      (ctxOf (contextFault n cause r1 s) n).run = none ∧ (ctxOf (contextFault n cause r1 s) n).prog = none ∧
      (ctxOf (contextFault n cause r1 s) n).state = .teardown ∧ ∀ d ∈ (contextFault n cause r1 s).host.cmds, faultEnds n d = false := by
  rw [contextFault_eq (by simp [h])]
  have hends := (workEnds_workStopped n s).trans (workEnds_commandsFaulted n cause r1 _)
  have hgone := faultEnds_commandsFaulted n cause r1 (workStopped n s)
  generalize commandsFaulted n cause r1 (workStopped n s) = u at hends hgone
  have hstate : (ctxOf u n).state = .runnable := (hends.ctxState n).trans h
  refine ⟨hends.logs, hends.phys, ?_⟩
  rw [ctxOf_contextTorn]
  exact ⟨rfl, rfl, tornCtx_state hstate, hgone⟩

/-- A program fault of a core whose context is RUNNABLE strikes the context; no physical core changes. -/
theorem coreFault_faults {c : CoreRef} {s : State} (h : (ctxOf s c.ctx).state = .runnable) (cause addr : Nat) :
    ContextFaulted c.ctx cause s (coreFault c cause addr s) ∧ (coreFault c cause addr s).phys = s.phys := by
  set l := logEvent 1 2 cause c.ctx (c.lcore % 65536 + (physOf s c).2 * 65536) addr (coreOf s c).pc 0 s
  have hentered : HasEvent (1, cause, c.ctx) s.logs l.logs := hasEvent_logAdd _ _
  obtain ⟨hlogs, hphys, htorn⟩ := contextFault_tearsDown (s := l) (n := c.ctx) h cause (c.lcore % 65536 + (coreOf s c).pc % 2048 * 65536)
  exact ⟨⟨faultLogged_of_hasEvent (hentered.keep hlogs), htorn⟩, hphys⟩

end Sys2Proof.Machine
end

section
/-! SUPPORT. Proofs of the matrix array statements (chapter 3): operands out of place (O11). -/

namespace Sys2Proof.Machine
open Claims

/-! ### The operand check (R76, R118) -/

theorem operandBad_misaligned {a n : Nat} (h : a % 32 ≠ 0) : operandBad a n = [(1, a)] := if_pos (by simpa using h)

theorem operandBad_beyond {a n : Nat} (h : a % 32 = 0) (hout : 0x20000 < a + n) : operandBad a n = [(2, a)] := by
  simp [operandBad, h, hout]

theorem operandBad_fits {a n : Nat} (h : OperandFits a n) : operandBad a n = [] := by
  obtain ⟨halign, hend⟩ := h
  simp [operandBad, halign, hend]

/-! ### The instructions whose first operand fails it -/

theorem runnable_of_issues {s : State} {c : CoreRef} {i : CoreInstr} (h : issues s c i = true) : (ctxOf s c.ctx).state = .runnable := by
  simp only [issues, fetches, coreRuns, Bool.and_eq_true, decide_eq_true_eq] at h
  tauto

theorem execLdl_misplaced {c : CoreRef} {q : BitVec 3} {g : BitVec 2} {st : Bool} {s : State} {cause : Nat} (hc : wfCore c = true)
    (hi : issues s c (.ldl q g st) = true) (hbad : operandBad (genAddr (coreOf s c) g) 32 = [(cause, genAddr (coreOf s c) g)]) :
    exec (.ldl c q g st) s = .next (coreFault c cause (genAddr (coreOf s c) g) s) := by
  change unitOp (wfCore c) (ldlCmd c q g st s) = _
  rw [unitOp_of hc, ldlCmd, onIssue_issues hi]
  dsimp only
  rw [hbad]
  rfl

theorem execStl_misplaced {c : CoreRef} {q : BitVec 3} {g : BitVec 2} {st : Bool} {s : State} {cause : Nat} (hc : wfCore c = true)
    (hi : issues s c (.stl q g st) = true) (hbad : operandBad (genAddr (coreOf s c) g) 32 = [(cause, genAddr (coreOf s c) g)]) :
    exec (.stl c q g st) s = .next (coreFault c cause (genAddr (coreOf s c) g) s) := by
  change unitOp (wfCore c) (stlCmd c q g st s) = _
  rw [unitOp_of hc, stlCmd, onIssue_issues hi]
  dsimp only
  rw [hbad]
  rfl

theorem execMma_eq {c : CoreRef} (hc : wfCore c = true) (acc : Bool) (f : MmaF) (s : State) :
    exec (if acc then .mmaAcc c f else .mma c f) s = .next (mmaCmd acc c f s) := by
  cases acc <;> exact unitOp_of hc _

/-- The first fault of the checks before the scoreboard strikes, where the queue has room. -/
theorem issueArray_faults {c : CoreRef} {s : State} (hq : (coreOf s c).queuedOp = none) (o : ArrayOp) (gens : List (BitVec 2)) (st : Bool)
    (cause addr : Nat) (rest : List (Nat × Nat)) (held : Bool) (late : List (Nat × Nat)) :
    issueArray c o gens st ((cause, addr) :: rest) held late s = coreFault c cause addr s := by
  simp [issueArray, hq, faultOr]

theorem execMma_misplaced {acc : Bool} {c : CoreRef} {f : MmaF} {s : State} {cause : Nat} (hc : wfCore c = true)
    (hi : issues s c (.mma acc f) = true) (hq : (coreOf s c).queuedOp = none)
    (hbad : operandBad (genAddr (coreOf s c) f.ga) (mmaALen f) = [(cause, genAddr (coreOf s c) f.ga)]) :
    exec (if acc then .mmaAcc c f else .mma c f) s = .next (coreFault c cause (genAddr (coreOf s c) f.ga) s) := by
  rw [execMma_eq hc, mmaCmd, onIssue_issues hi]
  dsimp only
  rw [hbad]
  exact congrArg _ (issueArray_faults hq _ _ _ _ _ _ _ _)

/-- Settles O11: the failed check of the first operand is a program fault of the core, and `coreFault_faults` says what that does. -/
theorem operandFaultsStopTheCore : Obligations.OperandFaultsStopTheCore := by
  have fault (c : CoreRef) (i : CoreInstr) (s : State) (hi : issues s c i = true) (cause addr : Nat) :
      ContextFaulted c.ctx cause s (coreFault c cause addr s) := (coreFault_faults (runnable_of_issues hi) cause addr).1
  refine ⟨fun c q g st s hc => ⟨fun hi => ⟨fun ha => ?_, fun ha hout => ?_⟩, fun hi => ⟨fun ha => ?_, fun ha hout => ?_⟩⟩,
    fun acc c f s hc hi hq => ⟨fun ha => ?_, fun ha hout => ?_⟩⟩
  · exact ⟨_, execLdl_misplaced hc hi (operandBad_misaligned ha), fault c _ s hi _ _⟩
  · exact ⟨_, execLdl_misplaced hc hi (operandBad_beyond ha hout), fault c _ s hi _ _⟩
  · exact ⟨_, execStl_misplaced hc hi (operandBad_misaligned ha), fault c _ s hi _ _⟩
  · exact ⟨_, execStl_misplaced hc hi (operandBad_beyond ha hout), fault c _ s hi _ _⟩
  · exact ⟨_, execMma_misplaced hc hi hq (operandBad_misaligned ha), fault c _ s hi _ _⟩
  · exact ⟨_, execMma_misplaced hc hi hq (operandBad_beyond ha hout), fault c _ s hi _ _⟩

end Sys2Proof.Machine
end

section
/-! SUPPORT. Proofs of the matrix array statements (chapter 3): array instructions enter the array (O12). -/

namespace Sys2Proof.Machine
open Claims

/-! ### Generators step (R118, R126) -/

theorem genOf_setGen (g h : BitVec 2) (v : Gen) (k : Core) : genOf (setGen g v k) h = if h = g then v else genOf k h := by
  rw [genOf, setGen, mapGet_mapSet, ← genOf]
  simp only [BitVec.toNat_inj]

/-- The core with the generators of a list stepped, one after another. -/
def stepEach (gs : List (BitVec 2)) (k : Core) : Core := gs.foldl (fun k g => setGen g (genStep (genOf k g)) k) k

theorem stepGens_eq (stepG : Bool) (gs : List (BitVec 2)) (k : Core) : stepGens stepG gs k = if stepG then stepEach gs.dedup k else k := rfl

theorem stepEach_onlyGens (gs : List (BitVec 2)) (k : Core) : stepEach gs k = { k with gens := (stepEach gs k).gens } := by
  induction gs generalizing k with
  | nil => rfl
  | cons g gs ih => exact ih (setGen g (genStep (genOf k g)) k)

theorem genOf_stepEach {gs : List (BitVec 2)} (h : gs.Nodup) (k : Core) (g : BitVec 2) :
    genOf (stepEach gs k) g = if g ∈ gs then genStep (genOf k g) else genOf k g := by
  induction gs generalizing k with
  | nil => simp [stepEach]
  | cons d gs ih =>
    obtain ⟨hd, hgs⟩ := List.nodup_cons.mp h
    change genOf (stepEach gs (setGen d (genStep (genOf k d)) k)) g = _
    rw [ih hgs, genOf_setGen]
    by_cases hg : g = d
    · subst hg; simp [hd]
    · simp [hg]

theorem stepGens_onlyGens (stepG : Bool) (gs : List (BitVec 2)) (k : Core) : stepGens stepG gs k = { k with gens := (stepGens stepG gs k).gens } := by
  rw [stepGens_eq]
  split
  · exact stepEach_onlyGens _ _
  · rfl

theorem generatorsStep_stepGens (stepG : Bool) (gs : List (BitVec 2)) (k : Core) : GeneratorsStep stepG gs k (stepGens stepG gs k) := by
  intro g
  rw [stepGens_eq]
  cases stepG
  · simp
  · simp [genOf_stepEach (List.nodup_dedup gs)]

/-! ### The array takes an instruction whose checks pass (R88, R90, R479) -/

theorem enqueue_eq {k : Core} (h : k.queuedOp = none) (starts : Bool) (o : ArrayOp) :
    enqueue starts o k = { k with
      streaming := if k.streaming = none ∧ starts = true then some { o with before := writingT0 k } else k.streaming
      queuedOp := if k.streaming = none ∧ starts = true then none else some { o with before := writingT0 k } } := by
  unfold enqueue
  by_cases hgo : k.streaming = none ∧ starts = true
  · simp [hgo, h]
  · simp [hgo]

theorem issueArray_enters {c : CoreRef} {s : State} (hpc : (coreOf s c).pc + 1 < codeLen s c) (hq : (coreOf s c).queuedOp = none) (o : ArrayOp)
    (gens : List (BitVec 2)) (st : Bool) : EntersTheArray c o gens st s (issueArray c o gens st [] false [] s) := by
  set k := stepGens st gens (coreOf s c) with hk
  have hframe : k = { coreOf s c with gens := k.gens } := stepGens_onlyGens st gens _
  set e := enqueue (s.power.duty != 0) o k with he
  have hissue : issueArray c o gens st [] false [] s = retire c e s := by simp [issueArray, hq, faultOr, ← hk, ← he]
  have hkq : k.queuedOp = none := by rw [hframe]; exact hq
  have hentered := enqueue_eq hkq (s.power.duty != 0) o
  rw [← he] at hentered
  have hepc : e.pc + 1 < codeLen s c := by rw [hentered, hframe]; exact hpc
  have hgens : e.gens = k.gens := by rw [hentered]
  rw [hissue]
  refine ⟨onlyCore_retire hepc, ?_, ?_⟩
  · rw [coreOf_retire_self hepc, hentered, hframe]
    simp [coreNext, writingT0]
  · rw [coreOf_retire_self hepc]
    intro g
    have hsame : genOf (coreNext e) g = genOf k g := by rw [genOf, genOf]; exact congrArg (fun m => mapGet {} m g.toNat) hgens
    rw [hsame]
    exact generatorsStep_stepGens st gens (coreOf s c) g

/-! ### The checks of each instruction (R86, R118, R126) -/

theorem tagBad_carried {k : Core} {fp : Bool} {bs : List Nat} (h : ∀ b ∈ bs, (tagsAhead k).contains b = fp) : tagBad k fp bs = [] := by
  refine if_neg ?_
  simpa using h

theorem mma_enters {acc : Bool} {c : CoreRef} {f : MmaF} {s : State} (hi : IssuesInside s c (.mma acc f)) (hq : (coreOf s c).queuedOp = none)
    (ha : OperandFits (genAddr (coreOf s c) f.ga) (mmaALen f)) (hb : OperandFits (genAddr (coreOf s c) f.gb) (mmaBLen f))
    (hacc : acc = true → (∀ b ∈ bankGroup f.bank f.cnt1, (tagsAhead (coreOf s c)).contains b = mmaFp f) ∧
      banksHeld (coreOf s c) false (bankGroup f.bank f.cnt1) = false)
    (hread : readsHeld s c { ins := .mma acc f, a := genAddr (coreOf s c) f.ga, b := genAddr (coreOf s c) f.gb } = false) :
    EntersTheArray c { ins := .mma acc f, a := genAddr (coreOf s c) f.ga, b := genAddr (coreOf s c) f.gb } [f.ga, f.gb] f.stepG s
      (mmaCmd acc c f s) := by
  obtain ⟨-, hissues, hpc⟩ := hi
  have htags : (if acc then tagBad (coreOf s c) (mmaFp f) (bankGroup f.bank f.cnt1) else []) = [] := by
    split
    · exact tagBad_carried (hacc ‹_›).1
    · rfl
  have hbanks : (acc && banksHeld (coreOf s c) false (bankGroup f.bank f.cnt1)) = false := by
    cases acc
    · rfl
    · exact (hacc rfl).2
  unfold bankGroup at htags hbanks
  rw [mmaCmd, onIssue_issues hissues]
  dsimp only
  rw [operandBad_fits ha, operandBad_fits hb, htags, hread, hbanks]
  exact issueArray_enters hpc hq _ _ _

theorem operandBad_when {p : Prop} [Decidable p] {a n : Nat} (h : p → OperandFits a n) :
    (if p then operandBad (if p then a else 0) n else []) = [] := by
  split
  · exact operandBad_fits (h ‹_›)
  · rfl

theorem ew_enters {op : EwOp} {c : CoreRef} {f : EwF} {s : State} (hi : IssuesInside s c (.ew op f)) (hq : (coreOf s c).queuedOp = none)
    (hfit : ElementwiseOperandsFit (coreOf s c) f) (hpal : ewPalBad (ctxOf s c.ctx).palette op f = [])
    (hread : readsHeld s c (elementwiseOp op (coreOf s c) f) = false) (hbanks : banksHeld (coreOf s c) true (ewBanks f) = false) :
    EntersTheArray c (elementwiseOp op (coreOf s c) f) (ewGens f) f.stepG s (ewCmd op c f s) := by
  obtain ⟨-, hissues, hpc⟩ := hi
  obtain ⟨h1, h2, hd, htags⟩ := hfit
  unfold elementwiseOp at hread
  rw [ewCmd, onIssue_issues hissues]
  dsimp only
  rw [operandBad_when h1, operandBad_when h2, operandBad_when hd, hpal, tagBad_carried htags, hread, hbanks]
  exact issueArray_enters hpc hq _ _ _

theorem chain_enters {c : CoreRef} {f : ChainF} {s : State} {ch : Chain} (hi : IssuesInside s c (.chain f)) (hq : (coreOf s c).queuedOp = none)
    (hch : (chainsOf s c)[f.chain.toNat]? = some ch) (hgens : ∀ g ∈ chainGens ch f, OperandFits (genAddr (coreOf s c) g) 0)
    (hops : ∀ r ∈ opReads (chainOp ch (coreOf s c) f) (chainsOf s c) ++ opWrites (chainOp ch (coreOf s c) f) (chainsOf s c), OperandFits r.1 r.2)
    (hpal : ∀ r ∈ chainPals ch f.last, palFmt (mapGet {} (ctxOf s c.ctx).palette r.2) = r.1)
    (hsource : ch.source ≠ 2 → (∀ b ∈ bankGroup f.bank f.cnt1, (tagsAhead (coreOf s c)).contains b = decide (ch.source = 1)) ∧
      banksHeld (coreOf s c) true (bankGroup f.bank f.cnt1) = false)
    (hread : readsHeld s c (chainOp ch (coreOf s c) f) = false) (hseq : seqBad (t0View s c) ch f = false) :
    EntersTheArray c (chainOp ch (coreOf s c) f) (chainGens ch f) f.stepG s (chainCmd c f s) := by
  obtain ⟨-, hissues, hpc⟩ := hi
  have hgensOk : (chainGens ch f).flatMap (fun g => operandBad (genAddr (coreOf s c) g) 0) = [] :=
    List.flatMap_eq_nil_iff.mpr fun g hg => operandBad_fits (hgens g hg)
  have hopsOk := List.flatMap_eq_nil_iff.mpr fun r hr => operandBad_fits (hops r hr)
  have hpalOk : ((chainPals ch f.last).any fun p => palFmt (mapGet {} (ctxOf s c.ctx).palette p.2) != p.1) = false := by
    rw [List.any_eq_false]
    exact fun r hr => by simpa using hpal r hr
  have htags : (if ch.source = 2 then [] else tagBad (coreOf s c) (decide (ch.source = 1)) (bankGroup f.bank f.cnt1)) = [] := by
    split
    · rfl
    · exact tagBad_carried (hsource ‹_›).1
  have hbanks : (ch.source != 2 && banksHeld (coreOf s c) true (bankGroup f.bank f.cnt1)) = false := by
    by_cases h2 : ch.source = 2
    · simp [h2]
    · simp [(hsource h2).2]
  unfold bankGroup at htags hbanks
  unfold chainOp at hopsOk hread
  rw [chainCmd, onIssue_issues hissues]
  dsimp only
  rw [hch]
  dsimp only
  rw [hgensOk, hopsOk, hpalOk, htags, hread, hbanks, hseq]
  exact issueArray_enters hpc hq _ _ _

theorem execElementwise_eq {c : CoreRef} (hc : wfCore c = true) (op : EwOp) (f : EwF) (s : State) :
    exec (elementwiseCommand op c f) s = .next (ewCmd op c f s) := by
  cases op <;> exact unitOp_of hc _

theorem execChain_eq {c : CoreRef} (hc : wfCore c = true) (f : ChainF) (s : State) : exec (.chain c f) s = .next (chainCmd c f s) := unitOp_of hc _

/-- Settles O12: with every check passed, `issueArray` retires the instruction into the array. -/
theorem arrayInstructionsEnterTheArray : Obligations.ArrayInstructionsEnterTheArray := by
  refine ⟨fun acc c f s hi hq ha hb hacc hread => ?_, fun op c f s hi hq hfit hpal hread hbanks => ?_,
    fun c f s ch hi hq hch hgens hops hpal hsource hread hseq => ?_⟩
  · exact ⟨_, execMma_eq hi.1 acc f s, mma_enters hi hq ha hb hacc hread⟩
  · exact ⟨_, execElementwise_eq hi.1 op f s, ew_enters hi hq hfit hpal hread hbanks⟩
  · exact ⟨_, execChain_eq hi.1 f s, chain_enters hi hq hch hgens hops hpal hsource hread hseq⟩

end Sys2Proof.Machine
end

section
/-! SUPPORT. Proofs of the matrix array statements (chapter 3): what an integer MMA computes (R70, R78, R79, R85). -/

namespace Sys2Proof.Machine
open Claims

/-! ### Banks and their tags -/

theorem mapGet_writeBanks (b : SMap Word32) (i w : Nat) (ws : List Word32) :
    mapGet 0 (writeBanks b i ws) w = if i ≤ w ∧ w < i + ws.length then ws.getD (w - i) 0 else mapGet 0 b w := by
  induction ws generalizing b i with
  | nil => exact (if_neg (by simp)).symm
  | cons v ws ih =>
    rw [writeBanks, ih, mapGet_mapSet, List.length_cons]
    rcases lt_trichotomy w i with hw | hw | hw
    · rw [if_neg (by omega), if_neg (by omega), if_neg (by omega)]
    · rw [if_neg (by omega), if_pos hw, if_pos (by omega), hw, Nat.sub_self, List.getD_cons_zero]
    · obtain ⟨j, rfl⟩ := Nat.exists_eq_add_of_lt hw
      rw [if_neg (by omega : ¬ i + j + 1 = i), show i + j + 1 - i = j + 1 by omega, show i + j + 1 - (i + 1) = j by omega, List.getD_cons_succ]
      exact if_congr (by omega) rfl rfl

theorem mem_setDel {k b : Nat} {l : List Nat} : b ∈ setDel k l ↔ b ∈ l ∧ b ≠ k := by simp [setDel]

theorem tagBanks_int_succ (tags : List Nat) (lo n : Nat) : tagBanks false tags lo (n + 1) = setDel (lo + n) (tagBanks false tags lo n) := by
  simp [tagBanks, List.range_succ]

theorem notMem_tagBanks_int {lo n i : Nat} (h : i < n) (tags : List Nat) : lo + i ∉ tagBanks false tags lo n := by
  induction n with
  | zero => omega
  | succ n ih =>
    rw [tagBanks_int_succ, mem_setDel]
    rintro ⟨hmem, hne⟩
    exact ih (by omega) hmem

/-! ### The sum of an element (R70) -/

theorem foldl_add_eq_sum (g : Nat → Int) (n : Nat) : (List.range n).foldl (fun s k => s + g k) 0 = ∑ k ∈ Finset.range n, g k := by
  induction n with
  | zero => rfl
  | succ n ih => rw [List.range_succ, List.foldl_append, ih, Finset.sum_range_succ]; rfl

theorem mmaWord_int {f : MmaF} (hf : mmaFp f = false) (v : Store) (a b : Nat) (acc : Bool) (old : Word32) (m n : Nat) :
    mmaWord v f a b acc old m n = BitVec.ofInt 32 ((if acc then old.toInt else 0) +
      ∑ k ∈ Finset.range (f.k1.toNat + 1), codeInt (mmaAFmt f) (mmaA v f a m k) * codeInt (mmaBFmt f) (mmaB v f b k n)) := by
  rw [mmaWord, if_neg (by simp [hf]), mmaIntSum, foldl_add_eq_sum, BitVec.ofInt_add]
  cases acc
  · simp
  · simp [BitVec.ofInt_toInt]

/-! ### The tile (R78, R79, R85) -/

section
variable (acc : Bool) (f : MmaF) (a b : Nat) (r : Arr)

/-- The words of the tile, row by row. -/
def mmaWords : List Word32 :=
  (List.range ((f.m1.toNat + 1) * (f.n1.toNat + 1))).map
    (fun i => mmaWord r.view f a b acc (bankWord r (f.bank.toNat * 1024 + i)) (i / (f.n1.toNat + 1)) (i % (f.n1.toNat + 1)))

theorem banks_runMma : (runMma acc f a b r).banks = writeBanks r.banks (f.bank.toNat * 1024) (mmaWords acc f a b r) := rfl

theorem length_mmaWords : (mmaWords acc f a b r).length = (f.m1.toNat + 1) * (f.n1.toNat + 1) := by simp [mmaWords]

theorem runMma_inside {m n : Nat} (hm : m ≤ f.m1.toNat) (hn : n ≤ f.n1.toNat) :
    mapGet 0 (runMma acc f a b r).banks (f.bank.toNat * 1024 + m * (f.n1.toNat + 1) + n) =
      mmaWord r.view f a b acc (mapGet 0 r.banks (f.bank.toNat * 1024 + m * (f.n1.toNat + 1) + n)) m n := by
  have hcount : m * (f.n1.toNat + 1) + n < (f.m1.toNat + 1) * (f.n1.toNat + 1) := by
    have hrows : (m + 1) * (f.n1.toNat + 1) ≤ (f.m1.toNat + 1) * (f.n1.toNat + 1) := Nat.mul_le_mul_right _ (Nat.succ_le_succ hm)
    rw [Nat.add_one_mul] at hrows
    omega
  have hrow : (m * (f.n1.toNat + 1) + n) / (f.n1.toNat + 1) = m := by
    rw [Nat.mul_comm, Nat.mul_add_div (Nat.succ_pos _), Nat.div_eq_of_lt (by omega), Nat.add_zero]
  have hcol : (m * (f.n1.toNat + 1) + n) % (f.n1.toNat + 1) = n := by
    rw [Nat.mul_comm, Nat.mul_add_mod, Nat.mod_eq_of_lt (by omega)]
  rw [banks_runMma, mapGet_writeBanks, length_mmaWords, Nat.add_assoc, if_pos (by omega), Nat.add_sub_cancel_left, mmaWords,
    List.getD_eq_getElem _ _ (by simpa using hcount), List.getElem_map, List.getElem_range, hrow, hcol]
  rfl

theorem runMma_outside {w : Nat} (h : w < f.bank.toNat * 1024 ∨ f.bank.toNat * 1024 + (f.m1.toNat + 1) * (f.n1.toNat + 1) ≤ w) :
    mapGet 0 (runMma acc f a b r).banks w = mapGet 0 r.banks w := by
  rw [banks_runMma, mapGet_writeBanks, length_mmaWords]
  exact if_neg (by omega)

theorem runMma_tags (hf : mmaFp f = false) {i : Nat} (hi : i ∈ bankGroup f.bank f.cnt1) : (runMma false f a b r).fpTags.contains i = false := by
  obtain ⟨j, hj, rfl⟩ := List.mem_map.mp hi
  change (tagBanks (mmaFp f) r.fpTags f.bank.toNat (f.cnt1.toNat + 1)).contains _ = false
  rw [hf]
  simpa using notMem_tagBanks_int (List.mem_range.mp hj) r.fpTags

end

end Sys2Proof.Machine
end

section
/-! SUPPORT. Proofs of the matrix array statements (chapter 3): results land (O13). -/

namespace Sys2Proof.Machine
open Claims

/-! ### The streaming instruction meets nothing (R304, R308) -/

theorem meetT0_sound {s : State} {c : CoreRef} {a n : Nat} (h : T0Sound s c a n) (req : Nat) : meetT0 req c a n s = s := by
  unfold T0Sound at h
  simp [meetT0, h]

theorem meetOp_sound {s : State} {c : CoreRef} {o : ArrayOp} (h : ∀ r ∈ opReads o (chainsOf s c), T0Sound s c r.1 r.2) : meetOp c o s = s := by
  unfold meetOp
  generalize opReads o (chainsOf s c) = l at h
  induction l with
  | nil => rfl
  | cons r l ih => rw [List.foldl_cons, meetT0_sound (h r List.mem_cons_self), ih fun q hq => h q (List.mem_cons_of_mem _ hq)]

theorem landArray_sound {s : State} {c : CoreRef} {o : ArrayOp} (ho : (coreOf s c).streaming = some o) (h : OperandsSound s c o) :
    landArray c false s = landOp s c o := by
  obtain ⟨hwords, hpoison, hbanks⟩ := h
  simp [landArray, ho, meetOp_sound hwords, hpoison, hbanks]

/-- The core is offline (R97). -/
def coreOffline (c : CoreRef) (s : State) : State :=
  { s with phys := mapPut ((physOf s c).1 * 100 + (physOf s c).2) { physCore s c with offline := true } s.phys }

theorem landArray_residue {s : State} {c : CoreRef} {o : ArrayOp} (ho : (coreOf s c).streaming = some o) :
    landArray c true s = coreFault c 4 0 (coreOffline c s) := by
  simp [landArray, ho, coreOffline]

theorem execArrayResultLanded_eq {c : CoreRef} (hc : wfCore c = true) (residueFail : Bool) (s : State) :
    exec (.arrayResultLanded c residueFail) s = .next (landArray c residueFail s) := unitOp_of hc _

/-! ### What landing changes (R80, R88) -/

theorem coreOf_updCtx {f : Context → Context} {n : Nat} {s : State} {r : CoreRef} (hcores : ∀ x, (f x).cores = x.cores)
    (hsketch : ∀ x, (f x).sketchCores = x.sketchCores) : coreOf (updCtx n f s) r = coreOf s r := by
  unfold coreOf
  by_cases hn : r.ctx = n
  · rw [hn, ctxOf_updCtx_self, hcores, hsketch]
  · rw [ctxOf_updCtx_ne hn]

theorem coreOf_countFor (n : Nat) (k : Count) (s : State) (r : CoreRef) : coreOf (countFor n k s) r = coreOf s r := by
  unfold countFor
  rw [coreOf_updCtx]
  · rfl
  · intro; rfl
  · intro; rfl

theorem ctxOf_countFor_ne {n m : Nat} (h : m ≠ n) (k : Count) (s : State) : ctxOf (countFor n k s) m = ctxOf s m :=
  ctxOf_updCtx_ne h _ _

section
variable (s : State) (c : CoreRef) (o : ArrayOp)

/-- What the array has computed when `o` ends. -/
def landed : Arr := computeOp s c o (arrOf s c o)

/-- The core with the results, the queued instruction streaming where it may start. -/
def landedCore (k : Core) : Core :=
  { k with t0 := (landed s c o).t0, banks := (landed s c o).banks, fpTags := (landed s c o).fpTags, rng := (landed s c o).acc.rng
           bankRaw := rawAfter (opBankResults o) k.bankRaw
           streaming := if arrayGoes s c.ctx then k.queuedOp else none
           queuedOp := if arrayGoes s c.ctx then none else k.queuedOp }

theorem landOp_eq : landOp s c o =
    countFor c.ctx { saturated := (landed s c o).acc.sat, nanQuant := (landed s c o).acc.nan, constCh := (landed s c o).acc.const }
      (updCtx c.ctx (fun x => { x with palette := (landed s c o).acc.pal }) (updCore c (landedCore s c o) (bump s))) := rfl

theorem coreOf_landOp (r : CoreRef) : coreOf (landOp s c o) r = coreOf (updCore c (landedCore s c o) (bump s)) r := by
  rw [landOp_eq, coreOf_countFor, coreOf_updCtx]
  · intro; rfl
  · intro; rfl

theorem coreOf_landOp_self : coreOf (landOp s c o) c = landedCore s c o (coreOf s c) := by
  rw [coreOf_landOp, coreOf_updCore_self]
  rfl

theorem coreOf_landOp_ne {r : CoreRef} (h : r ≠ c) : coreOf (landOp s c o) r = coreOf s r := by
  rw [coreOf_landOp, coreOf_updCore_ne h]
  rfl

theorem ctxOf_landOp_ne {n : Nat} (h : n ≠ c.ctx) : ctxOf (landOp s c o) n = ctxOf s n := by
  rw [landOp_eq, ctxOf_countFor_ne h, ctxOf_updCtx_ne h]
  exact ctxOf_setCore_ne h _ _

theorem landOp_beside : landOp s c o = { s with ctxs := (landOp s c o).ctxs, logs := (landOp s c o).logs, nonce := s.nonce + 1 } := rfl

theorem arrayGoes_iff (n : Nat) : arrayGoes s n = true ↔ (ctxOf s n).inSlice = true ∧ s.power.duty ≠ 0 := by simp [arrayGoes]

end

/-- Settles O13: a sound MMA lands by `landOp`, whose banks are those of `runMma`; a failed residue check is a fault of the core. -/
theorem integerMmaLands : Obligations.IntegerMmaLands := by
  refine ⟨fun acc c f a b w s hc ho hf hsound => ?_, fun c o s hc ho hrun => ?_⟩
  · set o : ArrayOp := { ins := .mma acc f, a := a, b := b, before := w }
    have hself := coreOf_landOp_self s c o
    have hbanks : (coreOf (landOp s c o) c).banks = (runMma acc f a b (arrOf s c o)).banks := by rw [hself]; rfl
    have htags : (coreOf (landOp s c o) c).fpTags = (runMma acc f a b (arrOf s c o)).fpTags := by rw [hself]; rfl
    refine ⟨landOp s c o, by rw [execArrayResultLanded_eq hc, landArray_sound ho hsound], landOp_beside s c o,
      fun n hn => ctxOf_landOp_ne s c o hn, fun r hr => coreOf_landOp_ne s c o hr, ?_, fun m n hm hn => ?_, fun w hw => ?_, fun hacc i hi => ?_⟩
    · simp only [← arrayGoes_iff]
      rw [hself]
      rfl
    · rw [hbanks, runMma_inside acc f a b _ hm hn, mmaWord_int hf]
      rfl
    · rw [hbanks, runMma_outside acc f a b _ hw]
      rfl
    · rw [htags, hacc]
      exact runMma_tags f a b _ hf hi
  · obtain ⟨hfaulted, hphys⟩ := coreFault_faults (c := c) (s := coreOffline c s) hrun 4 0
    refine ⟨_, by rw [execArrayResultLanded_eq hc, landArray_residue ho], hfaulted, ?_⟩
    rw [hphys]
    simp [mapGet, coreOffline]

end Sys2Proof.Machine
end

section
/-! SUPPORT. Proofs of the core program statements (chapter 4): scalar instructions and special registers (O2, O3). -/

namespace Sys2Proof.Machine
open Claims

/-! ### Results over the integers (R115, Table 4-7) -/

theorem ite_slt_eq_ofInt_min (a b : Word64) : (if a.slt b then a else b) = BitVec.ofInt 64 (min a.toInt b.toInt) := by
  rcases lt_or_ge a.toInt b.toInt with h | h
  · rw [if_pos (BitVec.slt_iff_toInt_lt.mpr h), min_eq_left h.le, BitVec.ofInt_toInt]
  · rw [if_neg (by simpa [BitVec.slt_iff_toInt_lt] using h), min_eq_right h, BitVec.ofInt_toInt]

theorem ite_slt_eq_ofInt_max (a b : Word64) : (if a.slt b then b else a) = BitVec.ofInt 64 (max a.toInt b.toInt) := by
  rcases lt_or_ge a.toInt b.toInt with h | h
  · rw [if_pos (BitVec.slt_iff_toInt_lt.mpr h), max_eq_right h.le, BitVec.ofInt_toInt]
  · rw [if_neg (by simpa [BitVec.slt_iff_toInt_lt] using h), max_eq_left h, BitVec.ofInt_toInt]

theorem aluEval_eq (op : AluOp) (a b : Word64) : aluEval op a b = scalarResult op a b := by
  cases op with
  | add => exact (by rw [BitVec.ofNat_add]; simp : a + b = BitVec.ofNat 64 (a.toNat + b.toNat))
  | sub => exact BitVec.eq_of_toInt_eq (by simp [aluEval, scalarResult, BitVec.toInt_sub])
  | and => exact BitVec.eq_of_toNat_eq (by simp [aluEval, scalarResult, ← BitVec.toNat_and])
  | or => exact BitVec.eq_of_toNat_eq (by simp [aluEval, scalarResult, ← BitVec.toNat_or])
  | xor => exact BitVec.eq_of_toNat_eq (by simp [aluEval, scalarResult, ← BitVec.toNat_xor])
  | shl => exact BitVec.eq_of_toNat_eq (by simp [aluEval, scalarResult, Nat.shiftLeft_eq])
  | shr => simp only [aluEval, scalarResult, ← Nat.shiftRight_eq_div_pow, ← BitVec.toNat_ushiftRight, BitVec.ofNat_toNat, BitVec.setWidth_eq]
  | sra =>
    have hint : (a.sshiftRight (b.toNat % 64)).toInt = a.toInt / 2 ^ (b.toNat % 64) := by
      rw [BitVec.toInt_sshiftRight, Int.shiftRight_eq_div_pow]; norm_cast
    simp only [aluEval, scalarResult, ← hint, BitVec.ofInt_toInt]
  | mul => exact (by rw [BitVec.ofNat_mul]; simp : a * b = BitVec.ofNat 64 (a.toNat * b.toNat))
  | min => exact ite_slt_eq_ofInt_min a b
  | max => exact ite_slt_eq_ofInt_max a b
  | slt => simp [aluEval, scalarResult, boolWord, BitVec.slt_iff_toInt_lt]
  | sltu => simp [aluEval, scalarResult, boolWord, BitVec.ult_iff_toNat_lt]

theorem sx_mod_64 (imm : Word32) : (sx imm).toNat % 64 = imm.toNat % 64 := by
  rw [sx, BitVec.toNat_signExtend, BitVec.toNat_setWidth]; split <;> omega

/-- LUI puts IMM above the low half of the register. -/
theorem lui_eq (a : Word64) (imm : Word32) :
    (imm.setWidth 64 <<< 32) ||| (a &&& 0xFFFFFFFF) = BitVec.ofNat 64 (imm.toNat * 2 ^ 32 + a.toNat % 2 ^ 32) := by
  have himm := imm.isLt
  have hhigh : (imm.setWidth 64 <<< 32).toNat = 2 ^ 32 * imm.toNat := by
    rw [BitVec.toNat_shiftLeft, Nat.shiftLeft_eq, BitVec.toNat_setWidth]; omega
  have hlow : (a &&& 0xFFFFFFFF).toNat = a.toNat % 2 ^ 32 := by
    rw [BitVec.toNat_and]; exact Nat.and_two_pow_sub_one_eq_mod _ 32
  refine BitVec.eq_of_toNat_eq ?_
  rw [BitVec.toNat_or, hhigh, hlow, ← Nat.two_pow_add_eq_or_of_lt (Nat.mod_lt _ (by norm_num)), BitVec.toNat_ofNat]
  omega

/-- An immediate function is the scalar one on IMM sign-extended; a shift takes the same low six bits from both. -/
theorem aluIEval_eq (op : AluIOp) (a : Word64) (imm : Word32) : aluIEval op a imm = immediateResult op a imm := by
  have hshift := sx_mod_64 imm
  cases op with
  | addi => exact aluEval_eq .add a (sx imm)
  | andi => exact aluEval_eq .and a (sx imm)
  | ori => exact aluEval_eq .or a (sx imm)
  | xori => exact aluEval_eq .xor a (sx imm)
  | shli => exact (congrArg (a <<< ·) hshift.symm).trans (aluEval_eq .shl a (sx imm))
  | shri => exact (congrArg (a >>> ·) hshift.symm).trans (aluEval_eq .shr a (sx imm))
  | srai => exact (congrArg a.sshiftRight hshift.symm).trans (aluEval_eq .sra a (sx imm))
  | lui => exact lui_eq a imm
  | slti => exact aluEval_eq .slt a (sx imm)
  | sltui => exact aluEval_eq .sltu a (sx imm)

/-! ### Scalar instructions -/

theorem execScalar_eq {c : CoreRef} (hc : wfCore c = true) (op : AluOp) (rd rs1 rs2 : BitVec 5) (s : State) :
    exec (scalarCommand op c rd rs1 rs2) s = .next (aluCmd op c rd rs1 rs2 s) := by
  cases op <;> exact unitOp_of hc _

theorem execImmediate_eq {c : CoreRef} (hc : wfCore c = true) (op : AluIOp) (rd rs1 : BitVec 5) (imm : Word32) (s : State) :
    exec (immediateCommand op c rd rs1 imm) s = .next (aluICmd op c rd rs1 imm s) := by
  cases op <;> exact unitOp_of hc _

/-- Settles O2: every scalar instruction is a `regOp` whose value is the function of Table 4-7. -/
theorem scalarInstructionWritesItsResult : Obligations.ScalarInstructionWritesItsResult := by
  refine ⟨fun op c rd rs1 rs2 s hi => ?_, fun op c rd rs1 imm s hi => ?_, fun c rd imm s hi => ?_⟩
  · refine ⟨_, execScalar_eq hi.1 op rd rs1 rs2 s, ?_⟩
    rw [← aluEval_eq]
    exact regOp_writes hi rd fun _ k => aluEval op (readReg k rs1) (readReg k rs2)
  · refine ⟨_, execImmediate_eq hi.1 op rd rs1 imm s, ?_⟩
    rw [← aluIEval_eq]
    exact regOp_writes hi rd fun _ k => aluIEval op (readReg k rs1) imm
  · exact ⟨_, unitOp_of hi.1 _, regOp_writes hi rd fun _ _ => sx imm⟩

/-! ### CYCLES (Table 4-23, R139) -/

/-- MFS of s5 leaves in the core the count of cycles that it read, which is above the one read before. -/
theorem cycles_mfs {c : CoreRef} {rd : BitVec 5} {s t : State} (hi : IssuesInside s c (.mfs rd 5)) (ht : exec (.mfs c rd 5) s = .next t) :
    (coreOf s c).cycles < (coreOf t c).cycles := by
  obtain ⟨hc, hissues, hpc⟩ := hi
  set k : Core := { coreOf s c with cycles := cyclesNow s (coreOf s c) } with hk
  have hin : (writeReg rd (specialReg s c 5) k).pc + 1 < codeLen s c := by rw [writeReg_pc]; exact hpc
  have hexec : exec (.mfs c rd 5) s = .next (bump (retire c (writeReg rd (specialReg s c 5) k) s)) :=
    (unitOp_of hc _).trans (by rw [onIssue_issues hissues]; rfl)
  obtain rfl : bump (retire c (writeReg rd (specialReg s c 5) k) s) = t := by
    rw [hexec] at ht
    exact Host.Outcome.next.inj ht
  have hcore : coreOf (bump (retire c (writeReg rd (specialReg s c 5) k) s)) c = coreNext (writeReg rd (specialReg s c 5) k) := coreOf_retire_self hin
  rw [hcore, writeReg_frame]
  change (coreOf s c).cycles < cyclesNow s (coreOf s c)
  unfold cyclesNow
  omega

/-- Context 1 runs MFS g3, s5 on its one core. -/
def readingCycles : State :=
  { State.reset with
    power := { d1 := true, compute := [(5, .on)] }
    ctxs := [(1, { state := .runnable, inSlice := true, alloc := [5], run := some { kind := .batch }, cores := [(0, { phase := .running })]
                   prog := some { code := [0x14031E, 0], entry := 0, clusters := 1, cores := 1, slots := [], chains := [], streams := []
                                  reduction := false, data := [], dataAddr := 0 } })] }

theorem readingCycles_issues : IssuesInside readingCycles { ctx := 1, sketch := false, lcore := 0 } (.mfs 3 5) := by
  unfold IssuesInside; decide +kernel

/-- Refutes O3: MFS of s5 keeps the count it has read in the core's `cycles`, so that more than RD changes. -/
theorem not_mfsAndMfaReadTheirRegisters : ¬ Obligations.MfsAndMfaReadTheirRegisters := by
  rintro ⟨hmfs, -⟩
  obtain ⟨p, hp⟩ : ∃ p, progOf (ctxOf readingCycles 1) false = some p := ⟨_, rfl⟩
  obtain ⟨u, hu⟩ : ∃ u, (ctxOf readingCycles 1).run = some u := ⟨_, rfl⟩
  obtain ⟨t, v, ht, ⟨-, hcore, -⟩, -⟩ := hmfs _ 3 5 readingCycles p u readingCycles_issues hp hu
  have hcycles := cycles_mfs readingCycles_issues ht
  rw [hcore] at hcycles
  exact lt_irrefl _ hcycles

end Sys2Proof.Machine
end

section
/-! SUPPORT. Proofs of the core program statements (chapter 4): how a core goes on, stops or rests (O5, O6, O9). -/

namespace Sys2Proof.Machine
open Claims

/-! ### Retirement (R113, R116) -/

/-- An instruction that retires inside the image leaves its core as `k`, at the next instruction, and touches nothing else. -/
theorem retire_leaves {c : CoreRef} {k : Core} {s : State} (h : k.pc + 1 < codeLen s c) :
    OnlyCoreChanges c s (retire c k s) ∧ coreOf (retire c k s) c = coreNext k := ⟨onlyCore_retire h, coreOf_retire_self h⟩

/-- A program fault strikes the context whatever the core has just written to itself. -/
theorem coreFault_setCore_faults {c : CoreRef} {s : State} (h : (ctxOf s c.ctx).state = .runnable) (k : Core) (cause addr : Nat) :
    ContextFaulted c.ctx cause s (coreFault c cause addr (setCore c k s)) := by
  have hstate : (ctxOf (setCore c k s) c.ctx).state = .runnable := by rw [ctxOf_setCore_self]; exact h
  exact (coreFault_faults hstate cause addr).1

/-- Execution past the last instruction is PC_RANGE (R116). -/
theorem retire_outside_faults {c : CoreRef} {s : State} (h : (ctxOf s c.ctx).state = .runnable) (hpc : codeLen s c ≤ (coreOf s c).pc + 1) :
    ContextFaulted c.ctx 5 s (retire c (coreOf s c) s) := by
  have hstate : (ctxOf (setCore c (coreOf s c) s) c.ctx).state = .runnable := by rw [ctxOf_setCore_self]; exact h
  rw [retire, goPc_outside (by simpa using hpc)]
  exact coreFault_setCore_faults hstate _ 5 0

/-! ### STACK and PC_RANGE (R116) -/

theorem execNop_eq {c : CoreRef} {s : State} (hc : wfCore c = true) (hi : issues s c .nop = true) :
    exec (.nop c) s = .next (retire c (coreOf s c) s) := (unitOp_of hc _).trans (congrArg _ (onIssue_issues hi _))

theorem execCall_full {c : CoreRef} {tgt : Word32} {s : State} (hc : wfCore c = true) (hi : issues s c (.call tgt) = true)
    (h : 8 ≤ (coreOf s c).stack.length) : exec (.call c tgt) s = .next (coreFault c 6 0 s) :=
  (unitOp_of hc _).trans (by rw [onIssue_issues hi]; exact congrArg _ (if_pos h))

theorem execRet_empty {c : CoreRef} {s : State} (hc : wfCore c = true) (hi : issues s c .ret = true) (h : (coreOf s c).stack = []) :
    exec (.ret c) s = .next (coreFault c 6 0 s) :=
  (unitOp_of hc _).trans (by rw [onIssue_issues hi]; dsimp only; rw [h])

theorem execJr_outside {c : CoreRef} {rs1 : BitVec 5} {s : State} (hc : wfCore c = true) (hi : issues s c (.jr rs1) = true)
    (h : codeLen s c ≤ (readReg (coreOf s c) rs1).toNat) : exec (.jr c rs1) s = .next (coreFault c 5 0 s) :=
  (unitOp_of hc _).trans (by rw [onIssue_issues hi]; exact congrArg _ (if_pos h))

/-- Settles O5: each case is a program fault of the core, and `coreFault_faults` says what that does. -/
theorem stackAndPcRangeFault : Obligations.StackAndPcRangeFault := by
  have fault {c : CoreRef} {i : CoreInstr} {s : State} (hi : issues s c i = true) (cause : Nat) :
      ContextFaulted c.ctx cause s (coreFault c cause 0 s) := (coreFault_faults (runnable_of_issues hi) cause 0).1
  refine ⟨fun c tgt s hc hi h => ?_, fun c s hc hi h => ?_, fun c rs1 s hc hi h => ?_, fun c s hc hi h => ?_⟩
  · exact ⟨_, execCall_full hc hi h, fault hi 6⟩
  · exact ⟨_, execRet_empty hc hi h, fault hi 6⟩
  · exact ⟨_, execJr_outside hc hi h, fault hi 5⟩
  · exact ⟨_, execNop_eq hc hi, retire_outside_faults (runnable_of_issues hi) h⟩

/-! ### SETA (R117) -/

/-- `genSet` writes the field that FIELD names and restarts the generator. -/
theorem genSet_restarts {field : BitVec 3} (h : field.toNat ≤ 4) (v : Word64) (a : Gen) :
    (genSet field v a).addr = (genSet field v a).base ∧ (genSet field v a).i0 = 0 ∧ (genSet field v a).i1 = 0 ∧
      (genSet field v a).base = (if field = 0 then BitVec.ofNat 32 v.toNat else a.base) ∧
      (genSet field v a).inc0 = (if field = 1 then BitVec.ofNat 32 v.toNat else a.inc0) ∧
      (genSet field v a).cnt0 = (if field = 2 then BitVec.ofNat 16 v.toNat else a.cnt0) ∧
      (genSet field v a).inc1 = (if field = 3 then BitVec.ofNat 32 v.toNat else a.inc1) ∧
      (genSet field v a).cnt1 = (if field = 4 then BitVec.ofNat 16 v.toNat else a.cnt1) := by
  obtain rfl | rfl | rfl | rfl | rfl : field = 0 ∨ field = 1 ∨ field = 2 ∨ field = 3 ∨ field = 4 := by
    revert h; revert field; decide
  all_goals simp [genSet]

/-- Settles O9: `genSet` puts the field and restarts the generator, and `setGen` changes that one. -/
theorem setaRestartsItsGenerator : Obligations.SetaRestartsItsGenerator := by
  intro c rs g field s hfield ⟨hc, hi, hpc⟩
  set v := genSet field (readReg (coreOf s c) rs) (genOf (coreOf s c) g) with hv
  obtain ⟨honly, hcore⟩ := retire_leaves (k := setGen g v (coreOf s c)) hpc
  have hgen (h : BitVec 2) : genOf (coreOf (retire c (setGen g v (coreOf s c)) s) c) h = if h = g then v else genOf (coreOf s c) h := by
    rw [hcore]; exact genOf_setGen g h v (coreOf s c)
  have hself := (hgen g).trans (if_pos rfl)
  refine ⟨_, (unitOp_of hc _).trans (congrArg _ (onIssue_issues hi _)), honly, by rw [hcore]; rfl, fun h hh => (hgen h).trans (if_neg hh), ?_⟩
  rw [hself, hv]
  exact genSet_restarts hfield _ _

/-! ### The rest of a slice is skipped (R333) -/

theorem allRest_main_iff {n : Nat} {s : State} (p : Program) :
    allRest p (ctxOf s n).cores = true ↔ ∀ i, i < progCores p → coreRests (coreOf s { ctx := n, sketch := false, lcore := i }) = true := by
  simp [allRest, coreOf]

theorem allRest_sketch_iff {n : Nat} {s : State} (p : Program) :
    allRest p (ctxOf s n).sketchCores = true ↔ ∀ i, i < progCores p → coreRests (coreOf s { ctx := n, sketch := true, lcore := i }) = true := by
  simp [allRest, coreOf]

theorem skipRest_goesOn {n i : Nat} {s : State} {p : Program} (hp : (ctxOf s n).prog = some p) (hi : i < progCores p)
    (h : coreRests (coreOf s { ctx := n, sketch := false, lcore := i }) = false) : skipRest n s = s := by
  have hrest : allRest p (ctxOf s n).cores = false := by
    rw [Bool.eq_false_iff, ne_eq, allRest_main_iff]
    exact fun hall => absurd (hall i hi) (by simp [h])
  simp [skipRest, hp, hrest]

/-- Every core of the context's programs rests. -/
def AllCoresRest (n : Nat) (s : State) : Prop :=
  ∀ r : CoreRef, r.ctx = n → (progOf (ctxOf s n) r.sketch).any (fun q => r.lcore < progCores q) = true → coreRests (coreOf s r) = true

theorem skipRest_allRest {n : Nat} {s : State} {p : Program} (hp : (ctxOf s n).prog = some p) (h : AllCoresRest n s)
    (hsk : (ctxOf s n).run.any (·.sketch) = true → (ctxOf s n).sketch.isSome = true) : skipRest n s = leaveSlice n s := by
  have hmain : allRest p (ctxOf s n).cores = true :=
    (allRest_main_iff p).mpr fun i hi => h { ctx := n, sketch := false, lcore := i } rfl (by simp [progOf, hp, hi])
  have hsketch (hrun : (ctxOf s n).run.any (·.sketch) = true) : (ctxOf s n).sketch.any (fun d => allRest d.prog (ctxOf s n).sketchCores) = true := by
    obtain ⟨d, hd⟩ := Option.isSome_iff_exists.mp (hsk hrun)
    rw [hd]
    exact (allRest_sketch_iff d.prog).mpr fun i hi => h { ctx := n, sketch := true, lcore := i } rfl (by simp [progOf, hd, hi])
  unfold skipRest
  refine if_pos ?_
  cases hrun : (ctxOf s n).run.any (·.sketch)
  · simp [hp, hmain]
  · simp [hp, hmain, hsketch hrun]

/-! ### What the movement of data leaves of a core (R130, R132) -/

/-- A core but for its line memory and its tickets. -/
def coreBody (k : Core) : Core := { k with t0 := {}, tickets := [] }

theorem coreOf_congr {s t : State} (h : t.ctxs = s.ctxs) (r : CoreRef) : coreOf t r = coreOf s r := by rw [coreOf, coreOf, ctxOf_congr h]

@[simp] theorem sendTo_ctxs (p route : Nat) (u : Word64) (m : RingMsg) (s : State) : (sendTo p route u m s).ctxs = s.ctxs := by
  unfold sendTo
  split
  · rfl
  · obtain ⟨r, hr⟩ := sendRing_eq _ s
    rw [hr]

@[simp] theorem sendStream_ctxs (s : State) (c : CoreRef) (p : Program) (d : Desc) (off : Nat) (body : List Byte) (last : Bool) (t : State) :
    (sendStream s c p d off body last t).ctxs = t.ctxs := by
  unfold sendStream; split <;> simp

theorem coreOf_updCluster (n lc : Nat) (f : Cluster → Cluster) (s : State) (r : CoreRef) : coreOf (updCluster n lc f s) r = coreOf s r :=
  coreOf_updCtx (fun _ => rfl) (fun _ => rfl)

theorem coreBody_updCore {f : Core → Core} (h : ∀ k, coreBody (f k) = coreBody k) (c : CoreRef) (s : State) (r : CoreRef) :
    coreBody (coreOf (updCore c f s) r) = coreBody (coreOf s r) := by
  by_cases hr : r = c
  · rw [hr, coreOf_updCore_self, h]
  · rw [coreOf_updCore_ne hr]

theorem coreBody_landRows (c : CoreRef) (p : Program) (d : Desc) (ls : NewLines) (s : State) (r : CoreRef) :
    coreBody (coreOf (landRows c p d ls s) r) = coreBody (coreOf s r) := by
  unfold landRows
  split
  · exact coreBody_updCore (by intro; rfl) c s r
  · rw [coreOf_updCluster]
  · split
    · rfl
    · rw [coreOf_congr (updObj_ctxs _ _ _)]

theorem coreBody_moveLines (c : CoreRef) (t : Nat) (p : Program) (d : Desc) (ls : NewLines) (last : Bool) (s : State) (r : CoreRef) :
    coreBody (coreOf (moveLines c t p d ls last s) r) = coreBody (coreOf s r) := by
  unfold moveLines
  dsimp only
  split
  · rw [coreOf_congr (sendStream_ctxs _ _ _ _ _ _ _ _)]
    exact coreBody_updCore (by intro; rfl) c s r
  · rw [coreBody_landRows]
    exact coreBody_updCore (by intro; rfl) c s r

theorem coreBody_pauseTransfer (c : CoreRef) (t : Nat) (s : State) (r : CoreRef) :
    coreBody (coreOf (pauseTransfer c t s) r) = coreBody (coreOf s r) := by
  unfold pauseTransfer
  split
  · dsimp only
    split
    · split
      · rfl
      · exact coreBody_updCore (by intro; rfl) c s r
    · exact coreBody_moveLines c t _ _ _ _ s r
  · rfl

theorem foldl_keeps {α β : Type} {f : State → α → State} {v : State → β} (h : ∀ s a, v (f s a) = v s) (l : List α) (s : State) :
    v (l.foldl f s) = v s := by
  induction l generalizing s with
  | nil => rfl
  | cons a l ih => rw [List.foldl_cons, ih, h]

theorem coreBody_pauseCtx (n : Nat) (s : State) (r : CoreRef) : coreBody (coreOf (pauseCtx n s) r) = coreBody (coreOf s r) :=
  foldl_keeps (v := fun s => coreBody (coreOf s r)) (fun s c => foldl_keeps (v := fun s => coreBody (coreOf s r))
    (fun s t => coreBody_pauseTransfer c t s r) _ s) _ s

theorem coreBody_leaveSlice (n : Nat) (s : State) (r : CoreRef) : coreBody (coreOf (leaveSlice n s) r) = coreBody (coreOf s r) := by
  unfold leaveSlice
  split
  · rw [coreOf_updCtx (by intro; rfl) (by intro; rfl), coreBody_pauseCtx]
  · rfl

theorem leaveSlice_inSlice (n : Nat) (s : State) : (ctxOf (leaveSlice n s) n).inSlice = false := by
  unfold leaveSlice
  split
  · rw [ctxOf_updCtx_self]
  · exact Bool.eq_false_iff.mpr ‹_›

/-- The end of a slice leaves of its context all but cores and clusters as it is, and the slice. -/
theorem outline_leaveSlice (n m : Nat) (s : State) :
    { outline (ctxOf (leaveSlice n s) m) with inSlice := false } = { outline (ctxOf s m) with inSlice := false } := by
  have hpause := outline_of (besideTransfers_pauseCtx n s) m
  unfold leaveSlice
  split
  · by_cases hm : m = n
    · subst hm; rw [ctxOf_updCtx_self, ← hpause]; rfl
    · rw [ctxOf_updCtx_ne hm, hpause]
  · rfl

theorem leaveSlice_run (n m : Nat) (s : State) : (ctxOf (leaveSlice n s) m).run = (ctxOf s m).run :=
  (congrArg Context.run (outline_leaveSlice n m s) :)

/-! ### NOP, ATOM and YIELD -/

theorem execYield_eq {c : CoreRef} {f : Bool} {s : State} (hc : wfCore c = true) (hi : issues s c (.yield f) = true) :
    exec (.yield c f) s = .next (skipRest c.ctx (retire c { coreOf s c with phase := .yielded f } s)) :=
  (unitOp_of hc _).trans (congrArg _ (onIssue_issues hi _))

theorem OnlyCoreChanges.prog {c : CoreRef} {s t : State} (h : OnlyCoreChanges c s t) : (ctxOf t c.ctx).prog = (ctxOf s c.ctx).prog := by
  rw [h.2.2.1]

theorem OnlyCoreChanges.run {c : CoreRef} {s t : State} (h : OnlyCoreChanges c s t) : (ctxOf t c.ctx).run = (ctxOf s c.ctx).run := by
  rw [h.2.2.1]

theorem OnlyCoreChanges.sketch {c : CoreRef} {s t : State} (h : OnlyCoreChanges c s t) : (ctxOf t c.ctx).sketch = (ctxOf s c.ctx).sketch := by
  rw [h.2.2.1]

theorem OnlyCoreChanges.other {c r : CoreRef} {s t : State} (h : OnlyCoreChanges c s t) (hr : r ≠ c) : coreOf t r = coreOf s r := h.2.2.2 r hr

/-- Settles O6: NOP and ATOM retire; YIELD retires and `skipRest` ends the slice where every core of the context now rests. -/
theorem nopAtomAndYield : Obligations.NopAtomAndYield := by
  refine ⟨fun c s hi => ?_, fun c n1 s ⟨hc, hi, hpc⟩ => ?_, fun c f p s ⟨hc, hi, hpc⟩ hp => ?_⟩
  · exact ⟨_, execNop_eq hi.1 hi.2.1, retire_leaves hi.2.2⟩
  · exact ⟨_, (unitOp_of hc _).trans (congrArg _ (onIssue_issues hi _)), retire_leaves (k := { coreOf s c with atom := n1.toNat + 2 }) hpc⟩
  · obtain ⟨honly, hcore⟩ := retire_leaves (k := { coreOf s c with phase := .yielded f }) hpc
    rw [execYield_eq hc hi]
    set t := retire c { coreOf s c with phase := .yielded f } s
    have htp : (ctxOf t c.ctx).prog = some p := honly.prog.trans hp
    refine ⟨fun ⟨i, hip, hne, hgoes⟩ => ?_, fun hrest hsk => ?_⟩
    · rw [skipRest_goesOn htp hip (by rw [honly.other hne]; exact hgoes)]
      exact ⟨t, rfl, honly, by rw [hcore]; rfl⟩
    · have hall : AllCoresRest c.ctx t := by
        intro r hr hq
        by_cases hrc : r = c
        · rw [hrc, hcore]; rfl
        · rw [honly.other hrc]
          refine hrest r hrc hr ?_
          rwa [progOf, honly.prog, honly.sketch] at hq
      rw [skipRest_allRest htp hall (by rw [honly.run, honly.sketch]; exact hsk)]
      have hbody := coreBody_leaveSlice c.ctx t c
      rw [hcore] at hbody
      exact ⟨_, rfl, leaveSlice_inSlice _ _, (congrArg Core.phase hbody :), (congrArg Core.pc hbody :), (leaveSlice_run _ _ _).trans honly.run⟩

end Sys2Proof.Machine
end

section
/-! SUPPORT. Proofs of the core program statements (chapter 4): flags, FENCE and barriers (O14). -/

namespace Sys2Proof.Machine
open Claims

/-! ### Flags (R114) -/

theorem getLsbD_oneBit {flag i : Nat} (hi : i < 32) : ((1 : Word32) <<< flag).getLsbD i = decide (i = flag) := by
  have hone : BitVec.getLsbD (1 : Word32) (i - flag) = decide (i - flag = 0) := by simp [BitVec.getLsbD_one]
  rw [BitVec.getLsbD_shiftLeft, hone, Bool.eq_iff_iff]
  simp [hi]
  omega

@[simp] theorem lclusterOf_setCore (r q : CoreRef) (k : Core) (s : State) : lclusterOf (setCore r k s) q = lclusterOf s q := by
  simp [lclusterOf]

theorem progOf_updCluster (n lc : Nat) (f : Cluster → Cluster) (s : State) (m : Nat) (sk : Bool) :
    progOf (ctxOf (updCluster n lc f s) m) sk = progOf (ctxOf s m) sk := by
  by_cases h : m = n
  · subst h; rw [updCluster, ctxOf_updCtx_self]; rfl
  · rw [updCluster, ctxOf_updCtx_ne h]

theorem codeLen_updCluster (n lc : Nat) (f : Cluster → Cluster) (s : State) (r : CoreRef) : codeLen (updCluster n lc f s) r = codeLen s r := by
  rw [codeLen, codeLen, progOf_updCluster]

theorem lclusterOf_updCluster (n lc : Nat) (f : Cluster → Cluster) (s : State) (r : CoreRef) :
    lclusterOf (updCluster n lc f s) r = lclusterOf s r := by rw [lclusterOf, lclusterOf, progOf_updCluster]

/-- What a core instruction does that changes its own cluster too: the module but for the contexts, the other contexts, the other cores and
the other clusters stay. -/
structure ClusterChanges (c : CoreRef) (f : Cluster → Cluster) (s t : State) : Prop where
  beside : t = { s with ctxs := t.ctxs }
  others : ∀ n, n ≠ c.ctx → ctxOf t n = ctxOf s n
  own : ctxOf t c.ctx = { ctxOf s c.ctx with
    cores := (ctxOf t c.ctx).cores, sketchCores := (ctxOf t c.ctx).sketchCores, clusters := (ctxOf t c.ctx).clusters }
  cores : ∀ r, r ≠ c → coreOf t r = coreOf s r
  cluster : ∀ lc, clusterOf t c.ctx lc = if lc = lclusterOf s c then f (clusterOf s c.ctx lc) else clusterOf s c.ctx lc

theorem clusterOf_retire {c : CoreRef} {k : Core} {s : State} (h : k.pc + 1 < codeLen s c) (n lc : Nat) :
    clusterOf (retire c k s) n lc = clusterOf s n lc := by
  obtain ⟨-, hother, hown, -⟩ := onlyCore_retire h
  by_cases hn : n = c.ctx
  · rw [hn, clusterOf, hown]; rfl
  · rw [clusterOf, hother n hn]; rfl

/-- The core retires after an update of its cluster. -/
theorem retire_updCluster {c : CoreRef} {k : Core} {s : State} (h : k.pc + 1 < codeLen s c) (f : Cluster → Cluster) :
    ClusterChanges c f s (retire c k (updCluster c.ctx (lclusterOf s c) f s)) ∧
      coreOf (retire c k (updCluster c.ctx (lclusterOf s c) f s)) c = coreNext k := by
  set u := updCluster c.ctx (lclusterOf s c) f s with hu
  have hpc : k.pc + 1 < codeLen u c := by rw [codeLen_updCluster]; exact h
  obtain ⟨⟨hbeside, hother, hown, hcores⟩, hcore⟩ := retire_leaves hpc
  refine ⟨⟨?_, fun n hn => ?_, ?_, fun r hr => ?_, fun lc => ?_⟩, hcore⟩
  · rw [hbeside]; rfl
  · rw [hother n hn, hu, updCluster, ctxOf_updCtx_ne hn]
  · rw [hown, hu, updCluster, ctxOf_updCtx_self]
  · rw [hcores r hr, coreOf_updCluster]
  · rw [clusterOf_retire hpc]
    by_cases hlc : lc = lclusterOf s c
    · rw [if_pos hlc, hlc, clusterOf_updCluster_self]
    · rw [if_neg hlc, clusterOf_updCluster_ne hlc]

/-- A cluster with a flag set or cleared. -/
def withFlag (flag : Nat) (v : Bool) (x : Cluster) : Cluster :=
  { x with flags := if v then x.flags ||| ((1 : Word32) <<< flag) else x.flags &&& ~~~((1 : Word32) <<< flag) }

theorem setFlag_eq (n lc flag : Nat) (v : Bool) (s : State) : setFlag n lc flag v s = updCluster n lc (withFlag flag v) s := rfl

/-- An instruction that sets or clears a flag of its cluster. -/
theorem retire_setFlag {c : CoreRef} {s : State} (h : (coreOf s c).pc + 1 < codeLen s c) (flag : Nat) (v : Bool) :
    OnlyFlagsChange c s (retire c (coreOf s c) (setFlag c.ctx (lclusterOf s c) flag v s)) ∧
      clusterOf (retire c (coreOf s c) (setFlag c.ctx (lclusterOf s c) flag v s)) c.ctx (lclusterOf s c) =
        withFlag flag v (clusterOf s c.ctx (lclusterOf s c)) := by
  rw [setFlag_eq]
  obtain ⟨hcl, hcore⟩ := retire_updCluster h (withFlag flag v)
  refine ⟨⟨hcl.beside, hcl.others, hcl.own, hcl.cores, hcore, fun lc => ?_⟩, (hcl.cluster _).trans (if_pos rfl)⟩
  have hlc := hcl.cluster lc
  by_cases he : lc = lclusterOf s c
  · rw [if_pos he] at hlc ⊢
    rw [hlc]; rfl
  · rw [if_neg he] at hlc ⊢
    exact hlc

/-! ### Barriers (R130) -/

/-- From `s` to `t` nothing changes but where the arrivals of a context's barriers stand. -/
structure BarriersMove (n : Nat) (s t : State) : Prop where
  beside : t = { s with ctxs := t.ctxs }
  others : ∀ m, m ≠ n → ctxOf t m = ctxOf s m
  own : ctxOf t n = { ctxOf s n with clusters := (ctxOf t n).clusters, xbars := (ctxOf t n).xbars, sketchBars := (ctxOf t n).sketchBars }

theorem BarriersMove.refl (n : Nat) (s : State) : BarriersMove n s s := ⟨rfl, fun _ _ => rfl, rfl⟩

theorem BarriersMove.trans {n : Nat} {s t u : State} (h : BarriersMove n s t) (g : BarriersMove n t u) : BarriersMove n s u :=
  ⟨by rw [g.beside, h.beside], fun m hm => (g.others m hm).trans (h.others m hm), by rw [g.own, h.own]⟩

theorem BarriersMove.foldl {α : Type} {n : Nat} {f : State → α → State} (h : ∀ s a, BarriersMove n s (f s a)) (l : List α) (s : State) :
    BarriersMove n s (l.foldl f s) := by
  induction l generalizing s with
  | nil => exact .refl n s
  | cons a l ih => exact (h s a).trans (ih _)

theorem BarriersMove.updCtx {n : Nat} {f : Context → Context} {s : State}
    (h : ∀ x, f x = { x with clusters := (f x).clusters, xbars := (f x).xbars, sketchBars := (f x).sketchBars }) :
    BarriersMove n s (updCtx n f s) := by
  refine ⟨rfl, fun m hm => ctxOf_updCtx_ne hm _ _, ?_⟩
  rw [ctxOf_updCtx_self]
  exact h _

theorem BarriersMove.coreOf {n : Nat} {s t : State} (h : BarriersMove n s t) (r : CoreRef) : coreOf t r = coreOf s r := by
  by_cases hr : r.ctx = n
  · rw [Machine.coreOf, hr, h.own, Machine.coreOf, hr]
  · rw [Machine.coreOf, h.others _ hr, Machine.coreOf]

theorem BarriersMove.progOf {n : Nat} {s t : State} (h : BarriersMove n s t) (m : Nat) (sk : Bool) :
    progOf (ctxOf t m) sk = progOf (ctxOf s m) sk := by
  by_cases hm : m = n
  · rw [hm, h.own]; rfl
  · rw [h.others m hm]

theorem BarriersMove.lclusterOf {n : Nat} {s t : State} (h : BarriersMove n s t) (r : CoreRef) : lclusterOf t r = lclusterOf s r := by
  rw [Machine.lclusterOf, h.progOf, Machine.lclusterOf]

theorem BarriersMove.codeLen {n : Nat} {s t : State} (h : BarriersMove n s t) (r : CoreRef) : codeLen t r = codeLen s r := by
  rw [Machine.codeLen, h.progOf, Machine.codeLen]

theorem BarriersMove.participants {n : Nat} {s t : State} (h : BarriersMove n s t) (r : CoreRef) (cross : Bool) :
    participants t r cross = participants s r cross := by
  simp only [Machine.participants, h.progOf, h.lclusterOf]

theorem barriersMove_setArrivals (r : CoreRef) (cross : Bool) (id : Nat) (l : List Nat) (s : State) :
    BarriersMove r.ctx s (setArrivals r cross id l s) := by
  unfold setArrivals
  split
  · exact .updCtx fun _ => rfl
  · split
    · exact .updCtx fun _ => rfl
    · exact .updCtx fun _ => rfl

theorem barriersMove_barrierCheck (r : CoreRef) (cross : Bool) (id : Nat) (s : State) : BarriersMove r.ctx s (barrierCheck r cross id s) := by
  unfold barrierCheck
  dsimp only
  split
  · exact barriersMove_setArrivals r cross id [] s
  · exact .refl _ s

theorem arrivals_setArrivals (r : CoreRef) (cross : Bool) (id : Nat) (l : List Nat) (s : State) : arrivals (setArrivals r cross id l s) r cross id = l := by
  have hlc := (barriersMove_setArrivals r cross id l s).lclusterOf r
  unfold arrivals
  rw [hlc]
  unfold setArrivals
  by_cases hsk : r.sketch
  · simp [hsk]
  · cases cross <;> simp [hsk]

theorem mem_setAdd {k j : Nat} {l : List Nat} : j ∈ setAdd k l ↔ j = k ∨ j ∈ l := by
  induction l with
  | nil => simp [setAdd]
  | cons a l ih =>
    unfold setAdd
    split
    · simp
    · split
      · rename_i h; subst h; simp
      · rw [List.mem_cons, ih, List.mem_cons]; tauto

/-- What stands after the first issue of BAR or XBAR, before the instruction waits or retires. -/
def arrived (r : CoreRef) (cross : Bool) (id : Nat) (s : State) : State :=
  barrierCheck r cross id (setArrivals r cross id (setAdd r.lcore (arrivals s r cross id))
    (updCore r (fun k => { k with arrived := some (cross, id) }) s))

theorem barrierCmd_first {r : CoreRef} {i : CoreInstr} {cross : Bool} {id : Nat} {s : State} (hi : issues s r i = true) (ha : (coreOf s r).arrived = none) :
    barrierCmd r i cross id s = if (arrivals (arrived r cross id s) r cross id).contains r.lcore then arrived r cross id s
      else retire r { coreOf (arrived r cross id s) r with arrived := none } (arrived r cross id s) := by
  rw [barrierCmd, onIssue_issues hi]
  dsimp only
  rw [ha]
  rfl

section
variable (r : CoreRef) (cross : Bool) (id : Nat) (s : State)

/-- The arrival is recorded. -/
def arriving : State :=
  setArrivals r cross id (setAdd r.lcore (arrivals s r cross id)) (updCore r (fun k => { k with arrived := some (cross, id) }) s)

theorem arrivals_arriving : arrivals (arriving r cross id s) r cross id = setAdd r.lcore (arrivals s r cross id) := arrivals_setArrivals _ _ _ _ _

theorem coreOf_arriving_self : coreOf (arriving r cross id s) r = { coreOf s r with arrived := some (cross, id) } := by
  rw [arriving, (barriersMove_setArrivals _ _ _ _ _).coreOf, coreOf_updCore_self]

theorem phase_arriving (q : CoreRef) : (coreOf (arriving r cross id s) q).phase = (coreOf s q).phase := by
  rw [arriving, (barriersMove_setArrivals _ _ _ _ _).coreOf]
  by_cases hq : q = r
  · rw [hq, coreOf_updCore_self]
  · rw [coreOf_updCore_ne hq]

theorem participants_arriving : participants (arriving r cross id s) r cross = participants s r cross := by
  rw [arriving, (barriersMove_setArrivals _ _ _ _ _).participants]
  simp only [participants, updCore, progOf_setCore, lclusterOf_setCore]

theorem codeLen_arrived : codeLen (arrived r cross id s) r = codeLen s r := by
  rw [arrived, (barriersMove_barrierCheck _ _ _ _).codeLen, (barriersMove_setArrivals _ _ _ _ _).codeLen, codeLen_updCore]

theorem coreOf_arrived_self : coreOf (arrived r cross id s) r = { coreOf s r with arrived := some (cross, id) } := by
  rw [arrived, (barriersMove_barrierCheck _ _ _ _).coreOf]
  exact coreOf_arriving_self r cross id s

/-- The use is complete where every other participant has arrived or halted. -/
theorem barrierFull_arriving_iff : barrierFull (arriving r cross id s) r cross (setAdd r.lcore (arrivals s r cross id)) = true ↔
    ∀ j ∈ participants s r cross, j ≠ r.lcore → j ∈ arrivals s r cross id ∨ (coreOf s { r with lcore := j }).phase = .halted := by
  simp only [barrierFull, participants_arriving, phase_arriving, List.all_eq_true, Bool.or_eq_true, List.contains_iff_mem, decide_eq_true_eq, mem_setAdd]
  exact ⟨fun h j hj hne => (h j hj).imp_left fun hor => hor.resolve_left hne,
    fun h j hj => or_iff_not_imp_left.mpr fun hnot => (h j hj fun he => hnot (.inl he)).resolve_left fun hm => hnot (.inr hm)⟩

theorem arrived_eq : arrived r cross id s =
    if barrierFull (arriving r cross id s) r cross (setAdd r.lcore (arrivals s r cross id)) then setArrivals r cross id [] (arriving r cross id s)
    else arriving r cross id s := by
  have hne : (setAdd r.lcore (arrivals s r cross id)).isEmpty = false := by
    rw [List.isEmpty_eq_false_iff_exists_mem]
    exact ⟨r.lcore, mem_setAdd.mpr (.inl rfl)⟩
  change barrierCheck r cross id (arriving r cross id s) = _
  rw [barrierCheck, arrivals_arriving, hne]
  rfl

end

theorem arrivals_retire {c : CoreRef} {k : Core} {s : State} (h : k.pc + 1 < codeLen s c) (cross : Bool) (id : Nat) :
    arrivals (retire c k s) c cross id = arrivals s c cross id := by
  obtain ⟨-, -, hown, -⟩ := onlyCore_retire h
  have hlc : lclusterOf (retire c k s) c = lclusterOf s c := by rw [lclusterOf, hown]; rfl
  unfold arrivals
  rw [hlc, clusterOf_retire h, hown]

/-- While another participant is still to come the core waits at its arrival. -/
theorem barrier_waits {r : CoreRef} {i : CoreInstr} {cross : Bool} {id : Nat} {s : State} (hi : issues s r i = true) (ha : (coreOf s r).arrived = none)
    (h : ∃ j ∈ participants s r cross, j ≠ r.lcore ∧ j ∉ arrivals s r cross id ∧ (coreOf s { r with lcore := j }).phase ≠ .halted) :
    coreOf (barrierCmd r i cross id s) r = { coreOf s r with arrived := some (cross, id) } ∧
      r.lcore ∈ arrivals (barrierCmd r i cross id s) r cross id := by
  obtain ⟨j, hj, hne, hnot, hphase⟩ := h
  have hopen : ¬ barrierFull (arriving r cross id s) r cross (setAdd r.lcore (arrivals s r cross id)) = true := by
    rw [barrierFull_arriving_iff]
    exact fun hall => (hall j hj hne).elim hnot hphase
  have heq : arrived r cross id s = arriving r cross id s := by rw [arrived_eq, if_neg hopen]
  have hmem : r.lcore ∈ arrivals (arrived r cross id s) r cross id := by rw [heq, arrivals_arriving]; exact mem_setAdd.mpr (.inl rfl)
  rw [barrierCmd_first hi ha, if_pos (by simpa using hmem)]
  exact ⟨coreOf_arrived_self r cross id s, hmem⟩

/-- When all others have come the use is complete and the core goes on. -/
theorem barrier_completes {r : CoreRef} {i : CoreInstr} {cross : Bool} {id : Nat} {s : State} (hi : issues s r i = true)
    (hpc : (coreOf s r).pc + 1 < codeLen s r) (ha : (coreOf s r).arrived = none)
    (h : ∀ j ∈ participants s r cross, j ≠ r.lcore → j ∈ arrivals s r cross id ∨ (coreOf s { r with lcore := j }).phase = .halted) :
    coreOf (barrierCmd r i cross id s) r = { coreNext (coreOf s r) with arrived := none } ∧ arrivals (barrierCmd r i cross id s) r cross id = [] := by
  have hgone : arrivals (arrived r cross id s) r cross id = [] := by
    rw [arrived_eq, if_pos ((barrierFull_arriving_iff r cross id s).mpr h), arrivals_setArrivals]
  rw [barrierCmd_first hi ha, if_neg (by simp [hgone])]
  set k : Core := { coreOf (arrived r cross id s) r with arrived := none } with hk
  have hin : k.pc + 1 < codeLen (arrived r cross id s) r := by rw [codeLen_arrived, hk, coreOf_arrived_self]; exact hpc
  refine ⟨?_, by rw [arrivals_retire hin, hgone]⟩
  rw [(retire_leaves hin).2, hk, coreOf_arrived_self]
  rfl

/-- Settles O14: FENCE, FWAIT, FSET and FCLR retire or wait; `barrier_waits` and `barrier_completes` say what the first issue of a barrier does. -/
theorem fenceFlagsAndBarriers : Obligations.FenceFlagsAndBarriers := by
  refine ⟨fun c s ⟨hc, hi, hpc⟩ ht hp => ?_, fun c flag s ⟨hc, hi, hpc⟩ => ?_, fun c flag s ⟨hc, hi, hpc⟩ => ?_,
    fun c flag s ⟨hc, hi, hpc⟩ => ?_, fun cross c id i ci s hins ⟨hc, hi, hpc⟩ ha => ?_⟩
  · have hidle : ¬ ((coreOf s c).tickets.any (fun t => t.2.out.isSome) || (coreOf s c).postsOut != 0) = true := by
      rw [hp]
      simp only [bne_self_eq_false, Bool.or_false, List.any_eq_true, not_exists, not_and]
      exact fun t hmem => by rw [ht t hmem]; simp
    exact ⟨_, (unitOp_of hc _).trans (congrArg _ ((onIssue_issues hi _).trans (if_neg hidle))), retire_leaves hpc⟩
  · obtain ⟨honly, hflags⟩ := retire_setFlag hpc flag.toNat true
    refine ⟨_, (unitOp_of hc _).trans (congrArg _ (onIssue_issues hi _)), honly, fun i hi => ?_⟩
    rw [hflags, withFlag, if_pos rfl, BitVec.getLsbD_or, getLsbD_oneBit hi, Bool.or_comm]
  · obtain ⟨honly, hflags⟩ := retire_setFlag hpc flag.toNat false
    refine ⟨_, (unitOp_of hc _).trans (congrArg _ (onIssue_issues hi _)), honly, fun i hi => ?_⟩
    rw [hflags, withFlag, if_neg Bool.false_ne_true, BitVec.getLsbD_and, BitVec.getLsbD_not, getLsbD_oneBit hi, Bool.and_comm]
    simp [hi]
  · refine ⟨fun hset => ⟨_, (unitOp_of hc _).trans (congrArg _ ((onIssue_issues hi _).trans (if_pos hset))), retire_leaves hpc⟩, fun hclear => ?_⟩
    exact (unitOp_of hc _).trans (congrArg _ ((onIssue_issues hi _).trans (if_neg (by simp [hclear]))))
  · have hexec : exec i s = .next (barrierCmd c ci cross id s) := by
      obtain ⟨rfl, n, rfl, rfl, rfl⟩ | ⟨rfl, n, rfl, rfl, rfl⟩ := hins
      · exact unitOp_of hc _
      · exact unitOp_of hc _
    exact ⟨fun h => ⟨_, hexec, barrier_waits hi ha h⟩, fun h => ⟨_, hexec, barrier_completes hi hpc ha h⟩⟩

end Sys2Proof.Machine
end

section
/-! SUPPORT. Proofs of the core program statements (chapter 4): posts and cluster DMA at issue (O15, O17). -/

namespace Sys2Proof.Machine
open Claims

/-! ### PREQ (R125) -/

theorem slotObj_slot {s : State} {p : Program} {i id : Nat} (h : slotObj s p i = some id) : i < p.slots.length := by
  unfold slotObj at h
  split at h
  · exact absurd h (by simp)
  · exact (List.getElem?_eq_some_iff.mp ‹_›).1

section Preq

variable {c : CoreRef} {rs : BitVec 5} {q : BitVec 3} {s : State} {p : Program} (hc : wfCore c = true)
  (hi : issues s c (.preq rs q) = true) (hp : progOf (ctxOf s c.ctx) c.sketch = some p)

include hc hi hp

theorem execPreq_noSlot (h : p.slots.length ≤ (readReg (coreOf s c) rs).toNat) : exec (.preq c rs q) s = .next (coreFault c 7 0 s) :=
  (unitOp_of hc _).trans (by rw [preqCmd, onIssue_issues hi]; simp only [hp, if_pos h])

theorem execPreq_dangling (h : (readReg (coreOf s c) rs).toNat < p.slots.length) (hd : slotObj s p (readReg (coreOf s c) rs).toNat = none) :
    exec (.preq c rs q) s = .next (coreFault c 9 0 s) :=
  (unitOp_of hc _).trans (by rw [preqCmd, onIssue_issues hi]; simp only [hp, if_neg (Nat.not_le.mpr h), hd])

theorem execPreq_posts {id : Nat} (hd : slotObj s p (readReg (coreOf s c) rs).toNat = some id)
    (hroom : (clusterOf s c.ctx (lclusterOf s c)).posts.length < 64) :
    exec (.preq c rs q) s = .next (retire c { coreOf s c with postsOut := (coreOf s c).postsOut + 1 } (updCluster c.ctx (lclusterOf s c)
      (fun x => { x with posts := x.posts ++ [{ obj := id, mask := quadMask (coreOf s c) q, core := c }] }) s)) :=
  (unitOp_of hc _).trans (by
    rw [preqCmd, onIssue_issues hi]; simp only [hp, if_neg (Nat.not_le.mpr (slotObj_slot hd)), hd, if_neg (Nat.not_le.mpr hroom)])

end Preq

/-- Settles O17: with room in the post queue PREQ retires after one update of its cluster (`retire_updCluster`); else it is a program fault. -/
theorem preqPostsItsObject : Obligations.PreqPostsItsObject := by
  intro c rs q s p hp
  refine ⟨fun id ⟨hc, hi, hpc⟩ hd hroom => ?_, fun hc hi h => ?_, fun hc hi h hd => ?_⟩
  · obtain ⟨hcl, hcore⟩ := retire_updCluster (k := { coreOf s c with postsOut := (coreOf s c).postsOut + 1 }) hpc
      (fun x => { x with posts := x.posts ++ [{ obj := id, mask := quadMask (coreOf s c) q, core := c }] })
    exact ⟨_, execPreq_posts hc hi hp hd hroom, hcl.beside, hcore, hcl.cores, (hcl.cluster _).trans (if_pos rfl),
      fun lc hlc => (hcl.cluster lc).trans (if_neg hlc)⟩
  · exact ⟨_, execPreq_noSlot hc hi hp h, (coreFault_faults (runnable_of_issues hi) 7 0).1⟩
  · exact ⟨_, execPreq_dangling hc hi hp h hd, (coreFault_faults (runnable_of_issues hi) 9 0).1⟩

/-! ### CDMA at issue (R120 to R124) -/

theorem ticketOf_setTicket (n m : BitVec 2) (v : Ticket) (k : Core) :
    ticketOf (setTicket n.toNat v k) m = if m = n then v else ticketOf k m := by
  unfold ticketOf setTicket
  rw [mapGet_mapSet]
  simp only [← BitVec.toNat_inj]

section Cdma

variable {c : CoreRef} {q : BitVec 3} {n : BitVec 2} {s : State} {p : Program} (hi : IssuesInside s c (.cdma q n))
  (hp : progOf (ctxOf s c.ctx) c.sketch = some p) (hidle : (ticketOf (coreOf s c) n).out = none)
  (hgood : cdmaBad s c p (quadDesc (coreOf s c) q) = [])

include hi hp hidle hgood

theorem execCdma_starts (h : cdmaAtOnce s p (quadDesc (coreOf s c) q) = none) :
    exec (.cdma c q n) s = .next (touchSource s p (quadDesc (coreOf s c) q) (retire c (setTicket n.toNat
      { out := some (quadDesc (coreOf s c) q), result := (ticketOf (coreOf s c) n).result } (forgetTicket n (coreOf s c))) s)) :=
  (unitOp_of hi.1 _).trans (by rw [cdmaCmd, onIssue_issues hi.2.1]; simp [hp, hidle, hgood, faultOr, h])

theorem execCdma_atOnce {res : Nat} (h : cdmaAtOnce s p (quadDesc (coreOf s c) q) = some res) :
    exec (.cdma c q n) s = .next (retire c (setTicket n.toNat { result := res } (coreOf s c)) s) :=
  (unitOp_of hi.1 _).trans (by rw [cdmaCmd, onIssue_issues hi.2.1]; simp [hp, hidle, hgood, faultOr, h])

end Cdma

theorem updObj_eq (id : Nat) (f : Obj → Obj) (s : State) : updObj id f s = { s with objs := (updObj id f s).objs } := by
  unfold updObj; split <;> rfl

/-- Reading a copy notes its use, and changes nothing else. -/
theorem touchSource_eq (s : State) (p : Program) (d : Desc) (t : State) :
    touchSource s p d t = { t with objs := (touchSource s p d t).objs } := by
  unfold touchSource
  split
  · split
    · exact updObj_eq _ _ t
    · rfl
  · rfl

theorem coreOf_objs (o : SMap Obj) (t : State) (r : CoreRef) : coreOf { t with objs := o } r = coreOf t r := rfl

theorem onlyCore_objs {c : CoreRef} {s t : State} {o : SMap Obj} (h : OnlyCoreChanges c s t) :
    OnlyCoreChanges c s { { t with objs := o } with objs := s.objs } := by
  refine ⟨?_, h.2⟩
  rw [h.1]

theorem cdmaAtOnce_absent {s : State} {p : Program} {d : Desc} (h : endAbsent s p d = true) (hk : dDstKind d < 3) : cdmaAtOnce s p d = some 1 := by
  have h3 : dDstKind d ≠ 3 := by omega
  have h4 : dDstKind d ≠ 4 := by omega
  simp [cdmaAtOnce, h, h3, h4]

theorem cdmaAtOnce_stream {s : State} {p : Program} {d : Desc} (hk : dDstKind d = 3) (h : streamDisabled s p d = true ∨ routeCut s p d = true) :
    cdmaAtOnce s p d = some 2 := by
  simp [cdmaAtOnce, hk, h]

theorem cdmaAtOnce_engine {s : State} {p : Program} {d : Desc} (hk : dDstKind d = 4) (h : s.red.available = false) : cdmaAtOnce s p d = some 2 := by
  simp [cdmaAtOnce, hk, h]

theorem execWaitd_idle {c : CoreRef} {rd : BitVec 5} {n : BitVec 2} {s : State} (hi : IssuesInside s c (.waitd rd n))
    (h : (ticketOf (coreOf s c) n).out = none) :
    exec (.waitd c rd n) s = .next (regOp c (.waitd rd n) rd (fun _ k => BitVec.ofNat 64 (ticketOf k n).result) s) := by
  refine (unitOp_of hi.1 _).trans ?_
  rw [regOp, onIssue_issues hi.2.1, onIssue_issues hi.2.1]
  simp [h]

theorem execWaitd_waits {c : CoreRef} {rd : BitVec 5} {n : BitVec 2} {s : State} (hi : IssuesInside s c (.waitd rd n))
    (h : (ticketOf (coreOf s c) n).out.isSome = true) : exec (.waitd c rd n) s = .next s :=
  (unitOp_of hi.1 _).trans (by rw [onIssue_issues hi.2.1]; simp [h])

/-- Settles O15: a CDMA retires with its ticket outstanding, or with the result that `cdmaAtOnce` gives; an idle WAITD is a `regOp`. -/
theorem clusterDmaStartsUnderItsTicket : Obligations.ClusterDmaStartsUnderItsTicket := by
  refine ⟨fun c q n s p hi hp hidle hgood => ⟨fun h => ?_, fun res h => ?_, cdmaAtOnce_absent, cdmaAtOnce_stream, cdmaAtOnce_engine⟩,
    fun c rd n s hi => ⟨fun h => ⟨_, execWaitd_idle hi h, regOp_writes hi rd _⟩, execWaitd_waits hi⟩⟩
  · set d := quadDesc (coreOf s c) q with hd
    obtain ⟨honly, hcore⟩ := retire_leaves (k := setTicket n.toNat { out := some d, result := (ticketOf (coreOf s c) n).result }
      (forgetTicket n (coreOf s c))) hi.2.2
    have htickets (m : BitVec 2) := ticketOf_setTicket n m { out := some d, result := (ticketOf (coreOf s c) n).result } (forgetTicket n (coreOf s c))
    refine ⟨_, execCdma_starts hi hp hidle hgood h, ?_⟩
    rw [touchSource_eq, ← hd]
    set t := retire c (setTicket n.toNat { out := some d, result := (ticketOf (coreOf s c) n).result } (forgetTicket n (coreOf s c))) s
    rw [coreOf_objs _ t, hcore]
    exact ⟨onlyCore_objs honly, rfl, (congrArg Ticket.out ((htickets n).trans (if_pos rfl)) :),
      (congrArg Ticket.lines ((htickets n).trans (if_pos rfl)) :), fun m hm => (htickets m).trans (if_neg hm)⟩
  · obtain ⟨honly, hcore⟩ := retire_leaves (k := setTicket n.toNat { result := res } (coreOf s c)) hi.2.2
    refine ⟨_, execCdma_atOnce hi hp hidle hgood h, honly, by rw [hcore]; rfl, ?_⟩
    rw [hcore]
    exact (ticketOf_setTicket n n _ _).trans (if_pos rfl)

end Sys2Proof.Machine
end

section
/-! SUPPORT. Proofs of the core program statements (chapter 4): lines between quads, T0 and the banks (O8, O10). -/

namespace Sys2Proof.Machine
open Claims

/-! ### A core that retires and uses up a free value -/

/-- The same of an instruction that also uses up a free value (R134). -/
theorem retire_bump_leaves {c : CoreRef} {k : Core} {s : State} (h : k.pc + 1 < codeLen s c) :
    OnlyCoreChanges c { s with nonce := s.nonce + 1 } (retire c k (bump s)) ∧ coreOf (retire c k (bump s)) c = coreNext k :=
  retire_leaves (s := bump s) h

/-! ### Quads (R118) -/

theorem quadReg_inj {q : BitVec 3} {v w : Nat} (hv : v < 4) (hw : w < 4) : quadReg q v = quadReg q w ↔ v = w := by
  have hq := q.isLt
  rw [quadReg, quadReg, ← BitVec.toNat_inj, BitVec.toNat_ofNat, BitVec.toNat_ofNat]
  omega

@[simp] theorem length_quadLine (k : Core) (q : BitVec 3) : (quadLine k q).length = 32 := by simp [quadLine, leBytes_length]

/-- The first `n` registers of a quad written. -/
def quadWrites (q : BitVec 3) (line : List Byte) (n : Nat) (k : Core) : Core :=
  (List.range n).foldl (fun k w => writeReg (quadReg q w) (BitVec.ofNat 64 (byteField line (8 * w) 8)) k) k

theorem quadSet_eq (q : BitVec 3) (line : List Byte) (k : Core) : quadSet q line k = quadWrites q line 4 k := rfl

theorem quadWrites_succ (q : BitVec 3) (line : List Byte) (n : Nat) (k : Core) : quadWrites q line (n + 1) k =
    writeReg (quadReg q n) (BitVec.ofNat 64 (byteField line (8 * n) 8)) (quadWrites q line n k) := by
  simp [quadWrites, List.range_succ]

theorem onlyRegs_trans {k k' k'' : Core} (h : k' = { k with regs := k'.regs }) (g : k'' = { k' with regs := k''.regs }) :
    k'' = { k with regs := k''.regs } := by rw [g, h]

theorem quadWrites_frame (q : BitVec 3) (line : List Byte) (n : Nat) (k : Core) :
    quadWrites q line n k = { k with regs := (quadWrites q line n k).regs } := by
  induction n with
  | zero => rfl
  | succ n ih =>
    rw [quadWrites_succ]
    exact onlyRegs_trans ih (writeReg_frame _ _ _)

theorem readReg_quadWrites_quad (q : BitVec 3) (line : List Byte) {n w : Nat} (hn : n ≤ 4) (hw : w < n) (hne : quadReg q w ≠ 0) (k : Core) :
    readReg (quadWrites q line n k) (quadReg q w) = BitVec.ofNat 64 (byteField line (8 * w) 8) := by
  induction n with
  | zero => omega
  | succ n ih =>
    rw [quadWrites_succ, readReg_writeReg]
    by_cases h : w = n
    · rw [h] at hne ⊢
      rw [if_pos ⟨rfl, hne⟩]
    · rw [if_neg fun hr => h ((quadReg_inj (by omega) (by omega)).mp hr.1), ih (by omega) (by omega)]

theorem readReg_quadWrites_other (q : BitVec 3) (line : List Byte) {n : Nat} {r : BitVec 5} (h : ∀ w, w < n → r ≠ quadReg q w) (k : Core) :
    readReg (quadWrites q line n k) r = readReg k r := by
  induction n with
  | zero => rfl
  | succ n ih =>
    rw [quadWrites_succ, readReg_writeReg, if_neg fun hr => h n (by omega) hr.1, ih fun w hw => h w (by omega)]

/-! ### LDL and STL (R118, R136) -/

theorem stepGens_pc (st : Bool) (gs : List (BitVec 2)) (k : Core) : (stepGens st gs k).pc = k.pc := by rw [stepGens_onlyGens]

theorem readReg_stepGens (st : Bool) (gs : List (BitVec 2)) (k : Core) (r : BitVec 5) : readReg (stepGens st gs k) r = readReg k r := by
  rw [stepGens_onlyGens]; rfl

theorem execLdl_loads {c : CoreRef} {q : BitVec 3} {g : BitVec 2} {st : Bool} {s : State} (hi : IssuesInside s c (.ldl q g st))
    (hfit : OperandFits (genAddr (coreOf s c) g) 32) (hheld : heldByWrites s c (genAddr (coreOf s c) g) 32 = false)
    (hsound : T0Sound s c (genAddr (coreOf s c) g) 32) (hhit : storeHit 32 (t0View s c) (genAddr (coreOf s c) g) 32 = false) :
    exec (.ldl c q g st) s = .next (retire c (stepGens st [g]
      (quadSet q (storeRead (t0View s c) (genAddr (coreOf s c) g) 32) (coreOf s c))) (bump s)) := by
  refine (unitOp_of hi.1 _).trans ?_
  rw [ldlCmd, onIssue_issues hi.2.1]
  simp [operandBad_fits hfit, faultOr, hheld, meetT0_sound hsound, hhit]

theorem execStl_stores {c : CoreRef} {q : BitVec 3} {g : BitVec 2} {st : Bool} {s : State} (hi : IssuesInside s c (.stl q g st))
    (hfit : OperandFits (genAddr (coreOf s c) g) 32) (hheld : heldByReads s c (genAddr (coreOf s c) g) 32 = false) :
    exec (.stl c q g st) s = .next (retire c (stepGens st [g] { coreOf s c with
      t0 := storeWrite 32 (coreOf s c).t0 (genAddr (coreOf s c) g) (quadLine (coreOf s c) q) }) s) := by
  refine (unitOp_of hi.1 _).trans ?_
  rw [stlCmd, onIssue_issues hi.2.1]
  simp [operandBad_fits hfit, faultOr, hheld]

/-- Settles O8: LDL retires with its quad written (`quadWrites`), STL with the line written (`storeByte_storeWrite`). -/
theorem lineLoadAndStore : Obligations.LineLoadAndStore := by
  refine ⟨fun c q g st s hi hfit hheld hsound hhit => ?_, fun c q g st s hi hfit hheld => ?_⟩
  · rw [execLdl_loads hi hfit hheld hsound hhit, quadSet_eq]
    set line := storeRead (t0View s c) (genAddr (coreOf s c) g) 32
    set k := quadWrites q line 4 (coreOf s c) with hk
    have hframe : k = { coreOf s c with regs := k.regs } := quadWrites_frame q line 4 _
    have hpc : (stepGens st [g] k).pc + 1 < codeLen s c := by rw [stepGens_pc, hframe]; exact hi.2.2
    obtain ⟨honly, hcore⟩ := retire_bump_leaves hpc
    refine ⟨_, rfl, honly, ?_, ?_, fun w hw hne => ?_, fun n hn => ?_⟩ <;> rw [hcore]
    · rw [stepGens_onlyGens, hframe]; rfl
    · have hgens := generatorsStep_stepGens st [g] k
      rw [hframe] at hgens ⊢
      exact hgens
    · exact (readReg_stepGens st [g] k _).trans (readReg_quadWrites_quad q line (le_refl 4) hw hne _)
    · exact (readReg_stepGens st [g] k _).trans (readReg_quadWrites_other q line hn _)
  · rw [execStl_stores hi hfit hheld]
    set k : Core := { coreOf s c with t0 := storeWrite 32 (coreOf s c).t0 (genAddr (coreOf s c) g) (quadLine (coreOf s c) q) } with hk
    have hpc : (stepGens st [g] k).pc + 1 < codeLen s c := by rw [stepGens_pc]; exact hi.2.2
    obtain ⟨honly, hcore⟩ := retire_leaves hpc
    refine ⟨_, rfl, honly, ?_, ?_, ?_⟩ <;> rw [hcore]
    · rw [stepGens_onlyGens]; rfl
    · exact generatorsStep_stepGens st [g] k
    · rw [stepGens_onlyGens]
      exact fun x => storeByte_storeWrite 32 _ _ x _

end Sys2Proof.Machine
end

section
/-! SUPPORT. Proofs of the core program statements (chapter 4): LDMA (O10). -/

namespace Sys2Proof.Machine
open Claims

/-! ### Ranges of bytes -/

theorem length_cellsWalk (cs : List Host.Cell) (a n : Nat) : (cellsWalk cs a n).length = n := by
  induction n generalizing cs a with
  | zero => simp [cellsWalk]
  | succ n ih =>
    cases cs with
    | nil => simp [cellsWalk, zeros]
    | cons c cs => unfold cellsWalk; split <;> simp [ih]

@[simp] theorem length_storeRead (m : Store) (a n : Nat) : (storeRead m a n).length = n := length_cellsWalk _ a n

/-- A read meets nothing of a write beside it. -/
theorem storeRead_storeWrite_apart {a b n : Nat} {bs : List Byte} (h : b + n ≤ a ∨ a + bs.length ≤ b) (w : Nat) (m : Store) :
    storeRead (storeWrite w m a bs) b n = storeRead m b n := by
  have hnew : (cellsOf a bs).filter (fun c => b ≤ c.1 && c.1 < b + n) = [] := by
    refine List.filter_eq_nil_iff.mpr fun c hc => ?_
    have := cellsOf_mem hc
    simp; omega
  unfold storeRead storeWrite cellsRead cellsWrite
  rw [List.filter_append, List.filter_append, hnew, List.append_nil, List.filter_filter, List.filter_filter]
  congr 1
  rcases h with h | h
  · have hafter : m.cells.filter (fun c => b ≤ c.1 && c.1 < b + n && a + bs.length ≤ c.1) = [] :=
      List.filter_eq_nil_iff.mpr fun c _ => by simp; omega
    rw [hafter, List.append_nil]
    exact List.filter_congr fun c _ => by grind
  · have hbefore : m.cells.filter (fun c => b ≤ c.1 && c.1 < b + n && c.1 < a) = [] :=
      List.filter_eq_nil_iff.mpr fun c _ => by simp; omega
    rw [hbefore, List.nil_append]
    exact List.filter_congr fun c _ => by grind

/-- Two writes one behind the other. -/
theorem BytesWritten.append {m m' m'' : Store} {a : Nat} {bs cs : List Byte} (h : BytesWritten m m' a bs)
    (g : BytesWritten m' m'' (a + bs.length) cs) : BytesWritten m m'' a (bs ++ cs) := by
  intro x
  rw [g x, h x, List.length_append]
  by_cases hb : a ≤ x ∧ x < a + bs.length
  · rw [if_neg (by omega), if_pos hb, if_pos (by omega), List.getD_append _ _ _ _ (by omega)]
  · rw [if_neg hb]
    by_cases hc : a + bs.length ≤ x ∧ x < a + bs.length + cs.length
    · rw [if_pos hc, if_pos (by omega), List.getD_append_right _ _ _ _ (by omega), Nat.sub_sub]
    · rw [if_neg hc, if_neg (by omega)]

theorem bytesWritten_storeWrite (w : Nat) (m : Store) (a : Nat) (bs : List Byte) : BytesWritten m (storeWrite w m a bs) a bs :=
  fun x => storeByte_storeWrite w m a x bs

/-! ### The three moves (R119) -/

/-- Lines copied to a range apart from theirs are the lines that stood in the view. -/
theorem bytesWritten_copyLines {src dst : Nat} (n : Nat) (v t0 : Store) (h : src + n * 32 ≤ dst ∨ dst + n * 32 ≤ src) :
    BytesWritten t0 (copyLines src dst n v t0) dst ((List.range n).flatMap (fun i => storeRead v (src + 32 * i) 32)) := by
  induction n generalizing src dst v t0 with
  | zero => exact fun x => (if_neg (by simp)).symm
  | succ n ih =>
    have hline := bytesWritten_storeWrite 32 t0 dst (storeRead v src 32)
    have hrest := ih (src := src + 32) (dst := dst + 32) (storeWrite 32 v dst (storeRead v src 32))
      (storeWrite 32 t0 dst (storeRead v src 32)) (by omega)
    have hlines : (List.range n).flatMap (fun i => storeRead (storeWrite 32 v dst (storeRead v src 32)) (src + 32 + 32 * i) 32) =
        (List.range n).flatMap (fun i => storeRead v (src + 32 * (i + 1)) 32) := by
      refine List.flatMap_congr fun i hi => ?_
      have hin := List.mem_range.mp hi
      rw [storeRead_storeWrite_apart (by rw [length_storeRead]; omega), show src + 32 + 32 * i = src + 32 * (i + 1) by omega]
    rw [hlines] at hrest
    rw [List.range_succ_eq_map, List.flatMap_cons, List.flatMap_map]
    exact BytesWritten.append hline (by rw [length_storeRead]; exact hrest)

theorem tagBanks_succ (fp : Bool) (tags : List Nat) (lo n : Nat) :
    tagBanks fp tags lo (n + 1) = if fp then setAdd (lo + n) (tagBanks fp tags lo n) else setDel (lo + n) (tagBanks fp tags lo n) := by
  simp [tagBanks, List.range_succ]

/-- The banks named take the tag, every other bank keeps its own (R85). -/
theorem mem_tagBanks (fp : Bool) (tags : List Nat) (lo n b : Nat) :
    b ∈ tagBanks fp tags lo n ↔ if lo ≤ b ∧ b < lo + n then fp = true else b ∈ tags := by
  induction n with
  | zero => rw [if_neg (by omega)]; rfl
  | succ n ih =>
    rw [tagBanks_succ]
    cases fp
    · rw [if_neg Bool.false_ne_true, mem_setDel, ih]; grind
    · rw [if_pos rfl, mem_setAdd, ih]; grind

theorem mem_ldmaBanks {f : LdmaF} (h : f.dir ≠ 0) (b : Nat) : b ∈ ldmaBanks f ↔ f.bank.toNat ≤ b ∧ b < f.bank.toNat + (ldmaBanks f).length := by
  rw [ldmaBanks, if_neg h]
  simp only [List.mem_map, List.mem_range, List.length_map, List.length_range]
  exact ⟨by rintro ⟨i, hi, rfl⟩; omega, fun hb => ⟨b - f.bank.toNat, by omega, by omega⟩⟩

/-- What LDMA leaves of its core but for its generators. -/
theorem ldmaRun_frame (v : Store) (f : LdmaF) (n : Nat) (k : Core) :
    ldmaRun v f n k = { k with
      t0 := (ldmaRun v f n k).t0, banks := (ldmaRun v f n k).banks, fpTags := (ldmaRun v f n k).fpTags, bankRaw := (ldmaRun v f n k).bankRaw } := by
  unfold ldmaRun; dsimp only; split <;> rfl

theorem ldmaRun_lines {f : LdmaF} (h : f.dir = 0) (v : Store) (n : Nat) (k : Core) :
    ldmaRun v f n k = { k with t0 := copyLines (genAddr k f.sg) (genAddr k f.dg) n v k.t0 } := by simp [ldmaRun, h]

theorem ldmaRun_fromBanks {f : LdmaF} (h : f.dir = 1) (v : Store) (n : Nat) (k : Core) :
    ldmaRun v f n k = { k with t0 := storeWrite 32 k.t0 (genAddr k f.dg) ((List.range (n * 8)).flatMap
      (fun i => leBytes 4 (mapGet 0 k.banks (f.bank.toNat * 1024 + i)).toNat)) } := by simp [ldmaRun, h]

theorem ldmaRun_toBanks {f : LdmaF} (h : 2 ≤ f.dir.toNat) (v : Store) (n : Nat) (k : Core) :
    ldmaRun v f n k = { k with
      banks := writeBanks k.banks (f.bank.toNat * 1024) ((List.range (n * 8)).map
        (fun i => BitVec.ofNat 32 (leNat (storeRead v (genAddr k f.sg + 4 * i) 4))))
      bankRaw := rawAfter [(f.bank.toNat * 1024, n * 8)] k.bankRaw
      fpTags := tagBanks (f.dir.toNat = 3) k.fpTags f.bank.toNat (ldmaBanks f).length } := by
  unfold ldmaRun
  dsimp only
  split
  · omega
  · omega
  · rfl

theorem generatorsStep_congr {stepG : Bool} {gs : List (BitVec 2)} {k k' l l' : Core} (h : l.gens = k.gens) (h' : l'.gens = k'.gens)
    (hstep : GeneratorsStep stepG gs k k') : GeneratorsStep stepG gs l l' := by
  intro g
  rw [genOf, genOf, h, h']
  exact hstep g

section Ldma

variable {c : CoreRef} {f : LdmaF} {s : State}

theorem ldmaOperands_good
    (hsrc : f.dir ≠ 1 → OperandFits (genAddr (coreOf s c) f.sg) (ldmaLines f * 32))
    (hdst : f.dir.toNat ≤ 1 → OperandFits (genAddr (coreOf s c) f.dg) (ldmaLines f * 32)) :
    (ldmaRanges (coreOf s c) f).flatMap (fun p => operandBad p.2 (ldmaLines f * 32)) = [] := by
  rw [List.flatMap_eq_nil_iff]
  intro r hr
  rw [ldmaRanges, List.mem_append] at hr
  rcases hr with hr | hr
  · split at hr
    · simp at hr
    · rw [List.mem_singleton.mp hr]
      exact operandBad_fits (hsrc ‹_›)
  · split at hr
    · rename_i hdir
      rw [List.mem_singleton.mp hr]
      refine operandBad_fits (hdst ?_)
      simp only [Bool.or_eq_true, decide_eq_true_eq] at hdir
      rcases hdir with h | h <;> simp [h]
    · simp at hr

theorem ldmaStop_none
    (hsrc : f.dir ≠ 1 → storeHit 32 (t0View s c) (genAddr (coreOf s c) f.sg) (ldmaLines f * 32) = false)
    (hraw : f.dir = 1 → rawWords 3 (coreOf s c).bankRaw (f.bank.toNat * 1024) (f.bank.toNat * 1024 + ldmaLines f * 8) = []) :
    ldmaStop s c f = none := by
  unfold ldmaStop
  dsimp only
  split
  · rw [hraw ‹_›]
  · rw [hsrc ‹_›]; rfl

theorem execLdma_moves (hi : IssuesInside s c (.ldma f))
    (hgood : (ldmaRanges (coreOf s c) f).flatMap (fun p => operandBad p.2 (ldmaLines f * 32)) = [])
    (hsound : f.dir ≠ 1 → T0Sound s c (genAddr (coreOf s c) f.sg) (ldmaLines f * 32))
    (hheld : ldmaHeld s c f = false) (hstop : ldmaStop s c f = none) :
    exec (.ldma c f) s = .next (retire c (stepGens f.stepG ((ldmaRanges (coreOf s c) f).map (·.1))
      (ldmaRun (t0View s c) f (ldmaLines f) (coreOf s c))) (bump s)) := by
  have hmeet : (if f.dir = 1 then s else meetT0 srcCore c (genAddr (coreOf s c) f.sg) (ldmaLines f * 32) s) = s := by
    split
    · rfl
    · exact meetT0_sound (hsound ‹_›) srcCore
  refine (unitOp_of hi.1 _).trans ?_
  rw [ldmaCmd, onIssue_issues hi.2.1]
  simp only [hgood, faultOr, hheld, Bool.false_eq_true, if_false, hmeet, hstop]

end Ldma

/-- Settles O10: LDMA retires with its lines moved; the three directions are `bytesWritten_copyLines`, `bytesWritten_storeWrite` and
`mapGet_writeBanks` with `mem_tagBanks`. -/
theorem ldmaMovesLines : Obligations.LdmaMovesLines := by
  intro c f s hi hsrc hdst hapart hraw hheld
  have hexec := execLdma_moves hi (ldmaOperands_good (fun h => (hsrc h).1) hdst) (fun h => (hsrc h).2.1) hheld
    (ldmaStop_none (fun h => (hsrc h).2.2) hraw)
  set k := ldmaRun (t0View s c) f (ldmaLines f) (coreOf s c) with hk
  set gs := (ldmaRanges (coreOf s c) f).map (·.1)
  have hframe : k = { coreOf s c with t0 := k.t0, banks := k.banks, fpTags := k.fpTags, bankRaw := k.bankRaw } := ldmaRun_frame _ _ _ _
  have hpc : (stepGens f.stepG gs k).pc + 1 < codeLen s c := by rw [stepGens_pc, hframe]; exact hi.2.2
  obtain ⟨honly, hcore⟩ := retire_bump_leaves hpc
  have hmemories : (stepGens f.stepG gs k).t0 = k.t0 ∧ (stepGens f.stepG gs k).banks = k.banks ∧
      (stepGens f.stepG gs k).fpTags = k.fpTags ∧ (stepGens f.stepG gs k).bankRaw = k.bankRaw := by
    rw [stepGens_onlyGens]; exact ⟨rfl, rfl, rfl, rfl⟩
  obtain ⟨ht0, hbanks, htags, hbankRaw⟩ := hmemories
  refine ⟨_, hexec, honly, ?_⟩
  rw [hcore]
  simp only [coreNext, ht0, hbanks, htags, hbankRaw]
  refine ⟨?_, fun h => ?_, ?_, fun h => ?_, fun h => ?_, fun h => ?_⟩
  · rw [stepGens_onlyGens, hframe]
  · rcases (by omega : f.dir.toNat = 0 ∨ f.dir.toNat = 1) with hd | hd
    · rw [hk, ldmaRun_lines (BitVec.eq_of_toNat_eq hd)]
    · rw [hk, ldmaRun_fromBanks (BitVec.eq_of_toNat_eq hd)]
  · exact generatorsStep_congr (congrArg Core.gens hframe :).symm rfl (generatorsStep_stepGens f.stepG gs k)
  · rw [hk, ldmaRun_lines h]
    exact ⟨rfl, rfl, bytesWritten_copyLines _ _ _ (hapart h)⟩
  · rw [hk, ldmaRun_fromBanks h]
    exact ⟨rfl, rfl, bytesWritten_storeWrite 32 _ _ _⟩
  · rw [hk, ldmaRun_toBanks h]
    refine ⟨rfl, fun w => ?_, fun b => ?_⟩
    · rw [mapGet_writeBanks, List.length_map, List.length_range]
      by_cases hw : f.bank.toNat * 1024 ≤ w ∧ w < f.bank.toNat * 1024 + ldmaLines f * 8
      · rw [if_pos hw, if_pos hw, List.getD_eq_getElem _ _ (by simp; omega)]
        simp
      · rw [if_neg hw, if_neg hw]
    · have hd : f.dir ≠ 0 := by rintro h0; simp [h0] at h
      have h3 : f.dir = 3 ↔ f.dir.toNat = 3 := BitVec.toNat_inj.symm
      simp only [mem_ldmaBanks hd, h3]
      rw [Bool.eq_iff_iff, List.contains_iff_mem, mem_tagBanks]
      split <;> simp

end Sys2Proof.Machine
end

section
/-! SUPPORT. Proofs of the core program statements (chapter 4): a transfer that completes has its rows at the destination (O16). -/

namespace Sys2Proof.Machine
open Claims

/-! ### Rows, written line by line -/

/-- The lines of `w` bytes of a row. -/
def rowLines (w n : Nat) (l : Nat × List Byte) : NewLines := (List.range n).map (fun i => (l.1 + i * w, (l.2.drop (i * w)).take w))

theorem writeLinesAt_append (w : Nat) (m : Store) (ls ks : NewLines) : writeLinesAt w m (ls ++ ks) = writeLinesAt w (writeLinesAt w m ls) ks := by
  simp [writeLinesAt]

theorem mul_lt_of_lt_ceilDiv {i n w : Nat} (hw : 0 < w) (h : i < ceilDiv n w) : i * w < n := by
  have hle := (Nat.le_div_iff_mul_le hw).mp (Nat.succ_le_of_lt h)
  rw [Nat.succ_mul] at hle
  omega

theorem le_ceilDiv_mul {w : Nat} (hw : 0 < w) (n : Nat) : n ≤ ceilDiv n w * w := by
  have hlt := Nat.lt_div_mul_add hw (a := n + w - 1)
  rw [ceilDiv]
  omega

/-- The first `k` lines of a row write its first bytes. -/
theorem bytesWritten_rowLines {w v : Nat} (hw : 0 < w) (m : Store) (l : Nat × List Byte) {k : Nat} (hk : k ≤ ceilDiv l.2.length w) :
    BytesWritten m (writeLinesAt v m (rowLines w k l)) l.1 (l.2.take (k * w)) := by
  induction k with
  | zero => exact fun x => (if_neg (by simp)).symm
  | succ k ih =>
    have hbefore := mul_lt_of_lt_ceilDiv hw (Nat.lt_of_succ_le hk)
    have hlast := bytesWritten_storeWrite v (writeLinesAt v m (rowLines w k l)) (l.1 + k * w) ((l.2.drop (k * w)).take w)
    have hlines : rowLines w (k + 1) l = rowLines w k l ++ [(l.1 + k * w, (l.2.drop (k * w)).take w)] := by
      simp [rowLines, List.range_succ]
    rw [hlines, writeLinesAt_append, Nat.succ_mul, List.take_add]
    exact BytesWritten.append (ih (by omega)) (by rw [List.length_take, min_eq_left hbefore.le]; exact hlast)

/-- All its lines write a row. -/
theorem bytesWritten_row {w v : Nat} (hw : 0 < w) (m : Store) (l : Nat × List Byte) :
    BytesWritten m (writeLinesAt v m (rowLines w (ceilDiv l.2.length w) l)) l.1 l.2 := by
  have h := bytesWritten_rowLines (v := v) hw m l (le_refl _)
  rwa [List.take_of_length_le (le_ceilDiv_mul hw _)] at h

/-- The lines of rows that do not meet write the rows. -/
theorem rowsWritten_lines {w v : Nat} (hw : 0 < w) (m : Store) {ls : NewLines} (h : RowsApart ls) :
    RowsWritten m (writeLinesAt v m (ls.flatMap (fun l => rowLines w (ceilDiv l.2.length w) l))) ls := by
  induction ls generalizing m with
  | nil => exact ⟨fun l hl => absurd hl List.not_mem_nil, fun _ _ => rfl⟩
  | cons l ls ih =>
    obtain ⟨hapart, hrest⟩ := List.pairwise_cons.mp h
    have hrow := bytesWritten_row (v := v) hw m l
    obtain ⟨hin, hout⟩ := ih (writeLinesAt v m (rowLines w (ceilDiv l.2.length w) l)) hrest
    rw [List.flatMap_cons, writeLinesAt_append]
    refine ⟨fun k hk i hi => ?_, fun x hx => ?_⟩
    · rcases List.mem_cons.mp hk with rfl | hk
      · rw [hout _ fun j hj => by have := hapart j hj; omega, hrow, if_pos (by omega), Nat.add_sub_cancel_left]
      · exact hin k hk i hi
    · rw [hout x fun j hj => hx j (List.mem_cons_of_mem _ hj), hrow, if_neg (by have := hx l List.mem_cons_self; omega)]

/-! ### A source without poison (R309) -/

theorem transposeRows_zeros {elem : Nat} {rows : List (List Byte)} (h : ∀ r ∈ rows, ∀ b ∈ r, b = 0) :
    ∀ r ∈ transposeRows elem rows, ∀ b ∈ r, b = 0 := by
  intro r hr b hb
  unfold transposeRows at hr
  split at hr
  · exact h r hr b hb
  · obtain ⟨j, -, rfl⟩ := List.mem_map.mp hr
    obtain ⟨q, hq, hbq⟩ := List.mem_flatMap.mp hb
    exact h q hq b (List.mem_of_mem_drop (List.mem_of_mem_take hbq))

theorem length_transposeRows_congr {elem : Nat} {rows rows' : List (List Byte)} (h : rows.map List.length = rows'.map List.length) :
    (transposeRows elem rows).length = (transposeRows elem rows').length := by
  have hlen : rows.length = rows'.length := by simpa using congrArg List.length h
  have hhead : (rows.headD []).length = (rows'.headD []).length := by
    cases rows <;> cases rows' <;> simp_all
  unfold transposeRows
  split
  · exact hlen
  · dsimp only
    rw [List.length_map, List.length_map, List.length_range, List.length_range, hhead]

theorem srcFlags_zeros {s : State} {c : CoreRef} {p : Program} {d : Desc} (h : srcPoison s c p d = false) :
    ∀ r ∈ srcFlags s c p d, ∀ b ∈ r, b = 0 := by
  intro r hr b hb
  obtain ⟨i, hi, rfl⟩ := List.mem_map.mp hr
  dsimp only at hb
  rw [if_neg (Bool.not_eq_true _ ▸ (List.any_eq_false.mp h i hi))] at hb
  exact List.eq_of_mem_replicate hb

theorem length_srcFlags (s : State) (c : CoreRef) (p : Program) (d : Desc) :
    (srcRows s c p d).map List.length = (srcFlags s c p d).map List.length := by
  simp only [srcRows, srcFlags, List.map_map]
  refine List.map_congr_left fun i _ => ?_
  simp only [Function.comp, length_storeRead]
  split <;> simp [zeros]

section Source

variable {s : State} {c : CoreRef} {p : Program} {d : Desc} (hk : dDstKind d < 3) (hp : srcPoison s c p d = false)

include hp in
theorem dstLines_good (l : XferLine) (hl : l ∈ dstLines s c p d) : l.bad = false := by
  obtain ⟨q, hq, hlq⟩ := List.mem_flatMap.mp hl
  obtain ⟨i, -, rfl⟩ := List.mem_map.mp hlq
  have hzero : ∀ b ∈ q.2, b = 0 := by
    have hflags := transposeRows_zeros (elem := dElem d) (srcFlags_zeros hp)
    have hmem := (List.of_mem_zip hq).2
    split at hmem
    · rw [List.mem_singleton.mp hmem]
      intro b hb
      obtain ⟨r, hr, hbr⟩ := List.mem_flatten.mp hb
      exact hflags r hr b hbr
    · exact hflags _ hmem
  rw [List.any_eq_false]
  intro b hb
  rw [hzero b (List.mem_of_mem_drop (List.mem_of_mem_take hb))]
  decide

include hp in
theorem goodLines_dstLines : goodLines (dstLines s c p d) = (dstLines s c p d).map (fun l => (l.addr, l.data)) := by
  rw [goodLines, List.takeWhile_eq_self_iff.mpr fun l hl => by rw [dstLines_good hp l hl]; rfl]

include hk in
/-- The lines of a transfer are the lines of its rows. -/
theorem dstLines_rows : (dstLines s c p d).map (fun l => (l.addr, l.data)) =
    (dstRows s c p d).flatMap (fun l => rowLines (lineWidth d) (ceilDiv l.2.length (lineWidth d)) l) := by
  have hlen : (dstRows s c p d).length ≤ (transposeRows (dElem d) (srcFlags s c p d)).length := by
    rw [dstRows, if_neg (by omega), List.length_map, List.length_zipIdx, length_transposeRows_congr (length_srcFlags s c p d)]
  unfold dstLines
  dsimp only
  rw [if_neg (by omega), List.map_flatMap]
  conv_rhs => rw [← List.map_fst_zip hlen, List.flatMap_map]
  refine List.flatMap_congr fun q _ => ?_
  simp [rowLines]

include hk hp in
theorem rowsWritten_goodLines (v : Nat) (m : Store) (h : RowsApart (dstRows s c p d)) :
    RowsWritten m (writeLinesAt v m (goodLines (dstLines s c p d))) (dstRows s c p d) := by
  rw [goodLines_dstLines hp, dstLines_rows hk]
  exact rowsWritten_lines (by unfold lineWidth; split <;> omega) m h

end Source

/-! ### Completion (R121, R124, R206) -/

/-- The state after the last lines have landed and the ticket is DONE. -/
def landedAll (c : CoreRef) (n : Nat) (p : Program) (d : Desc) (v : Ticket) (ls : NewLines) (s : State) : State :=
  updCore c (setTicket n { result := 0 }) (landRows c p d ls (updCore c (setTicket n v) s))

theorem execDmaTransferComplete_lands {c : CoreRef} {n : BitVec 2} {s : State} {p : Program} {d : Desc} (hc : wfCore c = true)
    (hprog : progOf (ctxOf s c.ctx) c.sketch = some p) (hout : (ticketOf (coreOf s c) n).out = some d)
    (hlines : (ticketOf (coreOf s c) n).lines = 0) (hslice : (ctxOf s c.ctx).inSlice = true) (hmeet : meetSource c p d s = s)
    (hpoison : srcPoison s c p d = false) (hsome : dstLines s c p d ≠ [])
    (hheld : (goodLines (dstLines s c p d)).any (lineHeld s c d) = false) (hk : dDstKind d < 3) :
    ∃ v, exec (.dmaTransferComplete c n) s = .next (landedAll c n.toNat p d v (goodLines (dstLines s c p d)) s) := by
  have hall : (dstLines s c p d).all (fun l => !l.bad) = true := List.all_eq_true.mpr fun l hl => by rw [dstLines_good hpoison l hl]; rfl
  have h3 : dDstKind d ≠ 3 := by omega
  have h4 : dDstKind d ≠ 4 := by omega
  have hempty : (dstLines s c p d).isEmpty = false := List.isEmpty_eq_false_iff.mpr hsome
  have hleft : linesLeft s c p d (ticketOf (coreOf s c) n) = dstLines s c p d := by rw [linesLeft, hlines]; rfl
  refine ⟨{ mapGet {} (coreOf s c).tickets n.toNat with
    lines := (mapGet {} (coreOf s c).tickets n.toNat).lines + (goodLines (dstLines s c p d)).length }, (unitOp_of hc _).trans (congrArg _ ?_)⟩
  unfold dmaDone
  rw [hprog, hout]
  simp only [hmeet, hslice, hleft, hall, hheld, h3, h4, moveLines, hempty, decide_false, Bool.not_true, Bool.or_false,
    Bool.false_eq_true, if_false, if_true]
  rfl

theorem ticketOf_landedAll (c : CoreRef) (n : BitVec 2) (p : Program) (d : Desc) (v : Ticket) (ls : NewLines) (s : State) :
    ticketOf (coreOf (landedAll c n.toNat p d v ls s) c) n = { result := 0 } := by
  rw [landedAll, coreOf_updCore_self, ticketOf_setTicket, if_pos rfl]

section Kinds

variable {c : CoreRef} {n : Nat} {p : Program} {d : Desc} {v : Ticket} {ls : NewLines} {s : State}

theorem landRows_t0 (h : dDstKind d = 0) : landRows c p d ls s = updCore c (fun k => { k with t0 := writeLinesAt 32 k.t0 ls }) s := by
  simp only [landRows, h]

theorem landRows_t1 (h : dDstKind d = 1) :
    landRows c p d ls s = updCluster c.ctx (lclusterOf s c) (fun k => { k with t1 := writeLinesAt 64 k.t1 ls }) s := by
  simp only [landRows, h]

theorem landRows_t2 {id : Nat} (h : dDstKind d = 2) (hslot : slotObj s p (dDstSlot d) = some id) : landRows c p d ls s =
    updObj id (fun o => { o with copy := o.copy.map (fun m => { m with data := writeLinesAt 64 m.data ls, dirty := true }) }) s := by
  simp only [landRows, h, hslot]

theorem landedAll_t0 (h : dDstKind d = 0) : OnlyCoreChanges c s (landedAll c n p d v ls s) ∧
    (coreOf (landedAll c n p d v ls s) c).t0 = writeLinesAt 32 (coreOf s c).t0 ls := by
  unfold landedAll
  rw [landRows_t0 h]
  refine ⟨onlyCore_trans (onlyCore_updCore _ _ _) (onlyCore_trans (onlyCore_updCore _ _ _) (onlyCore_updCore _ _ _)), ?_⟩
  rw [coreOf_updCore_self, setTicket, coreOf_updCore_self, coreOf_updCore_self]
  rfl

@[simp] theorem clusterOf_updCore (r : CoreRef) (f : Core → Core) (s : State) (m lc : Nat) : clusterOf (updCore r f s) m lc = clusterOf s m lc := by
  obtain ⟨-, hother, hown, -⟩ := onlyCore_updCore r f s
  by_cases hm : m = r.ctx
  · rw [hm, clusterOf, hown]; rfl
  · rw [clusterOf, hother m hm]; rfl

theorem landedAll_t1 (h : dDstKind d = 1) : landedAll c n p d v ls s = { s with ctxs := (landedAll c n p d v ls s).ctxs } ∧
    (coreOf (landedAll c n p d v ls s) c).t0 = (coreOf s c).t0 ∧ (∀ r, r ≠ c → coreOf (landedAll c n p d v ls s) r = coreOf s r) ∧
    (∀ lc, clusterOf (landedAll c n p d v ls s) c.ctx lc = if lc = lclusterOf s c then
      { clusterOf s c.ctx lc with t1 := writeLinesAt 64 (clusterOf s c.ctx lc).t1 ls } else clusterOf s c.ctx lc) := by
  have hlc : lclusterOf (updCore c (setTicket n v) s) c = lclusterOf s c := lclusterOf_setCore c c _ s
  unfold landedAll
  rw [landRows_t1 h, hlc]
  refine ⟨rfl, ?_, fun r hr => ?_, fun lc => ?_⟩
  · rw [coreOf_updCore_self, coreOf_updCluster, coreOf_updCore_self]; rfl
  · rw [coreOf_updCore_ne hr, coreOf_updCluster, coreOf_updCore_ne hr]
  · rw [clusterOf_updCore]
    by_cases he : lc = lclusterOf s c
    · rw [if_pos he, he, clusterOf_updCluster_self, clusterOf_updCore]
    · rw [if_neg he, clusterOf_updCluster_ne he, clusterOf_updCore]

theorem landedAll_t2 {id : Nat} {o : Obj} {m : T2Copy} (h : dDstKind d = 2) (hslot : slotObj s p (dDstSlot d) = some id)
    (hobj : objOf s id = some o) (hcopy : o.copy = some m) : OnlyCoreChanges c s { landedAll c n p d v ls s with objs := s.objs } ∧
    objOf (landedAll c n p d v ls s) id = some { o with copy := some { m with data := writeLinesAt 64 m.data ls, dirty := true } } ∧
    (∀ j, j ≠ id → objOf (landedAll c n p d v ls s) j = objOf s j) := by
  have hslot' : slotObj (updCore c (setTicket n v) s) p (dDstSlot d) = some id := (slotObj_congr rfl p _).trans hslot
  have hobj' (u : State) (f : Core → Core) (j : Nat) : objOf (updCore c f u) j = objOf u j := rfl
  unfold landedAll
  rw [landRows_t2 h hslot']
  refine ⟨?_, ?_, fun j hj => ?_⟩
  · rw [updObj_eq]
    exact onlyCore_objs (onlyCore_trans (onlyCore_updCore c (setTicket n v) s) (onlyCore_updCore c (setTicket n { result := 0 }) _))
  · rw [hobj', objOf_updObj_self, hobj', hobj, Option.map_some, hcopy]; rfl
  · rw [hobj', objOf_updObj_ne hj, hobj']

end Kinds

/-- Settles O16: the last lines land (`landedAll`), and they are the rows (`rowsWritten_goodLines`). -/
theorem transferCompletionWritesItsRows : Obligations.TransferCompletionWritesItsRows := by
  intro c n s p d hc hprog hout hlines hslice hmeet hpoison hsome hheld hapart
  have hexec (hk : dDstKind d < 3) := execDmaTransferComplete_lands hc hprog hout hlines hslice hmeet hpoison hsome hheld hk
  refine ⟨fun hk => ?_, fun hk => ?_, fun id o m hk hslot hobj hcopy => ?_⟩
  · obtain ⟨v, ht⟩ := hexec (by omega)
    obtain ⟨honly, ht0⟩ := landedAll_t0 (c := c) (n := n.toNat) (p := p) (v := v) (ls := goodLines (dstLines s c p d)) (s := s) hk
    refine ⟨_, ht, honly, ticketOf_landedAll _ _ _ _ _ _ _, ?_⟩
    rw [ht0]
    exact rowsWritten_goodLines (by omega) hpoison 32 _ hapart
  · obtain ⟨v, ht⟩ := hexec (by omega)
    obtain ⟨hbeside, ht0, hcores, hclusters⟩ :=
      landedAll_t1 (c := c) (n := n.toNat) (p := p) (v := v) (ls := goodLines (dstLines s c p d)) (s := s) hk
    refine ⟨_, ht, hbeside, ticketOf_landedAll _ _ _ _ _ _ _, ht0, hcores, ?_, fun lc hlc => (hclusters lc).trans (if_neg hlc)⟩
    rw [t1Of, t1Of, (hclusters _).trans (if_pos rfl)]
    exact rowsWritten_goodLines (by omega) hpoison 64 _ hapart
  · obtain ⟨v, ht⟩ := hexec (by omega)
    obtain ⟨honly, hid, hothers⟩ :=
      landedAll_t2 (c := c) (n := n.toNat) (v := v) (ls := goodLines (dstLines s c p d)) hk hslot hobj hcopy
    exact ⟨_, _, ht, honly, ticketOf_landedAll _ _ _ _ _ _ _, hid, rfl, rowsWritten_goodLines (by omega) hpoison 64 _ hapart, hothers⟩

end Sys2Proof.Machine
end

section
/-! SUPPORT. Proofs of the core program statements (chapter 4): HALT and the end of a run (O7). -/

namespace Sys2Proof.Machine
open Claims

/-! ### The answer line at the end of a run (R424, R425) -/

/-- What the completion of a batch reads of the state: host interface, objects, and the context but for its cores and clusters. -/
def batchView (n : Nat) (s : State) : HostIf × SMap Obj × Context := (s.host, s.objs, outline (ctxOf s n))

theorem batchView_updCluster (n m lc : Nat) (f : Cluster → Cluster) (s : State) : batchView n (updCluster m lc f s) = batchView n s :=
  Prod.ext rfl (Prod.ext rfl (outline_of (besideTransfers_updCluster m lc f s) n))

theorem batchView_logWords (n : Nat) (m : CodeMemory) (req : Nat) (ws : List Nat) (s : State) : batchView n (logWords m req ws s) = batchView n s := by
  rw [logWords]; exact foldl_keeps (v := batchView n) (fun u w => (rfl : batchView n (logWord m req w u) = batchView n u)) ws s

theorem batchView_meetT1 (n req m lc a k : Nat) (s : State) : batchView n (meetT1 req m lc a k s) = batchView n s := by
  unfold meetT1
  dsimp only
  split
  · rfl
  · exact (batchView_logWords _ _ _ _ _).trans (batchView_updCluster _ _ _ _ _)

theorem batchView_logBy (n a b c d e f g : Nat) (s : State) : batchView n (logBy a b c d e f g s) = batchView n s := rfl

theorem cmdOf_completeWith_ne {tag tag' : Nat} (h : tag' ≠ tag) (st : Status) (result : List (Nat × List Byte)) (s : State) :
    cmdOf (completeWith tag st result s) tag' = cmdOf s tag' := by
  rw [cmdOf, completeWith_cmds, List.find?_filter, cmdOf]
  congr 1
  funext d
  rw [Bool.eq_iff_iff]
  simp only [bne_iff_ne, decide_eq_true_eq, and_iff_right_iff_imp]
  rintro rfl
  exact h

section Answer

variable {n : Nat} {s : State} {p : Program} (hp : (ctxOf s n).prog = some p) (hslot : slotObj s p 1 = none)

include hp hslot

/-- Where no object is named for the answer, a batch completes in any state with this context and these objects. -/
theorem completeBatch_ends {t : State} (hv : (batchView n t).2 = (batchView n s).2) (masks missed : Mask) (c : Cmd) :
    ∃ st result, completeBatch n masks missed c t = completeWith c.tag st result t := by
  have hprog : (ctxOf t n).prog = some p := (congrArg (fun v => v.2.prog) hv : _).trans hp
  exact completeBatch_plain hprog ((slotObj_congr (congrArg (·.1) hv :) p 1).trans hslot) masks missed c

/-- Reading the answer line completes one command or none. -/
theorem answerLine_ends : ∃ t, batchView n t = batchView n s ∧
    (answerLine n s = t ∨ ∃ c ∈ t.host.cmds, ∃ st result, answerLine n s = completeWith c.tag st result t) := by
  set t := t1Write n 0 128 (zeros 64) (meetT1 srcFirmware n 0 128 64 s) with ht
  have hv : batchView n t = batchView n s := (batchView_updCluster _ _ _ _ _).trans (batchView_meetT1 _ _ _ _ _ _ _)
  unfold answerLine
  dsimp only
  rw [← ht]
  split
  · exact ⟨_, (batchView_logBy n _ _ _ _ _ _ _ t).trans hv, .inl rfl⟩
  · split
    · exact ⟨t, hv, .inl rfl⟩
    · split
      · exact ⟨_, (batchView_logBy n _ _ _ _ _ _ _ t).trans hv, .inl rfl⟩
      · rename_i c hfind
        obtain ⟨st, result, heq⟩ := completeBatch_ends hp hslot (congrArg Prod.snd hv) _ _ c
        exact ⟨t, hv, .inr ⟨c, List.mem_of_find?_eq_some hfind, st, result, heq⟩⟩

/-- At the end of a batch run the batch has completed: its answer line has named it, or the end completes it. -/
theorem runServed_ends {u : Run} (hkind : u.kind = .batch) (hcmd : (cmdOf s u.tag).isSome = true) :
    cmdOf (runServed n u (answerLine n s)) u.tag = none ∧ ∃ r ∈ (runServed n u (answerLine n s)).host.done, r.tag = u.tag := by
  have ends {t : State} {c : Cmd} (hv : (batchView n t).2 = (batchView n s).2) (hc : cmdOf t u.tag = some c) :
      cmdOf (runServed n u t) u.tag = none ∧ ∃ r ∈ (runServed n u t).host.done, r.tag = u.tag := by
    obtain ⟨st, result, heq⟩ := completeBatch_ends hp hslot hv (u.mark ||| u.masks) u.missed c
    simp only [runServed, hkind, hc, heq]
    rw [← tag_of_cmdOf hc]
    exact completeWith_ends (List.mem_of_find?_eq_some hc) st result
  obtain ⟨t, hv, h⟩ := answerLine_ends hp hslot
  have hout : cmdOf t u.tag ≠ none := by
    rw [cmdOf_congr (congrArg Prod.fst hv : t.host = s.host)]
    exact Option.isSome_iff_ne_none.mp hcmd
  obtain ⟨c, hc⟩ := Option.ne_none_iff_exists'.mp hout
  obtain heq | ⟨d, hd, st, result, heq⟩ := h
  · rw [heq]
    exact ends (congrArg Prod.snd hv) hc
  · rw [heq]
    have hview : (batchView n (completeWith d.tag st result t)).2 = (batchView n s).2 := by
      rw [← hv]; simp [batchView, ctxOf_congr (completeWith_ctxs d.tag st result t)]
    by_cases htag : d.tag = u.tag
    · have hends := completeWith_ends hd st result
      rw [htag] at hends ⊢
      have hnone : runServed n u (completeWith u.tag st result t) = completeWith u.tag st result t := by
        simp only [runServed, hkind, hends.1]
      rwa [hnone]
    · exact ends hview ((cmdOf_completeWith_ne (Ne.symm htag) st result t).trans hc)

end Answer

/-! ### HALT (R111, R130) -/

theorem barriersMove_haltBarriers (c : CoreRef) (s : State) : BarriersMove c.ctx s (haltBarriers c s) :=
  (BarriersMove.foldl (fun u i => barriersMove_barrierCheck c false i u) _ s).trans
    (BarriersMove.foldl (fun u i => barriersMove_barrierCheck c true i u) _ _)

/-- The core has executed HALT, and the barriers know. -/
def haltedCore (c : CoreRef) (s : State) : State := haltBarriers c (updCore c (fun k => { k with phase := .halted }) s)

theorem execHalt_eq {c : CoreRef} {s : State} (hc : wfCore c = true) (hi : issues s c .halt = true) (hidle : inFlight (coreOf s c) = []) :
    exec (.halt c) s = .next (skipRest c.ctx (endIfHalted c.ctx (haltedCore c s))) :=
  (unitOp_of hc _).trans (by rw [haltCmd, onIssue_issues hi]; simp [hidle, haltedCore])

section Halted

variable (c : CoreRef) (s : State)

theorem haltedCore_beside : haltedCore c s = { s with ctxs := (haltedCore c s).ctxs } := (barriersMove_haltBarriers c _).beside

theorem coreOf_haltedCore_self : coreOf (haltedCore c s) c = { coreOf s c with phase := .halted } := by
  rw [haltedCore, (barriersMove_haltBarriers c _).coreOf, coreOf_updCore_self]

theorem coreOf_haltedCore_ne {r : CoreRef} (h : r ≠ c) : coreOf (haltedCore c s) r = coreOf s r := by
  rw [haltedCore, (barriersMove_haltBarriers c _).coreOf, coreOf_updCore_ne h]

theorem ctxOf_haltedCore_ne {n : Nat} (h : n ≠ c.ctx) : ctxOf (haltedCore c s) n = ctxOf s n := by
  rw [haltedCore, (barriersMove_haltBarriers c _).others n h, updCore, ctxOf_setCore_ne h]

/-- HALT leaves of the context all but its cores and barriers. -/
theorem ctxOf_haltedCore : ctxOf (haltedCore c s) c.ctx = { ctxOf s c.ctx with
    cores := (ctxOf (haltedCore c s) c.ctx).cores, sketchCores := (ctxOf (haltedCore c s) c.ctx).sketchCores
    clusters := (ctxOf (haltedCore c s) c.ctx).clusters, xbars := (ctxOf (haltedCore c s) c.ctx).xbars
    sketchBars := (ctxOf (haltedCore c s) c.ctx).sketchBars } := by
  have hown := (barriersMove_haltBarriers c (updCore c (fun k => { k with phase := .halted }) s)).own
  obtain ⟨-, -, hcore, -⟩ := onlyCore_updCore c (fun k => { k with phase := .halted }) s
  rw [haltedCore, hown, hcore]

theorem haltedCore_prog : (ctxOf (haltedCore c s) c.ctx).prog = (ctxOf s c.ctx).prog := by rw [ctxOf_haltedCore]
theorem haltedCore_run : (ctxOf (haltedCore c s) c.ctx).run = (ctxOf s c.ctx).run := by rw [ctxOf_haltedCore]
theorem haltedCore_sketch : (ctxOf (haltedCore c s) c.ctx).sketch = (ctxOf s c.ctx).sketch := by rw [ctxOf_haltedCore]
theorem haltedCore_inSlice : (ctxOf (haltedCore c s) c.ctx).inSlice = (ctxOf s c.ctx).inSlice := by rw [ctxOf_haltedCore]

end Halted

theorem mainHalted_iff {n : Nat} {s : State} {p : Program} (hp : (ctxOf s n).prog = some p) : mainHalted (ctxOf s n) = true ↔
    ∀ i, i < progCores p → (coreOf s { ctx := n, sketch := false, lcore := i }).phase = .halted := by
  simp [mainHalted, hp, allHalted, coreOf]

theorem sketchHalted_iff {n : Nat} {s : State} : sketchHalted (ctxOf s n) = true ↔
    ∀ d, (ctxOf s n).sketch = some d → ∀ i, i < progCores d.prog → (coreOf s { ctx := n, sketch := true, lcore := i }).phase = .halted := by
  simp [sketchHalted, allHalted, coreOf, Option.all_eq_true]

/-! ### While a core of the main run goes on -/

/-- The run goes on, with or without its sketch run. -/
theorem endIfHalted_goesOn {n : Nat} {s : State} {u : Run} (hu : (ctxOf s n).run = some u) (h : mainHalted (ctxOf s n) = false) :
    ∃ v, endIfHalted n s = updCtx n (fun c => { c with run := some v }) s ∨ endIfHalted n s = s := by
  unfold endIfHalted
  simp only [hu, h, Bool.false_and, Bool.false_eq_true, if_false]
  split
  · exact ⟨_, .inl rfl⟩
  · exact ⟨u, .inr rfl⟩

/-- From `s` to `t` nothing changes but which run of a context goes on. -/
structure RunGoesOn (n : Nat) (s t : State) : Prop where
  beside : t = { s with ctxs := t.ctxs }
  others : ∀ m, m ≠ n → ctxOf t m = ctxOf s m
  own : ctxOf t n = { ctxOf s n with run := (ctxOf t n).run }
  goesOn : (ctxOf t n).run.isSome = true

theorem runGoesOn_endIfHalted {n : Nat} {s : State} {u : Run} (hu : (ctxOf s n).run = some u) (h : mainHalted (ctxOf s n) = false) :
    RunGoesOn n s (endIfHalted n s) := by
  obtain ⟨v, heq | heq⟩ := endIfHalted_goesOn hu h
  · rw [heq]
    exact ⟨rfl, fun m hm => ctxOf_updCtx_ne hm _ _, by rw [ctxOf_updCtx_self], by rw [ctxOf_updCtx_self]; rfl⟩
  · rw [heq]
    exact ⟨rfl, fun _ _ => rfl, rfl, by rw [hu]; rfl⟩

theorem RunGoesOn.coreOf {n : Nat} {s t : State} (h : RunGoesOn n s t) (r : CoreRef) : coreOf t r = coreOf s r := by
  by_cases hr : r.ctx = n
  · rw [Machine.coreOf, hr, h.own, Machine.coreOf, hr]
  · rw [Machine.coreOf, h.others _ hr, Machine.coreOf]

theorem skipRest_eq (n : Nat) (s : State) : skipRest n s = leaveSlice n s ∨ skipRest n s = s := by
  unfold skipRest
  dsimp only
  split
  · exact .inl rfl
  · exact .inr rfl

theorem skipRest_run (n m : Nat) (s : State) : (ctxOf (skipRest n s) m).run = (ctxOf s m).run := by
  obtain h | h := skipRest_eq n s
  · rw [h, leaveSlice_run]
  · rw [h]

theorem coreBody_skipRest (n : Nat) (s : State) (r : CoreRef) : coreBody (coreOf (skipRest n s) r) = coreBody (coreOf s r) := by
  obtain h | h := skipRest_eq n s
  · rw [h, coreBody_leaveSlice]
  · rw [h]

/-! ### When every core of the run has halted -/

theorem endIfHalted_ends {n : Nat} {s : State} {u : Run} (hu : (ctxOf s n).run = some u) (hmain : mainHalted (ctxOf s n) = true)
    (hsketch : u.sketch = true → sketchHalted (ctxOf s n) = true) :
    endIfHalted n s = settleCtx n (updCtx n (fun c => { c with run := none }) (runServed n u (answerLine n s))) := by
  unfold endIfHalted
  simp only [hu]
  rw [if_pos]
  cases hsk : u.sketch
  · simp [hmain]
  · simp [hmain, hsketch hsk]

theorem leaveSlice_host (n : Nat) (s : State) : (leaveSlice n s).host = s.host := by
  unfold leaveSlice
  split
  · exact congrArg (fun v => v.1.host) (besideTransfers_pauseCtx n s)
  · rfl

theorem skipRest_host (n : Nat) (s : State) : (skipRest n s).host = s.host := by
  obtain h | h := skipRest_eq n s
  · rw [h, leaveSlice_host]
  · rw [h]

theorem settleCtx_run (n : Nat) (s : State) : (ctxOf (settleCtx n s) n).run = (ctxOf s n).run := by
  unfold settleCtx
  split
  · rw [ctxOf_updCtx_self]; exact leaveSlice_run n n s
  · rfl

/-- HALT while a core of the main run goes on. -/
theorem halt_goesOn {c : CoreRef} {s : State} {p : Program} {u : Run} {i : Nat} (hp : (ctxOf s c.ctx).prog = some p)
    (hu : (ctxOf s c.ctx).run = some u) (hi : i < progCores p) (hne : ({ ctx := c.ctx, sketch := false, lcore := i } : CoreRef) ≠ c)
    (hrun : (coreOf s { ctx := c.ctx, sketch := false, lcore := i }).phase ≠ .halted) :
    RunGoesOn c.ctx (haltedCore c s) (endIfHalted c.ctx (haltedCore c s)) := by
  refine runGoesOn_endIfHalted ((haltedCore_run c s).trans hu) (Bool.eq_false_iff.mpr fun hall => hrun ?_)
  have hphase := (mainHalted_iff ((haltedCore_prog c s).trans hp)).mp hall i hi
  rwa [coreOf_haltedCore_ne c s hne] at hphase

/-- The last HALT of a run. -/
theorem halt_ends {c : CoreRef} {s : State} {p : Program} {u : Run} (hp : (ctxOf s c.ctx).prog = some p) (hu : (ctxOf s c.ctx).run = some u)
    (hall : ∀ r : CoreRef, r ≠ c → r.ctx = c.ctx → (r.sketch = true → u.sketch = true) →
      (progOf (ctxOf s c.ctx) r.sketch).any (fun q => r.lcore < progCores q) = true → (coreOf s r).phase = .halted) :
    endIfHalted c.ctx (haltedCore c s) = settleCtx c.ctx (updCtx c.ctx (fun x => { x with run := none })
      (runServed c.ctx u (answerLine c.ctx (haltedCore c s)))) := by
  have halted (r : CoreRef) (hr : r.ctx = c.ctx) (hsk : r.sketch = true → u.sketch = true)
      (hin : (progOf (ctxOf s c.ctx) r.sketch).any (fun q => r.lcore < progCores q) = true) : (coreOf (haltedCore c s) r).phase = .halted := by
    by_cases hrc : r = c
    · rw [hrc, coreOf_haltedCore_self]
    · rw [coreOf_haltedCore_ne c s hrc]
      exact hall r hrc hr hsk hin
  refine endIfHalted_ends ((haltedCore_run c s).trans hu) ?_ fun hsk => ?_
  · exact (mainHalted_iff ((haltedCore_prog c s).trans hp)).mpr fun i hi =>
      halted { ctx := c.ctx, sketch := false, lcore := i } rfl (fun h => absurd h (by simp)) (by simp [progOf, hp, hi])
  · refine sketchHalted_iff.mpr fun d hd i hi => ?_
    rw [haltedCore_sketch] at hd
    exact halted { ctx := c.ctx, sketch := true, lcore := i } rfl (fun _ => hsk) (by simp [progOf, hd, hi])

/-- Settles O7: HALT marks its core; `halt_goesOn` and `halt_ends` say what becomes of the run. -/
theorem haltStopsTheCoreAndTheLastHaltEndsTheRun : Obligations.HaltStopsTheCoreAndTheLastHaltEndsTheRun := by
  intro c s p u hc hi hidle hp hu
  rw [execHalt_eq hc hi hidle]
  refine ⟨fun ⟨i, hip, hne, hrun⟩ => ⟨_, rfl, ?_, ?_, fun ⟨j, hj, hjc, hgoes⟩ => ?_⟩, fun hall => ⟨_, rfl, ?_, fun hkind hslot hcmd => ?_⟩⟩
  · have hbody := coreBody_skipRest c.ctx (endIfHalted c.ctx (haltedCore c s)) c
    rw [(halt_goesOn hp hu hip hne hrun).coreOf, coreOf_haltedCore_self] at hbody
    exact (congrArg Core.phase hbody :)
  · rw [skipRest_run]
    exact (halt_goesOn hp hu hip hne hrun).goesOn
  · have hgo := halt_goesOn hp hu hip hne hrun
    have hprog : (ctxOf (endIfHalted c.ctx (haltedCore c s)) c.ctx).prog = some p := by rw [hgo.own, ← hp, ← haltedCore_prog c s]
    rw [skipRest_goesOn hprog hj (by rw [hgo.coreOf, coreOf_haltedCore_ne c s hjc]; exact hgoes)]
    refine ⟨?_, fun n hn => ?_, ?_, fun r hr => ?_, ?_⟩
    · rw [hgo.beside, haltedCore_beside]
    · rw [hgo.others n hn, ctxOf_haltedCore_ne c s hn]
    · rw [hgo.coreOf, coreOf_haltedCore_self]
    · rw [hgo.coreOf, coreOf_haltedCore_ne c s hr]
    · rw [hgo.own, ← haltedCore_inSlice c s]
  · rw [skipRest_run, halt_ends hp hu hall, settleCtx_run, ctxOf_updCtx_self]
  · have hslot' : slotObj (haltedCore c s) p 1 = none := (slotObj_congr (by rw [haltedCore_beside]) p 1).trans hslot
    have hhost : (haltedCore c s).host = s.host := by rw [haltedCore_beside]
    have hends := runServed_ends (u := u) ((haltedCore_prog c s).trans hp) hslot' hkind (by rw [cmdOf_congr hhost]; exact hcmd)
    rw [halt_ends hp hu hall]
    rw [cmdOf_congr (skipRest_host _ _ |>.trans (settleCtx_host _ _)), skipRest_host, settleCtx_host]
    exact hends

end Sys2Proof.Machine
end

section
/-! SUPPORT. Proofs of the core program statements (chapter 4): the commands that make, change and load a context (O40). -/

namespace Sys2Proof.Machine
open Claims

/-! ### CTX_CREATE (R319) -/

theorem ctxDefined_iff {s : State} {n : Nat} : ctxDefined s n = true ↔ (ctxOf s n).state ≠ .free := by simp [ctxDefined]

theorem ctxOf_complete (tag : Nat) (st : Status) (s : State) (n : Nat) : ctxOf (complete tag st s) n = ctxOf s n :=
  ctxOf_congr (completeWith_ctxs tag st [] s) n

theorem ctxCreate_defined {tag : Nat} {c : Cmd} {s : State} (h : AtUnit s 0x20 tag c) (hdef : (ctxOf s (pktCtx c.pkt)).state ≠ .free) :
    exec (.ctxCreate tag) s = .next (complete c.tag (stInvalidField 2 0) s) := by
  change unitOp true (onCmd 0x20 tag anyPkt ctxCreateCmd s) = _
  rw [onCmd_atUnit h rfl, unitOp_ok, ctxCreateCmd, if_pos (ctxDefined_iff.mpr hdef)]

theorem ctxCreate_free {tag : Nat} {c : Cmd} {s : State} (h : AtUnit s 0x20 tag c) (hfree : (ctxOf s (pktCtx c.pkt)).state = .free) :
    exec (.ctxCreate tag) s = .next (complete c.tag (stSuccess 0 0 0) (setCtx (pktCtx c.pkt) (newCtx c.pkt) s)) := by
  change unitOp true (onCmd 0x20 tag anyPkt ctxCreateCmd s) = _
  rw [onCmd_atUnit h rfl, unitOp_ok, ctxCreateCmd, if_neg (by rw [ctxDefined_iff]; exact not_not.mpr hfree)]

/-! ### CTX_QUOTA (R217) -/

theorem ctxQuota_refused {tag : Nat} {c : Cmd} {s : State} (h : AtUnit s 0x22 tag c) (hdef : ctxDefined s (pktCtx c.pkt) = true)
    (hbad : quotaBad s c.pkt = true) : exec (.ctxQuota tag) s = .next (complete c.tag stQuota s) := by
  change unitOp true (onCmd 0x22 tag anyPkt ctxQuotaCmd s) = _
  rw [onCmd_atUnit h rfl, unitOp_ok, ctxQuotaCmd, if_neg (by simp [hdef]), if_pos hbad]

theorem ctxQuota_waits {tag : Nat} {c : Cmd} {s : State} (h : AtUnit s 0x22 tag c) (hdef : ctxDefined s (pktCtx c.pkt) = true)
    (hgood : quotaBad s c.pkt = false) : exec (.ctxQuota tag) s = .next (awaitTick c 0 s) := by
  change unitOp true (onCmd 0x22 tag anyPkt ctxQuotaCmd s) = _
  rw [onCmd_atUnit h rfl, unitOp_ok, ctxQuotaCmd, if_neg (by simp [hdef]), if_neg (by simp [hgood])]

/-- The quotas of a packet, put into a context (R217). -/
def withQuotas (p : PacketBits) (x : Context) : Context :=
  let later := quotaMask p 0 && pktField p 8 1 < x.quotaT1 && isResident x
  { x with
    quotaT1 := if quotaMask p 0 && !later then pktField p 8 1 else x.quotaT1
    lowerT1 := if quotaMask p 0 then (if later then some (pktField p 8 1) else none) else x.lowerT1
    quotaT2 := if quotaMask p 1 then newT2 p else x.quotaT2
    quotaT3 := if quotaMask p 2 then newT3 p else x.quotaT3
    quotaT4 := if quotaMask p 3 then pktField p 24 4 else x.quotaT4 }

/-- The copies that a lowered T2 quota evicts have left, and are counted. -/
def quotaEvicted (p : PacketBits) (s : State) : State :=
  let n := pktCtx p
  let ids := if quotaMask p 1 then (evictPick 0 (t2Use s n - newT2 p * 1048576) (evictable s n)).getD [] else []
  countFor n { evictions := ids.length } (ids.foldl (fun s id => dropCopyOf id s) s)

theorem applyQuota_eq {c : Cmd} {s : State} (hgood : quotaBad s c.pkt = false) :
    applyQuota c s = complete c.tag (stSuccess 0 0 0) (updCtx (pktCtx c.pkt) (withQuotas c.pkt) (quotaEvicted c.pkt s)) := by
  rw [applyQuota, if_neg (by simp [hgood])]
  rfl

theorem updateCmd_quota {u : State} {d : Cmd} (hop : pktOpcode d.pkt = 0x22) (hr : d.phase = .ready) (hp : atPoint u (pktCtx d.pkt) = true) :
    updateCmd u d = applyQuota d u := by
  simp [updateCmd, hp, paletteWrite, awaits, hop, hr]

theorem quotaEvicted_host (p : PacketBits) (s : State) : (quotaEvicted p s).host = s.host := by
  simp only [quotaEvicted, countFor_host]
  exact foldl_keeps (v := State.host) (fun u id => updObj_host _ _ u) _ s

theorem quotaEvicted_frame (p : PacketBits) (s : State) : (quotaEvicted p s).frame = s.frame := by
  simp only [quotaEvicted, countFor_frame]
  exact foldl_keeps (v := State.frame) (fun u id => updObj_frame _ _ u) _ s

theorem ctxOf_countFor_self (n : Nat) (k : Count) (s : State) :
    ctxOf (countFor n k s) n = { ctxOf s n with stats := countCtx k (ctxOf s n).stats } := ctxOf_updCtx_self n _ _

theorem ctxOf_quotaEvicted (p : PacketBits) (s : State) :
    ctxOf (quotaEvicted p s) (pktCtx p) = { ctxOf s (pktCtx p) with stats := (ctxOf (quotaEvicted p s) (pktCtx p)).stats } := by
  have hctxs (ids : List Nat) : (ids.foldl (fun s id => dropCopyOf id s) s).ctxs = s.ctxs :=
    foldl_keeps (v := State.ctxs) (fun u id => updObj_ctxs _ _ u) ids s
  unfold quotaEvicted
  dsimp only
  rw [ctxOf_countFor_self, ctxOf_congr (hctxs _)]

/-- What the quotas of a packet are from its update point. -/
theorem updateCmd_quota_takes {u : State} {d : Cmd} (hop : pktOpcode d.pkt = 0x22) (hr : d.phase = .ready)
    (hp : atPoint u (pktCtx d.pkt) = true) (hgood : quotaBad u d.pkt = false) :
    ∃ w x, updateCmd u d = complete d.tag (stSuccess 0 0 0) w ∧ w.host = u.host ∧ w.frame = u.frame ∧
      ctxOf w (pktCtx d.pkt) = withQuotas d.pkt { ctxOf u (pktCtx d.pkt) with stats := x } := by
  refine ⟨updCtx (pktCtx d.pkt) (withQuotas d.pkt) (quotaEvicted d.pkt u), (ctxOf (quotaEvicted d.pkt u) (pktCtx d.pkt)).stats, (updateCmd_quota hop hr hp).trans (applyQuota_eq hgood),
    quotaEvicted_host _ _, quotaEvicted_frame _ _, ?_⟩
  rw [ctxOf_updCtx_self, ctxOf_quotaEvicted]

/-! ### PROG_LOAD and CTX_FALLBACK at their unit (R110, R231) -/

theorem imageReady_eq (c : Cmd) (s : State) : imageReady c s = { s with host := (imageReady c s).host, ctxs := (imageReady c s).ctxs } := by
  unfold imageReady wakeCtx; split <;> rfl

theorem imageReady_host (c : Cmd) (s : State) : (imageReady c s).host = (updCmd c.tag (fun d => { d with phase := .ready }) s).host := by
  unfold imageReady wakeCtx; split <;> rfl

theorem joinsPlan_imageReady {s : State} {c : Cmd} (h : cmdOf s c.tag = some c) (hx : isExecution (pktOpcode c.pkt) = true) :
    JoinsPlan c (fun d => d.plan) s (imageReady c s) := by
  have hwork := hasWork_ready h hx (f := fun d => { d with phase := .ready }) rfl rfl
  have hctx (n : Nat) : ctxOf (updCmd c.tag (fun d => { d with phase := .ready }) s) n = ctxOf s n := rfl
  refine ⟨imageReady_host c s, fun n hn => ?_, ?_⟩
  · unfold imageReady wakeCtx
    split
    · exact ctxOf_updCtx_ne hn _ _
    · rfl
  · unfold imageReady wakeCtx
    rw [hwork, hctx, Bool.and_true]
    by_cases hb : (ctxOf s (pktCtx c.pkt)).state = .blocked
    · simp only [hb, decide_true, if_true]
      rw [ctxOf_updCtx_self, hctx]
    · simp only [hb, decide_false, Bool.false_eq_true, if_false]
      exact hctx _

theorem cmdOf_imageReady {s : State} {c : Cmd} (h : cmdOf s c.tag = some c) : cmdOf (imageReady c s) c.tag = some { c with phase := .ready } :=
  (cmdOf_congr (imageReady_host c s) _).trans (cmdOf_updCmd_self h fun _ => rfl)

theorem execProgLoad_eq {tag : Nat} {c : Cmd} {s : State} (h : AtUnit s 0x23 tag c) : exec (.progLoad tag) s = .next (progLoadCmd c s) := by
  change unitOp true (onCmd 0x23 tag anyPkt progLoadCmd s) = _
  rw [onCmd_atUnit h rfl, unitOp_ok]

theorem execCtxFallback_eq {tag : Nat} {c : Cmd} {s : State} (h : AtUnit s 0x24 tag c) : exec (.ctxFallback tag) s = .next (fallbackCmd c s) := by
  change unitOp true (onCmd 0x24 tag anyPkt fallbackCmd s) = _
  rw [onCmd_atUnit h rfl, unitOp_ok]

/-- A load that its unit makes wait, and that runs on a state of the same host interface and frame. -/
theorem takenUpLater_imageReady {s : State} {c : Cmd} {act : State → Cmd → State} {may : State → Prop} {post : State → State → Prop}
    (hc : cmdOf s c.tag = some c)
    (h : ∀ u, may u → ∃ v, act u { c with phase := .ready } = complete c.tag (stSuccess 0 0 0) v ∧ v.host = u.host ∧
      v.frame.counter = u.frame.counter ∧ post u (complete c.tag (stSuccess 0 0 0) v)) :
    TakenUpLater c { c with phase := .ready } act may post (imageReady c s) := by
  refine ⟨cmdOf_imageReady hc, fun u hu hmay => ?_⟩
  obtain ⟨v, hact, hhost, hframe, hpost⟩ := h u hmay
  rw [hact]
  exact ⟨commandCompletes_after hu rfl hhost hframe _, hpost⟩

/-! ### The loads (R109, R338, R362) -/

/-- A context with no stream connected. -/
def withoutConns (x : Context) : Context := { x with linked := [], joined := [], windows := [] }

theorem sendTo_eq (p route : Nat) (u : Word64) (m : RingMsg) (s : State) : ∃ r, sendTo p route u m s = { s with ring := r } := by
  unfold sendTo
  split
  · exact ⟨s.ring, rfl⟩
  · exact sendRing_eq _ s

theorem foldl_onlyRing {α : Type} {f : State → α → State} (h : ∀ s a, ∃ r, f s a = { s with ring := r }) (l : List α) (s : State) :
    ∃ r, l.foldl f s = { s with ring := r } := by
  induction l generalizing s with
  | nil => exact ⟨s.ring, rfl⟩
  | cons a l ih =>
    obtain ⟨r, hr⟩ := h s a
    obtain ⟨r', hr'⟩ := ih (f s a)
    exact ⟨r', by rw [List.foldl_cons, hr', hr]⟩

/-- Broken connections leave all but the ring and the context's connections. -/
theorem breakConns_eq (n : Nat) (s : State) : ∃ r, breakConns n s = updCtx n withoutConns { s with ring := r } := by
  unfold breakConns
  dsimp only
  obtain ⟨r, hr⟩ := foldl_onlyRing (f := fun s (e : StreamEntry × Nat) => sendConnect e.1.ring e.1.peerUid (.broken e.1.peerContext e.1.peerStream) s)
    (fun s e => sendTo_eq _ _ _ _ s) ((((ctxOf s n).prog.map (·.streams)).getD []).zipIdx.filter
      (fun e => (ctxOf s n).linked.contains e.2 || (ctxOf s n).joined.contains e.2)) s
  exact ⟨r, by rw [hr]; rfl⟩

theorem mapGet_loadedCores {p : Program} {i : Nat} (h : i < progCores p) :
    mapGet {} (loadedCores p) i = { t0 := { cells := cellsOf p.dataAddr p.data } } := by
  rw [mapGet, loadedCores, mapFind_map_key _ _ _ (List.mem_range.mpr h), Option.getD_some]

/-- A context with an image loaded (R109). -/
def withImage (p : Program) (x : Context) : Context := { x with prog := some p, cores := loadedCores p, streamIn := none, streamPart := [] }

/-- A context whose sketch path a CTX_FALLBACK declares or clears (R231). -/
def withSketch (c : Cmd) (x : Context) : Context :=
  if fallbackClears c then { x with sketch := none, sketchCores := [] }
  else { x with sketch := some { prog := programOf (cmdData c), cores := pktField c.pkt 8 1 }, sketchCores := loadedCores (programOf (cmdData c)) }

theorem startExec_load {d : Cmd} {u : State} (hop : pktOpcode d.pkt = 0x23) (hgood : progLoadErr u d = none) :
    startExec d u = complete d.tag (stSuccess 0 0 0) (updCtx (pktCtx d.pkt) (withImage (programOf (cmdData d))) (breakConns (pktCtx d.pkt) u)) := by
  simp only [startExec, hop, loadProg, hgood]
  rfl

theorem startExec_sketch {d : Cmd} {u : State} (hop : pktOpcode d.pkt = 0x24) (hgood : fallbackErr u d = none) :
    startExec d u = complete d.tag (stSuccess 0 0 0) (updCtx (pktCtx d.pkt) (withSketch d) u) := by
  simp only [startExec, hop, loadSketch, hgood]
  rfl

theorem sketch_withSketch (c : Cmd) (x : Context) : (withSketch c x).sketch =
    if fallbackClears c then none else some { prog := programOf (cmdData c), cores := pktField c.pkt 8 1 } := by
  unfold withSketch; split <;> rfl

theorem cmdData_phase (c : Cmd) (ph : CmdPhase) : cmdData { c with phase := ph } = cmdData c := by unfold cmdData; rfl

theorem progLoadErr_phase (u : State) (c : Cmd) (ph : CmdPhase) : progLoadErr u { c with phase := ph } = progLoadErr u c := by
  simp only [progLoadErr, cmdData_phase]

theorem fallbackErr_phase (u : State) (c : Cmd) (ph : CmdPhase) : fallbackErr u { c with phase := ph } = fallbackErr u c := by
  simp only [fallbackErr, cmdData_phase]
  rfl

/-- The load of a main image, when its turn comes. -/
theorem progLoad_runs {c : Cmd} {u : State} (hop : pktOpcode c.pkt = 0x23) (hgood : progLoadErr u c = none) :
    ∃ v, startExec { c with phase := .ready } u = complete c.tag (stSuccess 0 0 0) v ∧ v.host = u.host ∧ v.frame = u.frame ∧
      (ctxOf v (pktCtx c.pkt)).prog = some (programOf (cmdData c)) ∧ (ctxOf v (pktCtx c.pkt)).linked = [] ∧
      (ctxOf v (pktCtx c.pkt)).cores = loadedCores (programOf (cmdData c)) := by
  obtain ⟨r, hr⟩ := breakConns_eq (pktCtx c.pkt) u
  refine ⟨updCtx (pktCtx c.pkt) (withImage (programOf (cmdData c))) (breakConns (pktCtx c.pkt) u), ?_, ?_⟩
  · rw [startExec_load (d := { c with phase := .ready }) hop ((progLoadErr_phase u c _).trans hgood), cmdData_phase]
  · rw [ctxOf_updCtx_self, hr, ctxOf_updCtx_self]
    exact ⟨rfl, rfl, rfl, rfl, rfl⟩

/-- The load of a sketch image, when its turn comes. -/
theorem fallback_runs {c : Cmd} {u : State} (hop : pktOpcode c.pkt = 0x24) (hgood : fallbackErr u c = none) :
    ∃ v, startExec { c with phase := .ready } u = complete c.tag (stSuccess 0 0 0) v ∧ v.host = u.host ∧ v.frame = u.frame ∧
      (ctxOf v (pktCtx c.pkt)).sketch =
        if fallbackClears c then none else some { prog := programOf (cmdData c), cores := pktField c.pkt 8 1 } := by
  refine ⟨updCtx (pktCtx c.pkt) (withSketch { c with phase := .ready }) u,
    startExec_sketch hop ((fallbackErr_phase u c _).trans hgood), rfl, rfl, ?_⟩
  rw [ctxOf_updCtx_self, sketch_withSketch, cmdData_phase]
  rfl

/-! ### The clauses of the commands that need no destruction -/

theorem contextCreate_clause (tag : Nat) (c : Cmd) (s : State) (h : AtUnit s 0x20 tag c) :
    ((ctxOf s (pktCtx c.pkt)).state ≠ .free →
      ∃ t, exec (.ctxCreate tag) s = .next t ∧ OnlyHostChanges s t ∧ CommandCompletes c (stInvalidField 2 0) s t) ∧
    ((ctxOf s (pktCtx c.pkt)).state = .free → ∃ t, exec (.ctxCreate tag) s = .next t ∧ CommandCompletes c (stSuccess 0 0 0) s t ∧
      t = { s with host := t.host, ctxs := t.ctxs } ∧ (∀ n, n ≠ pktCtx c.pkt → ctxOf t n = ctxOf s n) ∧
      ctxOf t (pktCtx c.pkt) = newCtx c.pkt) := by
  obtain ⟨hc, -, -⟩ := cmdOf_of_atUnit h
  refine ⟨fun hdef => ⟨_, ctxCreate_defined h hdef, complete_onlyHost _ _ _, commandCompletes_complete hc rfl _⟩, fun hfree => ?_⟩
  set w := setCtx (pktCtx c.pkt) (newCtx c.pkt) s with hw
  refine ⟨_, ctxCreate_free h hfree, commandCompletes_after (w := w) hc rfl rfl rfl _, ?_, fun n hn => ?_, ?_⟩
  · have honly : complete c.tag (stSuccess 0 0 0) w = { w with host := (complete c.tag (stSuccess 0 0 0) w).host } := complete_onlyHost _ _ _
    rw [honly]
    rfl
  · rw [ctxOf_complete, ctxOf_setCtx_ne hn]
  · rw [ctxOf_complete, ctxOf_setCtx_self]

theorem contextQuota_clause (tag n : Nat) (c : Cmd) (s : State) (h : AtUnit s 0x22 tag c) (hn : n = pktCtx c.pkt) (hdef : ctxDefined s n = true) :
    (quotaBad s c.pkt = true → ∃ t, exec (.ctxQuota tag) s = .next t ∧ OnlyHostChanges s t ∧ CommandCompletes c stQuota s t) ∧
    (quotaBad s c.pkt = false → ∃ t, exec (.ctxQuota tag) s = .next t ∧ OnlyHostChanges s t ∧ WaitsForTick c s t ∧
      TakenUpLater c { c with phase := .ready, extra := 0 } updateCmd (fun u => atPoint u n = true ∧ quotaBad u c.pkt = false)
        (fun u v => ∃ x, ctxOf v n = withQuotas c.pkt { ctxOf u n with stats := x }) t) := by
  subst hn
  obtain ⟨hc, hop, -⟩ := cmdOf_of_atUnit h
  refine ⟨fun hbad => ⟨_, ctxQuota_refused h hdef hbad, complete_onlyHost _ _ _, commandCompletes_complete hc rfl _⟩, fun hgood =>
    ⟨_, ctxQuota_waits h hdef hgood, rfl, ⟨0, rfl⟩, takenUpLater_awaitTick hc rfl fun u ⟨hpoint, hok⟩ => ?_⟩⟩
  obtain ⟨w, x, hact, hhost, hframe, hctx⟩ := updateCmd_quota_takes (d := { c with phase := .ready, extra := 0 }) hop rfl hpoint hok
  exact ⟨w, hact, hhost, by rw [hframe], x, by rw [ctxOf_complete]; exact hctx⟩

theorem progLoad_clause (tag : Nat) (c : Cmd) (s : State) (h : AtUnit s 0x23 tag c) : ∃ t, exec (.progLoad tag) s = .next t ∧
    (∀ st, progLoadErr s c = some st → CommandCompletes c st s t) ∧
    (progLoadErr s c = none → JoinsPlan c (fun d => d.plan) s t ∧ t = { s with host := t.host, ctxs := t.ctxs } ∧
      TakenUpLater c { c with phase := .ready } (fun u d => startExec d u) (fun u => progLoadErr u c = none)
        (fun _ v => (ctxOf v (pktCtx c.pkt)).prog = some (programOf (cmdData c)) ∧ (ctxOf v (pktCtx c.pkt)).linked = [] ∧
          ∀ i, i < progCores (programOf (cmdData c)) → coreOf v { ctx := pktCtx c.pkt, sketch := false, lcore := i } =
            { t0 := { cells := cellsOf (programOf (cmdData c)).dataAddr (programOf (cmdData c)).data } }) t) := by
  obtain ⟨hc, hop, -⟩ := cmdOf_of_atUnit h
  refine ⟨_, execProgLoad_eq h, fun st hst => ?_, fun hgood => ?_⟩
  · rw [progLoadCmd, hst]
    exact (settleCtx_host _ _).trans (commandCompletes_complete hc rfl st)
  · rw [progLoadCmd, hgood]
    refine ⟨joinsPlan_imageReady hc (by rw [hop]; rfl), imageReady_eq c s, takenUpLater_imageReady hc fun u hu => ?_⟩
    obtain ⟨v, hact, hhost, hframe, hprog, hlinked, hcores⟩ := progLoad_runs hop hu
    refine ⟨v, hact, hhost, by rw [hframe], by rw [ctxOf_complete]; exact hprog, by rw [ctxOf_complete]; exact hlinked, fun i hi => ?_⟩
    rw [← mapGet_loadedCores hi, ← hcores, ← ctxOf_complete c.tag (stSuccess 0 0 0) v]
    rfl

theorem fallback_clause (tag : Nat) (c : Cmd) (s : State) (h : AtUnit s 0x24 tag c) : ∃ t, exec (.ctxFallback tag) s = .next t ∧
    (∀ st, fallbackErr s c = some st → CommandCompletes c st s t) ∧
    (fallbackErr s c = none → JoinsPlan c (fun d => d.plan) s t ∧ t = { s with host := t.host, ctxs := t.ctxs } ∧
      TakenUpLater c { c with phase := .ready } (fun u d => startExec d u) (fun u => fallbackErr u c = none)
        (fun _ v => (ctxOf v (pktCtx c.pkt)).sketch =
          if fallbackClears c then none else some { prog := programOf (cmdData c), cores := pktField c.pkt 8 1 }) t) := by
  obtain ⟨hc, hop, -⟩ := cmdOf_of_atUnit h
  refine ⟨_, execCtxFallback_eq h, fun st hst => ?_, fun hgood => ?_⟩
  · rw [fallbackCmd, hst]
    exact (settleCtx_host _ _).trans (commandCompletes_complete hc rfl st)
  · rw [fallbackCmd, hgood]
    refine ⟨joinsPlan_imageReady hc (by rw [hop]; rfl), imageReady_eq c s, takenUpLater_imageReady hc fun u hu => ?_⟩
    obtain ⟨v, hact, hhost, hframe, hsketch⟩ := fallback_runs hop hu
    exact ⟨v, hact, hhost, by rw [hframe], by rw [ctxOf_complete]; exact hsketch⟩

end Sys2Proof.Machine
end

section
/-! SUPPORT. Proofs of the core program statements (chapter 4): CTX_DESTROY (O40). -/

namespace Sys2Proof.Machine
open Claims

/-! ### Objects with a home (Table 11-6) -/

/-- Numbers of a context's objects that have a home, in a list of objects. -/
def homeNos (n : Nat) (l : SMap Obj) : List Nat :=
  ((l.filter (fun p => objCtx p.1 = n)).filter (fun p => p.2.kind != .scratch)).map (fun p => p.2.objNo)

theorem homeNos_map {f : Nat × Obj → Nat × Obj} (h : ∀ p, (f p).1 = p.1 ∧ (f p).2.kind = p.2.kind ∧ (f p).2.objNo = p.2.objNo) (n : Nat) (l : SMap Obj) :
    homeNos n (l.map f) = homeNos n l := by
  have hctx : (fun p : Nat × Obj => decide (objCtx p.1 = n)) ∘ f = fun p => decide (objCtx p.1 = n) := by
    funext p; simp [(h p).1]
  have hkind : (fun p : Nat × Obj => p.2.kind != .scratch) ∘ f = fun p => p.2.kind != .scratch := by
    funext p; simp [(h p).2.1]
  have hno : (fun p : Nat × Obj => p.2.objNo) ∘ f = fun p => p.2.objNo := by
    funext p; simp [(h p).2.2]
  rw [homeNos, List.filter_map, hctx, List.filter_map, hkind, List.map_map, hno, homeNos]

theorem homeNos_updObjs {f : Nat → Obj → Obj} (h : ∀ id o, (f id o).kind = o.kind ∧ (f id o).objNo = o.objNo) (n m : Nat) (s : State) :
    homeNos n (updObjs m f s).objs = homeNos n s.objs := by
  refine homeNos_map (f := fun p => (p.1, if objCtx p.1 = m then f p.1 p.2 else p.2)) (fun p => ⟨rfl, ?_⟩) n s.objs
  dsimp only
  split
  · exact h p.1 p.2
  · exact ⟨rfl, rfl⟩

theorem homeNos_withoutScratch (n m : Nat) (l : SMap Obj) :
    homeNos n (l.filter (fun p => !(objCtx p.1 = m && p.2.kind = .scratch))) = homeNos n l := by
  unfold homeNos
  rw [List.filter_filter, List.filter_filter, List.filter_filter]
  congr 1
  refine List.filter_congr fun p _ => ?_
  by_cases hk : p.2.kind = .scratch <;> simp [hk]

theorem mem_homeNos {n k : Nat} {s : State} : k ∈ homeNos n s.objs ↔ ∃ p ∈ objsOf s n, p.2.kind ≠ .scratch ∧ p.2.objNo = k := by
  simp [homeNos, objsOf, and_assoc, and_left_comm]

/-! ### What the end of a context keeps (R340, R342) -/

/-- The host interface, the frame, the queue of the swap engine, the buckets, the map, whether the module can write, and the context's
homes stay. -/
structure DestroyKeeps (n : Nat) (s t : State) : Prop where
  host : t.host = s.host
  frame : t.frame = s.frame
  swaps : t.swaps = s.swaps
  red : t.red = s.red
  map : t.flash.map = s.flash.map
  readOnly : t.flash.readOnly = s.flash.readOnly
  homes : homeNos n t.objs = homeNos n s.objs

theorem DestroyKeeps.trans {n : Nat} {s t u : State} (h : DestroyKeeps n s t) (g : DestroyKeeps n t u) : DestroyKeeps n s u :=
  ⟨g.host.trans h.host, g.frame.trans h.frame, g.swaps.trans h.swaps, g.red.trans h.red, g.map.trans h.map, g.readOnly.trans h.readOnly,
    g.homes.trans h.homes⟩

theorem destroyKeeps_updCtx (n m : Nat) (f : Context → Context) (s : State) : DestroyKeeps n s (updCtx m f s) := ⟨rfl, rfl, rfl, rfl, rfl, rfl, rfl⟩

theorem destroyKeeps_updObjs {f : Nat → Obj → Obj} (h : ∀ id o, (f id o).kind = o.kind ∧ (f id o).objNo = o.objNo) (n m : Nat) (s : State) :
    DestroyKeeps n s (updObjs m f s) := ⟨rfl, rfl, rfl, rfl, rfl, rfl, homeNos_updObjs h n m s⟩

theorem destroyKeeps_pruneFlight (n : Nat) (s : State) : DestroyKeeps n s (pruneFlight s) := ⟨rfl, rfl, rfl, rfl, rfl, rfl, rfl⟩

theorem destroyKeeps_dropReads (n : Nat) (pick : ReadOp → Bool) (s : State) : DestroyKeeps n s (dropReads pick s) := ⟨rfl, rfl, rfl, rfl, rfl, rfl, rfl⟩

theorem destroyKeeps_imports (n : Nat) (r : Ring) (s : State) : DestroyKeeps n s { s with ring := r } := ⟨rfl, rfl, rfl, rfl, rfl, rfl, rfl⟩

theorem destroyKeeps_dropPosts (n m : Nat) (s : State) : DestroyKeeps n s (dropPosts m s) := by
  unfold dropPosts
  refine .trans ?_ (destroyKeeps_pruneFlight _ _)
  refine .trans ?_ (destroyKeeps_updObjs (by intro _ _; exact ⟨rfl, rfl⟩) _ _ _)
  refine .trans ?_ (destroyKeeps_dropReads _ _ _)
  exact .trans (destroyKeeps_updCtx _ _ _ _) (destroyKeeps_imports _ _ _)

theorem streamingCores_none {n : Nat} {s : State} (h : (ctxOf s n).cores = []) (h' : (ctxOf s n).sketchCores = []) : streamingCores s n = [] := by
  simp [streamingCores, h, h']

theorem destroyKeeps_endRun {n : Nat} {s : State} (h : (ctxOf s n).cores = []) (h' : (ctxOf s n).sketchCores = []) : DestroyKeeps n s (endRun n s) := by
  have hpause : pauseCtx n s = s := pauseCtx_idle (by simp [h, h'])
  unfold endRun
  dsimp only
  rw [hpause, streamingCores_none h h']
  exact (destroyKeeps_updCtx _ _ _ _).trans (destroyKeeps_dropPosts _ _ _)

theorem destroyKeeps_dropQueries (n : Nat) (pick : Query → Bool) (s : State) : DestroyKeeps n s (dropQueries pick s) := ⟨rfl, rfl, rfl, rfl, rfl, rfl, rfl⟩

theorem freeTagsOf_none {n : Nat} {s : State} (h : ∀ p ∈ s.red.tags, p.2.ctx ≠ n) : freeTagsOf n s = s := by
  have hnone : s.red.tags.filter (fun t => t.2.state != .free && t.2.ctx = n) = [] :=
    List.filter_eq_nil_iff.mpr fun p hp => by simp [h p hp]
  rw [freeTagsOf, hnone]; rfl

theorem destroyKeeps_breakConns (n m : Nat) (s : State) : DestroyKeeps n s (breakConns m s) := by
  obtain ⟨r, hr⟩ := breakConns_eq m s
  rw [hr]
  exact ⟨rfl, rfl, rfl, rfl, rfl, rfl, rfl⟩

theorem destroyKeeps_dropScratch (n m : Nat) (s : State) : DestroyKeeps n s (dropScratch m s) := by
  unfold dropScratch
  refine .trans ?_ (destroyKeeps_updObjs (by intro _ _; exact ⟨rfl, rfl⟩) _ _ _)
  exact ⟨rfl, rfl, rfl, rfl, rfl, rfl, homeNos_withoutScratch n m s.objs⟩

/-! ### CTX_DESTROY at its unit (R342) -/

/-- The command with its save area being wiped. -/
def destroying (d : Cmd) : Cmd := { d with phase := .running, extra := 1 }

section Destroy

variable {tag n : Nat} {c : Cmd} {s : State} (h : AtUnit s 0x21 tag c) (hn : n = pktCtx c.pkt)
  (halone : ∀ d ∈ s.host.cmds, d.tag ≠ tag → pktCtx d.pkt ≠ n)

include h hn halone

theorem execCtxDestroy_alone : exec (.ctxDestroy tag) s = .next (destroyNow c s) := by
  obtain ⟨hc, hop, htag⟩ := cmdOf_of_atUnit h
  subst hn
  have hnone : s.host.cmds.filter (fun d => d.tag != c.tag && pktCtx d.pkt = pktCtx c.pkt) = [] :=
    List.filter_eq_nil_iff.mpr fun d hd => by
      by_cases hdt : d.tag = tag
      · simp [hdt, htag]
      · simp [halone d hd hdt]
  have hwaits : destroyWaits s c = false := by
    rw [destroyWaits, List.any_eq_false]
    intro d hd
    by_cases hdt : d.tag = tag
    · simp [hdt, htag]
    · simp [halone d hd hdt]
  change unitOp true (onCmd 0x21 tag anyPkt tryDestroy s) = _
  rw [onCmd_atUnit h rfl, unitOp_ok, tryDestroy, hnone]
  simp only [abortList, List.foldl_nil, hwaits, Bool.false_eq_true, if_false]

end Destroy

/-- The context has been ended, and its save area waits to be wiped. -/
structure EndsContext (n : Nat) (c : Cmd) (s t : State) : Prop where
  host : t.host = (updCmd c.tag destroying s).host
  frame : t.frame = s.frame
  swaps : t.swaps = [{ ctx := n, domain := 0, swapIn := false, wipe := true }]
  map : t.flash.map = s.flash.map
  readOnly : t.flash.readOnly = s.flash.readOnly
  homes : homeNos n t.objs = homeNos n s.objs
  ctx : (ctxOf t n).prog = none ∧ (ctxOf t n).wiping = true

/-- A context whose work, connections and SCRATCH objects have gone. -/
def endedCtx (n : Nat) (s : State) : State :=
  dropScratch n (breakConns n (freeTagsOf n (dropQueries (fun q => q.ctx = n) (endRun n s))))

theorem destroyKeeps_endedCtx {n : Nat} {s : State} (hcores : (ctxOf s n).cores = []) (hsketch : (ctxOf s n).sketchCores = [])
    (htags : ∀ p ∈ s.red.tags, p.2.ctx ≠ n) : DestroyKeeps n s (endedCtx n s) := by
  have hrun := (destroyKeeps_endRun hcores hsketch).trans (destroyKeeps_dropQueries n (fun q => q.ctx = n) (endRun n s))
  have hfree : freeTagsOf n (dropQueries (fun q => q.ctx = n) (endRun n s)) = dropQueries (fun q => q.ctx = n) (endRun n s) :=
    freeTagsOf_none (by rw [hrun.red]; exact htags)
  rw [endedCtx, hfree]
  exact (hrun.trans (destroyKeeps_breakConns n n _)).trans (destroyKeeps_dropScratch n n _)

/-- The context is wiped but for its parameters, and holds no domain. -/
def emptied (x : Context) : Context := { wipedCtx x with alloc := [] }

/-- The swap engine's queue without this context, and the wipe of its save area at the end. -/
def wipeQueue (n : Nat) (l : List SwapOp) : List SwapOp := l.filter (fun o => o.ctx != n) ++ [{ ctx := n, domain := 0, swapIn := false, wipe := true }]

theorem destroyNow_eq (c : Cmd) (s : State) : destroyNow c s = updCmd c.tag destroying
    { updCtx (pktCtx c.pkt) emptied (endedCtx (pktCtx c.pkt) s) with
      swaps := wipeQueue (pktCtx c.pkt) (updCtx (pktCtx c.pkt) emptied (endedCtx (pktCtx c.pkt) s)).swaps } := rfl

theorem wipeQueue_own {n : Nat} {l : List SwapOp} (h : ∀ o ∈ l, o.ctx = n) :
    wipeQueue n l = [{ ctx := n, domain := 0, swapIn := false, wipe := true }] := by
  rw [wipeQueue, List.filter_eq_nil_iff.mpr fun o ho => by simp [h o ho]]; rfl

theorem endsContext_destroyNow {c : Cmd} {n : Nat} {s : State} (hn : n = pktCtx c.pkt) (hswaps : ∀ o ∈ s.swaps, o.ctx = n)
    (hcores : (ctxOf s n).cores = []) (hsketch : (ctxOf s n).sketchCores = []) (htags : ∀ p ∈ s.red.tags, p.2.ctx ≠ n) :
    EndsContext n c s (destroyNow c s) := by
  have hkeeps := (destroyKeeps_endedCtx hcores hsketch htags).trans (destroyKeeps_updCtx n n emptied (endedCtx n s))
  have hctx := ctxOf_updCtx_self n emptied (endedCtx n s)
  rw [destroyNow_eq, ← hn]
  generalize updCtx n emptied (endedCtx n s) = t at hkeeps hctx ⊢
  refine ⟨?_, hkeeps.frame, ?_, hkeeps.map, hkeeps.readOnly, hkeeps.homes, ?_⟩
  · rw [updCmd, updCmd, ← hkeeps.host]
  · change wipeQueue n t.swaps = _
    rw [hkeeps.swaps, wipeQueue_own hswaps]
  · exact ⟨(congrArg Context.prog hctx :), (congrArg Context.wiping hctx :)⟩

end Sys2Proof.Machine
end

section
/-! SUPPORT. Proofs of the core program statements (chapter 4): the objects of a destroyed context, and O40. -/

namespace Sys2Proof.Machine
open Claims

/-! ### The wipe ends (Table 11-6) -/

/-- The command completes from a state in which its unit has changed nothing of the host interface but its own entry. -/
theorem commandCompletes_own {s w : State} {c : Cmd} {f : Cmd → Cmd} (h : cmdOf s c.tag = some c) (hf : ∀ d, (f d).tag = d.tag)
    (hpkt : (f c).pkt = c.pkt) (hh : w.host = (updCmd c.tag f s).host) (hframe : w.frame = s.frame) (st : Status) :
    CommandCompletes c st s (complete c.tag st w) := by
  have hcmd : cmdOf w c.tag = some (f c) := (cmdOf_congr hh _).trans (cmdOf_updCmd_self h hf)
  have hrest : w.host.cmds.filter (fun d => d.tag != c.tag) = s.host.cmds.filter (fun d => d.tag != c.tag) := by
    rw [hh]
    change (s.host.cmds.map (fun d => if d.tag = c.tag then f d else d)).filter (fun d => d.tag != c.tag) = _
    induction s.host.cmds with
    | nil => rfl
    | cons d l ih =>
      rw [List.map_cons, List.filter_cons, List.filter_cons, ih]
      by_cases hd : d.tag = c.tag
      · simp [hd, hf]
      · simp [hd]
  rw [CommandCompletes, complete_host hcmd, hrest, hh, recordOf, recordOf, hpkt, hf, hframe]
  rfl

section Destroy

variable {tag n : Nat} {c : Cmd} {s t : State} (h : AtUnit s 0x21 tag c) (hn : n = pktCtx c.pkt)
  (halone : ∀ d ∈ s.host.cmds, d.tag ≠ tag → pktCtx d.pkt ≠ n)

/-- A CTX_DESTROY of context `n` whose wipe is under way. -/
def destroysCtx (n : Nat) (d : Cmd) : Bool := pktOpcode d.pkt = 0x21 && pktCtx d.pkt = n && d.extra = 1

include h hn halone in
theorem find_destroying : (updCmd c.tag destroying s).host.cmds.find? (destroysCtx n) = some (destroying c) := by
  obtain ⟨hc, hop, htag⟩ := cmdOf_of_atUnit h
  obtain ⟨-, as, bs, hcmds, has⟩ := List.find?_eq_some_iff_append.mp hc
  have hown : destroysCtx n (destroying c) = true := by simp [destroysCtx, destroying, hop, hn]
  have hbefore : (as.map (fun d => if d.tag = c.tag then destroying d else d)).find? (destroysCtx n) = none := by
    rw [List.find?_eq_none]
    intro x hx
    obtain ⟨d, hd, rfl⟩ := List.mem_map.mp hx
    have hne : d.tag ≠ c.tag := by simpa using has d hd
    have hother := halone d (by rw [hcmds]; exact List.mem_append_left _ hd) (htag ▸ hne)
    simp [hne, destroysCtx, hother]
  change (s.host.cmds.map (fun d => if d.tag = c.tag then destroying d else d)).find? (destroysCtx n) = _
  rw [hcmds, List.map_append, List.find?_append, hbefore, List.map_cons, if_pos rfl, List.find?_cons, hown]
  rfl

/-- The wipe of a save area has ended. -/
def unwiped (x : Context) : Context := { x with wiping := false, saved := false }

include h hn halone in
theorem wiped_destroys (he : EndsContext n c s t) : wiped n t = destroyObjects (destroying c) (updCtx n unwiped { t with swaps := [] }) := by
  have hfind : t.host.cmds.find? (destroysCtx n) = some (destroying c) := by rw [he.host]; exact find_destroying h hn halone
  have hidle : beginSwapIn (updCtx n unwiped { t with swaps := [] }) = updCtx n unwiped { t with swaps := [] } :=
    beginSwapIn_swapOut (fun _ hp => absurd hp List.not_mem_nil)
  unfold wiped
  simp only [he.swaps, Bool.true_and, decide_true, if_true]
  change (match (beginSwapIn (updCtx n unwiped { t with swaps := [] })).host.cmds.find? (destroysCtx n) with
    | some c => destroyObjects c (beginSwapIn (updCtx n unwiped { t with swaps := [] }))
    | none => beginSwapIn (updCtx n unwiped { t with swaps := [] })) = _
  rw [hidle]
  change (match t.host.cmds.find? (destroysCtx n) with
    | some c => destroyObjects c (updCtx n unwiped { t with swaps := [] })
    | none => updCtx n unwiped { t with swaps := [] }) = _
  rw [hfind]

end Destroy

/-! ### The objects go (R255, R342) -/

/-- The objects of a context without copies, and without reads for them. -/
def copiesGone (n : Nat) (s : State) : State :=
  updObjs n (fun _ o => { o with copy := none, redTags := [] }) (dropReads (fun r => match r.why with
    | .fill o _ _ => objCtx o = n
    | _ => false) s)

theorem destroyKeeps_copiesGone (n : Nat) (s : State) : DestroyKeeps n s (copiesGone n s) :=
  .trans (destroyKeeps_dropReads n _ s) (destroyKeeps_updObjs (by intro _ _; exact ⟨rfl, rfl⟩) n n _)

/-- The objects of a context that have a home. -/
def homedObjs (n : Nat) (s : State) : SMap Obj := (objsOf s n).filter (fun p => p.2.kind != .scratch)

theorem map_homedObjs (n : Nat) (s : State) : (homedObjs n s).map (fun p => p.2.objNo) = homeNos n s.objs := rfl

/-- A tombstone over a whole object. -/
def buryObj (tag n : Nat) (s : State) (p : Nat × Obj) : State := enqTombstone tag n p.1 (p.2.objNo % 32) [(p.2.objNo * 2 ^ 24, 0)] s

theorem destroyObjects_eq (c : Cmd) (s : State) : destroyObjects c s =
    if (copiesGone (pktCtx c.pkt) s).flash.readOnly then complete c.tag stProgramFail (finishDestroy (pktCtx c.pkt) (copiesGone (pktCtx c.pkt) s))
    else if (homedObjs (pktCtx c.pkt) (copiesGone (pktCtx c.pkt) s)).isEmpty then
      complete c.tag (stSuccess 0 0 0) (finishDestroy (pktCtx c.pkt) (copiesGone (pktCtx c.pkt) s))
    else keepRunning c (homedObjs (pktCtx c.pkt) (copiesGone (pktCtx c.pkt) s)).length
      ((homedObjs (pktCtx c.pkt) (copiesGone (pktCtx c.pkt) s)).foldl (buryObj c.tag (pktCtx c.pkt)) (copiesGone (pktCtx c.pkt) s)) := rfl

/-- A destroyed context: FREE, with no object. -/
structure Destroyed (n : Nat) (s t : State) : Prop where
  host : t.host = s.host
  frame : t.frame = s.frame
  map : t.flash.map = s.flash.map
  ctx : ctxOf t n = {}
  objs : ∀ p ∈ t.objs, objCtx p.1 ≠ n

theorem destroyed_finishDestroy (n : Nat) (s : State) : Destroyed n s (finishDestroy n s) :=
  ⟨rfl, rfl, rfl, ctxOf_setCtx_self _ _ _, fun p hp => by simpa using (List.mem_filter.mp hp).2⟩

theorem Destroyed.complete {n : Nat} {s t : State} (h : Destroyed n s t) (tag : Nat) (st : Status) :
    (complete tag st t).frame = s.frame ∧ (complete tag st t).flash.map = s.flash.map ∧ ctxOf (complete tag st t) n = {} ∧
      ∀ p ∈ (complete tag st t).objs, objCtx p.1 ≠ n := by
  rw [Machine.complete, completeWith_frame, completeWith_flash, completeWith_objs, ctxOf_congr (completeWith_ctxs tag st [] t)]
  exact ⟨h.frame, h.map, h.ctx, h.objs⟩

/-! ### Tombstones (R255) -/

/-- A tombstone of this command over the object of this number is queued. -/
def Buried (tag no : Nat) (s : State) : Prop :=
  ∃ o ∈ s.flash.progQ, o.tag = tag ∧ o.ver.kind = .tombstone ∧ o.ver.slots.map (·.lga) = [no * 2 ^ 24]

theorem buryObj_host (tag n : Nat) (s : State) (p : Nat × Obj) : (buryObj tag n s p).host = s.host := by
  rw [buryObj, enqTombstone_one, (flashRuns_enqProg _ _).host]; rfl

theorem buried_buryObj (tag n : Nat) (s : State) (p : Nat × Obj) : Buried tag p.2.objNo (buryObj tag n s p) := by
  rw [buryObj, enqTombstone_one]
  obtain ⟨q, hq, heq⟩ := enqProg_queues { id := 0, tag := tag, ctx := n, obj := p.1, kind := .record, ch := p.2.objNo % 32
                                          ver := { kind := .tombstone, slots := [{ lga := p.2.objNo * 2 ^ 24, count := 0, seq := s.flash.seq }] } } (drawSeq s)
  have hver := congrArg ProgOp.ver heq
  exact ⟨q, hq, (congrArg ProgOp.tag heq :), (congrArg Version.kind hver :), (congrArg (fun v => v.slots.map (·.lga)) hver :)⟩

theorem Buried.buryObj {tag no : Nat} {s : State} (h : Buried tag no s) (n : Nat) (p : Nat × Obj) : Buried tag no (buryObj tag n s p) := by
  obtain ⟨o, ho, htag, hkind, hslots⟩ := h
  rw [Machine.buryObj, enqTombstone_one]
  obtain ⟨q, hq, heq⟩ := (flashRuns_enqProg _ (drawSeq s)).progs o ho
  exact ⟨q, hq, (congrArg ProgOp.tag heq :).trans htag, (congrArg (fun o => o.ver.kind) heq :).trans hkind,
    (congrArg (fun o => o.ver.slots.map (·.lga)) heq :).trans hslots⟩

theorem Buried.foldl {tag no n : Nat} {s : State} (h : Buried tag no s) (l : SMap Obj) : Buried tag no (l.foldl (Machine.buryObj tag n) s) := by
  induction l generalizing s with
  | nil => exact h
  | cons p l ih => exact ih (h.buryObj n p)

theorem buried_foldl {tag n : Nat} {l : SMap Obj} {p : Nat × Obj} (hp : p ∈ l) (s : State) : Buried tag p.2.objNo (l.foldl (buryObj tag n) s) := by
  induction l generalizing s with
  | nil => exact absurd hp List.not_mem_nil
  | cons q l ih =>
    rw [List.foldl_cons]
    rcases List.mem_cons.mp hp with rfl | hp
    · exact (buried_buryObj tag n s p).foldl l
    · exact ih hp _

/-- When the last tombstone of a CTX_DESTROY has passed, the context is FREE and the command completes (Table 11-6). -/
theorem progStep_destroy {o : ProgOp} {c : Cmd} {s : State} (hc : cmdOf s o.tag = some c) (hl : c.left ≤ 1) (hr : c.result = none)
    (h21 : pktOpcode c.pkt = 0x21) : progStep o s = complete o.tag (stSuccess 0 0 0) (finishDestroy (pktCtx c.pkt) s) := by
  have htag := tag_of_cmdOf hc
  simp only [progStep, hc, hl, if_true, finishProg, hr, h21]
  rw [htag]

theorem lastProgramCompletes_destroy {c : Cmd} (h21 : pktOpcode c.pkt = 0x21) : LastProgramCompletes c := by
  intro u d o die n hd hpkt hl hr hf htag ho hdie hs hp
  rw [execFlashProgramComplete_eq hdie hf ho hs hp, if_pos rfl]
  set w := programEffect o (placesOf o die n (dieDone o die u)) (programmed o die n (dieDone o die u)) with hw
  have hbeside : besideFlash w = besideFlash u := (besideFlash_programEffect _ _ _).trans (besideFlash_programmed _ _ _ _)
  have hhost : w.host = u.host := (congrArg State.host hbeside :)
  have hframe : w.frame = u.frame := (congrArg State.frame hbeside :)
  have hcmd : cmdOf w o.tag = some d := by rw [cmdOf_congr hhost, htag]; exact hd
  have hdt : d.tag = c.tag := tag_of_cmdOf hd
  have hstep : progPass o die n (dieDone o die u) = complete d.tag (stSuccess 0 0 0) (finishDestroy (pktCtx d.pkt) w) := by
    rw [progPass_eq, progStep_destroy hcmd hl hr (hpkt ▸ h21), htag, hdt]
  refine ⟨_, rfl, ?_⟩
  rw [hstep, CommandCompletes, flashGo_host]
  exact commandCompletes_after (w := finishDestroy (pktCtx d.pkt) w) (by rw [hdt]; exact hd) rfl hhost (by rw [← hframe]; rfl) _

/-! ### CTX_DESTROY (R342) -/

section Destroy

variable {tag n : Nat} {c : Cmd} {s t : State} (h : AtUnit s 0x21 tag c) (hn : n = pktCtx c.pkt)
  (halone : ∀ d ∈ s.host.cmds, d.tag ≠ tag → pktCtx d.pkt ≠ n) (he : EndsContext n c s t)

/-- The state in which the objects of the context go. -/
def burying (n : Nat) (t : State) : State := copiesGone n (updCtx n unwiped { t with swaps := [] })

include he in
theorem burying_host : (burying n t).host = (updCmd c.tag destroying s).host := he.host

include he in
theorem burying_homes : homeNos n (burying n t).objs = homeNos n s.objs := (destroyKeeps_copiesGone n _).homes.trans he.homes

include h hn halone he

theorem execTeardownComplete_readOnly (h1 : 1 ≤ n) (h2 : n ≤ 255) (hro : s.flash.readOnly = true) :
    exec (.teardownComplete n) t = .next (complete c.tag stProgramFail (finishDestroy n (burying n t))) := by
  refine (unitOp_of (wfCtx_of h1 h2) _).trans (congrArg _ ?_)
  have hread : (burying n t).flash.readOnly = true := he.readOnly.trans hro
  subst hn
  rw [wiped_destroys h rfl halone he, destroyObjects_eq]
  exact if_pos hread

theorem execTeardownComplete_noHome (h1 : 1 ≤ n) (h2 : n ≤ 255) (hro : s.flash.readOnly = false) (hnone : homeNos n s.objs = []) :
    exec (.teardownComplete n) t = .next (complete c.tag (stSuccess 0 0 0) (finishDestroy n (burying n t))) := by
  refine (unitOp_of (wfCtx_of h1 h2) _).trans (congrArg _ ?_)
  have hread : ¬ (burying n t).flash.readOnly = true := by rw [show (burying n t).flash.readOnly = false from he.readOnly.trans hro]; simp
  have hempty : (homedObjs n (burying n t)).isEmpty = true := by
    rw [List.isEmpty_iff, ← List.map_eq_nil_iff (f := fun p : Nat × Obj => p.2.objNo)]
    exact (burying_homes he).trans hnone
  subst hn
  rw [wiped_destroys h rfl halone he, destroyObjects_eq]
  exact (if_neg hread).trans (if_pos hempty)

theorem execTeardownComplete_buries (h1 : 1 ≤ n) (h2 : n ≤ 255) (hro : s.flash.readOnly = false) (hsome : homeNos n s.objs ≠ []) :
    exec (.teardownComplete n) t = .next (keepRunning (destroying c) (homedObjs n (burying n t)).length
      ((homedObjs n (burying n t)).foldl (buryObj c.tag n) (burying n t))) := by
  refine (unitOp_of (wfCtx_of h1 h2) _).trans (congrArg _ ?_)
  have hread : ¬ (burying n t).flash.readOnly = true := by rw [show (burying n t).flash.readOnly = false from he.readOnly.trans hro]; simp
  have hempty : ¬ (homedObjs n (burying n t)).isEmpty = true := by
    rw [List.isEmpty_iff, ← List.map_eq_nil_iff (f := fun p : Nat × Obj => p.2.objNo)]
    exact fun hnil => hsome ((burying_homes he).symm.trans hnil)
  subst hn
  rw [wiped_destroys h rfl halone he, destroyObjects_eq]
  exact (if_neg hread).trans (if_neg hempty)

end Destroy

/-- The state after the last of a context has gone stands on the one before as `Destroyed` says. -/
theorem destroyed_burying {n : Nat} {c : Cmd} {s t : State} (he : EndsContext n c s t) : (finishDestroy n (burying n t)).host = (updCmd c.tag destroying s).host ∧
    (finishDestroy n (burying n t)).frame = s.frame ∧ (finishDestroy n (burying n t)).flash.map = s.flash.map := by
  have hd := destroyed_finishDestroy n (burying n t)
  exact ⟨hd.host.trans he.host, hd.frame.trans he.frame, hd.map.trans he.map⟩

/-- The tombstones of a CTX_DESTROY are queued, and the command waits for them. -/
theorem buries_all {n : Nat} {c : Cmd} {s t : State} (hc : cmdOf s c.tag = some c) (he : EndsContext n c s t) :
    StandsAs c .running (keepRunning (destroying c) (homedObjs n (burying n t)).length ((homedObjs n (burying n t)).foldl (buryObj c.tag n) (burying n t))) ∧
      ∀ p ∈ objsOf s n, p.2.kind ≠ .scratch → Buried c.tag p.2.objNo
        (keepRunning (destroying c) (homedObjs n (burying n t)).length ((homedObjs n (burying n t)).foldl (buryObj c.tag n) (burying n t))) := by
  have hhost : ((homedObjs n (burying n t)).foldl (buryObj c.tag n) (burying n t)).host = (updCmd c.tag destroying s).host :=
    (foldl_keeps (v := State.host) (buryObj_host c.tag n) _ _).trans he.host
  refine ⟨?_, fun p hp hk => ?_⟩
  · exact ⟨_, cmdOf_updCmd_self ((cmdOf_congr hhost _).trans (cmdOf_updCmd_self hc fun _ => rfl)) fun _ => rfl, rfl, rfl⟩
  · have hmem : p.2.objNo ∈ (homedObjs n (burying n t)).map (fun p => p.2.objNo) := by
      rw [map_homedObjs, burying_homes he]
      exact mem_homeNos.mpr ⟨p, hp, hk, rfl⟩
    obtain ⟨q, hq, hno⟩ := List.mem_map.mp hmem
    rw [← hno]
    exact buried_foldl hq (burying n t)

theorem contextDestroy_clause (tag n : Nat) (c : Cmd) (s : State) (h : AtUnit s 0x21 tag c) (hn : n = pktCtx c.pkt) (h1 : 1 ≤ n) (h2 : n ≤ 255)
    (halone : ∀ d ∈ s.host.cmds, d.tag ≠ tag → pktCtx d.pkt ≠ n) (hswaps : ∀ o ∈ s.swaps, o.ctx = n) (hcores : (ctxOf s n).cores = [])
    (hsketch : (ctxOf s n).sketchCores = []) (htags : ∀ p ∈ s.red.tags, p.2.ctx ≠ n) :
    ∃ t u, exec (.ctxDestroy tag) s = .next t ∧ (ctxOf t n).prog = none ∧ (ctxOf t n).wiping = true ∧ StandsAs c .running t ∧
      exec (.teardownComplete n) t = .next u ∧
      (s.flash.readOnly = true → CommandCompletes c stProgramFail s u ∧ ctxOf u n = {} ∧ (∀ p ∈ u.objs, objCtx p.1 ≠ n)) ∧
      (s.flash.readOnly = false → (∀ p ∈ objsOf s n, p.2.kind = .scratch) →
        CommandCompletes c (stSuccess 0 0 0) s u ∧ ctxOf u n = {} ∧ (∀ p ∈ u.objs, objCtx p.1 ≠ n) ∧ u.flash.map = s.flash.map ∧ u.frame = s.frame) ∧
      (s.flash.readOnly = false → (∃ p ∈ objsOf s n, p.2.kind ≠ .scratch) → LastProgramCompletes c ∧ StandsAs c .running u ∧
        ∀ p ∈ objsOf s n, p.2.kind ≠ .scratch → Buried c.tag p.2.objNo u) := by
  obtain ⟨hc, hop, -⟩ := cmdOf_of_atUnit h
  have hexec := execCtxDestroy_alone h hn halone
  have he := endsContext_destroyNow hn hswaps hcores hsketch htags
  generalize destroyNow c s = t at hexec he
  have hstands : StandsAs c .running t := ⟨destroying c, (cmdOf_congr he.host _).trans (cmdOf_updCmd_self hc fun _ => rfl), rfl, rfl⟩
  obtain ⟨hhost, hframe, hmap⟩ := destroyed_burying he
  have hends (st : Status) := commandCompletes_own hc (f := destroying) (fun _ => rfl) rfl hhost hframe st
  have hgone (st : Status) := (destroyed_finishDestroy n (burying n t)).complete c.tag st
  obtain ⟨hprog, hwiping⟩ := he.ctx
  cases hro : s.flash.readOnly
  · by_cases hhomes : homeNos n s.objs = []
    · obtain ⟨hf, hm, hctx, hobjs⟩ := hgone (stSuccess 0 0 0)
      refine ⟨t, _, hexec, hprog, hwiping, hstands, execTeardownComplete_noHome h hn halone he h1 h2 hro hhomes, fun hbad => absurd hbad (by simp),
        fun _ _ => ⟨hends _, hctx, hobjs, hm.trans he.map, hf.trans he.frame⟩, fun _ ⟨p, hp, hk⟩ => ?_⟩
      exact absurd (mem_homeNos.mpr ⟨p, hp, hk, rfl⟩) (by simp [hhomes])
    · obtain ⟨hruns, hburied⟩ := buries_all hc he
      refine ⟨t, _, hexec, hprog, hwiping, hstands, execTeardownComplete_buries h hn halone he h1 h2 hro hhomes, fun hbad => absurd hbad (by simp),
        fun _ hall => ?_, fun _ _ => ⟨lastProgramCompletes_destroy hop, hruns, hburied⟩⟩
      refine absurd (List.eq_nil_iff_forall_not_mem.mpr fun k hk => ?_) hhomes
      obtain ⟨p, hp, hkind, -⟩ := mem_homeNos.mp hk
      exact hkind (hall p hp)
  · obtain ⟨-, -, hctx, hobjs⟩ := hgone stProgramFail
    exact ⟨t, _, hexec, hprog, hwiping, hstands, execTeardownComplete_readOnly h hn halone he h1 h2 hro,
      fun _ => ⟨hends _, hctx, hobjs⟩, fun hbad => absurd hbad (by simp), fun hbad => absurd hbad (by simp)⟩

theorem takenUpLater_mono {c d : Cmd} {act : State → Cmd → State} {may : State → Prop} {post post' : State → State → Prop} {t : State}
    (h : TakenUpLater c d act may post t) (hp : ∀ u v, post u v → post' u v) : TakenUpLater c d act may post' t :=
  ⟨h.1, fun u hu hmay => ⟨(h.2 u hu hmay).1, hp _ _ (h.2 u hu hmay).2⟩⟩

/-! ### A new T1 quota (R217) -/

theorem withQuotas_t1_now {p : PacketBits} {x : Context} (hm : quotaMask p 0 = true) (h : x.quotaT1 ≤ pktField p 8 1 ∨ isResident x = false) :
    (withQuotas p x).quotaT1 = pktField p 8 1 ∧ (withQuotas p x).lowerT1 = none := by
  have hnow : (quotaMask p 0 && pktField p 8 1 < x.quotaT1 && isResident x) = false := by
    rcases h with h | h
    · simp [Nat.not_lt.mpr h]
    · simp [h]
  simp only [withQuotas, hnow]
  simp [hm]

theorem withQuotas_t1_later {p : PacketBits} {x : Context} (hm : quotaMask p 0 = true) (h : pktField p 8 1 < x.quotaT1) (hr : isResident x = true) :
    (withQuotas p x).quotaT1 = x.quotaT1 ∧ (withQuotas p x).lowerT1 = some (pktField p 8 1) := by
  simp [withQuotas, hm, h, hr]

theorem withQuotas_t1_kept {p : PacketBits} {x : Context} (hm : quotaMask p 0 = false) : (withQuotas p x).quotaT1 = x.quotaT1 := by
  simp [withQuotas, hm]

/-- Settles O40: the clauses of CTX_CREATE, CTX_QUOTA, PROG_LOAD and CTX_FALLBACK, and the three ends of a CTX_DESTROY. -/
theorem contextCommands : Obligations.ContextCommands := by
  refine ⟨contextCreate_clause, fun tag n c s h hn h1 h2 halone hswaps _ hcores hsketch htags =>
    contextDestroy_clause tag n c s h hn h1 h2 halone hswaps hcores hsketch htags, fun tag n c s h hn hdef => ?_, progLoad_clause, fallback_clause⟩
  obtain ⟨hbad, hgood⟩ := contextQuota_clause tag n c s h hn hdef
  refine ⟨hbad, fun hok => ?_⟩
  obtain ⟨t, ht, honly, hwaits, hlater⟩ := hgood hok
  refine ⟨t, ht, honly, hwaits, takenUpLater_mono hlater fun u v ⟨x, hx⟩ => ?_⟩
  rw [hx]
  exact ⟨rfl, rfl, rfl, fun hm hle => withQuotas_t1_now hm hle, fun hm hlt hres => withQuotas_t1_later hm hlt hres, withQuotas_t1_kept⟩

end Sys2Proof.Machine
end

section
/-! SUPPORT. Proofs of the core program statements (chapter 4): stream connections and stream data (O55). -/

namespace Sys2Proof.Machine
open Claims

/-! ### Messages to a member (R352) -/

theorem up_of_reaches {s : State} {p : Nat} {dn : Bool} {u : Word64} (h : reaches s p dn u = true) : (portOf s (sidePort p dn)).up = true := by
  simp only [reaches, Bool.and_eq_true] at h
  exact h.1.2

theorem reaches_of_shortest {s : State} {p : Nat} {u : Word64} {dn : Bool} (h : shortest s p u = some dn) : reaches s p dn u = true := by
  unfold shortest at h
  split at h
  · rename_i h1 h2
    cases dn
    · exact h2
    · exact h1
  · obtain rfl := Option.some.inj h; assumption
  · obtain rfl := Option.some.inj h; assumption
  · exact absurd h (by simp)

/-- The message as `sendTo` hands it to the port. -/
def routed (s : State) (p : Nat) (dn : Bool) (u : Word64) (m : RingMsg) : RingMsg :=
  { m with pair := p, dn := dn, dest := posOf s p u, src := (pairOf s p).position, vc := if m.typ = 3 then 0 else kindVc m.kind }

theorem sendTo_shortest {s : State} {p : Nat} {u : Word64} {dn : Bool} (h : WayTo s p u dn) (m : RingMsg) :
    sendTo p 0 u m s = sendRing (routed s p dn u m) s := by
  have hway : routeWay s p 0 u = some dn := h.1
  simp only [sendTo, hway]
  rfl

/-- Over a whole way a message goes out by ROUTE SHORTEST. -/
theorem out_sendTo {s : State} {p : Nat} {u : Word64} {dn : Bool} (h : WayTo s p u dn) (m : RingMsg) :
    (sendTo p 0 u m s).ring.out = s.ring.out ++ [routed s p dn u m] := by
  rw [sendTo_shortest h]
  exact out_sendRing (up_of_reaches (reaches_of_shortest h.1)) h.2

theorem sendTo_onlyRing (p route : Nat) (u : Word64) (m : RingMsg) (s : State) : sendTo p route u m s = { s with ring := (sendTo p route u m s).ring } := by
  obtain ⟨r, hr⟩ := sendTo_eq p route u m s
  rw [hr]

/-! ### Stream connections (R362) -/

theorem execStreamConnect_eq {pair : Nat} {s : State} (hp : pair < 16) (hup : (pairOf s pair).dn.up = true ∨ (pairOf s pair).up.up = true)
    (src : Word64) (m : ConnectMsg) : exec (.streamConnect pair src m) s = .next (connect pair src m s) :=
  (unitOp_of (by simpa [wfPair] using hp) _).trans (congrArg _ (if_pos (by simpa using hup)))

/-- A SEND stream is joined to its peer's window. -/
def linkedTo (i w : Nat) (c : Context) : Context := { c with linked := setAdd i c.linked, windows := mapSet 0 i w c.windows }

theorem connect_accept {pair n i w : Nat} {src : Word64} {e : StreamEntry} {s : State} (he : streamEntryAt s n i = some e) (hr : e.receive = false)
    (hp : e.ring = pair) (hu : e.peerUid = src) (hk : peerKnown s e = true) : connect pair src (.accept n i w) s = updCtx n (linkedTo i w) s := by
  simp only [connect, he]
  rw [if_neg (by simp [hr, hp, hu, hk])]
  rfl

/-- A RECEIVE stream is joined to its peer. -/
def joinedBy (i : Nat) (c : Context) : Context := { c with joined := setAdd i c.joined }

theorem connect_ask {pair fc fs n i : Nat} {src : Word64} {e : StreamEntry} {s : State} (he : receives s pair src fc fs n i = some e) :
    connect pair src (.ask fc fs n i) s = sendConnect pair src (.accept fc fs e.window) (updCtx n (joinedBy i) s) := by
  simp only [connect, he]
  rfl

theorem connect_askOther {pair fc fs n i : Nat} {src : Word64} {s : State} (he : receives s pair src fc fs n i = none) :
    connect pair src (.ask fc fs n i) s = sendConnect pair src (.refuse fc fs) s := by
  simp only [connect, he]

theorem connect_broken {pair n i : Nat} {src : Word64} {e : StreamEntry} {s : State} (he : streamEntryAt s n i = some e)
    (hp : e.ring = pair) (hu : e.peerUid = src) : connect pair src (.broken n i) s = unlink n i s := by
  simp only [connect, he]
  rw [if_pos (by simp [hp, hu])]

theorem wayTo_updCtx {n pair : Nat} {src : Word64} {dn : Bool} {f : Context → Context} {s : State} (h : WayTo s pair src dn) :
    WayTo (updCtx n f s) pair src dn := h

/-- A CONTROL message goes out to the member. -/
theorem out_sendConnect {s : State} {p : Nat} {u : Word64} {dn : Bool} (h : WayTo s p u dn) (k : ConnectMsg) :
    ∃ m, (sendConnect p u k s).ring.out = s.ring.out ++ [m] ∧ m.pair = p ∧ m.dn = dn ∧ m.typ = 3 ∧ m.body = connectBytes k :=
  ⟨_, out_sendTo h _, rfl, rfl, rfl, rfl⟩

theorem streamConnect_clause (pair n i : Nat) (src : Word64) (s : State) (hpair : pair < 16)
    (hup : (pairOf s pair).dn.up = true ∨ (pairOf s pair).up.up = true) :
    (∀ w e, streamEntryAt s n i = some e → e.receive = false → e.ring = pair → e.peerUid = src → peerKnown s e = true →
      ∃ t, exec (.streamConnect pair src (.accept n i w)) s = .next t ∧ t = { s with ctxs := t.ctxs } ∧ (∀ m, m ≠ n → ctxOf t m = ctxOf s m) ∧
        ctxOf t n = { ctxOf s n with linked := (ctxOf t n).linked, windows := (ctxOf t n).windows } ∧
        (∀ j, j ∈ (ctxOf t n).linked ↔ j = i ∨ j ∈ (ctxOf s n).linked) ∧
        (∀ j, mapGet 0 (ctxOf t n).windows j = if j = i then w else mapGet 0 (ctxOf s n).windows j)) ∧
    (∀ fc fs dn, WayTo s pair src dn →
      (∀ e, receives s pair src fc fs n i = some e → ∃ t m, exec (.streamConnect pair src (.ask fc fs n i)) s = .next t ∧
        t = { s with ctxs := t.ctxs, ring := t.ring } ∧ (∀ j, j ∈ (ctxOf t n).joined ↔ j = i ∨ j ∈ (ctxOf s n).joined) ∧
        t.ring.out = s.ring.out ++ [m] ∧ m.pair = pair ∧ m.dn = dn ∧ m.typ = 3 ∧ m.body = connectBytes (.accept fc fs e.window)) ∧
      (receives s pair src fc fs n i = none → ∃ t m, exec (.streamConnect pair src (.ask fc fs n i)) s = .next t ∧ t = { s with ring := t.ring } ∧
        t.ring.out = s.ring.out ++ [m] ∧ m.pair = pair ∧ m.dn = dn ∧ m.typ = 3 ∧ m.body = connectBytes (.refuse fc fs))) ∧
    (∀ e, streamEntryAt s n i = some e → e.ring = pair → e.peerUid = src → ∃ t, exec (.streamConnect pair src (.broken n i)) s = .next t ∧
      t = { s with ctxs := t.ctxs } ∧ i ∉ (ctxOf t n).linked ∧ i ∉ (ctxOf t n).joined ∧ (∀ m, m ≠ n → ctxOf t m = ctxOf s m)) := by
  have hexec := execStreamConnect_eq hpair hup src
  refine ⟨fun w e he hr hp hu hk => ?_, fun fc fs dn hway => ⟨fun e he => ?_, fun he => ?_⟩, fun e he hp hu => ?_⟩
  · refine ⟨updCtx n (linkedTo i w) s, (hexec _).trans (congrArg _ (connect_accept he hr hp hu hk)), rfl, fun m hm => ctxOf_updCtx_ne hm _ _, ?_⟩
    rw [ctxOf_updCtx_self]
    exact ⟨rfl, fun j => mem_setAdd, fun j => mapGet_mapSet _ _ _ _ _⟩
  · obtain ⟨m, hout, hm⟩ := out_sendConnect (wayTo_updCtx (n := n) (f := joinedBy i) hway) (.accept fc fs e.window)
    obtain ⟨r, hr⟩ := sendTo_eq pair 0 src { typ := 3, kind := 0, body := connectBytes (.accept fc fs e.window) } (updCtx n (joinedBy i) s)
    have hctx : ctxOf (sendConnect pair src (.accept fc fs e.window) (updCtx n (joinedBy i) s)) n = joinedBy i (ctxOf s n) := by
      rw [sendConnect, ctxOf_congr (sendTo_ctxs _ _ _ _ _), ctxOf_updCtx_self]
    refine ⟨_, m, (hexec _).trans (congrArg _ (connect_ask he)), ?_, fun j => ?_, hout, hm⟩
    · rw [sendConnect, hr]; rfl
    · rw [hctx]; exact mem_setAdd
  · obtain ⟨m, hout, hm⟩ := out_sendConnect hway (.refuse fc fs)
    exact ⟨_, m, (hexec _).trans (congrArg _ (connect_askOther he)), sendTo_onlyRing _ _ _ _ _, hout, hm⟩
  · refine ⟨unlink n i s, (hexec _).trans (congrArg _ (connect_broken he hp hu)), rfl, ?_, ?_, fun m hm => ctxOf_updCtx_ne hm _ _⟩
    · rw [unlink, ctxOf_updCtx_self]; simp
    · rw [unlink, ctxOf_updCtx_self]; simp

end Sys2Proof.Machine
end

section
/-! SUPPORT. Proofs of the core program statements (chapter 4): stream data and the tickets that wait for it (O55). -/

namespace Sys2Proof.Machine
open Claims

/-! ### Stream data (R362, R363) -/

theorem leaveS1_eq (s : State) : leaveS1 s = { s with host := (leaveS1 s).host } := by
  unfold leaveS1; split <;> rfl

theorem execStreamDataReceived_awake {n i off : Nat} {src : Word64} {data : List Byte} {last : Bool} {mark : Mask} {seed : Word64} {s : State}
    (h1 : 1 ≤ n) (h2 : n ≤ 255) (hs2 : inS2 s = false) :
    exec (.streamDataReceived n i off ⟨src, data⟩ false last mark seed) s = .next (streamIn n i off src data false last mark seed s) :=
  (unitOp_of (wfCtx_of h1 h2) _).trans (congrArg _ (if_neg (by simp [hs2])))

/-- A context that has taken these bytes of a transfer. -/
def tookPart (i len : Nat) (c : Context) : Context := { c with streamPart := mapSet 0 i (mapGet 0 c.streamPart i + len) c.streamPart }

/-- The state after stream data has landed. -/
def streamLanded (n i off id : Nat) (data : List Byte) (s : State) : State := updCtx n (tookPart i data.length) (landStream id off data false s)

section Data

variable {n i off id : Nat} {src : Word64} {data : List Byte} {last : Bool} {mark : Mask} {seed : Word64} {e : StreamEntry} {o : Obj} {m : T2Copy}
  {s : State} (he : streamEntryAt s n i = some e) (hid : landingObj s n e = some id)

include he hid

theorem streamIn_lands (hr : e.receive = true) (hj : i ∈ (ctxOf s n).joined) (hk : peerKnown s e = true) (hok : landingOk s n e = true)
    (hoff : off % 64 = 0) (hlen : data.length % 64 = 0) (hwin : off + data.length ≤ e.window) (ho : objOf s id = some o) (hm : o.copy = some m)
    (hsize : off + data.length ≤ o.size) :
    streamIn n i off e.peerUid data false last mark seed s =
      if last then streamDone n i e mark seed (streamLanded n i off id data s) else streamLanded n i off id data s := by
  have hjoined : (ctxOf s n).joined.contains i = true := by simpa using hj
  have htakes : (objOf s id).any (fun o => o.copy.isSome && off + data.length ≤ o.size) = true := by simp [ho, hm, hsize]
  have hwin' : ¬ e.window < off + data.length := by omega
  unfold streamIn
  simp only [he, hid, hr, hjoined, hok, hk, hoff, hlen, hwin', htakes, bne_self_eq_false, Bool.not_true, Bool.or_false, decide_false,
    Bool.false_eq_true, if_false]
  rfl

theorem streamIn_stranger (hu : src ≠ e.peerUid) : streamIn n i off src data false last mark seed s = s := by
  unfold streamIn
  simp only [he, hid]
  rw [if_pos (by simp [hu])]

end Data

theorem objOf_streamLanded {n i off id : Nat} {data : List Byte} {o : Obj} {m : T2Copy} {s : State} (ho : objOf s id = some o) (hm : o.copy = some m) :
    objOf (streamLanded n i off id data s) id = some { o with copy := some { m with
      data := storeWrite 64 m.data off data, dirty := m.dirty || decide (o.kind ≠ .scratch) } } := by
  change objOf (landStream id off data false s) id = _
  rw [landStream, objOf_updObj_self, ho, Option.map_some, hm]
  congr 3
  by_cases hk : o.kind = .scratch <;> simp [hk]

theorem objOf_streamLanded_ne {n i off id j : Nat} {data : List Byte} {s : State} (h : j ≠ id) : objOf (streamLanded n i off id data s) j = objOf s j := by
  change objOf (landStream id off data false s) j = _
  rw [landStream, objOf_updObj_ne h]

theorem ctxOf_streamLanded_self (n i off id : Nat) (data : List Byte) (s : State) :
    ctxOf (streamLanded n i off id data s) n = tookPart i data.length (ctxOf s n) := by
  rw [streamLanded, ctxOf_updCtx_self, landStream, ctxOf_congr (updObj_ctxs _ _ _)]

theorem ctxOf_streamLanded_ne {n i off id c : Nat} {data : List Byte} {s : State} (h : c ≠ n) : ctxOf (streamLanded n i off id data s) c = ctxOf s c := by
  rw [streamLanded, ctxOf_updCtx_ne h, landStream, ctxOf_congr (updObj_ctxs _ _ _)]

theorem streamLanded_eq (n i off id : Nat) (data : List Byte) (s : State) : streamLanded n i off id data s =
    { s with objs := (streamLanded n i off id data s).objs, ctxs := (streamLanded n i off id data s).ctxs } := by
  have hland : landStream id off data false s = { s with objs := (landStream id off data false s).objs } := updObj_eq _ _ _
  rw [streamLanded, hland]
  rfl

/-! ### The last data of a transfer (R363) -/

/-- A context that a completed transfer has given input. -/
def tookInput (i : Nat) (mark : Mask) (seed : Word64) (frame : Nat) (c : Context) : Context := { c with
  streamIn := some (addInput i (mapGet 0 c.streamPart i) mark seed frame c.streamIn), streamPart := mapSet 0 i 0 c.streamPart }

/-- The message that completes a transfer. -/
def completionMsg (e : StreamEntry) (mark : Mask) (seed : Word64) : RingMsg := { kind := 1, index := e.peerStream, body := markBytes mark seed }

theorem streamDone_eq (n i : Nat) (e : StreamEntry) (mark : Mask) (seed : Word64) (s : State) : streamDone n i e mark seed s =
    leaveS1 (wakeCtx n (sendTo e.ring 0 e.peerUid (completionMsg e mark seed) (updCtx n (tookInput i mark seed s.frame.counter.toNat) s))) := rfl

theorem wakeCtx_eq (n : Nat) (s : State) : wakeCtx n s = { s with ctxs := (wakeCtx n s).ctxs } := by
  unfold wakeCtx; split <;> rfl

theorem wakeCtx_streamIn (n : Nat) (s : State) : (ctxOf (wakeCtx n s) n).streamIn = (ctxOf s n).streamIn := by
  unfold wakeCtx
  split
  · rw [ctxOf_updCtx_self]
  · rfl

theorem wakeCtx_blocked {n : Nat} {s : State} (hb : (ctxOf s n).state = .blocked) (hi : (ctxOf s n).streamIn.isSome = true) :
    (ctxOf (wakeCtx n s) n).state = .runnable := by
  have hwork : hasWork s n = true := by simp [hasWork, hi]
  rw [wakeCtx, if_pos (by simp [hb, hwork]), ctxOf_updCtx_self]

section Done

variable (n i : Nat) (e : StreamEntry) (mark : Mask) (seed : Word64) (s : State)

theorem objOf_streamDone (j : Nat) : objOf (streamDone n i e mark seed s) j = objOf s j := by
  rw [streamDone_eq, leaveS1_eq, wakeCtx_eq, sendTo_onlyRing]
  rfl

theorem ring_streamDone : (streamDone n i e mark seed s).ring =
    (sendTo e.ring 0 e.peerUid (completionMsg e mark seed) (updCtx n (tookInput i mark seed s.frame.counter.toNat) s)).ring := by
  rw [streamDone_eq, leaveS1_eq, wakeCtx_eq]

theorem ctxOf_sentInput : ctxOf (sendTo e.ring 0 e.peerUid (completionMsg e mark seed) (updCtx n (tookInput i mark seed s.frame.counter.toNat) s)) n =
    tookInput i mark seed s.frame.counter.toNat (ctxOf s n) := by
  rw [ctxOf_congr (sendTo_ctxs _ _ _ _ _), ctxOf_updCtx_self]

theorem ctxOf_leaveS1 (m : Nat) : ctxOf (leaveS1 s) m = ctxOf s m := by rw [leaveS1_eq]; rfl

theorem streamIn_streamDone : (ctxOf (streamDone n i e mark seed s) n).streamIn =
    some (addInput i (mapGet 0 (ctxOf s n).streamPart i) mark seed s.frame.counter.toNat (ctxOf s n).streamIn) := by
  rw [streamDone_eq, ctxOf_leaveS1, wakeCtx_streamIn, ctxOf_sentInput]
  rfl

theorem state_streamDone (hb : (ctxOf s n).state = .blocked) : (ctxOf (streamDone n i e mark seed s) n).state = .runnable := by
  have hctx := ctxOf_sentInput n i e mark seed s
  rw [streamDone_eq, ctxOf_leaveS1]
  exact wakeCtx_blocked (by rw [hctx]; exact hb) (by rw [hctx]; rfl)

end Done

theorem pairOf_congr {s t : State} (h : t.ring = s.ring) (p : Nat) : pairOf t p = pairOf s p := by rw [pairOf, pairOf, h]

theorem posOf_congr {s t : State} (h : t.ring = s.ring) (p : Nat) (u : Word64) : posOf t p u = posOf s p u := by rw [posOf, posOf, pairOf_congr h]

theorem wayTo_congr {s t : State} (h : t.ring = s.ring) (hu : t.uid = s.uid) {p : Nat} {u : Word64} {dn : Bool} (hway : WayTo s p u dn) :
    WayTo t p u dn := by
  have hreach (d : Bool) : reaches t p d u = reaches s p d u := by simp only [reaches, portOf, pairOf_congr h, hu]
  have hdist : dnDistance t p u = dnDistance s p u := by simp only [dnDistance, pairOf_congr h, hu]
  refine ⟨?_, (congrArg Pair.draining (pairOf_congr h p)).trans hway.2⟩
  rw [← hway.1]
  simp only [shortest, hreach, hdist, pairOf_congr h]

theorem streamData_clause (n i off id : Nat) (data : List Byte) (mark : Mask) (seed : Word64) (e : StreamEntry) (o : Obj) (m : T2Copy) (s : State)
    (h1 : 1 ≤ n) (h2 : n ≤ 255) (he : streamEntryAt s n i = some e) (hr : e.receive = true) (hj : i ∈ (ctxOf s n).joined) (hk : peerKnown s e = true)
    (hid : landingObj s n e = some id) (hok : landingOk s n e = true) (hs2 : inS2 s = false) (hoff : off % 64 = 0) (hlen : data.length % 64 = 0)
    (hwin : off + data.length ≤ e.window) (ho : objOf s id = some o) (hm : o.copy = some m) (hsize : off + data.length ≤ o.size) :
    (∃ t x, exec (.streamDataReceived n i off ⟨e.peerUid, data⟩ false false mark seed) s = .next t ∧ t = { s with objs := t.objs, ctxs := t.ctxs } ∧
      objOf t id = some { o with copy := some { m with data := x, dirty := m.dirty || decide (o.kind ≠ .scratch) } } ∧
      BytesWritten m.data x off data ∧ (∀ j, j ≠ id → objOf t j = objOf s j) ∧ (∀ c, c ≠ n → ctxOf t c = ctxOf s c) ∧
      ctxOf t n = { ctxOf s n with streamPart := (ctxOf t n).streamPart } ∧
      mapGet 0 (ctxOf t n).streamPart i = mapGet 0 (ctxOf s n).streamPart i + data.length) ∧
    (∀ u, u ≠ e.peerUid → exec (.streamDataReceived n i off ⟨u, data⟩ false false mark seed) s = .next s) ∧
    (∀ dn, WayTo s e.ring e.peerUid dn →
      ∃ t x y r, exec (.streamDataReceived n i off ⟨e.peerUid, data⟩ false true mark seed) s = .next t ∧
        objOf t id = some { o with copy := some { m with data := x, dirty := m.dirty || decide (o.kind ≠ .scratch) } } ∧
        BytesWritten m.data x off data ∧ (ctxOf t n).streamIn = some y ∧
        ((ctxOf s n).streamIn = none → y = { streams := 2 ^ i, bytes := mapGet 0 (ctxOf s n).streamPart i + data.length, mark := mark, seed := seed
                                             frame := s.frame.counter.toNat }) ∧
        ((ctxOf s n).state = .blocked → (ctxOf t n).state = .runnable) ∧ t.ring.out = s.ring.out ++ [r] ∧ r.pair = e.ring ∧ r.dn = dn ∧
        r.kind = 1 ∧ r.dest = posOf s e.ring e.peerUid ∧ r.index = e.peerStream ∧ r.body = leBytes 32 mark.toNat ++ leBytes 8 seed.toNat) := by
  have hexec (last : Bool) := (execStreamDataReceived_awake (last := last) (i := i) (off := off) (src := e.peerUid) (data := data) (mark := mark)
    (seed := seed) h1 h2 hs2).trans (congrArg Host.Outcome.next (streamIn_lands he hid hr hj hk hok hoff hlen hwin ho hm hsize))
  have hwrite := bytesWritten_storeWrite 64 m.data off data
  have hpart : mapGet 0 (tookPart i data.length (ctxOf s n)).streamPart i = mapGet 0 (ctxOf s n).streamPart i + data.length := by
    rw [tookPart, mapGet_mapSet, if_pos rfl]
  set u := streamLanded n i off id data s with hu
  have hctx : ctxOf u n = tookPart i data.length (ctxOf s n) := ctxOf_streamLanded_self _ _ _ _ _ _
  refine ⟨⟨u, _, hexec false, streamLanded_eq _ _ _ _ _ _, objOf_streamLanded ho hm, hwrite, fun j hj => objOf_streamLanded_ne hj,
    fun c hc => ctxOf_streamLanded_ne hc, by rw [hctx]; rfl, by rw [hctx]; exact hpart⟩,
    fun v hv => (execStreamDataReceived_awake h1 h2 hs2).trans (congrArg _ (streamIn_stranger he hid hv)), fun dn hway => ?_⟩
  obtain ⟨hring, huid, hframe⟩ : u.ring = s.ring ∧ u.uid = s.uid ∧ u.frame = s.frame := by
    rw [hu, streamLanded_eq]; exact ⟨rfl, rfl, rfl⟩
  set v := updCtx n (tookInput i mark seed u.frame.counter.toNat) u with hv
  have hvring : v.ring = s.ring := hring
  have hout := out_sendTo (wayTo_congr hvring (by exact huid) hway) (completionMsg e mark seed)
  refine ⟨streamDone n i e mark seed u, _, _, routed v e.ring dn e.peerUid (completionMsg e mark seed), hexec true, ?_, hwrite, streamIn_streamDone _ _ _ _ _ _, fun hnone => ?_, fun hb => ?_, ?_, ?_⟩
  · exact (objOf_streamDone _ _ _ _ _ _ _).trans (objOf_streamLanded ho hm)
  · rw [hctx, hpart, hframe]
    have hin : (tookPart i data.length (ctxOf s n)).streamIn = none := hnone
    rw [hin, addInput]
  · exact state_streamDone n i e mark seed u (by rw [hctx]; exact hb)
  · refine ((congrArg Ring.out (ring_streamDone n i e mark seed u)).trans hout).trans ?_
    rw [hvring]
  · exact ⟨rfl, rfl, rfl, posOf_congr hvring _ _, rfl, rfl⟩

end Sys2Proof.Machine
end

section
/-! SUPPORT. Proofs of the core program statements (chapter 4): tickets on streams, imports, and O55. -/

namespace Sys2Proof.Machine
open Claims

/-! ### The ticket of a transfer on a stream (R124, R362) -/

section Ticket

variable {c : CoreRef} {tk : BitVec 2} {d : Desc} {s : State} (ho : (ticketOf (coreOf s c) tk).out = some d) (hk : dDstKind d = 3)

include ho hk

theorem endStreamTicket_ends (res : Nat) : endStreamTicket c tk res s = updCore c (setTicket tk.toNat { result := res }) s := by
  rw [endStreamTicket, if_pos (by simp [ho, hk])]

theorem streamLate_ends : streamLate c tk s =
    logEvent 10 0 0 c.ctx (c.lcore % 65536) 0 0 0 (updCore c (setTicket tk.toNat { result := 2 }) s) := by
  rw [streamLate, if_pos (by simp [ho, hk]), endStreamTicket_ends ho hk]

end Ticket

/-- A core with the result of one ticket. -/
theorem ticketEnded (c : CoreRef) (tk : BitVec 2) (res : Nat) (s : State) :
    coreOf (updCore c (setTicket tk.toNat { result := res }) s) c =
        { coreOf s c with tickets := (coreOf (updCore c (setTicket tk.toNat { result := res }) s) c).tickets } ∧
      ∀ k, ticketOf (coreOf (updCore c (setTicket tk.toNat { result := res }) s) c) k = if k = tk then { result := res } else ticketOf (coreOf s c) k := by
  rw [coreOf_updCore_self]
  exact ⟨rfl, fun k => ticketOf_setTicket tk k _ _⟩

theorem streamTicket_clause (c : CoreRef) (tk : BitVec 2) (d : Desc) (s : State) (hc : wfCore c = true)
    (ho : (ticketOf (coreOf s c) tk).out = some d) (hk : dDstKind d = 3) (hs2 : inS2 s = false) :
    (∃ t, exec (.streamCompletionReceived c tk) s = .next t ∧ OnlyCoreChanges c s t ∧
      coreOf t c = { coreOf s c with tickets := (coreOf t c).tickets } ∧
      (∀ k, ticketOf (coreOf t c) k = if k = tk then { result := 0 } else ticketOf (coreOf s c) k)) ∧
    (∃ t, exec (.streamTimeout c tk) s = .next t ∧ t = { s with ctxs := t.ctxs, logs := t.logs } ∧
      coreOf t c = { coreOf s c with tickets := (coreOf t c).tickets } ∧ EventLogged 10 s t ∧
      (∀ k, ticketOf (coreOf t c) k = if k = tk then { result := 2 } else ticketOf (coreOf s c) k)) := by
  constructor
  · refine ⟨_, (unitOp_of hc _).trans (congrArg _ ((if_neg (by simp [hs2])).trans (endStreamTicket_ends ho hk 0))), onlyCore_updCore _ _ _, ?_⟩
    exact ticketEnded c tk 0 s
  · obtain ⟨hcore, htickets⟩ := ticketEnded c tk 2 s
    exact ⟨_, (unitOp_of hc _).trans (congrArg _ (streamLate_ends ho hk)), rfl, hcore, eventLogged_logEvent 10 0 0 _ _ _ _ _ _, htickets⟩

/-! ### Import requests of a peer (R364, R488) -/

theorem sidePort_portPair (port : Nat) : sidePort (portPair port) (port % 2 = 0) = port := by
  unfold sidePort portPair
  by_cases h : port % 2 = 0
  · rw [if_pos (by simpa using h)]; omega
  · rw [if_neg (by simpa using h)]; omega

/-- The answer to an import request. -/
def importAnswer (s : State) (port src req : Nat) (data : List Byte) (poison error : Bool) : RingMsg :=
  { pair := portPair port, dn := port % 2 = 0, vc := 2, kind := 3, dest := src, src := (pairOf s (portPair port)).position
    index := req % 256, body := if error then [] else data, poison := poison }

theorem answerImport_eq (port src req : Nat) (data : List Byte) (poison error : Bool) (s : State) :
    answerImport port (src * 256 + req % 256) data poison error s = sendRing (importAnswer s port src req data poison error) s := by
  have hdest : (src * 256 + req % 256) / 256 = src := by omega
  have hindex : (src * 256 + req % 256) % 256 = req % 256 := by omega
  rw [answerImport, hdest, hindex]
  rfl

theorem out_importAnswer {port : Nat} {s : State} (hup : (portOf s port).up = true) (hd : (pairOf s (portPair port)).draining = none)
    (src req : Nat) (data : List Byte) (poison error : Bool) :
    (sendRing (importAnswer s port src req data poison error) s).ring.out = s.ring.out ++ [importAnswer s port src req data poison error] :=
  out_sendRing (m := importAnswer s port src req data poison error) (by simpa [importAnswer, sidePort_portPair] using hup) hd

theorem execImportRequest_asleep {port n name g src req : Nat} {s : State} (hp : port < 32) (hup : (portOf s port).up = true) (hs2 : inS2 s = true) :
    exec (.importRequestReceived port n name g ⟨src, req⟩) s = .next { s with power := { s.power with waking := true } } := by
  refine (unitOp_of (by simpa [wfPort] using hp) _).trans (congrArg _ ?_)
  simp [hup, ringInput, startWake, hs2]

theorem execImportRequest_ready {port n name g src req : Nat} {s : State} (hp : port < 32) (hup : (portOf s port).up = true)
    (hr : s.host.devState = .ready) : exec (.importRequestReceived port n name g ⟨src, req⟩) s =
      .next (serveImport port n name g (src * 256 + req % 256) s) := by
  refine (unitOp_of (by simpa [wfPort] using hp) _).trans (congrArg _ ?_)
  simp [hup, ringInput, inS2, hr]

section Serve

variable {port n name g src req : Nat} {s : State} (hfits : (pairOf s (portPair port)).oversize = false)

include hfits

theorem serveImport_gone (ho : objOf s (objId n name) = none) :
    serveImport port n name g (src * 256 + req % 256) s = sendRing (importAnswer s port src req [] false true) s := by
  rw [serveImport, if_neg (by simp [hfits])]
  simp only [ho]
  exact answerImport_eq port src req [] false true s

theorem serveImport_resident {o : Obj} {k : T2Copy} (ho : objOf s (objId n name) = some o) (hexp : o.exported = true) (hkind : o.kind = .persistent)
    (hg : g < granules o) (hcopy : o.copy = some k) (hin : g ∉ k.missing) : serveImport port n name g (src * 256 + req % 256) s =
      sendRing (importAnswer s port src req (storeRead (storeSub 64 k.data (g * granuleBytes) granuleBytes) 0 (granuleLen o g))
        (!(storeSub 64 k.data (g * granuleBytes) granuleBytes).poison.isEmpty) false) s := by
  have hres : residentGranule o g = some (storeSub 64 k.data (g * granuleBytes) granuleBytes) := by simp [residentGranule, hcopy, hin]
  rw [serveImport, if_neg (by simp [hfits])]
  simp only [ho, hexp, hkind, hres, Nat.not_le.mpr hg, Bool.not_true, bne_self_eq_false, decide_false, Bool.or_false, Bool.false_eq_true, if_false]
  exact answerImport_eq port src req _ _ false s

end Serve

/-- Cells moved down are walked as where they stood. -/
theorem cellsWalk_down {cs : List Host.Cell} {a : Nat} (h : ∀ c ∈ cs, a ≤ c.1) (b n : Nat) :
    cellsWalk (cs.map (fun c => (c.1 - a, c.2))) b n = cellsWalk cs (a + b) n := by
  induction n generalizing cs b with
  | zero => simp [cellsWalk]
  | succ n ih =>
    cases cs with
    | nil => simp [cellsWalk]
    | cons c cs =>
      have hc := h c List.mem_cons_self
      have hrest : ∀ c ∈ cs, a ≤ c.1 := fun x hx => h x (List.mem_cons_of_mem _ hx)
      have hhead : c.1 - a = b ↔ c.1 = a + b := by omega
      have hskip := ih h (b + 1)
      rw [List.map_cons] at hskip ⊢
      unfold cellsWalk
      simp only [hhead, ih hrest (b + 1), hskip]
      rfl

/-- A part of a memory reads as it did in place. -/
theorem storeRead_storeSub {k n : Nat} (h : k ≤ n) (w : Nat) (m : Store) (a : Nat) : storeRead (storeSub w m a n) 0 k = storeRead m a k := by
  unfold storeRead storeSub cellsRead
  dsimp only
  rw [List.filter_map, List.filter_filter, cellsWalk_down (fun c hc => by
    have := (List.mem_filter.mp hc).2
    simp at this; omega), Nat.add_zero]
  congr 1
  refine List.filter_congr fun c _ => ?_
  rw [Bool.eq_iff_iff]
  simp
  omega

theorem importRequest_clause (port src n name g req : Nat) (s : State) (hp : port < 32) (hup : (portOf s port).up = true) :
    (inS2 s = true → ∃ t, exec (.importRequestReceived port n name g ⟨src, req⟩) s = .next t ∧ t = { s with power := { s.power with waking := true } }) ∧
    (s.host.devState = .ready → (pairOf s (portPair port)).draining = none → (pairOf s (portPair port)).oversize = false →
      (objOf s (objId n name) = none → ∃ t m, exec (.importRequestReceived port n name g ⟨src, req⟩) s = .next t ∧ OnlyPairChanges (portPair port) s t ∧
        t.ring.out = s.ring.out ++ [m] ∧ m.pair = portPair port ∧ m.dn = decide (port % 2 = 0) ∧ m.dest = src ∧ m.kind = 3 ∧ m.index = req % 256 ∧ m.body = []) ∧
      (∀ o k, objOf s (objId n name) = some o → o.exported = true → o.kind = .persistent → g < granules o → o.copy = some k → g ∉ k.missing →
        k.data.poison = [] → ∃ t m, exec (.importRequestReceived port n name g ⟨src, req⟩) s = .next t ∧ OnlyPairChanges (portPair port) s t ∧
          t.ring.out = s.ring.out ++ [m] ∧ m.dest = src ∧ m.kind = 3 ∧ m.index = req % 256 ∧ m.poison = false ∧
          m.body = storeRead k.data (g * 65536) (min 65536 (o.size - g * 65536)))) := by
  refine ⟨fun hs2 => ⟨_, execImportRequest_asleep hp hup hs2, rfl⟩, fun hr hd hfits => ⟨fun ho => ?_, fun o k ho hexp hkind hg hcopy hin hclean => ?_⟩⟩
  · refine ⟨_, importAnswer s port src req [] false true, (execImportRequest_ready hp hup hr).trans (congrArg _ (serveImport_gone hfits ho)),
      onlyPairChanges_sendRing (importAnswer s port src req [] false true) s, out_importAnswer hup hd src req [] false true, ?_⟩
    exact ⟨rfl, rfl, rfl, rfl, rfl, rfl⟩
  · set body := storeRead (storeSub 64 k.data (g * granuleBytes) granuleBytes) 0 (granuleLen o g) with hbody
    set bad := !(storeSub 64 k.data (g * granuleBytes) granuleBytes).poison.isEmpty with hbad
    refine ⟨_, importAnswer s port src req body bad false, (execImportRequest_ready hp hup hr).trans (congrArg _ (serveImport_resident hfits ho hexp hkind hg hcopy hin)),
      onlyPairChanges_sendRing (importAnswer s port src req body bad false) s, out_importAnswer hup hd src req body bad false, rfl, rfl, rfl, ?_, ?_⟩
    · change bad = false
      simp [hbad, storeSub, hclean]
    · change body = _
      exact storeRead_storeSub (Nat.min_le_left _ _ : granuleLen o g ≤ granuleBytes) 64 k.data (g * granuleBytes)

end Sys2Proof.Machine
end

section
/-! SUPPORT. Proofs of the core program statements (chapter 4): what imports bring, requests that are sent again, and O55. -/

namespace Sys2Proof.Machine
open Claims

/-! ### Import data (R364) -/

/-- Where no command waits for the object, a sound granule that lands changes the object alone. -/
theorem landGranule_eq {id g : Nat} {o : Obj} {m : T2Copy} {data : Store} {s : State} (ho : objOf s id = some o) (hm : o.copy = some m)
    (hg : g ∈ m.missing) (ht : o.fillTags = []) (hp : data.poison = []) :
    ∃ f, landGranule id g data s = updObj id f (pruneFlight (putGranule id g data s)) := by
  have hput : ∃ p, objOf (pruneFlight (putGranule id g data s)) id = some p ∧ p.fillTags = [] :=
    ⟨{ o with copy := some { m with data := storePaste 64 m.data (g * granuleBytes) granuleBytes data, missing := setDel g m.missing } },
      (by simp [putGranule, ho, hm, hg] : objOf (putGranule id g data s) id = _), ht⟩
  obtain ⟨p, hp', htags⟩ := hput
  simp only [landGranule, ho, hp, List.isEmpty_nil, Bool.not_true, Bool.false_eq_true, if_false]
  simp only [checkPlaced, hp', htags, List.filter_nil, List.foldl_nil]
  exact ⟨_, rfl⟩

/-- A granule of import data as a memory. -/
def importedGranule (data : List Byte) : Store := { cells := cellsOf 0 (data.take granuleBytes) }

theorem bytesWritten_importedGranule {data : List Byte} (h : data.length = 65536) (m : Store) (a : Nat) :
    BytesWritten m (storePaste 64 m a granuleBytes (importedGranule data)) a data := by
  have htake : data.take granuleBytes = data := List.take_of_length_le (by rw [h]; exact le_refl _)
  intro x
  rw [storeByte_storePaste, h]
  refine ite_congr rfl (fun hx => ?_) fun _ => rfl
  have hin : 0 ≤ x - a ∧ x - a < 0 + data.length := by rw [h]; change a ≤ x ∧ x < a + 65536 at hx; omega
  rw [storeByte, importedGranule, htake, cellAt_cellsOf, if_pos hin, Nat.sub_zero]

theorem importIn_lands {id g : Nat} {data : List Byte} {i : ImportReq} {s : State}
    (hreqs : s.ring.imports.filter (fun i => i.obj = id && i.granule = g) = [i]) (htag : i.tag = 0) :
    importIn id g data false false s = landGranule id g (importedGranule data) (dropImport id g s) := by
  unfold importIn
  simp only [hreqs, htag, List.isEmpty_cons, List.foldl_cons, List.foldl_nil, List.all_cons, List.all_nil, bne_self_eq_false, Bool.false_and,
    Bool.false_eq_true, if_false, if_true]
  rfl

theorem importData_clause (id g : Nat) (data : List Byte) (i : ImportReq) (o : Obj) (m : T2Copy) (s : State) (hs2 : inS2 s = false)
    (hreqs : s.ring.imports.filter (fun i => i.obj = id && i.granule = g) = [i]) (htag : i.tag = 0) (ho : objOf s id = some o)
    (ht : o.fillTags = []) (hm : o.copy = some m) (hg : g ∈ m.missing) (hlen : data.length = 65536) :
    ∃ t k, exec (.importDataReceived id g data false false) s = .next t ∧ objOf t id = some { o with copy := some k } ∧
      k.missing = setDel g m.missing ∧ k.dirty = m.dirty ∧ BytesWritten m.data k.data (g * 65536) data ∧
      (∀ r ∈ t.ring.imports, ¬(r.obj = id ∧ r.granule = g)) ∧ t.host = s.host ∧ (∀ j, j ≠ id → objOf t j = objOf s j) := by
  set u := dropImport id g s with hu
  have hou : objOf u id = some o := ho
  obtain ⟨f, hf⟩ := landGranule_eq hou hm hg ht (data := importedGranule data) rfl
  have hexec : exec (.importDataReceived id g data false false) s = .next (landGranule id g (importedGranule data) u) :=
    (unitOp_ok _).trans (congrArg _ ((if_neg (by simp [hs2])).trans (importIn_lands hreqs htag)))
  refine ⟨_, _, hexec, objOf_landGranule hou hm hg ht rfl, rfl, rfl, bytesWritten_importedGranule hlen _ _, fun r hr => ?_,
    host_landGranule hou hm hg ht rfl, fun j hj => ?_⟩
  · rw [hf, updObj_ring] at hr
    have himports : (pruneFlight (putGranule id g (importedGranule data) u)).ring = u.ring := updObj_ring _ _ _
    rw [himports] at hr
    have hpick := (List.mem_filter.mp hr).2
    rintro ⟨hobj, hgran⟩
    simp [hobj, hgran] at hpick
  · rw [hf, objOf_updObj_ne hj]
    exact objOf_updObj_ne hj _ _

/-! ### Requests sent again (R364) -/

theorem imports_sendRing (m : RingMsg) (s : State) : (sendRing m s).ring.imports = s.ring.imports := by
  unfold sendRing
  dsimp only
  split <;> rfl

/-- The requests with one of them changed. -/
def requestsWith (id g : Nat) (f : ImportReq → ImportReq) (s : State) : State :=
  { s with ring := { s.ring with imports := s.ring.imports.map (fun i => if i.obj = id && i.granule = g then f i else i) } }

theorem resendImport_eq {id g : Nat} {o : Obj} {s : State} (ho : objOf s id = some o) (dn : Bool) (f : ImportReq → ImportReq) :
    resendImport id g dn f s = sendRing (importMsg s o g dn) (requestsWith id g f s) := by
  simp only [resendImport, ho]
  rfl

theorem importOf_requestsWith {id g : Nat} {i : ImportReq} {f : ImportReq → ImportReq} {s : State} (hi : importOf s id g = some i)
    (hf : ∀ j, (f j).obj = j.obj ∧ (f j).granule = j.granule) : importOf (requestsWith id g f s) id g = some (f i) := by
  have hpick : (fun j : ImportReq => j.obj = id && j.granule = g) ∘ (fun j => if j.obj = id && j.granule = g then f j else j) =
      fun j => j.obj = id && j.granule = g := by
    funext j
    by_cases hj : (j.obj = id && j.granule = g) = true
    · simp only [Function.comp, if_pos hj, (hf j).1, (hf j).2]
    · simp only [Function.comp, if_neg hj]
  have hown := List.find?_some hi
  change (s.ring.imports.map (fun j => if j.obj = id && j.granule = g then f j else j)).find? (fun j => j.obj = id && j.granule = g) = some (f i)
  rw [List.find?_map, hpick]
  change (importOf s id g).map _ = _
  rw [hi, Option.map_some, if_pos hown]

/-- A request that is sent again over a port that is up. -/
theorem resendImport_sends {id g : Nat} {o : Obj} {i : ImportReq} {dn : Bool} {f : ImportReq → ImportReq} {s : State} (ho : objOf s id = some o)
    (hi : importOf s id g = some i) (hup : (portOf s (sidePort o.ring dn)).up = true) (hd : (pairOf s o.ring).draining = none)
    (hf : ∀ j, (f j).obj = j.obj ∧ (f j).granule = j.granule) :
    resendImport id g dn f s = { s with ring := (resendImport id g dn f s).ring } ∧
      (resendImport id g dn f s).ring.out = s.ring.out ++ [importMsg s o g dn] ∧ importOf (resendImport id g dn f s) id g = some (f i) ∧
      (resendImport id g dn f s).ring.imports.length = s.ring.imports.length := by
  rw [resendImport_eq ho]
  obtain ⟨r, hr⟩ := sendRing_eq (importMsg s o g dn) (requestsWith id g f s)
  have himports := imports_sendRing (importMsg s o g dn) (requestsWith id g f s)
  refine ⟨?_, out_sendRing (m := importMsg s o g dn) (s := requestsWith id g f s) hup hd, ?_, ?_⟩
  · rw [hr]; rfl
  · rw [importOf, himports]
    exact importOf_requestsWith hi hf
  · rw [himports, requestsWith, List.length_map]

theorem importLate_again {id g : Nat} {i : ImportReq} {s : State} (hi : importOf s id g = some i) (h0 : 0 < i.sent) (h3 : i.sent < 3) :
    importLate id g s = resendImport id g i.dn (fun i => { i with sent := i.sent + 1 }) s := by
  simp only [importLate, hi]
  rw [if_neg (by omega), if_pos h3]

theorem importLate_otherWay {id g : Nat} {i : ImportReq} {o : Obj} {s : State} (hi : importOf s id g = some i) (ho : objOf s id = some o)
    (h3 : i.sent = 3) (hw : i.otherWay < 3) (hr : reaches s o.ring (!i.dn) o.peerUid = true) :
    importLate id g s = resendImport id g (!i.dn) (fun i => { i with otherWay := i.otherWay + 1 }) s := by
  simp only [importLate, hi]
  rw [if_neg (by omega), if_neg (by omega), if_pos (by simp [hw, otherReaches, ho, hr])]

theorem importTimeout_clause (id g : Nat) (i : ImportReq) (o : Obj) (s : State) (hi : importOf s id g = some i) (ho : objOf s id = some o)
    (hd : (pairOf s o.ring).draining = none) :
    (0 < i.sent → i.sent < 3 → (portOf s (sidePort o.ring i.dn)).up = true →
      ∃ t, exec (.importTimeout id g) s = .next t ∧ t = { s with ring := t.ring } ∧ t.ring.out = s.ring.out ++ [importMsg s o g i.dn] ∧
        importOf t id g = some { i with sent := i.sent + 1 } ∧ t.ring.imports.length = s.ring.imports.length) ∧
    (i.sent = 3 → i.otherWay < 3 → reaches s o.ring (!i.dn) o.peerUid = true →
      ∃ t, exec (.importTimeout id g) s = .next t ∧ t = { s with ring := t.ring } ∧ t.ring.out = s.ring.out ++ [importMsg s o g (!i.dn)] ∧
        importOf t id g = some { i with otherWay := i.otherWay + 1 }) := by
  refine ⟨fun h0 h3 hup => ?_, fun h3 hw hr => ?_⟩
  · obtain ⟨hring, hout, himport, hlen⟩ :=
      resendImport_sends (f := fun i => { i with sent := i.sent + 1 }) ho hi hup hd (fun _ => ⟨rfl, rfl⟩)
    exact ⟨_, (unitOp_ok _).trans (congrArg _ (importLate_again hi h0 h3)), hring, hout, himport, hlen⟩
  · obtain ⟨hring, hout, himport, -⟩ :=
      resendImport_sends (f := fun i => { i with otherWay := i.otherWay + 1 }) ho hi (up_of_reaches hr) hd (fun _ => ⟨rfl, rfl⟩)
    exact ⟨_, (unitOp_ok _).trans (congrArg _ (importLate_otherWay hi ho h3 hw hr)), hring, hout, himport⟩

/-- Settles O55, clause by clause: connections, stream data, tickets on streams, import requests, import data and requests sent again. -/
theorem streamsAndImports : Obligations.StreamsAndImports :=
  ⟨streamConnect_clause, streamData_clause, streamTicket_clause, importRequest_clause, importData_clause, importTimeout_clause⟩

end Sys2Proof.Machine
end

section
/-! SUPPORT. Proofs of the number format statements (chapter 6): the commands that report (O36). -/

namespace Sys2Proof.Machine
open Claims

/-! ### Replies and snapshots -/

theorem onlyHost_trans {s t u : State} (h : OnlyHostChanges s t) (g : OnlyHostChanges t u) : OnlyHostChanges s u :=
  Eq.trans g (by rw [h])

theorem hostWrite_onlyHost (a : Nat) (bs : List Byte) (s : State) : OnlyHostChanges s (hostWrite a bs s) := by
  unfold hostWrite; split <;> rfl

theorem bufWrite_onlyHost (c : Cmd) (off : Nat) (bs : List Byte) (s : State) : OnlyHostChanges s (bufWrite c off bs s) := by
  unfold bufWrite
  induction splitWrite (bufPieces c) off bs generalizing s with
  | nil => rfl
  | cons w l ih => exact onlyHost_trans (hostWrite_onlyHost w.1 w.2 s) (ih _)

theorem reply_onlyHost (c : Cmd) (off : Nat) (bs : List Byte) (st : Status) (s : State) : OnlyHostChanges s (reply c off bs st s) :=
  onlyHost_trans (t := updCmd c.tag _ s) rfl (bufWrite_onlyHost c off bs _)

/-- A snapshot changes nothing but what the log keeps of its page (log entry 26). -/
theorem noteSnap_eq (lid : Nat) (s : State) : ∃ snaps gens, noteSnap lid s = { s with logs := { s.logs with snaps := snaps, gens := gens } } := by
  unfold noteSnap; dsimp only
  split
  · exact ⟨s.logs.snaps, s.logs.gens, rfl⟩
  · exact ⟨_, _, rfl⟩

/-- A reply on a snapshot leaves all but the host interface, the error log among the logs too. -/
theorem keeps_after_noteSnap {lid : Nat} {s t : State} (h : OnlyHostChanges (noteSnap lid s) t) :
    t = { s with host := t.host, logs := t.logs } ∧ t.logs.errors = s.logs.errors := by
  obtain ⟨snaps, gens, hsnap⟩ := noteSnap_eq lid s
  rw [hsnap] at h
  have hlogs : t.logs = { s.logs with snaps := snaps, gens := gens } := (congrArg State.logs h :)
  exact ⟨Eq.trans h (by rw [hlogs]), by rw [hlogs]⟩

theorem noteSnap_host (lid : Nat) (s : State) : (noteSnap lid s).host = s.host := by
  obtain ⟨snaps, gens, hsnap⟩ := noteSnap_eq lid s; rw [hsnap]

/-! ### Fields of a report -/

/-- The bytes between a prefix and the rest of a report. -/
theorem field_of_append {n k : Nat} {pre v post : List Byte} (hpre : pre.length = n) (hv : v.length = k) :
    ((pre ++ (v ++ post)).drop n).take k = v := by
  rw [List.drop_left' hpre, List.take_left' hv]

theorem flatMap_leBytes_length {α : Type} (n : Nat) (f : α → Nat) (l : List α) : (l.flatMap (fun a => leBytes n (f a))).length = l.length * n := by
  simp [leBytes_length]

theorem asciiPad_length (n : Nat) (t : String) : (asciiPad n t).length = n := by simp [asciiPad]

/-! ### IDENTIFY (R419) -/

theorem identifyData_length (s : State) : (identifyData s).length = 4096 :=
  padTo_length (by
    simp only [List.length_append, flatMap_leBytes_length, leBytes_length, asciiPad_length, zeros, List.length_replicate, List.length_range]
    omega)

theorem identifyData_uid (s : State) : ((identifyData s).drop 32).take 8 = leBytes 8 s.uid.toNat := by
  simp only [identifyData, padTo, List.append_assoc]
  exact field_of_append (flatMap_leBytes_length 4 (capWord s) (List.range 8)) (leBytes_length 8 _)

theorem identify_clause {tag : Nat} {c : Cmd} {s : State} (h : AtUnit s 0x01 tag c) :
    ∃ t bs, exec (.identify tag) s = .next t ∧ OnlyHostChanges s t ∧ RepliesWith c 0 bs (stSuccess 4096 0 0) s t ∧ bs.length = 4096 ∧
      (bs.drop 32).take 8 = leBytes 8 s.uid.toNat := by
  refine ⟨identifyCmd c s, identifyData s, ?_, reply_onlyHost .., repliesWith_reply .., identifyData_length s, identifyData_uid s⟩
  change unitOp true (onCmd 0x01 tag anyPkt identifyCmd s) = _
  rw [onCmd_atUnit h rfl, unitOp_ok]

/-! ### GET_LOG (R495, R496) -/

section GetLog

variable {tag : Nat} {c : Cmd} {s : State} (h : AtUnit s 0x02 tag c) (hw : recoveryWindow s = false)

/-- The page that a GET_LOG reads: the one that its own snapshot gives. -/
def askedPage (c : Cmd) (s : State) : List Byte := logPage (noteSnap (pktField c.pkt 8 1) s) (pktField c.pkt 8 1)

/-- The part of the page that a GET_LOG asks for. -/
def askedPart (c : Cmd) (s : State) : List Byte := ((askedPage c s).drop (pktField c.pkt 16 8)).take (pktBufLen c.pkt)

include hw in
theorem getLogCmd_eq : getLogCmd c s = if (askedPage c s).length ≤ pktField c.pkt 16 8 then complete c.tag (stInvalidField 16 0) s
    else reply c 0 (askedPart c s) (stSuccess (askedPart c s).length (askedPage c s).length 0) (noteSnap (pktField c.pkt 8 1) s) :=
  if_neg (by simp [hw])

include h in
theorem execGetLog_eq : exec (.getLog tag) s = .next (getLogCmd c s) := by
  change unitOp true (onCmd 0x02 tag anyPkt getLogCmd s) = _
  rw [onCmd_atUnit h rfl, unitOp_ok]

include h hw

theorem getLog_beyond (hoff : (askedPage c s).length ≤ pktField c.pkt 16 8) :
    ∃ t, exec (.getLog tag) s = .next t ∧ OnlyHostChanges s t ∧ CommandCompletes c (stInvalidField 16 0) s t := by
  obtain ⟨hc, -, -⟩ := cmdOf_of_atUnit h
  refine ⟨_, execGetLog_eq h, ?_⟩
  rw [getLogCmd_eq hw, if_pos hoff]
  exact ⟨complete_onlyHost _ _ _, commandCompletes_complete hc rfl _⟩

theorem getLog_within (hoff : pktField c.pkt 16 8 < (askedPage c s).length) :
    ∃ t, exec (.getLog tag) s = .next t ∧ t = { s with host := t.host, logs := t.logs } ∧ t.logs.errors = s.logs.errors ∧
      RepliesWith c 0 (askedPart c s) (stSuccess (askedPart c s).length (askedPage c s).length 0) s t := by
  obtain ⟨honly, herrors⟩ := keeps_after_noteSnap
    (reply_onlyHost c 0 (askedPart c s) (stSuccess (askedPart c s).length (askedPage c s).length 0) (noteSnap (pktField c.pkt 8 1) s))
  refine ⟨_, execGetLog_eq h, ?_⟩
  rw [getLogCmd_eq hw, if_neg (Nat.not_le.mpr hoff)]
  exact ⟨honly, herrors, RepliesWith_congr (repliesWith_reply ..) (noteSnap_host _ s) rfl⟩

end GetLog

/-! ### GET_FEATURE (R177, R317) -/

theorem flatMap_leBytes_le {l : List Nat} (h : l.length ≤ 8) : (l.flatMap (leBytes 4)).length ≤ 32 := by
  simp only [flatMap_leBytes_length 4 (fun w => w)]
  omega

theorem featureBytes_length (s : State) (fid sel : Nat) : (featureBytes s fid sel).length = 32 := by
  refine padTo_length (flatMap_leBytes_le ?_)
  split <;> simp [frameFeature, blockFeature, scrubFeature, ringFeature, arbFeature, powerFeature, effFeature]

theorem featureBytes_weights (s : State) (sel : Nat) :
    (featureBytes s 0x15 sel).take 4 = leBytes 4 (s.arb.wHigh + s.arb.wMedium * 2 ^ 8 + s.arb.wLow * 2 ^ 16) := by
  change (padTo 32 ((arbFeature s).flatMap (leBytes 4))).take 4 = _
  rw [arbFeature, List.flatMap_cons, padTo, List.append_assoc, List.take_left' (leBytes_length 4 _)]

section GetFeature

variable {tag : Nat} {c : Cmd} {s : State} (h : AtUnit s 0x04 tag c)
include h

theorem execGetFeature_eq : exec (.getFeature tag) s = .next (getFeatureCmd c s) := by
  change unitOp true (onCmd 0x04 tag anyPkt getFeatureCmd s) = _
  rw [onCmd_atUnit h rfl, unitOp_ok]

theorem getFeature_palette (hf : pktField c.pkt 8 1 = 0x11) (hdef : ctxDefined s (pktCtx c.pkt) = true) : exec (.getFeature tag) s =
    .next (reply c 0 (paletteBytes s (pktCtx c.pkt) (pktField c.pkt 12 2) (pktField c.pkt 14 2))
      (stSuccess (paletteBytes s (pktCtx c.pkt) (pktField c.pkt 12 2) (pktField c.pkt 14 2)).length 0 0) s) := by
  rw [execGetFeature_eq h, getFeatureCmd, if_pos hf, if_pos hdef]

theorem getFeature_inline (hf : pktField c.pkt 8 1 ≠ 0x11) : exec (.getFeature tag) s =
    .next (reply c 0 (featureBytes s (pktField c.pkt 8 1) (pktField c.pkt 10 2)) (stSuccess 32 0 0) s) := by
  rw [execGetFeature_eq h, getFeatureCmd, if_neg hf]

end GetFeature

/-! ### ATTEST (R461) -/

/-- Table 17-3 begins with the magic, the version, the length and MODULE_UID. -/
theorem measureRecord_head (c : Cmd) (s : State) : ∃ rest,
    measureRecord c s = (leBytes 4 0x41545854 ++ leBytes 2 1 ++ leBytes 2 3400) ++ (leBytes 8 s.uid.toNat ++ rest) := by
  simp only [measureRecord, measureBody, padTo, List.append_assoc]
  exact ⟨_, rfl⟩

theorem measureRecord_magic (c : Cmd) (s : State) : (measureRecord c s).take 4 = leBytes 4 0x41545854 := by
  obtain ⟨rest, hrec⟩ := measureRecord_head c s
  simp only [hrec, List.append_assoc, List.take_left' (leBytes_length 4 _)]

theorem measureRecord_uid (c : Cmd) (s : State) : ((measureRecord c s).drop 8).take 8 = leBytes 8 s.uid.toNat := by
  obtain ⟨rest, hrec⟩ := measureRecord_head c s
  rw [hrec]
  exact field_of_append (by simp [leBytes_length]) (leBytes_length 8 _)

section Attest

variable {tag : Nat} {c : Cmd} {s : State} (h : AtUnit s 0x09 tag c) (hw : recoveryWindow s = false)
include h hw

theorem execAttest_eq : exec (.attest tag) s = .next (if pktBufLen c.pkt < 3456 then complete c.tag (stInvalidField 56 0) s
    else reply c 0 (measureRecord c s) (stSuccess 3400 0 0) s) := by
  change unitOp true (onCmd 0x09 tag anyPkt attestCmd s) = _
  rw [onCmd_atUnit h rfl, unitOp_ok, attestCmd, if_neg (by simp [hw])]

theorem attest_short (hlen : pktBufLen c.pkt < 3456) :
    ∃ t, exec (.attest tag) s = .next t ∧ OnlyHostChanges s t ∧ CommandCompletes c (stInvalidField 56 0) s t := by
  obtain ⟨hc, -, -⟩ := cmdOf_of_atUnit h
  rw [execAttest_eq h hw, if_pos hlen]
  exact ⟨_, rfl, complete_onlyHost _ _ _, commandCompletes_complete hc rfl _⟩

theorem attest_records (hlen : 3456 ≤ pktBufLen c.pkt) :
    ∃ t bs, exec (.attest tag) s = .next t ∧ OnlyHostChanges s t ∧ RepliesWith c 0 bs (stSuccess 3400 0 0) s t ∧
      bs.take 4 = leBytes 4 0x41545854 ∧ (bs.drop 8).take 8 = leBytes 8 s.uid.toNat := by
  rw [execAttest_eq h hw, if_neg (Nat.not_lt.mpr hlen)]
  exact ⟨_, measureRecord c s, rfl, reply_onlyHost .., repliesWith_reply .., measureRecord_magic c s, measureRecord_uid c s⟩

end Attest

/-- Settles O36: each command by its reply or its refusal, and the fields of the bytes by where they stand in the report. -/
theorem reportsGoToTheBuffer : Obligations.ReportsGoToTheBuffer := by
  refine ⟨fun tag c s h => identify_clause h, fun tag c s page h hw hpage => ?_, fun tag c s h => ⟨fun hf hdef => ?_, fun hf => ?_⟩,
    fun tag c s h hw => ⟨attest_short h hw, attest_records h hw⟩⟩
  · subst hpage
    refine ⟨getLog_beyond h hw, fun hoff => ?_⟩
    obtain ⟨t, hexec, honly, herrors, hreply⟩ := getLog_within h hw hoff
    exact ⟨t, askedPart c s, hexec, honly, herrors, rfl, hreply⟩
  · exact ⟨_, _, getFeature_palette h hf hdef, reply_onlyHost .., rfl, repliesWith_reply ..⟩
  · refine ⟨_, _, getFeature_inline h hf, reply_onlyHost .., featureBytes_length .., fun harb => ?_, repliesWith_reply ..⟩
    rw [harb]
    exact featureBytes_weights s _

end Sys2Proof.Machine
end

section
/-! SUPPORT. Proofs of the memory tier statements (chapter 7): posts, and fills that waited for room. -/

namespace Sys2Proof.Machine
open Claims

/-! ### Posts (R224, R229) -/

/-- The cluster has given its oldest post up, and the core that made it counts it as accepted. -/
def postGone (n lc : Nat) (p : Post) (l : List Post) (s : State) : State :=
  updCore p.core (fun k => { k with postsOut := k.postsOut - 1 }) (updCluster n lc (fun k => { k with posts := l }) s)

/-- Before the snapshot a post's mask joins the need sets. -/
def needNoted (n : Nat) (p : Post) (s : State) : State :=
  if s.frame.snapDone then s else updCtx n (fun c => { c with needs := addNeed p.obj p.mask c.needs }) s

/-- A resident object that a post names. -/
def postedAt (frame : Nat) (o : Obj) : Obj :=
  { o with held := true, posted := true, posts := o.posts + 1, lastUse := frame, started := true }

theorem needNoted_eq (n : Nat) (p : Post) (s : State) : needNoted n p s = { s with ctxs := (needNoted n p s).ctxs } := by
  unfold needNoted; split <;> rfl

theorem clusterOf_needNoted (n : Nat) (p : Post) (s : State) (lc : Nat) : clusterOf (needNoted n p s) n lc = clusterOf s n lc := by
  unfold needNoted
  split
  · rfl
  · exact clusterOf_updCtx (f := fun c => { c with needs := addNeed p.obj p.mask c.needs }) rfl lc

theorem coreOf_needNoted (n : Nat) (p : Post) (s : State) (r : CoreRef) : coreOf (needNoted n p s) r = coreOf s r := by
  unfold needNoted
  split
  · rfl
  · exact coreOf_updCtx (fun _ => rfl) (fun _ => rfl)

theorem clusterOf_postGone (n lc : Nat) (p : Post) (l : List Post) (s : State) :
    clusterOf (postGone n lc p l s) n lc = { clusterOf s n lc with posts := l } := by
  simp [postGone]

theorem coreOf_postGone (n lc : Nat) (p : Post) (l : List Post) (s : State) :
    coreOf (postGone n lc p l s) p.core = { coreOf s p.core with postsOut := (coreOf s p.core).postsOut - 1 } := by
  rw [postGone, coreOf_updCore_self, coreOf_updCluster]

/-- A post of a resident object needs no read. -/
theorem takePost_resident {n : Nat} {p : Post} {o : Obj} {s : State} (ho : objOf s p.obj = some o) (hr : objResident o = true) :
    takePost n p s = updObj p.obj (postedAt s.frame.counter.toNat) (needNoted n p s) := by
  have hobj : objOf (needNoted n p s) p.obj = some o := by rw [needNoted_eq]; exact ho
  have hframe : (needNoted n p s).frame = s.frame := by rw [needNoted_eq]
  have hput (f g : Obj → Obj) (h : f o = g o) : updObj p.obj f (needNoted n p s) = updObj p.obj g (needNoted n p s) := by
    simp only [updObj, hobj, h]
  unfold takePost
  simp only [ho, hr, Bool.true_or, if_true]
  refine hput _ _ ?_
  change ({ postedAt (needNoted n p s).frame.counter.toNat o with started := o.started || objResident o || readBegun (needNoted n p s) p.obj } : Obj) = _
  rw [hframe, hr, Bool.or_true, Bool.true_or]
  rfl

theorem acceptPost_taken {n lc : Nat} {p : Post} {l : List Post} {s : State} (hq : (clusterOf s n lc).posts = p :: l) (hroom : s.inFlight.length < 8192) :
    acceptPost n lc s = takePost n p (postGone n lc p l s) := by
  unfold acceptPost
  simp only [hq, if_neg (Nat.not_le.mpr hroom)]
  rfl

theorem postAccepted_clause (n lc : Nat) (p : Post) (l : List Post) (o : Obj) (s : State) (h1 : 1 ≤ n) (h255 : n ≤ 255) (hlc : lc < 250)
    (hq : (clusterOf s n lc).posts = p :: l) (hroom : s.inFlight.length < 8192) (ho : objOf s p.obj = some o) (hr : objResident o = true) :
    ∃ t, exec (.postAccepted n lc) s = .next t ∧ t = { s with ctxs := t.ctxs, objs := t.objs } ∧ (clusterOf t n lc).posts = l ∧
      objOf t p.obj = some { o with held := true, posted := true, posts := o.posts + 1, lastUse := s.frame.counter.toNat, started := true } ∧
      (∀ j, j ≠ p.obj → objOf t j = objOf s j) ∧ (coreOf t p.core).postsOut = (coreOf s p.core).postsOut - 1 := by
  set u := postGone n lc p l s with hu
  set t := updObj p.obj (postedAt s.frame.counter.toNat) (needNoted n p u) with ht
  have hexec : exec (.postAccepted n lc) s = .next t :=
    (unitOp_of (by simp [wfCtx, h1, h255, hlc]) _).trans (congrArg _ ((acceptPost_taken hq hroom).trans (takePost_resident ho hr)))
  have hctxs : t.ctxs = (needNoted n p u).ctxs := updObj_ctxs _ _ _
  have hobj (j : Nat) : objOf (needNoted n p u) j = objOf s j := by rw [needNoted_eq]; rfl
  refine ⟨t, hexec, ?_, ?_, ?_, fun j hj => (objOf_updObj_ne hj _ _).trans (hobj j), ?_⟩
  · rw [ht, updObj_eq, needNoted_eq]; rfl
  · rw [clusterOf, ctxOf_congr hctxs, ← clusterOf, clusterOf_needNoted, hu, clusterOf_postGone]
  · rw [ht, objOf_updObj_self, hobj, ho]; rfl
  · have hcore : coreOf t p.core = coreOf (needNoted n p u) p.core := by rw [coreOf, coreOf, ctxOf_congr hctxs]
    rw [hcore, coreOf_needNoted, hu, coreOf_postGone]

theorem postAccepted_empty {n lc : Nat} {s : State} (h1 : 1 ≤ n) (h255 : n ≤ 255) (hlc : lc < 250) (hq : (clusterOf s n lc).posts = []) :
    exec (.postAccepted n lc) s = .next s :=
  (unitOp_of (by simp [wfCtx, h1, h255, hlc]) _).trans (by rw [acceptPost, hq])

/-! ### What a fill leaves of its object (R223, R225, R251) -/

/-- An object but for the bytes and the missing granules of its copy, the commands that wait for it and the note of begun reads. -/
def fillBody (o : Obj) : Obj := { o with copy := o.copy.map (fun _ => {}), fillTags := [], started := false }

/-- That of one object of the module. -/
def fillView (id : Nat) (s : State) : Option Obj := (objOf s id).map fillBody

theorem fillView_congr {s t : State} (h : t.objs = s.objs) (id : Nat) : fillView id t = fillView id s := by rw [fillView, fillView, objOf, objOf, h]

theorem fillView_foldl {α : Type} {id : Nat} {f : State → α → State} (h : ∀ s a, fillView id (f s a) = fillView id s) (l : List α) (s : State) :
    fillView id (l.foldl f s) = fillView id s := by
  induction l generalizing s with
  | nil => rfl
  | cons a l ih => rw [List.foldl_cons, ih, h]

theorem fillView_updObj {f : Obj → Obj} (h : ∀ o, fillBody (f o) = fillBody o) (id k : Nat) (s : State) :
    fillView id (updObj k f s) = fillView id s := by
  unfold fillView
  by_cases hk : id = k
  · subst hk
    rw [objOf_updObj_self, Option.map_map]
    exact congrArg (Option.map · _) (funext h)
  · rw [objOf_updObj_ne hk]

theorem fillView_completes (id : Nat) (st : Status) (l : List Nat) (s : State) : fillView id (l.foldl (fun s t => complete t st s) s) = fillView id s :=
  fillView_foldl (fun u t => fillView_congr (complete_objs t st u) id) l s

theorem fillView_checkPlaced (id k : Nat) (s : State) : fillView id (checkPlaced k s) = fillView id s := by
  unfold checkPlaced
  split
  · rfl
  · exact (fillView_completes _ _ _ _).trans (fillView_updObj (by intro o; rfl) _ _ _)

theorem fillView_failFills (id k : Nat) (st : Status) (s : State) : fillView id (failFills k st s) = fillView id s := by
  unfold failFills
  split
  · rfl
  · exact (fillView_completes _ _ _ _).trans (fillView_updObj (by intro o; rfl) _ _ _)

theorem fillView_putGranule (id k g : Nat) (data : Store) (s : State) : fillView id (putGranule k g data s) = fillView id s := by
  refine fillView_updObj (fun o => ?_) id k s
  split
  · rfl
  · rename_i c hc
    split
    · simp [fillBody, hc]
    · rfl

theorem fillView_issueGranule (id k : Nat) (o : Obj) (post : Bool) (s : State) (g : Nat) : fillView id (issueGranule k o post s g) = fillView id s := by
  unfold issueGranule
  split
  · split <;> rfl
  · split
    · rfl
    · split
      · exact fillView_putGranule _ _ _ _ _
      · rfl

theorem fillView_startReads (id : Nat) (s : State) : fillView id (startReads s) = fillView id s := by
  have hbody : fillBody ∘ unstarted = fillBody := rfl
  have hruns := congrArg (Option.map fillBody) ((flashRuns_startReads s).objs id)
  rwa [Option.map_map, Option.map_map, hbody] at hruns

theorem fillView_issueMissing {id : Nat} {s : State} (h : flightFull s id = false) (post : Bool) : fillView id (issueMissing id post s) = fillView id s := by
  unfold issueMissing
  split
  · rfl
  · rename_i o _
    split
    · exact fillView_updObj (by intro o; rfl) _ _ _
    · split
      · exact fillView_failFills _ _ _ _
      · rw [if_neg (by simp [h])]
        refine Eq.trans ?_ (fillView_foldl (fun u g => fillView_issueGranule id id o post u g) ((o.copy.map (·.missing)).getD []) s)
        refine (fillView_startReads id _).trans ?_
        split
        · rfl
        · exact fillView_updObj (by intro o; rfl) _ _ _

/-! ### Fills that waited for room (R223) -/

/-- Eviction takes no object away, changes no size and forgets no object in flight. -/
theorem makeRoom_keeps {n need : Nat} {s t : State} (h : makeRoom n need s = some t) :
    t.inFlight = s.inFlight ∧ ∀ id, (objOf t id).map (·.size) = (objOf s id).map (·.size) := by
  obtain ⟨ids, -, rfl⟩ := Option.map_eq_some_iff.mp h
  have hdrop (k : Nat) (u : State) (id : Nat) : (objOf (dropCopyOf k u) id).map (·.size) = (objOf u id).map (·.size) := by
    by_cases hk : id = k
    · rw [hk, dropCopyOf, objOf_updObj_self, Option.map_map]; rfl
    · rw [dropCopyOf, objOf_updObj_ne hk]
  have hfold (l : List Nat) (u : State) : (l.foldl (fun s id => dropCopyOf id s) u).inFlight = u.inFlight ∧
      ∀ id, (objOf (l.foldl (fun s id => dropCopyOf id s) u) id).map (·.size) = (objOf u id).map (·.size) := by
    induction l generalizing u with
    | nil => exact ⟨rfl, fun _ => rfl⟩
    | cons k l ih =>
      obtain ⟨hflight, hsize⟩ := ih (dropCopyOf k u)
      exact ⟨hflight.trans (updObj_inFlight _ _ _), fun id => (hsize id).trans (hdrop k u id)⟩
  exact hfold ids s

/-- An object that has its T2 copy, with every granule to come (R223). -/
def withNewCopy (post : Bool) (frame : Nat) (o : Obj) : Obj :=
  { o with copy := some { missing := List.range (granules o) }, waiting := false, lastUse := if post then frame else 0 }

/-- Where there is room, a fill gives its object a copy, and the object waits no longer. -/
theorem startFill_room {id : Nat} {o : Obj} {s : State} (ho : objOf s id = some o) (hk : o.kind ≠ .scratch) (hc : o.copy = none)
    (hflight : s.inFlight.length < 8192) (hroom : (makeRoom (objCtx id) (roundUp o.size granuleBytes) s).isSome = true) (post : Bool) :
    ∃ p, objOf (startFill id post s) id = some p ∧ p.copy.isSome = true ∧ p.waiting = false ∧ p.size = o.size := by
  obtain ⟨u, hu⟩ := Option.isSome_iff_exists.mp hroom
  obtain ⟨huflight, husize⟩ := makeRoom_keeps hu
  obtain ⟨q, hq, hqsize⟩ := Option.map_eq_some_iff.mp ((husize id).trans (by rw [ho]; rfl : _ = some o.size))
  have heq : startFill id post s = checkPlaced id (issueMissing id post (updObj id (withNewCopy post u.frame.counter.toNat) u)) := by
    simp only [startFill, ho, if_neg hk, hc, hu, Option.isSome_none, Bool.false_eq_true, if_false]
    rfl
  have hroomy : flightFull (updObj id (withNewCopy post u.frame.counter.toNat) u) id = false := by
    have : ¬ 8192 ≤ u.inFlight.length := by rw [huflight]; omega
    simp [flightFull, this]
  have hview : fillView id (startFill id post s) = some (fillBody (withNewCopy post u.frame.counter.toNat q)) := by
    rw [heq, fillView_checkPlaced, fillView_issueMissing hroomy, fillView, objOf_updObj_self, hq]; rfl
  obtain ⟨p, hp, hbody⟩ := Option.map_eq_some_iff.mp hview
  refine ⟨p, hp, ?_, ?_, ?_⟩
  · simpa [fillBody, withNewCopy] using congrArg (fun x : Obj => x.copy.isSome) hbody
  · exact (congrArg (fun x : Obj => x.waiting) hbody :)
  · exact (congrArg (fun x : Obj => x.size) hbody :).trans hqsize

theorem startFill_noRoom {id : Nat} {o : Obj} {s : State} (ho : objOf s id = some o) (hk : o.kind ≠ .scratch) (hc : o.copy = none)
    (hroom : makeRoom (objCtx id) (roundUp o.size granuleBytes) s = none) (post : Bool) :
    startFill id post s = updObj id (fun o => { o with waiting := true }) s := by
  simp only [startFill, ho, if_neg hk, hc, hroom]
  rfl

theorem fillRetry_clause (n id : Nat) (o : Obj) (s : State) (h1 : 1 ≤ n) (h255 : n ≤ 255)
    (hwait : (objsOf s n).filter (fun p => p.2.waiting) = [(id, o)]) (ho : objOf s id = some o) (hk : o.kind ≠ .scratch) (hc : o.copy = none)
    (hflight : s.inFlight.length < 8192) :
    ((makeRoom (objCtx id) (roundUp o.size granuleBytes) s).isSome = true → ∃ t p, exec (.fillRetry n) s = .next t ∧ objOf t id = some p ∧
      p.copy.isSome = true ∧ p.waiting = false ∧ p.size = o.size) ∧
    (makeRoom (objCtx id) (roundUp o.size granuleBytes) s = none → ∃ t, exec (.fillRetry n) s = .next t ∧ t = { s with objs := t.objs } ∧
      objOf t id = some { o with waiting := true }) := by
  have hexec : exec (.fillRetry n) s = .next (startFill id o.posted s) :=
    (unitOp_of (by simp [wfCtx, h1, h255]) _).trans (by rw [retryFills, hwait]; rfl)
  refine ⟨fun hroom => ?_, fun hroom => ?_⟩
  · obtain ⟨p, hp⟩ := startFill_room ho hk hc hflight hroom o.posted
    exact ⟨_, p, hexec, hp⟩
  · refine ⟨_, hexec, ?_⟩
    rw [startFill_noRoom ho hk hc hroom]
    exact ⟨updObj_eq _ _ _, by rw [objOf_updObj_self, ho]; rfl⟩

end Sys2Proof.Machine
end

section
/-! SUPPORT. Proofs of the memory tier statements (chapter 7): bindings, repairs and the prefetch engine (O48). -/

namespace Sys2Proof.Machine
open Claims

/-! ### Bindings (R212) -/

/-- An object for which these commands wait no longer. -/
def withoutTags (ready : List Nat) (o : Obj) : Obj := { o with fillTags := o.fillTags.filter (fun t => !ready.contains t) }

/-- The commands that wait for an object may complete; the object loses their tags alone, and no context changes. -/
theorem checkPlaced_keeps {id : Nat} {o : Obj} {s : State} (ho : objOf s id = some o) :
    (∃ l, objOf (checkPlaced id s) id = some { o with fillTags := l }) ∧ (checkPlaced id s).ctxs = s.ctxs := by
  have hdone (l : List Nat) (u : State) : (l.foldl (fun s t => complete t (stSuccess 0 0 0) s) u).objs = u.objs ∧
      (l.foldl (fun s t => complete t (stSuccess 0 0 0) s) u).ctxs = u.ctxs := by
    induction l generalizing u with
    | nil => exact ⟨rfl, rfl⟩
    | cons t l ih => rw [List.foldl_cons, (ih _).1, (ih _).2]; simp
  have heq : checkPlaced id s = (o.fillTags.filter (tagReady s o)).foldl (fun s t => complete t (stSuccess 0 0 0) s)
      (updObj id (withoutTags (o.fillTags.filter (tagReady s o))) s) := by
    simp only [checkPlaced, ho]
    rfl
  obtain ⟨hobjs, hctxs⟩ := hdone (o.fillTags.filter (tagReady s o)) (updObj id (withoutTags (o.fillTags.filter (tagReady s o))) s)
  rw [heq]
  refine ⟨⟨(withoutTags (o.fillTags.filter (tagReady s o)) o).fillTags, ?_⟩, hctxs.trans (updObj_ctxs _ _ _)⟩
  rw [objOf, hobjs, ← objOf, objOf_updObj_self, ho]
  rfl

/-- The first `k` pieces of a binding are delivered. -/
def piecesSent (n : Nat) (b : Binding) (data : Store) (k : Nat) (s : State) : State :=
  (List.range k).foldl (fun s i => t1Write n (b.first + i) b.t1Addr (pieceBytes b data i) s) s

theorem deliverBinding_eq (n : Nat) (b : Binding) (data : Store) (s : State) : deliverBinding n b data s = piecesSent n b data b.count s := rfl

theorem piecesSent_succ (n : Nat) (b : Binding) (data : Store) (k : Nat) (s : State) :
    piecesSent n b data (k + 1) s = t1Write n (b.first + k) b.t1Addr (pieceBytes b data k) (piecesSent n b data k s) := by
  rw [piecesSent, List.range_succ, List.foldl_append]; rfl

theorem piecesSent_objs (n : Nat) (b : Binding) (data : Store) (k : Nat) (s : State) : (piecesSent n b data k s).objs = s.objs := by
  induction k with
  | zero => rfl
  | succ k ih => rw [piecesSent_succ, t1Write_objs, ih]

theorem clusterOf_t1Write_ne {n lc k : Nat} (h : lc ≠ k) (a : Nat) (bs : List Byte) (s : State) :
    clusterOf (t1Write n k a bs s) n lc = clusterOf s n lc := clusterOf_updCluster_ne h _ _

/-- No cluster but those of the pieces changes. -/
theorem clusterOf_piecesSent_beside {n lc k : Nat} {b : Binding} (h : lc < b.first ∨ b.first + k ≤ lc) (data : Store) (s : State) :
    clusterOf (piecesSent n b data k s) n lc = clusterOf s n lc := by
  induction k with
  | zero => rfl
  | succ k ih => rw [piecesSent_succ, clusterOf_t1Write_ne (by omega), ih (by omega)]

theorem bytesWritten_piecesSent {n i k : Nat} (h : i < k) (b : Binding) (data : Store) (s : State) :
    BytesWritten (t1Of s n (b.first + i)) (t1Of (piecesSent n b data k s) n (b.first + i)) b.t1Addr (pieceBytes b data i) := by
  induction k with
  | zero => exact absurd h (Nat.not_lt_zero i)
  | succ k ih =>
    rw [piecesSent_succ]
    by_cases hik : i = k
    · subst hik
      have hold : t1Of (piecesSent n b data i s) n (b.first + i) = t1Of s n (b.first + i) :=
        congrArg Cluster.t1 (clusterOf_piecesSent_beside (Or.inr le_rfl) data s)
      rw [t1Of_t1Write, hold]
      exact bytesWritten_storeWrite _ _ _ _
    · rw [t1Of, t1Of, clusterOf_t1Write_ne (by omega)]
      exact ih (by omega)

theorem gatherFill_clause (id : Nat) (o : Obj) (b : Binding) (m : T2Copy) (s : State) (ho : objOf s id = some o) (hask : bindingAsked o = true)
    (hb : o.binding = some b) (hnew : b.filled = false) (hm : o.copy = some m) (hwhole : t2Complete o = true) (halloc : (ctxOf s (objCtx id)).alloc ≠ []) :
    ∃ t p, exec (.gatherFillComplete id) s = .next t ∧ objOf t id = some p ∧ p.binding = some { b with filled := true } ∧ p.copy = o.copy ∧
      (∀ i, i < b.count → BytesWritten (t1Of s (objCtx id) (b.first + i)) (t1Of t (objCtx id) (b.first + i)) b.t1Addr (pieceBytes b m.data i)) ∧
      (∀ lc, lc < b.first ∨ b.first + b.count ≤ lc → clusterOf t (objCtx id) lc = clusterOf s (objCtx id) lc) := by
  set n := objCtx id with hn
  set u := piecesSent n b m.data b.count s with hu
  set v := updObj id (fun o => { o with binding := some { b with filled := true } }) u with hv
  have hexec : exec (.gatherFillComplete id) s = .next (checkPlaced id v) := by
    have hfill : fillBinding id s = checkPlaced id v := by
      simp only [fillBinding, ho, hb, hm, hnew, hwhole, ← hn, deliverBinding_eq, List.isEmpty_eq_false_iff.mpr halloc, Bool.not_true, Bool.or_false,
        Bool.false_eq_true, if_false]
      rfl
    change unitOp true (if (objOf s id).any bindingAsked then fillBinding id s else s) = _
    rw [ho, Option.any_some, hask, if_pos rfl, hfill, unitOp_ok]
  have hobj : objOf v id = some { o with binding := some { b with filled := true } } := by
    rw [hv, objOf_updObj_self, objOf, hu, piecesSent_objs, ← objOf, ho]; rfl
  obtain ⟨⟨l, hp⟩, hctxs⟩ := checkPlaced_keeps hobj
  have hcluster (lc : Nat) : clusterOf (checkPlaced id v) n lc = clusterOf u n lc := by
    rw [clusterOf, ctxOf_congr (hctxs.trans (updObj_ctxs _ _ _)), ← clusterOf]
  refine ⟨_, _, hexec, hp, rfl, rfl, fun i hi => ?_, fun lc hlc => (hcluster lc).trans (clusterOf_piecesSent_beside hlc _ _)⟩
  rw [t1Of, t1Of, hcluster]
  exact bytesWritten_piecesSent hi b m.data s

/-! ### Repairs (R311) -/

/-- What a read asks for. -/
def readAsk (r : ReadOp) : Nat × ReadFor := (r.lga, r.why)

theorem readAsks_foldl {α : Type} {f : State → α → State} (h : ∀ s a, (f s a).flash.readQ.map readAsk = s.flash.readQ.map readAsk) (l : List α)
    (s : State) : (l.foldl f s).flash.readQ.map readAsk = s.flash.readQ.map readAsk := by
  induction l generalizing s with
  | nil => rfl
  | cons a l ih => rw [List.foldl_cons, ih, h]

theorem readAsks_startRead (s : State) (r : ReadOp) : (startRead s r).flash.readQ.map readAsk = s.flash.readQ.map readAsk := by
  unfold startRead
  split
  · rfl
  · change (s.flash.readQ.map _).map readAsk = _
    rw [List.map_map]
    refine List.map_congr_left fun x _ => ?_
    rw [Function.comp_apply]
    split <;> rfl

theorem readAsks_startDieReads (s : State) : (startDieReads s).flash.readQ.map readAsk = s.flash.readQ.map readAsk := by
  unfold startDieReads
  dsimp only
  split
  · exact readAsks_foldl readAsks_startRead _ s
  · exact (readAsks_foldl readAsks_startRead _ _).trans (readAsks_foldl readAsks_startRead _ s)

theorem readAsks_startImports (s : State) : (startImports s).flash.readQ.map readAsk = s.flash.readQ.map readAsk := by
  refine readAsks_foldl (fun u i => ?_) _ s
  split
  · rfl
  · rename_i o _
    obtain ⟨r, hr⟩ := sendRing_eq (importMsg u o i.granule (importWay u o)) { u with ring := { u.ring with imports := u.ring.imports.map (fun j =>
      if j.obj = i.obj && j.granule = i.granule && j.tag = i.tag then { j with sent := 1, dn := importWay u o } else j) } }
    rw [hr]

/-- The reads that start stay queued for what they were asked for. -/
theorem readAsks_startReads (s : State) : (startReads s).flash.readQ.map readAsk = s.flash.readQ.map readAsk := by
  change (startImports _).flash.readQ.map readAsk = _
  rw [readAsks_startImports]
  split
  · exact readAsks_startDieReads s
  · rfl

/-- The one missing granule of a copy that has a home on the media is queued as a read, and its object is in flight. -/
theorem issueMissing_reads {id g : Nat} {o : Obj} {m : T2Copy} {s : State} (ho : objOf s id = some o) (hk : o.kind = .persistent) (hm : o.copy = some m)
    (hg : m.missing = [g]) (hmedia : noMedia s (objLga o g) = false) (hqueued : readQueued s id g = false) (hflight : s.inFlight.length < 8192)
    (post : Bool) : issueMissing id post s =
      startReads { enqRead (objLga o g) (.fill id g post) s with inFlight := setAdd id s.inFlight } := by
  have hfull : flightFull s id = false := by simp [flightFull, Nat.not_le.mpr hflight]
  have hissue : issueGranule id o post s g = enqRead (objLga o g) (.fill id g post) s := by
    simp only [issueGranule, hqueued, hk, hmedia, Bool.false_eq_true, if_false]
  have hbusy : objBusy (enqRead (objLga o g) (.fill id g post) s) id = true := by simp [objBusy, enqRead]
  simp only [issueMissing, ho, hm, importRefused, hk, hfull, hg, Option.map_some, Option.all_some, Option.getD_some, List.isEmpty_cons, List.foldl_cons,
    List.foldl_nil, hissue, hbusy, reduceCtorEq, decide_false, Bool.false_and, Bool.false_eq_true, if_false, if_true]
  rfl

theorem granuleRepair_clause (id g : Nat) (o : Obj) (m : T2Copy) (s : State) (ho : objOf s id = some o) (hk : o.kind = .persistent)
    (hm : o.copy = some m) (hbad : g ∈ badGranules m) (hrec : unrecoverable s o m g = false) (hmiss : m.missing = [])
    (hmedia : noMedia s (objLga o g) = false) (hqueued : readQueued s id g = false) (hflight : s.inFlight.length < 8192) :
    ∃ t st, exec (.granuleRepair id g) s = .next t ∧ objOf t id = some { o with copy := some { m with missing := [g] }, started := st } ∧
      (∃ r ∈ t.flash.readQ, r.lga = objLga o g ∧ r.why = .fill id g o.posted) ∧ id ∈ t.inFlight ∧ t.host = s.host := by
  set f : Obj → Obj := fun o => { o with copy := o.copy.map (fun c => { c with missing := setAdd g c.missing }) } with hf
  set u := updObj id f s with hu
  have hobj : objOf u id = some { o with copy := some { m with missing := [g] } } := by
    rw [hu, objOf_updObj_self, ho, Option.map_some, hf]; simp [hm, hmiss, setAdd]
  have hflash : u.flash = s.flash := updObj_flash _ _ _
  have hring : u.ring = s.ring := updObj_ring _ _ _
  have hmedia' : noMedia u (objLga o g) = false := by
    rw [← hmedia]; simp only [noMedia, mapped, overlayUnits, hflash]
  have hqueued' : readQueued u id g = false := by
    rw [← hqueued]; simp only [readQueued, hflash, hring]
  have hflight' : u.inFlight.length < 8192 := by rw [hu, updObj_inFlight]; exact hflight
  set w : State := { enqRead (objLga o g) (.fill id g o.posted) u with inFlight := setAdd id u.inFlight } with hw
  have hexec : exec (.granuleRepair id g) s = .next (startReads w) := by
    have hcond : ((o.copy.any (fun c => (badGranules c).contains g && !unrecoverable s o c g && !c.missing.contains g)) && !importRefused s o) = true := by
      simp [hm, hbad, hrec, hmiss, importRefused, hk]
    change unitOp true (repairGranule id g s) = _
    rw [unitOp_ok, repairGranule, ho]
    dsimp only
    rw [if_pos hcond]
    exact congrArg _ (issueMissing_reads hobj hk rfl rfl hmedia' hqueued' hflight' o.posted)
  have hruns := flashRuns_startReads w
  obtain ⟨st, hst⟩ := hruns.objOf_some (show objOf w id = _ from hobj)
  have hmem : (objLga o g, ReadFor.fill id g o.posted) ∈ (startReads w).flash.readQ.map readAsk := by
    rw [readAsks_startReads]
    exact List.mem_map.mpr ⟨_, List.mem_append_right _ List.mem_cons_self, rfl⟩
  obtain ⟨r, hr, hask⟩ := List.mem_map.mp hmem
  obtain ⟨hlga, hwhy⟩ := Prod.mk.inj hask
  refine ⟨_, st, hexec, hst, ⟨r, hr, hlga, hwhy⟩, ?_, ?_⟩
  · rw [hruns.rest]; exact mem_setAdd.mpr (Or.inl rfl)
  · rw [hruns.rest]; exact updObj_host _ _ _

/-- Settles O48, clause by clause: posts taken, an empty queue, fills that waited for room, bindings gathered and granules repaired. -/
theorem prefetchEngine : Obligations.PrefetchEngine :=
  ⟨postAccepted_clause, fun _ _ _ h1 h255 hlc hq => postAccepted_empty h1 h255 hlc hq, fillRetry_clause, gatherFill_clause, granuleRepair_clause⟩

end Sys2Proof.Machine
end

section
/-! SUPPORT. Proofs of the memory tier statements (chapter 7): the object commands (O41). -/

namespace Sys2Proof.Machine
open Claims

/-! ### A read across a granule's end (R208) -/

/-- A copy of two granules that lists a byte of granule 1 before one of granule 0: the canonical form forbids it, the statement does not. -/
def fallingCopy : T2Copy := { data := { cells := [(65536, 2), (65472, 1)] } }

def fallingObj : Obj := { kind := .scratch, size := 131072, wantT2 := true, copy := some fallingCopy }

/-- OBJ_READ of object 7 of context 1: 128 bytes from 65,472, across the end of granule 0. -/
def crossingRead : Cmd :=
  { tag := 9, frame := 0, phase := .released
    pkt := BitVec.ofNat 512 (0x33 + 2 ^ 16 + 7 * 2 ^ 64 + 65472 * 2 ^ 128 + 0x1000 * 2 ^ 384 + 128 * 2 ^ 448 + 2 ^ 480) }

def crossingState : State :=
  { State.reset with
    pcie := { mse := true, bme := true }, host := { devState := .ready, enable := true, cmds := [crossingRead] }
    ctxs := [(1, { state := .out, domains := 1, quotaT2 := 10 })], objs := [(objId 1 7, fallingObj)] }

theorem crossingState_atObject : AtObject crossingState 0x33 9 crossingRead fallingObj := by
  unfold AtObject AtUnit; decide +kernel

/-- Read granule by granule, as OBJ_READ does, the copy gives its byte 65,472. -/
theorem execObjRead_crossing : ∃ t, exec (.objRead 9) crossingState = .next t ∧
    t.host.hostOut = [{ addr := 0x1000, data := (1 :: zeros 63) ++ (2 :: zeros 63) }] := ⟨_, rfl, by decide +kernel⟩

/-- Read in one piece, it does not: the walk passes 65,472 while it waits for 65,536. -/
theorem storeRead_fallingCopy : splitWrite (bufPieces crossingRead) 0
    (storeRead fallingCopy.data (pktField crossingRead.pkt 16 8) (pktBufLen crossingRead.pkt)) = [(0x1000, zeros 64 ++ (2 :: zeros 63))] := by
  decide +kernel

/-- Refutes O41: OBJ_READ cuts its range at granule ends, and over a copy whose bytes are not in rising order the pieces together are not what
`storeRead` gives for the whole range. -/
theorem not_objectCommands : ¬ Obligations.ObjectCommands := by
  rintro ⟨-, -, -, -, hread, -⟩
  have hfits : pktField crossingRead.pkt 16 8 + pktBufLen crossingRead.pkt ≤ fallingObj.size := by decide +kernel
  obtain ⟨t, ht, -, hreply⟩ := hread 9 crossingRead fallingObj fallingCopy crossingState crossingState_atObject hfits rfl rfl rfl rfl
  obtain ⟨u, hu, hout⟩ := execObjRead_crossing
  obtain rfl : u = t := Host.Outcome.next.inj (hu.symm.trans ht)
  rw [hreply, storeRead_fallingCopy] at hout
  exact absurd hout (by decide +kernel)

end Sys2Proof.Machine
end

section
/-! SUPPORT. Proofs of the flash statements (chapter 8): what folding, merging and collection queue, and the die that collection leaves idle (O50). -/

namespace Sys2Proof.Machine
open Claims

/-! ### Folding and merging (R252, R258) -/

/-- Every copy gathered copies one of the versions it was gathered from. -/
theorem mem_gather {s : State} {l : List (Loc × Version)} {c : Copy} (h : c ∈ gather s l) : ∃ p ∈ l, c ∈ copiesOf s p := by
  have hfold (l : List (Loc × Version)) (acc : List Copy) (h : c ∈ l.foldl (fun acc p => acc ++ (copiesOf s p).filter (fun c => !c.merged ||
      acc.all (fun d => !(d.merged && d.ver.slots = c.ver.slots)))) acc) : c ∈ acc ∨ ∃ p ∈ l, c ∈ copiesOf s p := by
    induction l generalizing acc with
    | nil => exact .inl h
    | cons p l ih =>
      rcases ih _ h with hacc | ⟨q, hq, hc⟩
      · exact (List.mem_append.mp hacc).imp id fun hc => ⟨p, List.mem_cons_self, List.mem_of_mem_filter hc⟩
      · exact .inr ⟨q, List.mem_cons_of_mem _ hq, hc⟩
  exact (hfold l [] h).resolve_left List.not_mem_nil

/-- A copy that is no merge keeps the place, the slots with their sequence numbers and the data of its version (R255). -/
theorem plain_of_mem_copiesOf {s : State} {p : Loc × Version} {c : Copy} (h : c ∈ copiesOf s p) (hm : c.merged = false) :
    c.src = p.1 ∧ c.ver.slots = p.2.slots ∧ c.ver.data = p.2.data ∧ c.ver.copied = true := by
  have hmerge (lga : Nat) : c ∉ (if mergeable s lga then [({ src := p.1, ver := mergedVersion s lga true, merged := true } : Copy)] else []) := by
    intro hc
    split at hc
    · rw [List.mem_singleton.mp hc] at hm; exact absurd hm (by simp)
    · exact List.not_mem_nil hc
  have hplain (hc : c ∈ (if copying s p.1 then [] else [({ src := p.1, ver := { p.2 with copied := true, source := some p.1, metaBad := [] } } : Copy)])) :
      c.src = p.1 ∧ c.ver.slots = p.2.slots ∧ c.ver.data = p.2.data ∧ c.ver.copied = true := by
    split at hc
    · exact absurd hc List.not_mem_nil
    · rw [List.mem_singleton.mp hc]; exact ⟨rfl, rfl, rfl, rfl⟩
  unfold copiesOf at h
  dsimp only at h
  split at h
  · split at h
    · obtain ⟨t, -, ht⟩ := List.mem_flatMap.mp h
      exact absurd ht (hmerge t.lga)
    · exact hplain h
  · obtain ⟨lga, -, hl⟩ := List.mem_flatMap.mp h
    exact absurd hl (hmerge lga)
  · exact hplain h

/-- Four copies are one QLC program (R242). -/
theorem fours_of_four {α : Type} {l : List α} (h : l.length = 4) : fours l = [l] := by
  match l, h with
  | [a, b, c, d], _ => rfl

theorem fold_clause (ch die : Nat) (cs : List Copy) (s : State) (hw : wfDie ch die = true) (hon : flashOn s = true)
    (hcs : (gather s (slcLive s ch die)).take 4 = cs) :
    (cs.length = 4 → ∃ t o, exec (.fold ch die) s = .next t ∧ o ∈ t.flash.progQ ∧ o.kind = .fold ∧ o.ch = ch ∧ o.tag = 0 ∧ o.copies = cs ∧
      (∀ x ∈ cs, x.merged = false → ∃ p ∈ slcLive s ch die, x.src = p.1 ∧ x.ver.slots = p.2.slots ∧ x.ver.data = p.2.data ∧ x.ver.copied = true) ∧
      t.flash.map = s.flash.map ∧ t.host = s.host) ∧
    (cs.length < 4 → exec (.fold ch die) s = .next s) := by
  refine ⟨fun hlen => ?_, fun hlen => ?_⟩
  · have hfold : foldDie ch die s = flashGo ch (enqCopies .fold ch none cs s) := by
      unfold foldDie
      dsimp only
      rw [hcs, if_pos (by simp [hlen, hon])]
    have hruns := (flashRuns_enqCopies .fold ch none cs s).trans (flashRuns_flashGo ch _)
    obtain ⟨q, hq, hqo⟩ := enqProg_queues { id := 0, tag := 0, kind := .fold, ch := ch, copies := cs } (countReads (cs.map (·.src)) s)
    have henq : enqCopies .fold ch none cs s =
        enqProg { id := 0, tag := 0, kind := .fold, ch := ch, copies := cs } (countReads (cs.map (·.src)) s) := by
      rw [enqCopies, fours_of_four hlen]; rfl
    obtain ⟨o, ho, hoq⟩ := (flashRuns_flashGo ch (enqCopies .fold ch none cs s)).progs q (henq ▸ hq)
    refine ⟨_, o, (unitOp_of hw _).trans (congrArg _ hfold), ho, ?_, ?_, ?_, ?_, fun x hx hm => ?_, hruns.sameMedia.map, hruns.host⟩
    · exact (congrArg ProgOp.kind hoq :).trans (congrArg ProgOp.kind hqo :)
    · exact (congrArg ProgOp.ch hoq :).trans (congrArg ProgOp.ch hqo :)
    · exact (congrArg ProgOp.tag hoq :).trans (congrArg ProgOp.tag hqo :)
    · exact (congrArg ProgOp.copies hoq :).trans (congrArg ProgOp.copies hqo :)
    · obtain ⟨p, hp, hc⟩ := mem_gather (List.mem_of_mem_take (hcs ▸ hx))
      exact ⟨p, hp, plain_of_mem_copiesOf hc hm⟩
  · have hfold : foldDie ch die s = s := by
      unfold foldDie
      dsimp only
      rw [hcs, if_neg (by simp; omega)]
    exact (unitOp_of hw _).trans (congrArg _ hfold)

theorem merge_clause (lga : Nat) (s : State) :
    (8 ≤ (overlayUnits s lga).length → mergeable s lga = true → flashOn s = true → ∃ t o y, exec (.overlayMerge lga) s = .next t ∧
      o ∈ t.flash.progQ ∧ o.kind = .merge ∧ o.ver.data = homeRead s lga ∧ o.ver.slots = [y] ∧ y.lga = lga ∧ t.flash.map = s.flash.map ∧
      t.flash.overlay = s.flash.overlay ∧ t.host = s.host) ∧
    ((overlayUnits s lga).length < 8 → 4 * s.flash.overlay.length < 3 * overlayCap s → exec (.overlayMerge lga) s = .next s) := by
  refine ⟨fun h8 hm hon => ?_, fun h8 hcap => ?_⟩
  · set o : ProgOp := { id := 0, tag := 0, kind := .merge, ch := lgaChannel lga, ver := mergedVersion s lga false } with ho
    have hstep : mergeStep lga s = enqProg o s := by
      unfold mergeStep
      dsimp only
      rw [if_pos (by simp [hon, h8]; intro h0; simp [h0] at h8), enqMerge, if_pos hm]
    have hruns := flashRuns_enqProg o s
    obtain ⟨q, hq, hqo⟩ := enqProg_queues o s
    have hver : q.ver = mergedVersion s lga false := (congrArg ProgOp.ver hqo :)
    exact ⟨_, q, _, (unitOp_ok _).trans (congrArg _ hstep), hq, (congrArg ProgOp.kind hqo :), by rw [hver]; rfl, by rw [hver]; rfl, rfl,
      hruns.sameMedia.map, hruns.sameMedia.overlay, hruns.host⟩
  · have hstep : mergeStep lga s = s := if_neg (by simp; omega)
    exact (unitOp_ok _).trans (congrArg _ hstep)

end Sys2Proof.Machine
end

section
/-! SUPPORT. Proofs of the flash statements (chapter 8): wear levelling, refresh, patrol and training (O50). -/

namespace Sys2Proof.Machine
open Claims

/-! ### Wear levelling (R267) -/

/-- Every die has the superblock under wear levelling that it had. -/
def SameLevels (s t : State) : Prop := ∀ k, (mapGet {} t.flash.dies k).level = (mapGet {} s.flash.dies k).level

theorem SameLevels.refl (s : State) : SameLevels s s := fun _ => rfl

theorem SameLevels.trans {s t u : State} (h : SameLevels s t) (g : SameLevels t u) : SameLevels s u := fun k => (g k).trans (h k)

theorem SameLevels.of_dies {s t : State} (h : t.flash.dies = s.flash.dies) : SameLevels s t := fun k => by rw [h]

theorem SameLevels.foldl {α : Type} {f : State → α → State} (h : ∀ s a, SameLevels s (f s a)) (l : List α) (s : State) : SameLevels s (l.foldl f s) := by
  induction l generalizing s with
  | nil => exact .refl s
  | cons a l ih => exact (h s a).trans (ih _)

theorem sameLevels_updDie {f : Die → Die} (h : ∀ x, (f x).level = x.level) (ch die : Nat) (s : State) : SameLevels s (updDie ch die f s) := by
  intro k
  change (mapGet {} (mapSet {} (dieKey ch die) (f (dieOf s ch die)) s.flash.dies) k).level = _
  rw [mapGet_mapSet]
  split
  · rename_i hk; rw [h, hk]; rfl
  · rfl

theorem sameLevels_startProg (s : State) (o : ProgOp) : SameLevels s (startProg s o) := by
  unfold startProg
  split
  · exact .refl s
  · dsimp only
    split
    · exact .refl s
    · rename_i die _
      cases targetSuper s o.ch die o.kind with
      | none => exact .refl s
      | some n => exact sameLevels_updDie (f := fun x => { x with work := some (.program o.id), suspended := false }) (fun _ => rfl) o.ch die s

theorem sameLevels_startPrograms (s : State) : SameLevels s (startPrograms s) := by
  unfold startPrograms
  split
  · exact SameLevels.foldl sameLevels_startProg _ s
  · exact .refl s

theorem sameLevels_enqProg (o : ProgOp) (s : State) : SameLevels s (enqProg o s) := sameLevels_startPrograms _

theorem sameLevels_countReads (ls : List Loc) (s : State) : SameLevels s (countReads ls s) := by
  obtain ⟨m, hm⟩ := countReads_eq ls s
  exact .of_dies (by rw [hm])

theorem sameLevels_emptyMore (ch die n : Nat) (s : State) : SameLevels s (emptyMore ch die n s) := by
  unfold emptyMore
  split
  · exact .refl s
  · exact (sameLevels_countReads _ s).trans (.foldl (fun s _ => sameLevels_enqProg _ s) _ _)

theorem sameLevels_eraseNext (ch die : Nat) (s : State) : SameLevels s (eraseNext ch die s) := by
  unfold eraseNext
  dsimp only
  split
  · exact .refl s
  · split
    · exact .refl s
    · rename_i p _
      exact sameLevels_updDie (f := fun x => { x with work := some (.erase p.1), suspended := false }) (fun _ => rfl) ch die s

theorem sameLevels_resumeDies (s : State) : SameLevels s (resumeDies s) := fun k =>
  mapGet_map_same (g := Die.level) (fun p => by split <;> rfl) {} s.flash.dies k

theorem sameLevels_startReads (s : State) : SameLevels s (startReads s) := by
  obtain ⟨q, hq⟩ := startReads_flash s
  exact .of_dies (by rw [hq])

theorem sameLevels_flashGo (ch : Nat) (s : State) : SameLevels s (flashGo ch s) := by
  have hreads := (sameLevels_resumeDies s).trans (sameLevels_startReads _)
  unfold flashGo
  dsimp only
  split
  · have hmore := SameLevels.foldl (fun u (p : Nat × Nat) => sameLevels_emptyMore ch p.1 p.2 u) (chSupers (startReads (resumeDies s)) ch) (startReads (resumeDies s))
    exact hreads.trans ((hmore.trans (.foldl (fun u d => sameLevels_eraseNext ch d u) _ _)).trans (sameLevels_startPrograms _))
  · exact hreads

/-- A superblock that is to be emptied takes nothing more. -/
def emptying (why : RelocWhy) (x : Super) : Super := { x with wanted := some why, state := if x.state = .open_ then .closed else x.state }

theorem emptySuper_eq (why : RelocWhy) (ch die n : Nat) (s : State) : emptySuper why ch die n s = emptyMore ch die n (updSuper ch die n (emptying why) s) := rfl

/-- What the start of emptying leaves: the superblock is wanted, and map, counters and host interface stand. -/
theorem emptySuper_goes (why : RelocWhy) (ch die n : Nat) (s : State) :
    (superOf (flashGo ch (emptySuper why ch die n s)) ch die n).wanted = some why ∧ FlashRuns (updSuper ch die n (emptying why) s) (flashGo ch (emptySuper why ch die n s)) := by
  have hruns := (flashRuns_emptyMore ch die n (updSuper ch die n (emptying why) s)).trans (flashRuns_flashGo ch _)
  exact ⟨(hruns.wanted ch die n).trans (congrArg Super.wanted (superOf_updSuper_self ch die n (emptying why) s)), hruns⟩

theorem level_clause (ch die n : Nat) (s : State) (hw : wfDie ch die = true) (hn : leastWorn s ch die = some n) (hon : flashOn s = true)
    (hspan : 1500 < (dieWear s ch die).foldl max 0 - (dieWear s ch die).foldl min ((dieWear s ch die).foldl max 0)) :
    ((dieOf s ch die).level = none → ∃ t, exec (.wearLevelling ch die) s = .next t ∧ (superOf t ch die n).wanted = some .level ∧
      (dieOf t ch die).level = some n ∧ t.flash.map = s.flash.map ∧ t.host = s.host) ∧
    ((dieOf s ch die).level ≠ none → exec (.wearLevelling ch die) s = .next s) := by
  refine ⟨fun hl => ?_, fun hl => ?_⟩
  · set u := updDie ch die (fun d => { d with level := some n }) s with hu
    have hlevel : levelWear ch die s = flashGo ch (emptySuper .level ch die n u) := by
      unfold levelWear
      dsimp only
      rw [if_neg (by simp [hl, hon]; omega), hn]
    obtain ⟨hwanted, hruns⟩ := emptySuper_goes .level ch die n u
    have hkept : SameLevels u (flashGo ch (emptySuper .level ch die n u)) :=
      SameLevels.trans (t := updSuper ch die n (emptying .level) u) (.of_dies rfl) ((sameLevels_emptyMore ch die n _).trans (sameLevels_flashGo ch _))
    refine ⟨_, (unitOp_of hw _).trans (congrArg _ hlevel), hwanted, ?_, hruns.sameMedia.map, hruns.host⟩
    exact (hkept (dieKey ch die)).trans (congrArg Die.level (dieOf_updDie_self ch die (fun d => { d with level := some n }) s))
  · have hlevel : levelWear ch die s = s := by
      unfold levelWear
      dsimp only
      rw [if_pos (by simp [Option.isSome_iff_ne_none.mpr hl])]
    exact (unitOp_of hw _).trans (congrArg _ hlevel)

/-! ### Refresh and patrol (R268) -/

theorem refresh_clause (ch die n cause : Nat) (s : State) (hw : wfSuper ch die n = true) (hcause : cause < 3) (hon : flashOn s = true)
    (hst : (superOf s ch die n).state = .open_ ∨ (superOf s ch die n).state = .closed) (hwant : (superOf s ch die n).wanted = none) :
    ((cause = 0 ∧ (if (superOf s ch die n).slc then 400000 else 40000) ≤ (superOf s ch die n).reads) ∨ (cause ≠ 0 ∧ cause ∈ (superOf s ch die n).due) →
      ∃ t, exec (.refresh ch die n cause) s = .next t ∧ (superOf t ch die n).wanted = some .refresh ∧ t.flash.map = s.flash.map ∧ t.host = s.host ∧
      t.flash.refreshes = (s.flash.refreshes.1 + (if cause = 0 then 1 else 0), s.flash.refreshes.2.1 + (if cause = 1 then 1 else 0),
        s.flash.refreshes.2.2 + (if cause = 2 then 1 else 0))) ∧
    ((cause = 0 ∧ (superOf s ch die n).reads < (if (superOf s ch die n).slc then 400000 else 40000)) ∨ (cause ≠ 0 ∧ cause ∉ (superOf s ch die n).due) →
      exec (.refresh ch die n cause) s = .next s) := by
  have hunit : (wfSuper ch die n && decide (cause < 3)) = true := by simp [hw, hcause]
  refine ⟨fun hdue => ?_, fun hdue => ?_⟩
  · have hisDue : refreshDue (superOf s ch die n) cause = true := by
      rcases hdue with ⟨h0, h⟩ | ⟨h0, h⟩ <;> simp [refreshDue, readLimit, h0, h]
    have hrefresh : refreshSuper ch die n cause s = flashGo ch (emptySuper .refresh ch die n (countRefresh cause s)) :=
      if_pos (by simp [hst, hwant, hisDue, hon])
    obtain ⟨hwanted, hruns⟩ := emptySuper_goes .refresh ch die n (countRefresh cause s)
    exact ⟨_, (unitOp_of hunit _).trans (congrArg _ hrefresh), hwanted, hruns.sameMedia.map, hruns.host, by rw [hruns.flash]; rfl⟩
  · have hnotDue : refreshDue (superOf s ch die n) cause = false := by
      rcases hdue with ⟨h0, h⟩ | ⟨h0, h⟩
      · rw [refreshDue, if_pos h0]; exact decide_eq_false (not_le.mpr h)
      · simp [refreshDue, h0, h]
    have hrefresh : refreshSuper ch die n cause s = s := if_neg (by simp [hnotDue])
    exact (unitOp_of hunit _).trans (congrArg _ hrefresh)

/-- A superblock that has been read once more. -/
def readOnce (x : Super) : Super := { x with reads := x.reads + 1 }

theorem patrol_reads {ch die n : Nat} {s : State} (hv : (superOf s ch die n).vers ≠ []) (hf : dieFree s (dieKey ch die) = true) (hon : flashOn s = true)
    (high soft : Bool) : patrol ch die n high soft s =
      (let u := updSuper ch die n readOnce s
       let u := if soft then markSoft ch [({ ch := ch, die := die, super := n, pos := 0 }, 0)] u else u
       if high then updSuper ch die n (fun x => { x with due := setAdd 1 x.due }) u else u) :=
  if_neg (by simp [hv, hf, hon])

theorem patrol_clause (ch die n : Nat) (s : State) (hw : wfSuper ch die n = true) (hv : (superOf s ch die n).vers ≠ [])
    (hf : dieFree s (dieKey ch die) = true) (hon : flashOn s = true) :
    (∃ t, exec (.patrolRead ch die n false false) s = .next t ∧ t = { s with flash := { s.flash with supers := t.flash.supers } } ∧
      superOf t ch die n = { superOf s ch die n with reads := (superOf s ch die n).reads + 1 }) ∧
    (∃ t, exec (.patrolRead ch die n true false) s = .next t ∧ 1 ∈ (superOf t ch die n).due ∧
      (superOf t ch die n).reads = (superOf s ch die n).reads + 1) ∧
    (∃ t, exec (.patrolRead ch die n false true) s = .next t ∧ 2 ∈ (superOf t ch die n).due ∧ t.flash.softDecodes = s.flash.softDecodes + 1) := by
  have hexec (high soft : Bool) := (unitOp_of hw (patrol ch die n high soft s)).trans (congrArg _ (patrol_reads hv hf hon high soft))
  have hread : superOf (updSuper ch die n readOnce s) ch die n = readOnce (superOf s ch die n) := superOf_updSuper_self ch die n readOnce s
  have hdue (k : Nat) (u : State) : superOf (updSuper ch die n (fun x => { x with due := setAdd k x.due }) u) ch die n =
      { superOf u ch die n with due := setAdd k (superOf u ch die n).due } := superOf_updSuper_self _ _ _ _ _
  refine ⟨⟨_, hexec false false, rfl, hread⟩, ⟨_, hexec true false, ?_, ?_⟩, ⟨_, hexec false true, ?_, rfl⟩⟩
  · exact (congrArg (fun x => 1 ∈ Super.due x) (hdue 1 _)).mpr (mem_setAdd.mpr (.inl rfl))
  · exact (congrArg Super.reads (hdue 1 _)).trans (congrArg Super.reads hread)
  · exact (congrArg (fun x => 2 ∈ Super.due x) (hdue 2 _)).mpr (mem_setAdd.mpr (.inl rfl))

end Sys2Proof.Machine
end

section
/-! SUPPORT. Proofs of the flash statements (chapter 8): collection, and the erase of a superblock that holds nothing (O50). -/

namespace Sys2Proof.Machine
open Claims

/-! ### Numbers of superblocks (R241, R261) -/

theorem superKey_inj {c d k ch die n : Nat} (hk : k < 1242) (hn : n < 1242) (h : superKey c d k = superKey ch die n) : dieKey c d = dieKey ch die ∧ k = n := by
  unfold superKey at h
  unfold dieKey
  omega

theorem lt_of_mem_dieSupers {s : State} {ch die : Nat} {p : Nat × Super} (h : p ∈ dieSupers s ch die) : p.1 < 1242 := by
  obtain ⟨q, -, rfl⟩ := List.mem_map.mp h
  exact Nat.mod_lt _ (by decide)

/-- What a fold picks is where it began, or one of the candidates. -/
theorem foldl_pick {α β : Type} {P : β → Prop} {f : Option β → α → Option β} {l : List α}
    (hf : ∀ b, ∀ a ∈ l, ∀ x, f b a = some x → b = some x ∨ P x) (b : Option β) (hb : ∀ x, b = some x → P x) :
    ∀ x, l.foldl f b = some x → P x := by
  induction l generalizing b with
  | nil => exact hb
  | cons a l ih =>
    refine ih (fun b a ha => hf b a (List.mem_cons_of_mem _ ha)) _ fun x hx => ?_
    exact (hf b a List.mem_cons_self x hx).elim (hb x) id

theorem pickErased_lt {better : Nat → Nat → Bool} {s : State} {ch die n : Nat} (h : pickErased better s ch die = some n) : n < 1242 := by
  refine foldl_pick (P := (· < 1242)) (fun b k hk x hx => ?_) none (by simp) n h
  have hlt : k < 1242 := List.mem_range.mp hk
  dsimp only at hx
  split at hx
  · exact .inl hx
  · split at hx
    · exact .inr (Option.some.inj hx ▸ hlt)
    · split at hx
      · exact .inr (Option.some.inj hx ▸ hlt)
      · exact .inl hx

theorem targetSuper_lt {s : State} {ch die n : Nat} {k : ProgKind} (h : targetSuper s ch die k = some n) : n < 1242 := by
  unfold targetSuper at h
  split at h
  · rename_i p hp
    exact Option.some.inj h ▸ lt_of_mem_dieSupers (List.mem_of_find?_eq_some hp)
  · split at h
    · exact pickErased_lt h
    · exact absurd h (by simp)

theorem victim_lt {s : State} {ch die n : Nat} (h : victim s ch die = some n) : n < 1242 := by
  refine foldl_pick (P := (· < 1242)) (fun b p hp x hx => ?_) none (by simp) n h
  have hlt : p.1 < 1242 := lt_of_mem_dieSupers (List.mem_of_mem_filter hp)
  split at hx
  · exact .inr (Option.some.inj hx ▸ hlt)
  · split at hx
    · exact .inr (Option.some.inj hx ▸ hlt)
    · exact .inl hx

/-! ### The superblock under erase stays under erase -/

/-- The die erases the superblock. -/
def Erasing (ch die n : Nat) (s : State) : Prop := (dieOf s ch die).work = some (.erase n) ∧ (superOf s ch die n).state = .erasing

/-- Work that starts on another die leaves it. -/
theorem Erasing.other {ch die n c d k : Nat} {s : State} (h : Erasing ch die n s) (hn : n < 1242) (hk : k < 1242) (hd : dieKey c d ≠ dieKey ch die)
    (f : Die → Die) (g : Super → Super) : Erasing ch die n (updDie c d f (updSuper c d k g s)) := by
  obtain ⟨hwork, hstate⟩ := h
  have hdie : dieOf (updDie c d f (updSuper c d k g s)) ch die = dieOf s ch die := mapGet_mapSet_ne _ hd.symm _ _
  have hsup : superOf (updDie c d f (updSuper c d k g s)) ch die n = superOf s ch die n :=
    mapGet_mapSet_ne _ (fun hkey => hd (superKey_inj hk hn hkey.symm).1) _ _
  exact ⟨hdie ▸ hwork, hsup ▸ hstate⟩

theorem erasing_startProg {ch die n : Nat} (hn : n < 1242) {s : State} (h : Erasing ch die n s) (o : ProgOp) : Erasing ch die n (startProg s o) := by
  unfold startProg
  split
  · exact h
  · dsimp only
    split
    · exact h
    · rename_i d hd
      have htakes : dieTakes s o d = true := (List.mem_filter.mp (List.mem_of_getElem? hd)).2
      have hidle : (dieOf s o.ch d).work.isNone = true := by
        simp only [dieTakes, Bool.and_eq_true] at htakes
        tauto
      have hne : dieKey o.ch d ≠ dieKey ch die := by
        intro hkey
        have hsame : dieOf s o.ch d = dieOf s ch die := by rw [dieOf, hkey, dieOf]
        rw [hsame, h.1] at hidle
        exact absurd hidle (by simp)
      cases ht : targetSuper s o.ch d o.kind with
      | none => exact h
      | some k =>
        exact h.other hn (targetSuper_lt ht) hne (fun x => { x with work := some (.program o.id), suspended := false })
          (fun x => { x with state := .open_, slc := progSlc o.kind, use := progUse o.kind })

theorem erasing_startPrograms {ch die n : Nat} (hn : n < 1242) {s : State} (h : Erasing ch die n s) : Erasing ch die n (startPrograms s) := by
  have hfold (l : List ProgOp) (u : State) (hu : Erasing ch die n u) : Erasing ch die n (l.foldl startProg u) :=
    List.foldlRecOn l startProg hu fun _ hv o _ => erasing_startProg hn hv o
  unfold startPrograms
  split
  · exact hfold _ s h
  · exact h

theorem erasing_eraseNext {ch die n : Nat} (hn : n < 1242) {s : State} (h : Erasing ch die n s) (d : Nat) : Erasing ch die n (eraseNext ch d s) := by
  unfold eraseNext
  dsimp only
  split
  · exact h
  · rename_i hidle
    split
    · exact h
    · rename_i p hp
      refine h.other hn (lt_of_mem_dieSupers (List.mem_of_find?_eq_some hp)) (fun hkey => hidle ?_) _ _
      have hsame : dieOf s ch d = dieOf s ch die := by rw [dieOf, hkey, dieOf]
      rw [hsame, h.1]
      simp

/-! ### An empty superblock is erased where its die is idle (R263) -/

/-- The superblock is being emptied and holds nothing, its die is idle, and no other superblock is wanted or was an SLC one. -/
structure OnlyEmptied (ch die n : Nat) (s : State) : Prop where
  others : ∀ k, k ≠ superKey ch die n → (mapGet {} s.flash.supers k).wanted = none ∧ (mapGet {} s.flash.supers k).slc = false
  vers : (superOf s ch die n).vers = []
  closed : (superOf s ch die n).state = .closed
  wanted : (superOf s ch die n).wanted.isSome = true
  listed : ∃ x, (superKey ch die n, x) ∈ s.flash.supers
  work : (dieOf s ch die).work = none
  reads : s.flash.readQ = []
  raw : rawWaits s (dieKey ch die) = false

theorem liveIn_nil {s : State} {ch die n : Nat} (h : (superOf s ch die n).vers = []) : liveIn s ch die n = [] := by simp [liveIn, h]

/-- A superblock that is not being emptied, or that holds nothing, queues nothing. -/
theorem emptyMore_idle {s : State} {ch die n : Nat} (h : (superOf s ch die n).wanted = none ∨ (superOf s ch die n).vers = []) : emptyMore ch die n s = s := by
  unfold emptyMore
  split
  · rfl
  · rename_i why hwhy
    rw [liveIn_nil (h.resolve_left (by simp [hwhy]))]
    rfl

theorem OnlyEmptied.emptyMore {ch die n : Nat} {s : State} (h : OnlyEmptied ch die n s) (c d k : Nat) : Machine.emptyMore c d k s = s := by
  by_cases hkey : superKey c d k = superKey ch die n
  · exact emptyMore_idle (.inr (by rw [superOf, hkey]; exact h.vers))
  · exact emptyMore_idle (.inl (h.others _ hkey).1)

/-- It is the only one that can be erased. -/
theorem OnlyEmptied.erasable {ch die n : Nat} {s : State} (h : OnlyEmptied ch die n s) (hn : n < 1242) {d k : Nat} (hk : k < 1242)
    (he : erasable s ch d k = true) : d = die ∧ k = n := by
  have hkey : superKey ch d k = superKey ch die n := by
    by_contra hne
    obtain ⟨hwanted, hslc⟩ := h.others _ hne
    have hsup : superOf s ch d k = mapGet {} s.flash.supers (superKey ch d k) := rfl
    simp [Machine.erasable, hsup, hwanted, hslc] at he
  obtain ⟨hd, hkn⟩ := superKey_inj hk hn hkey
  exact ⟨by unfold dieKey at hd; omega, hkn⟩

theorem OnlyEmptied.eraseNext_other {ch die n d : Nat} {s : State} (h : OnlyEmptied ch die n s) (hn : n < 1242) (hd : d ≠ die) : eraseNext ch d s = s := by
  have hnone : (dieSupers s ch d).find? (fun p => Machine.erasable s ch d p.1) = none := by
    rw [List.find?_eq_none]
    exact fun p hp he => hd (h.erasable hn (lt_of_mem_dieSupers hp) he).1
  unfold eraseNext
  dsimp only
  rw [hnone]
  split <;> rfl

theorem OnlyEmptied.eraseNext {ch die n : Nat} {s : State} (h : OnlyEmptied ch die n s) (hn : n < 1242) : Erasing ch die n (eraseNext ch die s) := by
  have hcan : Machine.erasable s ch die n = true := by
    simp [Machine.erasable, h.closed, h.wanted, liveIn_nil h.vers, verifying, h.reads]
  obtain ⟨x, hx⟩ := h.listed
  have hmem : (n, x) ∈ dieSupers s ch die := by
    refine List.mem_map.mpr ⟨_, List.mem_filter.mpr ⟨hx, ?_⟩, ?_⟩
    · exact decide_eq_true (by simp only [superKey, dieKey]; omega)
    · simp only [superKey]; congr 1; omega
  obtain ⟨⟨m, y⟩, hp⟩ := Option.isSome_iff_exists.mp (List.find?_isSome.mpr ⟨_, hmem, hcan⟩ :
    ((dieSupers s ch die).find? (fun p => Machine.erasable s ch die p.1)).isSome = true)
  have hmn : m = n := (h.erasable hn (lt_of_mem_dieSupers (List.mem_of_find?_eq_some hp)) (List.find?_some hp :)).2
  have hfree : ((dieOf s ch die).work.isSome || readOn s (dieKey ch die) || readQueuedFor s (dieKey ch die)) = false := by
    simp [h.work, readOn, readQueuedFor, h.reads, h.raw]
  unfold Machine.eraseNext
  dsimp only
  rw [hfree, hp, hmn]
  refine ⟨?_, ?_⟩
  · exact congrArg Die.work (dieOf_updDie_self ch die (fun x => { x with work := some (.erase n), suspended := false }) _)
  · exact congrArg Super.state (superOf_updSuper_self ch die n (fun x => { x with state := .erasing }) s)

theorem OnlyEmptied.eraseNexts {ch die n : Nat} (hn : n < 1242) {l : List Nat} (hl : die ∈ l) {s : State} (h : OnlyEmptied ch die n s) :
    Erasing ch die n (l.foldl (fun s d => Machine.eraseNext ch d s) s) := by
  induction l with
  | nil => exact absurd hl List.not_mem_nil
  | cons d l ih =>
    rw [List.foldl_cons]
    by_cases hd : d = die
    · rw [hd]
      exact List.foldlRecOn l _ (h.eraseNext hn) fun _ hv d _ => erasing_eraseNext hn hv d
    · rw [h.eraseNext_other hn hd]
      exact ih ((List.mem_cons.mp hl).resolve_left (Ne.symm hd))

/-- Reads that start and dies that resume leave it so. -/
theorem OnlyEmptied.startReads {ch die n : Nat} {s : State} (h : OnlyEmptied ch die n s) : OnlyEmptied ch die n (startReads (resumeDies s)) := by
  have hruns := (flashRuns_resumeDies s).trans (flashRuns_startReads _)
  obtain ⟨q, hq⟩ := startReads_flash (resumeDies s)
  have hsupers : (Machine.startReads (resumeDies s)).flash.supers = s.flash.supers := by rw [hq]; rfl
  have hsup : superOf (Machine.startReads (resumeDies s)) ch die n = superOf s ch die n := by rw [superOf, hsupers]; rfl
  have hwork : (dieOf (Machine.startReads (resumeDies s)) ch die).work = (dieOf s ch die).work := by
    rw [dieOf, hq]
    exact mapGet_map_same (g := Die.work) (fun p => by split <;> rfl) {} s.flash.dies (dieKey ch die)
  refine ⟨fun k hk => by rw [hsupers]; exact h.others k hk, hsup ▸ h.vers, hsup ▸ h.closed, hsup ▸ h.wanted, hsupers ▸ h.listed, hwork.trans h.work, ?_, ?_⟩
  · rw [List.eq_nil_iff_forall_not_mem]
    intro r hr
    obtain ⟨x, hx, -⟩ := hruns.reads r hr
    rw [h.reads] at hx
    exact List.not_mem_nil hx
  · rw [rawWaits, hruns.host]; exact h.raw

theorem flashOn_congr {s t : State} (hp : t.power = s.power) (hh : t.host = s.host) : flashOn t = flashOn s := by simp only [flashOn, inS2, hp, hh]

theorem OnlyEmptied.flashGo {ch die n : Nat} {s : State} (h : OnlyEmptied ch die n s) (hn : n < 1242) (hd : die < 48) (hon : flashOn s = true) :
    Erasing ch die n (flashGo ch s) := by
  have hreads := h.startReads
  have hruns := (flashRuns_resumeDies s).trans (flashRuns_startReads _)
  have hon' : flashOn (Machine.startReads (resumeDies s)) = true := (flashOn_congr (by rw [hruns.rest]) hruns.host).trans hon
  have hstill (l : List (Nat × Nat)) : l.foldl (fun s p => Machine.emptyMore ch p.1 p.2 s) (Machine.startReads (resumeDies s)) =
      Machine.startReads (resumeDies s) := List.foldl_fixed' (fun p => hreads.emptyMore ch p.1 p.2) l
  have hdie : die ∈ ((chSupers (Machine.startReads (resumeDies s)) ch).map (·.1)).dedup := by
    obtain ⟨x, hx⟩ := hreads.listed
    refine List.mem_dedup.mpr (List.mem_map.mpr ⟨(die, n), List.mem_map.mpr ⟨_, List.mem_filter.mpr ⟨hx, ?_⟩, ?_⟩, rfl⟩)
    · exact decide_eq_true (by simp only [superKey]; omega)
    · simp only [superKey, Prod.mk.injEq]; omega
  unfold Machine.flashGo
  dsimp only
  rw [if_pos hon', hstill]
  exact erasing_startPrograms hn (hreads.eraseNexts hn hdie)

theorem mem_mapPut_self {α : Type} (k : Nat) (v : α) (m : SMap α) : (k, v) ∈ mapPut k v m := by
  induction m with
  | nil => exact List.mem_cons_self
  | cons p m ih =>
    unfold mapPut
    split
    · exact List.mem_cons_self
    · split
      · exact List.mem_cons_self
      · exact List.mem_cons_of_mem _ ih

/-- A victim with nothing in it is the only superblock that is being emptied, where no other was. -/
theorem onlyEmptied_victim {ch die n : Nat} {s : State} (hv : (superOf s ch die n).vers = []) (hc : (superOf s ch die n).state = .closed)
    (hnone : ∀ p ∈ s.flash.supers, p.2.wanted = none ∧ p.2.slc = false) (hwork : (dieOf s ch die).work = none) (hq : s.flash.readQ = [])
    (hraw : rawWaits s (dieKey ch die) = false) : OnlyEmptied ch die n (updSuper ch die n (emptying .collect) s) := by
  have hsup := superOf_updSuper_self ch die n (emptying .collect) s
  refine ⟨fun k hk => ?_, ?_, ?_, ?_, ?_, hwork, hq, hraw⟩
  · have hget : mapGet {} (updSuper ch die n (emptying .collect) s).flash.supers k = mapGet {} s.flash.supers k := mapGet_mapSet_ne _ hk _ _
    rw [hget]
    exact mapGet_of_forall (P := fun x : Super => x.wanted = none ∧ x.slc = false) ⟨rfl, rfl⟩ hnone k
  · rw [hsup]; exact hv
  · rw [hsup]; simp [emptying, hc]
  · rw [hsup]; rfl
  · have hset : (updSuper ch die n (emptying .collect) s).flash.supers = mapPut (superKey ch die n) (emptying .collect (superOf s ch die n)) s.flash.supers :=
      if_neg fun h => absurd (congrArg Super.wanted h) (by simp [emptying])
    exact ⟨_, hset ▸ mem_mapPut_self _ _ _⟩

theorem collect_clause (ch die : Nat) (s : State) (hw : wfDie ch die = true) :
    (64 ≤ erasedCount s ch die → exec (.garbageCollection ch die) s = .next s) ∧
    (∀ n, erasedCount s ch die < 64 → victim s ch die = some n → flashOn s = true → ∃ t, exec (.garbageCollection ch die) s = .next t ∧
      (superOf t ch die n).wanted = some .collect ∧ t.flash.map = s.flash.map ∧ t.host = s.host ∧
      ((superOf s ch die n).vers = [] → (superOf s ch die n).state = .closed → (∀ p ∈ s.flash.supers, p.2.wanted = none ∧ p.2.slc = false) → (dieOf s ch die).work = none →
        s.flash.readQ = [] → rawWaits s (dieKey ch die) = false →
        (dieOf t ch die).work = some (.erase n) ∧ (superOf t ch die n).state = .erasing)) := by
  have hdie : die < 48 := by simp [wfDie] at hw; omega
  refine ⟨fun h64 => (unitOp_of hw _).trans (congrArg _ (if_pos (by simp [h64]))), fun n h64 hvictim hon => ?_⟩
  have hcollect : collect ch die s = flashGo ch (emptySuper .collect ch die n s) := by
    unfold collect
    rw [if_neg (by simp [hon]; omega), hvictim]
  obtain ⟨hwanted, hruns⟩ := emptySuper_goes .collect ch die n s
  refine ⟨_, (unitOp_of hw _).trans (congrArg _ hcollect), hwanted, hruns.sameMedia.map, hruns.host, fun hv hc hnone hwork hq hraw => ?_⟩
  have honly := onlyEmptied_victim hv hc hnone hwork hq hraw
  rw [emptySuper_eq, honly.emptyMore]
  exact honly.flashGo (victim_lt hvictim) hdie hon

/-- Settles O50, clause by clause: folds, merges, collection, wear levelling, refresh, patrol and training. -/
theorem flashMaintenance : Obligations.FlashMaintenance := by
  unfold Obligations.FlashMaintenance
  exact ⟨fold_clause, merge_clause, collect_clause, level_clause, refresh_clause, patrol_clause, fun s => rfl⟩

end Sys2Proof.Machine
end

section
/-! SUPPORT. Proofs of the flash statements (chapter 8): block commands at their unit, and reads of the logical-block space (O43). -/

namespace Sys2Proof.Machine
open Claims

/-! ### A block command at its unit (R247, R417) -/

/-- A block command whose range is sound runs its meaning, a write where the module is not read-only. -/
theorem onBlk_atBlocks {s : State} {op tag : Nat} {c : Cmd} (h : AtBlocks s op tag c) (hr : op = 0x50 ∨ s.flash.readOnly = false) (f : Cmd → State → State) :
    onBlk op tag f s = f c s := by
  obtain ⟨hunit, hfree, herr⟩ := h
  have hwritable : (op != 0x50 && s.flash.readOnly) = false := by rcases hr with rfl | hr <;> simp [*]
  unfold onBlk
  rw [onCmd_atUnit hunit rfl]
  simp only [hfree, herr, firstErr, hwritable, Bool.false_eq_true, if_false]

/-- A write on a read-only module is PROGRAM_FAIL (R271). -/
theorem onBlk_readOnly {s : State} {op tag : Nat} {c : Cmd} (h : AtBlocks s op tag c) (hop : op ≠ 0x50) (hr : s.flash.readOnly = true) (f : Cmd → State → State) :
    onBlk op tag f s = complete c.tag stProgramFail s := by
  obtain ⟨hunit, hfree, herr⟩ := h
  unfold onBlk
  rw [onCmd_atUnit hunit rfl]
  simp [hfree, herr, firstErr, hop, hr]

theorem errIf_nil {b : Bool} {off : Nat} (h : errIf b off = []) : b = false := by
  cases b
  · rfl
  · exact absurd h (by simp [errIf])

/-- A sound BLK_READ or BLK_WRITE names at least one block, and its buffer holds them all. -/
theorem blkSpan_sound {s : State} {c : Cmd} (hop : pktOpcode c.pkt ≠ 0x52) (h : blkErr s c.pkt = []) :
    0 < (blkSpan c).2 ∧ (blkSpan c).2 * 4096 ≤ pktBufLen c.pkt := by
  have hlen := errIf_nil (List.append_eq_nil_iff.mp h).2
  simp [hop] at hlen
  change 0 < pktField c.pkt 24 4 ∧ pktField c.pkt 24 4 * 4096 ≤ _
  omega

/-! ### Granules of a byte range (R249) -/

/-- A segment lies inside the range and holds at least one byte. -/
theorem segsOf_pos {off len : Nat} {g : Nat × Nat × Nat} (h : g ∈ segsOf off len) : 0 < g.2.2 := by
  unfold segsOf at h
  split at h
  · exact absurd h List.not_mem_nil
  · obtain ⟨i, hi, rfl⟩ := List.mem_map.mp h
    simp only [List.mem_range, granuleBytes] at hi ⊢
    omega

/-- The granules of the segments are the ones that the range meets. -/
theorem mem_segsOf {off len g : Nat} (h : 0 < len) : (∃ x ∈ segsOf off len, x.1 = g) ↔ off < g * 65536 + 65536 ∧ g * 65536 < off + len := by
  unfold segsOf
  rw [if_neg (by omega)]
  simp only [List.mem_map, List.mem_range, granuleBytes]
  constructor
  · rintro ⟨_, ⟨i, hi, rfl⟩, rfl⟩
    dsimp only
    omega
  · exact fun hg => ⟨_, ⟨g - off / 65536, by omega, rfl⟩, by dsimp only; omega⟩

/-- The segments hold as many bytes as the range. -/
theorem segsOf_sum (off len : Nat) : ((segsOf off len).map (fun g => g.2.2)).sum = len := by
  have hpart (e k : Nat) (he : off < e) : ((List.range k).map (fun i =>
      min e ((off / 65536 + i) * 65536 + 65536) - max off ((off / 65536 + i) * 65536))).sum = min e ((off / 65536 + k) * 65536) - off := by
    induction k with
    | zero => simp; omega
    | succ k ih => rw [List.sum_range_succ, ih]; omega
  unfold segsOf
  split
  · simp [*]
  · rw [List.map_map]
    change ((List.range _).map (fun i => _)).sum = _
    refine (hpart (off + len) _ (by omega)).trans ?_
    simp only [granuleBytes]
    omega

theorem mem_readGranules {c : Cmd} (hop : pktOpcode c.pkt = 0x50) (hn : 0 < (blkSpan c).2) (g : Nat) : g ∈ readGranules c ↔ blockGranule c g := by
  have hspan : readSpan c = ((blkSpan c).1 * 4096, (blkSpan c).2 * 4096) := if_pos (by simp [isBlkRead, hop])
  rw [readGranules, hspan, List.mem_map, mem_segsOf (by dsimp only; omega), blockGranule]
  omega

/-! ### Granules that no media holds (R251) -/

/-- Zero bytes without poison. -/
def zeroPiece (p : List Byte × Option (Nat × Nat)) : Prop := p.2 = none ∧ ∀ b ∈ p.1, b = 0

theorem joinReads_zero {l : List (List Byte × Option (Nat × Nat))} (h : ∀ p ∈ l, zeroPiece p) (off : Nat) :
    zeroPiece (joinReads l off) ∧ (joinReads l off).1.length = (l.map (fun p => p.1.length)).sum := by
  induction l generalizing off with
  | nil => exact ⟨⟨rfl, fun _ hb => absurd hb List.not_mem_nil⟩, rfl⟩
  | cons p l ih =>
    obtain ⟨⟨hbad, hzero⟩, hlen⟩ := ih (fun q hq => h q (List.mem_cons_of_mem _ hq)) (off + p.1.length)
    obtain ⟨hp, hpz⟩ := h p List.mem_cons_self
    refine ⟨⟨?_, fun b hb => (List.mem_append.mp hb).elim (hpz b) (hzero b)⟩, ?_⟩
    · simp only [joinReads, hp, hbad]
    · simp only [joinReads, List.length_append, hlen, List.map_cons, List.sum_cons]

theorem hostBytes_empty (a n : Nat) : hostBytes {} a n = (zeros n, none) := by
  have hread : storeRead {} a n = zeros n := by cases n <;> rfl
  exact congrArg (·, none) hread

/-- A read whose granules are all without media answers with zeros. -/
theorem finishRead_empty (c : Cmd) (s : State) : ∃ bs, finishRead { c with home := {} } s = reply { c with home := {} } 0 bs (stSuccess 0 0 0) s ∧
    (∀ b ∈ bs, b = 0) ∧ bs.length = (readSpan c).2 := by
  have hbad : rawBad 5 64 {} (readSpan c).1 (readSpan c).2 = [] := by unfold rawBad; split <;> rfl
  have hmeet : meetStaging { c with home := {} } (readSpan c).1 (readSpan c).2 = {} := by rw [meetStaging, hbad]; rfl
  have hlog : logStaging { c with home := {} } (readSpan c).1 (readSpan c).2 s = s := by rw [logStaging, hbad]; rfl
  set l := (segsOf (readSpan c).1 (readSpan c).2).map (fun g => hostBytes {} (g.1 * granuleBytes + g.2.1) g.2.2) with hl
  have hpieces : ∀ p ∈ l, zeroPiece p := by
    intro p hp
    obtain ⟨g, -, rfl⟩ := List.mem_map.mp hp
    rw [hostBytes_empty]
    exact ⟨rfl, fun b hb => List.eq_of_mem_replicate hb⟩
  obtain ⟨⟨hgood, hzero⟩, hlen⟩ := joinReads_zero hpieces 0
  refine ⟨(joinReads l 0).1, ?_, hzero, ?_⟩
  · change reply { c with home := {} } 0 (joinReads ((segsOf (readSpan c).1 (readSpan c).2).map (fun g =>
      hostBytes (meetStaging { c with home := {} } (readSpan c).1 (readSpan c).2) (g.1 * granuleBytes + g.2.1) g.2.2)) 0).1
      (readStatus (stSuccess 0 0 0) 0 (joinReads ((segsOf (readSpan c).1 (readSpan c).2).map (fun g =>
      hostBytes (meetStaging { c with home := {} } (readSpan c).1 (readSpan c).2) (g.1 * granuleBytes + g.2.1) g.2.2)) 0).2)
      (logStaging { c with home := {} } (readSpan c).1 (readSpan c).2 s) = _
    rw [hmeet, hlog, ← hl, hgood]
    rfl
  · rw [hlen, hl, List.map_map]
    refine (congrArg List.sum (List.map_congr_left fun g _ => ?_)).trans (segsOf_sum _ _)
    rw [Function.comp_apply, hostBytes_empty]
    exact List.length_replicate

/-- The granules of a block read that must come from a die. -/
def heldGranules (c : Cmd) (s : State) : List Nat := (readGranules c).filter (fun g => !noMedia s (blkLga g))

/-- The read of each granule held is queued. -/
def readsQueued (c : Cmd) (s : State) : State := (heldGranules c s).foldl (fun s g => enqRead (blkLga g) (.host c.tag g) s)
  (keepRunning c (heldGranules c s).length s)

theorem startHostRead_block {c : Cmd} {s : State} (hop : pktOpcode c.pkt = 0x50) : startHostRead c (readGranules c) {} s =
    if (heldGranules c s).isEmpty then finishRead { c with home := {} } s
    else startReads (updCmd c.tag (fun d => { d with home := {} }) (readsQueued c s)) := by
  have hblk : isBlkRead c = true := by simp [isBlkRead, hop]
  have hlga (u : State) (g : Nat) : readLga u c g = blkLga g := if_pos hblk
  have himport : (isImport s c && !(readGranules c).isEmpty) = false := by simp [isImport, hblk]
  have hhome (l : List Nat) : l.foldl (fun m g => storePaste 64 m (g * granuleBytes) granuleBytes {}) ({} : Store) = {} :=
    List.foldl_fixed' (fun _ => rfl) l
  unfold startHostRead
  rw [himport]
  simp only [hlga, hhome]
  cases objOf s (cmdObj c) <;> rfl

end Sys2Proof.Machine
end

section
/-! SUPPORT. Proofs of the flash statements (chapter 8): BLK_READ of granules on the media, BLK_WRITE, BLK_TRIM and BLK_FLUSH (O43). -/

namespace Sys2Proof.Machine
open Claims

/-! ### Reads of granules on the media (R247) -/

/-- Reads that are queued change nothing but the queue and the next number, and each stands in the queue for what it was asked for. -/
theorem enqReads_queued {α : Type} (lga : α → Nat) (why : α → ReadFor) (l : List α) (s : State) : ∃ q k,
    l.foldl (fun s g => enqRead (lga g) (why g) s) s = { s with flash := { s.flash with readQ := q, nextId := k } } ∧
    (∀ r ∈ s.flash.readQ, r ∈ q) ∧ ∀ g ∈ l, ∃ r ∈ q, r.lga = lga g ∧ r.why = why g := by
  induction l generalizing s with
  | nil => exact ⟨s.flash.readQ, s.flash.nextId, rfl, fun _ hr => hr, fun _ hg => absurd hg List.not_mem_nil⟩
  | cons g l ih =>
    obtain ⟨q, k, heq, hold, hnew⟩ := ih (enqRead (lga g) (why g) s)
    refine ⟨q, k, heq, fun r hr => hold r (List.mem_append_left _ hr), fun h hh => ?_⟩
    rcases List.mem_cons.mp hh with rfl | hh
    · exact ⟨_, hold _ (List.mem_append_right _ List.mem_cons_self), rfl, rfl⟩
    · exact hnew h hh

theorem execBlkRead_eq {tag : Nat} {c : Cmd} {s : State} (h : AtBlocks s 0x50 tag c) :
    exec (.blkRead tag) s = .next (startHostRead c (readGranules c) {} s) := by
  change unitOp true (onBlk 0x50 tag (fun c s => startHostRead c (readGranules c) {} s) s) = _
  rw [onBlk_atBlocks h (.inl rfl), unitOp_ok]

theorem blkRead_clause (tag : Nat) (c : Cmd) (s : State) (h : AtBlocks s 0x50 tag c) :
    ((∀ g, blockGranule c g → noMedia s (blkLga g) = true) →
      ∃ t bs, exec (.blkRead tag) s = .next t ∧ OnlyHostChanges s t ∧ RepliesWith c 0 bs (stSuccess 0 0 0) s t ∧ (∀ b ∈ bs, b = 0) ∧
        bs.length = (blkSpan c).2 * 4096) ∧
    (∀ h, blockGranule c h → noMedia s (blkLga h) = false →
      ∃ t, exec (.blkRead tag) s = .next t ∧ StandsAs c .running t ∧ t.flash.map = s.flash.map ∧ t.flash.overlay = s.flash.overlay ∧
        t.flash.progQ = s.flash.progQ ∧ t.ctxs = s.ctxs ∧
        (∀ g, blockGranule c g → noMedia s (blkLga g) = false → ∃ r ∈ t.flash.readQ, r.lga = blkLga g ∧ r.why = .host c.tag g)) := by
  obtain ⟨hc, hop, -⟩ := cmdOf_of_atUnit h.1
  obtain ⟨hpos, -⟩ := blkSpan_sound (by rw [hop]; decide) h.2.2
  have hheld (g : Nat) : g ∈ heldGranules c s ↔ blockGranule c g ∧ noMedia s (blkLga g) = false := by
    rw [heldGranules, List.mem_filter, mem_readGranules hop hpos, Bool.not_eq_true']
  have hexec := (execBlkRead_eq h).trans (congrArg _ (startHostRead_block hop))
  refine ⟨fun hnone => ?_, fun g hg hmedia => ?_⟩
  · have hempty : heldGranules c s = [] := by
      rw [List.eq_nil_iff_forall_not_mem]
      intro g hg
      obtain ⟨hblock, hmedia⟩ := (hheld g).mp hg
      exact absurd (hnone g hblock) (by simp [hmedia])
    rw [hempty, List.isEmpty_nil, if_pos rfl] at hexec
    obtain ⟨bs, heq, hzero, hlen⟩ := finishRead_empty c s
    have hspan : (readSpan c).2 = (blkSpan c).2 * 4096 := congrArg Prod.snd (if_pos (by simp [isBlkRead, hop]))
    exact ⟨_, bs, hexec.trans (congrArg _ heq), reply_onlyHost _ _ _ _ _, repliesWith_reply _ _ _ _ _, hzero, hlen.trans hspan⟩
  · have hsome : (heldGranules c s).isEmpty = false := by
      rw [List.isEmpty_eq_false_iff_exists_mem]
      exact ⟨g, (hheld g).mpr ⟨hg, hmedia⟩⟩
    rw [hsome, if_neg (by simp)] at hexec
    obtain ⟨q, k, heq, -, hasked⟩ := enqReads_queued blkLga (fun g => .host c.tag g) (heldGranules c s) (keepRunning c (heldGranules c s).length s)
    set u := updCmd c.tag (fun d => { d with home := {} }) (readsQueued c s) with hu
    have hueq : u = updCmd c.tag (fun d => { d with home := {} })
        { keepRunning c (heldGranules c s).length s with flash := { s.flash with readQ := q, nextId := k } } := by rw [hu, readsQueued, heq]; rfl
    have hruns := flashRuns_startReads u
    obtain ⟨p, hp⟩ := startReads_flash u
    refine ⟨_, hexec, ?_, ?_, ?_, ?_, ?_, fun j hj hm => ?_⟩
    · have hcmd : cmdOf u c.tag = some { { c with phase := .running, left := (heldGranules c s).length } with home := {} } := by
        rw [hueq]
        refine cmdOf_updCmd_self (c := { c with phase := .running, left := (heldGranules c s).length }) ?_ (fun _ => rfl)
        exact (cmdOf_congr rfl _).trans (cmdOf_updCmd_self (f := fun d => { d with phase := .running, left := (heldGranules c s).length }) hc (fun _ => rfl))
      exact ⟨_, (cmdOf_congr hruns.host _).trans hcmd, rfl, rfl⟩
    · rw [hp, hueq]; rfl
    · rw [hp, hueq]; rfl
    · rw [hp, hueq]; rfl
    · rw [hruns.rest, hueq]; rfl
    · obtain ⟨r, hr, hlga, hwhy⟩ := hasked j ((hheld j).mpr ⟨hj, hm⟩)
      have hrq : r ∈ u.flash.readQ := by rw [hueq]; exact hr
      have hask : readAsk r ∈ (startReads u).flash.readQ.map readAsk := readAsks_startReads u ▸ List.mem_map_of_mem hrq
      obtain ⟨x, hx, hxr⟩ := List.mem_map.mp hask
      exact ⟨x, hx, (congrArg Prod.fst hxr :).trans hlga, (congrArg Prod.snd hxr :).trans hwhy⟩

/-! ### What a write of the home queues (R252, R255, R256) -/

/-- Programs are queued: no map changes, no queued program is lost, and sequence numbers rise; outside the flash only free values are used up. -/
structure ProgramsQueued (s t : State) : Prop where
  rest : t = { s with flash := t.flash, nonce := t.nonce }
  map : t.flash.map = s.flash.map
  overlay : t.flash.overlay = s.flash.overlay
  progs : ∀ p ∈ s.flash.progQ, ∃ q ∈ t.flash.progQ, { q with on := p.on } = p
  seq : s.flash.seq ≤ t.flash.seq

theorem ProgramsQueued.refl (s : State) : ProgramsQueued s s := ⟨rfl, rfl, rfl, fun p hp => ⟨p, hp, rfl⟩, le_rfl⟩

theorem ProgramsQueued.trans {s t u : State} (h : ProgramsQueued s t) (g : ProgramsQueued t u) : ProgramsQueued s u where
  rest := by rw [g.rest, h.rest]
  map := g.map.trans h.map
  overlay := g.overlay.trans h.overlay
  progs p hp := by
    obtain ⟨q, hq, hqp⟩ := h.progs p hp
    obtain ⟨r, hr, hrq⟩ := g.progs q hq
    exact ⟨r, hr, by rw [← hqp, ← hrq]⟩
  seq := h.seq.trans g.seq

theorem ProgramsQueued.foldl {α : Type} {f : State → α → State} (h : ∀ s a, ProgramsQueued s (f s a)) (l : List α) (s : State) :
    ProgramsQueued s (l.foldl f s) := by
  induction l generalizing s with
  | nil => exact .refl s
  | cons a l ih => exact (h s a).trans (ih _)

theorem programsQueued_drawSeq (s : State) : ProgramsQueued s (drawSeq s) := ⟨rfl, rfl, rfl, fun p hp => ⟨p, hp, rfl⟩, Nat.le_succ _⟩

theorem programsQueued_enqProg (o : ProgOp) (s : State) : ProgramsQueued s (enqProg o s) := by
  have hruns := flashRuns_enqProg o s
  exact ⟨enqProg_eq o s, hruns.sameMedia.map, hruns.sameMedia.overlay, hruns.progs, by rw [hruns.flash]⟩

/-- A program of this command writes the granule, under a sequence number from `n` on. -/
def WritesGranule (tag lga n : Nat) (t : State) : Prop :=
  ∃ o ∈ t.flash.progQ, o.tag = tag ∧ (o.kind = .write ∨ o.kind = .units) ∧ ∃ x ∈ o.ver.slots, x.lga = lga ∧ n ≤ x.seq

theorem WritesGranule.mono {tag lga n : Nat} {s t : State} (h : WritesGranule tag lga n s) (hq : ProgramsQueued s t) : WritesGranule tag lga n t := by
  obtain ⟨p, hp, htag, hkind, hslot⟩ := h
  obtain ⟨q, hq, hqp⟩ := hq.progs p hp
  have hver : q.ver = p.ver := (congrArg ProgOp.ver hqp :)
  have hk : q.kind = p.kind := (congrArg ProgOp.kind hqp :)
  exact ⟨q, hq, (congrArg ProgOp.tag hqp :).trans htag, hk ▸ hkind, hver ▸ hslot⟩

theorem WritesGranule.earlier {tag lga m n : Nat} {s : State} (h : WritesGranule tag lga n s) (hm : m ≤ n) : WritesGranule tag lga m s := by
  obtain ⟨o, ho, htag, hkind, x, hx, hlga, hseq⟩ := h
  exact ⟨o, ho, htag, hkind, x, hx, hlga, hm.trans hseq⟩

/-- What a write of a part of a granule does: programs are queued, one of them for the granule under a new sequence number. -/
structure QueuesWrite (tag lga : Nat) (s t : State) : Prop where
  queued : ProgramsQueued s t
  writes : WritesGranule tag lga s.flash.seq t
  draws : s.flash.seq < t.flash.seq

theorem enqProg_writes {o : ProgOp} {lga n : Nat} (hk : o.kind = .write ∨ o.kind = .units) (hs : ∃ x ∈ o.ver.slots, x.lga = lga ∧ n ≤ x.seq) (s : State) :
    WritesGranule o.tag lga n (enqProg o s) := by
  obtain ⟨q, hq, hqo⟩ := enqProg_queues o s
  have hver : q.ver = o.ver := (congrArg ProgOp.ver hqo :)
  have hkind : q.kind = o.kind := (congrArg ProgOp.kind hqo :)
  exact ⟨q, hq, (congrArg ProgOp.tag hqo :), hkind ▸ hk, hver ▸ hs⟩

/-- The page of a whole granule. -/
def granuleOp (tag ctx obj lga : Nat) (data : Store) (n : Nat) : ProgOp :=
  { id := 0, tag := tag, ctx := ctx, obj := obj, kind := .write, ch := lgaChannel lga,
    ver := { kind := .granule, slots := [{ lga := lga, seq := n }], data := data } }

theorem enqGranule_queues (tag ctx obj lga : Nat) (data : Store) (s : State) : QueuesWrite tag lga s (enqGranule tag ctx obj lga data s) := by
  have henq := programsQueued_enqProg (granuleOp tag ctx obj lga data s.flash.seq) (drawSeq s)
  exact ⟨(programsQueued_drawSeq s).trans henq,
    enqProg_writes (o := granuleOp tag ctx obj lga data s.flash.seq) (.inl rfl) ⟨_, List.mem_singleton_self _, rfl, le_rfl⟩ _, henq.seq⟩

/-- The overlay page of a group of units. -/
def unitsOp (tag ctx obj lga : Nat) (data : Store) (us : List Nat) (n : Nat) : ProgOp :=
  { id := 0, tag := tag, ctx := ctx, obj := obj, kind := .units, ch := lgaChannel lga,
    ver := { kind := .overlay
             slots := us.zipIdx.map (fun p => { lga := lga, unit := p.1, seq := n + p.2 })
             data := us.zipIdx.foldl (fun m p => storePaste 4096 m (p.2 * 4096) 4096 (storeSub 4096 data (p.1 * 4096) 4096)) {} } }

theorem enqUnits_eq (tag ctx obj lga : Nat) (data : Store) (units : List Nat) (s : State) : enqUnits tag ctx obj lga data units s =
    (fours units).foldl (fun s us => enqProg (unitsOp tag ctx obj lga data us s.flash.seq) (us.foldl (fun s _ => drawSeq s) s)) s := rfl

theorem fours_cons {α : Type} (a : α) (l : List α) : ∃ k m, fours (a :: l) = (a :: k) :: m := by
  match l with
  | [] | [_] | [_, _] | _ :: _ :: _ :: _ => exact ⟨_, _, rfl⟩

theorem enqUnits_queues {units : List Nat} (hu : units ≠ []) (tag ctx obj lga : Nat) (data : Store) (s : State) :
    QueuesWrite tag lga s (enqUnits tag ctx obj lga data units s) := by
  have hgroup (s : State) (us : List Nat) :
      ProgramsQueued s (enqProg (unitsOp tag ctx obj lga data us s.flash.seq) (us.foldl (fun s _ => drawSeq s) s)) :=
    (ProgramsQueued.foldl (fun s _ => programsQueued_drawSeq s) us s).trans (programsQueued_enqProg _ _)
  obtain ⟨a, l, rfl⟩ := List.exists_cons_of_ne_nil hu
  obtain ⟨k, m, hfours⟩ := fours_cons a l
  rw [enqUnits_eq, hfours, List.foldl_cons]
  have hrest := ProgramsQueued.foldl hgroup m (enqProg (unitsOp tag ctx obj lga data (a :: k) s.flash.seq) ((a :: k).foldl (fun s _ => drawSeq s) s))
  refine ⟨(hgroup s (a :: k)).trans hrest, WritesGranule.mono ?_ hrest, lt_of_lt_of_le ?_ hrest.seq⟩
  · exact enqProg_writes (o := unitsOp tag ctx obj lga data (a :: k) s.flash.seq) (.inr rfl) ⟨_, List.mem_cons_self, rfl, Nat.le_add_right _ _⟩ _
  · have hdraw := (ProgramsQueued.foldl (fun s _ => programsQueued_drawSeq s) k (drawSeq s)).seq
    exact lt_of_lt_of_le (lt_of_lt_of_le (Nat.lt_succ_self _) hdraw) (programsQueued_enqProg _ _).seq

/-- The write of one segment. -/
def writeSeg (tag ctx obj : Nat) (lgaOf : Nat → Nat) (off : Nat) (bs : List Byte) (s : State) (g : Nat × Nat × Nat) : State :=
  let lga := lgaOf g.1
  let part := (bs.drop (g.1 * granuleBytes + g.2.1 - off)).take g.2.2
  if g.2.2 = granuleBytes then enqGranule tag ctx obj lga { cells := cellsOf 0 part } s
  else enqUnits tag ctx obj lga (patchHome (homeNew s lga) g.2.1 part)
    ((List.range (ceilDiv (g.2.1 + g.2.2) 4096 - g.2.1 / 4096)).map (fun i => g.2.1 / 4096 + i)) s

theorem writeHome_eq (tag ctx obj : Nat) (lgaOf : Nat → Nat) (off : Nat) (bs : List Byte) (s : State) :
    writeHome tag ctx obj lgaOf off bs s = (segsOf off bs.length).foldl (writeSeg tag ctx obj lgaOf off bs) s := rfl

theorem writeSeg_queues {g : Nat × Nat × Nat} (hg : 0 < g.2.2) (tag ctx obj : Nat) (lgaOf : Nat → Nat) (off : Nat) (bs : List Byte) (s : State) :
    QueuesWrite tag (lgaOf g.1) s (writeSeg tag ctx obj lgaOf off bs s g) := by
  unfold writeSeg
  dsimp only
  split
  · exact enqGranule_queues _ _ _ _ _ _
  · refine enqUnits_queues ?_ _ _ _ _ _ _
    simp [ceilDiv]
    omega

/-- A write of the home queues a program for every granule it meets. -/
theorem writeHome_queues (tag ctx obj : Nat) (lgaOf : Nat → Nat) (off : Nat) (bs : List Byte) (s : State) :
    ProgramsQueued s (writeHome tag ctx obj lgaOf off bs s) ∧
    (∀ g ∈ segsOf off bs.length, WritesGranule tag (lgaOf g.1) s.flash.seq (writeHome tag ctx obj lgaOf off bs s)) ∧
    (segsOf off bs.length ≠ [] → s.flash.seq < (writeHome tag ctx obj lgaOf off bs s).flash.seq) := by
  have hfold (l : List (Nat × Nat × Nat)) (hl : ∀ g ∈ l, 0 < g.2.2) (s : State) : ProgramsQueued s (l.foldl (writeSeg tag ctx obj lgaOf off bs) s) ∧
      (∀ g ∈ l, WritesGranule tag (lgaOf g.1) s.flash.seq (l.foldl (writeSeg tag ctx obj lgaOf off bs) s)) ∧
      (l ≠ [] → s.flash.seq < (l.foldl (writeSeg tag ctx obj lgaOf off bs) s).flash.seq) := by
    induction l generalizing s with
    | nil => exact ⟨.refl s, fun _ hg => absurd hg List.not_mem_nil, fun h => absurd rfl h⟩
    | cons g l ih =>
      have hone := writeSeg_queues (hl g List.mem_cons_self) tag ctx obj lgaOf off bs s
      obtain ⟨hrest, hwrites, -⟩ := ih (fun g hg => hl g (List.mem_cons_of_mem _ hg)) (writeSeg tag ctx obj lgaOf off bs s g)
      refine ⟨hone.queued.trans hrest, fun x hx => ?_, fun _ => lt_of_lt_of_le hone.draws hrest.seq⟩
      rcases List.mem_cons.mp hx with rfl | hx
      · exact hone.writes.mono hrest
      · exact (hwrites x hx).earlier hone.queued.seq
  rw [writeHome_eq]
  exact hfold _ (fun _ hg => segsOf_pos hg) s

/-! ### BLK_WRITE, BLK_TRIM and BLK_FLUSH (R255, R256) -/

theorem cmdData_length (c : Cmd) : (cmdData c).length = pktBufLen c.pkt := padTo_length (List.length_take_le _ _)

theorem blkWrite_clause (tag : Nat) (c : Cmd) (s : State) (h : AtBlocks s 0x51 tag c) :
    (s.flash.readOnly = true → ∃ t, exec (.blkWrite tag) s = .next t ∧ OnlyHostChanges s t ∧ CommandCompletes c stProgramFail s t) ∧
    (s.flash.readOnly = false → LastProgramCompletes c ∧ ∃ t left, exec (.blkWrite tag) s = .next t ∧ StaysRunning c left s t ∧
      t = { s with host := t.host, flash := t.flash, nonce := t.nonce } ∧ t.flash.map = s.flash.map ∧ t.flash.overlay = s.flash.overlay ∧
      ((blkSpan c).2 * 4096 ≤ pktBufLen c.pkt → ∀ g, blockGranule c g → ∃ o ∈ t.flash.progQ, o.tag = c.tag ∧ (o.kind = .write ∨ o.kind = .units) ∧
        ∃ x ∈ o.ver.slots, x.lga = blkLga g ∧ s.flash.seq ≤ x.seq) ∧
      (0 < pktBufLen c.pkt → 0 < (blkSpan c).2 → s.flash.seq < t.flash.seq)) := by
  obtain ⟨hc, hop, -⟩ := cmdOf_of_atUnit h.1
  have hexec : exec (.blkWrite tag) s = .next (onBlk 0x51 tag blkWriteCmd s) := rfl
  refine ⟨fun hr => ?_, fun hr => ⟨lastProgramCompletes_of (by rw [hop]; decide) (by rw [hop]; decide), ?_⟩⟩
  · rw [onBlk_readOnly h (by decide) hr] at hexec
    exact ⟨_, hexec, complete_onlyHost _ _ _, commandCompletes_complete hc rfl _⟩
  · rw [onBlk_atBlocks h (.inr hr)] at hexec
    obtain ⟨hpos, hbuf⟩ := blkSpan_sound (by rw [hop]; decide) h.2.2
    set bs := (cmdData c).take ((blkSpan c).2 * 4096) with hbs
    have hlen : bs.length = (blkSpan c).2 * 4096 := by rw [hbs, List.length_take, cmdData_length, min_eq_left hbuf]
    obtain ⟨hqueued, hwrites, hdraws⟩ := writeHome_queues c.tag 0 0 blkLga ((blkSpan c).1 * 4096) bs s
    set u := writeHome c.tag 0 0 blkLga ((blkSpan c).1 * 4096) bs s with hu
    have hsegs (g : Nat) : (∃ x ∈ segsOf ((blkSpan c).1 * 4096) bs.length, x.1 = g) ↔ blockGranule c g := by
      rw [mem_segsOf (by omega), hlen, blockGranule]; omega
    have hcmd : blkWriteCmd c s = keepRunning c (progsOf u c.tag) u := rfl
    rw [hcmd] at hexec
    generalize progsOf u c.tag = left at hexec
    refine ⟨_, left, hexec, ?_, ?_, hqueued.map, hqueued.overlay, fun _ g hg => ?_, fun _ _ => hdraws ?_⟩
    · rw [hqueued.rest]; rfl
    · rw [hqueued.rest]; rfl
    · obtain ⟨x, hx, rfl⟩ := (hsegs g).mpr hg
      exact hwrites x hx
    · obtain ⟨x, hx, -⟩ := (hsegs ((blkSpan c).1 / 16)).mpr (by rw [blockGranule]; omega)
      exact List.ne_nil_of_mem hx

theorem blkTrim_clause (tag : Nat) (c : Cmd) (s : State) (h : AtBlocks s 0x52 tag c) :
    (s.flash.readOnly = true → ∃ t, exec (.blkTrim tag) s = .next t ∧ OnlyHostChanges s t ∧ CommandCompletes c stProgramFail s t) ∧
    (s.flash.readOnly = false → LastProgramCompletes c ∧ ∃ t o, exec (.blkTrim tag) s = .next t ∧ StaysRunning c 1 s t ∧
      t = { s with host := t.host, flash := t.flash, nonce := t.nonce } ∧ t.flash.map = s.flash.map ∧ t.flash.seq = s.flash.seq + 1 ∧
      o ∈ t.flash.progQ ∧ o.tag = c.tag ∧ o.ver.kind = .tombstone ∧
      o.ver.slots = [{ lga := blkLga ((blkSpan c).1 / 16), count := (blkSpan c).2 / 16, seq := s.flash.seq }]) := by
  obtain ⟨hc, hop, -⟩ := cmdOf_of_atUnit h.1
  have hexec : exec (.blkTrim tag) s = .next (onBlk 0x52 tag blkTrimCmd s) := rfl
  refine ⟨fun hr => ?_, fun hr => ⟨lastProgramCompletes_of (by rw [hop]; decide) (by rw [hop]; decide), ?_⟩⟩
  · rw [onBlk_readOnly h (by decide) hr] at hexec
    exact ⟨_, hexec, complete_onlyHost _ _ _, commandCompletes_complete hc rfl _⟩
  · rw [onBlk_atBlocks h (.inr hr)] at hexec
    set lga := blkLga ((blkSpan c).1 / 16) with hlga
    set o : ProgOp := { id := 0, tag := c.tag, ctx := 0, obj := 0, kind := .record, ch := lgaChannel lga
                        ver := { kind := .tombstone, slots := [{ lga := lga, count := (blkSpan c).2 / 16, seq := s.flash.seq }] } } with ho
    have hcmd : blkTrimCmd c s = keepRunning c 1 (enqProg o (drawSeq s)) := rfl
    have hflash : (enqProg o (drawSeq s)).flash = _ := (flashRuns_enqProg o (drawSeq s)).flash
    obtain ⟨q, hq, hqo⟩ := enqProg_queues o (drawSeq s)
    refine ⟨keepRunning c 1 (enqProg o (drawSeq s)), q, hexec.trans (by rw [hcmd]), ?_, ?_, ?_, ?_, hq, ?_⟩
    · rw [enqProg_eq]; rfl
    · rw [enqProg_eq]; rfl
    · exact (congrArg Flash.map hflash :)
    · exact (congrArg Flash.seq hflash :)
    · exact ⟨(congrArg ProgOp.tag hqo :), (congrArg (fun p => p.ver.kind) hqo :), (congrArg (fun p => p.ver.slots) hqo :)⟩

theorem blkFlush_clause (tag : Nat) (c : Cmd) (s : State) (h : AtUnit s 0x53 tag c) :
    ∃ t, exec (.blkFlush tag) s = .next t ∧ OnlyHostChanges s t ∧ WaitsForTick c s t ∧
      TakenUpLater c { c with phase := .ready, extra := 0 } closeCmd (fun u => flushWaits u c = false) (fun u v => OnlyHostChanges u v) t := by
  obtain ⟨hc, hop, -⟩ := cmdOf_of_atUnit h
  refine ⟨awaitTick c 0 s, ?_, rfl, ⟨0, rfl⟩, takenUpLater_awaitTick hc rfl fun u hu => ⟨u, ?_, rfl, rfl, complete_onlyHost _ _ _⟩⟩
  · change unitOp true (onCmd 0x53 tag anyPkt (fun c s => awaitTick c 0 s) s) = _
    rw [onCmd_atUnit h rfl, unitOp_ok]
  · have hwaits : flushWaits u { c with phase := .ready, extra := 0 } = false := hu
    simp [closeCmd, awaits, hop, hwaits]

/-- Settles O43: BLK_READ by `startHostRead_block`, BLK_WRITE by `writeHome_queues`, BLK_TRIM by its tombstone, BLK_FLUSH by its boundary. -/
theorem blockCommands : Obligations.BlockCommands := by
  unfold Obligations.BlockCommands
  exact ⟨blkRead_clause, blkWrite_clause, blkTrim_clause, blkFlush_clause⟩

end Sys2Proof.Machine
end

section
/-! SUPPORT. Proofs of the flash statements (chapter 8): what programs the embedded flash and the OTP row leaves of the module (O20). -/

namespace Sys2Proof.Machine
open Claims

/-! ### Records in the embedded flash (R431 to R443) -/

/-- Only words of the embedded flash and of the OTP row change. -/
def ArrayWritten (s t : State) : Prop :=
  t = { s with ef := { s.ef with words := t.ef.words, poisoned := t.ef.poisoned, otp := t.ef.otp, raw := t.ef.raw } }

theorem ArrayWritten.refl (s : State) : ArrayWritten s s := rfl

theorem ArrayWritten.trans {s t u : State} (h : ArrayWritten s t) (g : ArrayWritten t u) : ArrayWritten s u := Eq.trans g (by rw [h])

theorem ArrayWritten.foldl {α : Type} {f : State → α → State} (h : ∀ s a, ArrayWritten s (f s a)) (l : List α) (s : State) : ArrayWritten s (l.foldl f s) := by
  induction l generalizing s with
  | nil => exact .refl s
  | cons a l ih => exact (h s a).trans (ih _)

theorem ArrayWritten.ite {c : Prop} [Decidable c] {s t u : State} (h : ArrayWritten s t) (g : ArrayWritten s u) : ArrayWritten s (if c then t else u) := by
  split
  · exact h
  · exact g

theorem arrayWritten_setEf (w : Nat) (v : Word64) (s : State) : ArrayWritten s (setEf w v s) := rfl

theorem arrayWritten_setOtp (w : Nat) (v : Word64) (s : State) : ArrayWritten s (setOtp w v s) := rfl

theorem arrayWritten_firmErase (n : Nat) (s : State) : ArrayWritten s (firmErase n s) := rfl

theorem arrayWritten_openSector (n : Nat) (s : State) : ArrayWritten s (openSector n s) :=
  (ArrayWritten.ite (.refl s) (arrayWritten_firmErase n s)).trans (arrayWritten_setEf _ _ _)

theorem arrayWritten_programRecord (r : Region) (n i : Nat) (ws : List Word64) (s : State) : ArrayWritten s (programRecord r n i ws s) :=
  .foldl (fun s _ => arrayWritten_setEf _ _ s) _ s

theorem arrayWritten_addRecord (r : Region) (ws : List Word64) (s : State) : ArrayWritten s (addRecord r ws s) := by
  unfold addRecord
  split
  · exact .refl s
  · exact (ArrayWritten.ite (.refl s) (arrayWritten_openSector _ s)).trans (arrayWritten_programRecord _ _ _ _ _)

theorem arrayWritten_rewriteSector (n : Nat) (s : State) : ArrayWritten s (rewriteSector n s) := by
  have hdrop (s : State) : ArrayWritten s (dropSector n s) := rfl
  unfold rewriteSector
  split
  · exact .refl s
  · rename_i r _
    dsimp only
    split
    · exact .refl s
    · rename_i k _
      refine .ite (hdrop s) ((ArrayWritten.trans (arrayWritten_openSector k s) (.foldl (fun s x => ?_) _ _)).trans (hdrop _))
      exact arrayWritten_programRecord r k x.2 x.1.2.2 s

theorem arrayWritten_cfgDrop (k : Nat) (s : State) : ArrayWritten s (cfgDrop k s) := .foldl (fun s _ => arrayWritten_programRecord _ _ _ _ s) _ s

theorem arrayWritten_cfgAdd (k : Nat) (ws : List Word64) (s : State) : ArrayWritten s (cfgAdd k ws s) := by
  unfold cfgAdd
  refine ArrayWritten.trans ?_ (arrayWritten_addRecord _ _ _)
  split
  · exact .ite (.refl s) (arrayWritten_rewriteSector _ s)
  · exact .refl s

theorem arrayWritten_cfgPut (k : Nat) (ws : List Word64) (s : State) : ArrayWritten s (cfgPut k ws s) :=
  (arrayWritten_cfgDrop k s).trans (arrayWritten_cfgAdd k ws _)

theorem arrayWritten_cfgAppend (k : Nat) (v : Word64) (s : State) : ArrayWritten s (cfgAppend k v s) := arrayWritten_cfgAdd _ _ s

theorem arrayWritten_programEntry (e : LogEntry) (s : State) : ArrayWritten s (programEntry e s) := by
  have hahead (n : Nat) (s : State) : ArrayWritten s (eraseAhead n s) := .ite rfl (.ite (.refl s) rfl)
  exact (ArrayWritten.ite (.refl s) ((arrayWritten_openSector _ s).trans (hahead _ _))).trans (arrayWritten_programRecord _ _ _ _ _)

theorem arrayWritten_recordRepair (core row : Nat) (s : State) : ArrayWritten s (recordRepair core row s) :=
  (arrayWritten_addRecord _ _ s).trans (arrayWritten_addRecord _ _ _)

/-- The steps of a transition write records and OTP words (R470). -/
theorem arrayWritten_intentSteps (i : Intent) (s : State) : ArrayWritten s (intentSteps i s) := by
  have howner (s : State) : ArrayWritten s (match i.owner with
      | some d => cfgPut cfgOwner (wordsOf 8 d) s
      | none => cfgDrop cfgOwner s) := by
    split
    · exact arrayWritten_cfgPut _ _ s
    · exact arrayWritten_cfgDrop _ s
  have hadd (k : Nat) (s : State) : ArrayWritten s (cfgAdd k [] s) := arrayWritten_cfgAdd k [] s
  refine ArrayWritten.trans ?_ (arrayWritten_cfgPut _ _ _)
  refine ArrayWritten.trans ?_ (arrayWritten_cfgAppend _ _ _)
  refine ArrayWritten.trans ?_ (.ite (hadd _ _) (.refl _))
  refine ArrayWritten.trans ?_ (.ite (hadd _ _) (.refl _))
  refine ArrayWritten.trans ?_ (.ite (arrayWritten_setOtp _ _ _) (.refl _))
  refine ArrayWritten.trans ?_ (.ite (arrayWritten_setOtp _ _ _) (.refl _))
  refine ArrayWritten.trans ?_ (.ite (.ite (.refl _) (hadd _ _)) (.refl _))
  exact (ArrayWritten.ite (arrayWritten_cfgDrop _ s) (.refl s)).trans (howner _)

theorem arrayWritten_resumeIntent (s : State) : ArrayWritten s (resumeIntent s) := by
  unfold resumeIntent
  split
  · exact .ite (.refl s) (arrayWritten_intentSteps _ s)
  · exact .refl s

end Sys2Proof.Machine
end

section
/-! SUPPORT. Proofs of the flash statements (chapter 8): start-up, from its trigger to GESSO or FAULT (O20). -/

namespace Sys2Proof.Machine
open Claims

/-! ### What the steps of start-up leave (R447, R493, Table 18-7) -/

/-- The registers of the embedded-flash controller and of the watchdog. -/
def efControl (e : Ef) : Ef := { e with words := [], poisoned := [], otp := [], raw := [] }

/-- A step of start-up leaves power, identity, frame counter, part, UID and the controller's registers. -/
structure StartKept (s t : State) : Prop where
  power : t.power = s.power
  identity : t.sec.identity = s.sec.identity
  counter : t.frame.counter = s.frame.counter
  part : t.part = s.part
  uid : t.uid = s.uid
  control : efControl t.ef = efControl s.ef

theorem StartKept.refl (s : State) : StartKept s s := ⟨rfl, rfl, rfl, rfl, rfl, rfl⟩

theorem StartKept.trans {s t u : State} (h : StartKept s t) (g : StartKept t u) : StartKept s u :=
  ⟨g.power.trans h.power, g.identity.trans h.identity, g.counter.trans h.counter, g.part.trans h.part, g.uid.trans h.uid, g.control.trans h.control⟩

theorem StartKept.foldl {α : Type} {f : State → α → State} (h : ∀ s a, StartKept s (f s a)) (l : List α) (s : State) : StartKept s (l.foldl f s) := by
  induction l generalizing s with
  | nil => exact .refl s
  | cons a l ih => exact (h s a).trans (ih _)

theorem ArrayWritten.startKept {s t : State} (h : ArrayWritten s t) : StartKept s t := by rw [h]; exact ⟨rfl, rfl, rfl, rfl, rfl, rfl⟩

theorem startKept_loadRecords (s : State) : StartKept s (loadRecords s) := ⟨rfl, rfl, rfl, rfl, rfl, rfl⟩

theorem startKept_sec {s : State} {x : Sec} (h : x.identity = s.sec.identity) : StartKept s { s with sec := x } := ⟨rfl, h, rfl, rfl, rfl, rfl⟩

theorem startKept_eraseArray (s : State) : StartKept s (eraseArray s) := by
  unfold eraseArray
  split <;> exact ⟨rfl, rfl, rfl, rfl, rfl, rfl⟩

theorem startKept_makeKeys (s : State) : StartKept s (makeKeys s) := by
  unfold makeKeys
  split
  · dsimp only
    generalize hw : cfgPut _ _ _ = w
    have hkeys : ArrayWritten s w := hw ▸ (arrayWritten_cfgAppend _ _ s).trans (arrayWritten_cfgPut _ _ _)
    exact hkeys.startKept.trans (startKept_sec rfl)
  · exact .refl s

/-- D1 is powered. -/
def supervised (s : State) : State := { s with ctrl := {}, power := { s.power with pgIn := true, d1 := true }, sec := { s.sec with identity := true } }

theorem startKept_bootState (s : State) : StartKept (supervised s) (bootState s) :=
  ((((startKept_loadRecords _).trans (arrayWritten_resumeIntent _).startKept).trans (startKept_eraseArray _)).trans (startKept_loadRecords _)).trans
    (startKept_makeKeys _)

theorem startKept_saveErrors (s : State) : StartKept s (saveErrors s) :=
  (StartKept.foldl (fun s e => (arrayWritten_programEntry e s).startKept) _ s).trans ⟨rfl, rfl, rfl, rfl, rfl, rfl⟩

/-- The image of a slot runs under the watchdog (R441, R450). -/
def imageRuns (slot : Nat) (s : State) : State :=
  { s with ef := { s.ef with activeSlot := some slot, wdtEnable := true, wdtLock := true, periodMs := 500, remainingMs := 500
                             protect := s.ef.protect ||| ((1 : BitVec 7) <<< slot) } }

theorem startKept_startImage (slot : Nat) (s : State) : StartKept (imageRuns slot s) (startImage slot s) := by
  have hlog (sp source sev code ctx inst addr : Nat) (s : State) : StartKept s (logBy sp source sev code ctx inst addr s) := ⟨rfl, rfl, rfl, rfl, rfl, rfl⟩
  unfold startImage
  dsimp only
  split
  · exact (hlog _ _ _ _ _ _ _ _).trans (startKept_saveErrors _)
  · exact .refl _

theorem startKept_selfTests (rows : List (Nat × Nat)) (s : State) : StartKept s (selfTests rows s) := by
  refine .foldl (fun s f => ?_) rows s
  unfold selfTest
  dsimp only
  refine StartKept.trans (t := if (mapGet {} s.phys f.1).spare.isNone then recordRepair f.1 (f.2 % 16) s else s) ?_ ⟨rfl, rfl, rfl, rfl, rfl, rfl⟩
  exact (ArrayWritten.ite (arrayWritten_recordRepair _ _ s) (.refl s)).startKept

theorem startKept_readChains (s : State) : StartKept s (readChains s) := by
  have hone (s : State) (p : Nat) : StartKept s (updPair p (fun x => { x with state := .identifying }) s) := ⟨rfl, rfl, rfl, rfl, rfl, rfl⟩
  exact .foldl hone _ s

/-! ### FAULT (R484) -/

theorem steady_engineLost (s : State) : steady (engineLost s) = steady s := by simp [engineLost]

/-- FAULT leaves D0 and D1, the frame counter, what the module is and the watchdog. -/
theorem enterFault_leaves (cause : Nat) (s : State) : (enterFault cause s).power.d1 = s.power.d1 ∧ (enterFault cause s).power.pgIn = s.power.pgIn ∧
    (enterFault cause s).sec = s.sec ∧ (enterFault cause s).frame.counter = s.frame.counter ∧ (enterFault cause s).ef = s.ef ∧
    (enterFault cause s).uid = s.uid := by
  obtain ⟨hsteady, hcounter⟩ := (SteadyButSource.of_eq (steady_engineLost s)).trans (steadyButSource_closeAllEasels (engineLost s))
  have hpower : (closeAllEasels (engineLost s)).power = s.power := (congrArg Steady.power hsteady :)
  have huid : (enterFault cause s).uid = s.uid := (congrArg Lasting.uid (lasting_enterFault (cause := cause)) :)
  refine ⟨?_, ?_, (congrArg Steady.sec hsteady :), hcounter, (congrArg Steady.ef hsteady :), huid⟩
  · exact (congrArg Power.d1 hpower :)
  · exact (congrArg Power.pgIn hpower :)

/-- D1 is up, and the module is the one that it was. -/
structure StartsFrom (s t : State) : Prop where
  d1 : t.power.d1 = true
  pgIn : t.power.pgIn = true
  identity : t.sec.identity = true
  counter : t.frame.counter = s.frame.counter
  uid : t.uid = s.uid

/-- The image of this slot runs, and the watchdog with it. -/
def RunsImage (slot : Nat) (t : State) : Prop := t.ef.activeSlot = some slot ∧ t.ef.wdtEnable = true ∧ t.ef.periodMs = 500

theorem StartsFrom.kept {s t u : State} (h : StartsFrom s t) (g : StartKept t u) : StartsFrom s u :=
  ⟨g.power ▸ h.d1, g.power ▸ h.pgIn, g.identity.trans h.identity, g.counter.trans h.counter, g.uid.trans h.uid⟩

theorem RunsImage.kept {slot : Nat} {t u : State} (h : RunsImage slot t) (g : StartKept t u) : RunsImage slot u := by
  obtain ⟨hslot, hwdt, hperiod⟩ := h
  exact ⟨(congrArg Ef.activeSlot g.control :).trans hslot, (congrArg Ef.wdtEnable g.control :).trans hwdt, (congrArg Ef.periodMs g.control :).trans hperiod⟩

theorem StartsFrom.startFault {s t : State} (h : StartsFrom s t) (cause inst : Nat) : StartsFrom s (startFault cause inst t) := by
  obtain ⟨hd1, hpg, hsec, hcounter, -, huid⟩ := enterFault_leaves cause (logBy 0 13 3 cause 0 inst 0 t)
  exact ⟨hd1.trans h.d1, hpg.trans h.pgIn, (congrArg Sec.identity hsec).trans h.identity, hcounter.trans h.counter, huid.trans h.uid⟩

theorem RunsImage.startFault {slot : Nat} {t : State} (h : RunsImage slot t) (cause inst : Nat) : RunsImage slot (startFault cause inst t) := by
  obtain ⟨-, -, -, -, hef, -⟩ := enterFault_leaves cause (logBy 0 13 3 cause 0 inst 0 t)
  unfold RunsImage Machine.startFault
  rw [hef]
  exact h

/-- A failed step leaves FAULT with its cause, D2 to D29 off. -/
theorem startFault_faults (cause inst : Nat) (t : State) :
    (startFault cause inst t).host.devState = .fault ∧ (startFault cause inst t).host.faultCause = cause ∧ (startFault cause inst t).power.d2 = false :=
  ⟨rfl, rfl, rfl⟩

/-! ### Start-up -/

theorem startsFrom_bootState (s : State) : StartsFrom s (bootState s) :=
  StartsFrom.kept (t := supervised s) ⟨rfl, rfl, rfl, rfl, rfl⟩ (startKept_bootState s)

/-- The part's domains are on and its cores have been tested. -/
def testedState (rows : List (Nat × Nat)) (s : State) : State := selfTests rows (allDomains s)

/-- Everything has passed: GESSO (Table 18-7). -/
def gessoState (t : State) : State :=
  freeProgress { (readChains t) with host := { (readChains t).host with devState := .gesso }, flash := { (readChains t).flash with trained := true } }

/-- What becomes of a start whose image runs. -/
def imageStarted (r : StartReport) (s : State) : State :=
  if r.variantBad then startFault 1 0 s
  else if r.hbmBad then startFault 6 0 (testedState r.failRows s)
  else if r.mediaBad then startFault 2 (r.mediaUnit / 3 + r.mediaUnit % 3 * 65536) (testedState r.failRows s)
  else gessoState (testedState r.failRows s)

theorem startWith_none {s : State} (h : bootSlot (bootState s) = none) (r : StartReport) : startWith r s = startFault 1 0 (bootState s) := by
  unfold startWith
  unfold bootState at h ⊢
  dsimp only
  rw [h]

theorem startWith_some {s : State} {slot : Nat} (h : bootSlot (bootState s) = some slot) (r : StartReport) :
    startWith r s = imageStarted r (startImage slot (bootState s)) := by
  unfold startWith
  unfold bootState at h ⊢
  dsimp only
  rw [h]
  rfl

theorem StartsFrom.startImage {s t : State} (h : StartsFrom s t) (slot : Nat) :
    StartsFrom s (startImage slot t) ∧ RunsImage slot (Machine.startImage slot t) := by
  have hkept := startKept_startImage slot t
  have hstarts : StartsFrom s (imageRuns slot t) := ⟨h.d1, h.pgIn, h.identity, h.counter, h.uid⟩
  exact ⟨hstarts.kept hkept, RunsImage.kept ⟨rfl, rfl, rfl⟩ hkept⟩

/-- After the self-test every domain of the part is powered. -/
theorem StartsFrom.testedState {s t : State} {slot : Nat} (h : StartsFrom s t) (hr : RunsImage slot t) (rows : List (Nat × Nat)) :
    StartsFrom s (testedState rows t) ∧ RunsImage slot (Machine.testedState rows t) ∧ (Machine.testedState rows t).power = (allDomains t).power := by
  have hkept := startKept_selfTests rows (allDomains t)
  have hdomains : StartsFrom s (allDomains t) := ⟨h.d1, h.pgIn, h.identity, h.counter, h.uid⟩
  exact ⟨hdomains.kept hkept, RunsImage.kept (t := allDomains t) hr hkept, hkept.power⟩

theorem startKept_gessoState (t : State) : StartKept t (gessoState t) := by
  have hchains := startKept_readChains t
  exact ⟨hchains.power, hchains.identity, hchains.counter, hchains.part, hchains.uid, hchains.control⟩

theorem mapGet_allDomains (s : State) {d : Nat} (hlo : 5 ≤ d) (hhi : d < 5 + computeDomains s) : mapGet DomState.off (allDomains s).power.compute d = .on := by
  have hlist : (allDomains s).power.compute = ((List.range (computeDomains s)).map (fun i => 5 + i)).map (fun d => (d, DomState.on)) := by
    rw [List.map_map]; rfl
  have hmem : d ∈ (List.range (computeDomains s)).map (fun i => 5 + i) :=
    List.mem_map.mpr ⟨d - 5, List.mem_range.mpr (by omega), by omega⟩
  rw [mapGet, hlist, mapFind_map_key (fun _ => DomState.on) d _ hmem]
  rfl

theorem part_startImage (slot : Nat) (s : State) : (startImage slot s).part = s.part := (startKept_startImage slot s).part

theorem computeDomains_startImage (slot : Nat) (s : State) : computeDomains (startImage slot (bootState s)) = computeDomains s := by
  have hpart : (startImage slot (bootState s)).part = s.part :=
    (part_startImage slot (bootState s)).trans (startKept_bootState s).part
  rw [computeDomains, computeDomains, isQ96, hpart, isQ96]

/-- What a start whose image runs ends in: FAULT with the cause of the first step that fails, or GESSO with every domain on. -/
theorem imageStarted_ends {s t : State} {slot : Nat} (h : StartsFrom s t) (hr : RunsImage slot t) (r : StartReport) :
    StartsFrom s (imageStarted r t) ∧ RunsImage slot (imageStarted r t) ∧
    (r.variantBad = true → (imageStarted r t).host.devState = .fault ∧ (imageStarted r t).host.faultCause = 1) ∧
    (r.variantBad = false → r.hbmBad = true →
      (imageStarted r t).host.devState = .fault ∧ (imageStarted r t).host.faultCause = 6 ∧ (imageStarted r t).power.d2 = false) ∧
    (r.variantBad = false → r.hbmBad = false → r.mediaBad = true →
      (imageStarted r t).host.devState = .fault ∧ (imageStarted r t).host.faultCause = 2 ∧ (imageStarted r t).power.d2 = false) ∧
    (r.variantBad = false → r.hbmBad = false → r.mediaBad = false →
      (imageStarted r t).host.devState = .gesso ∧ (imageStarted r t).flash.trained = true ∧ (imageStarted r t).power = (allDomains t).power) := by
  obtain ⟨htested, htruns, hpower⟩ := h.testedState hr r.failRows
  unfold imageStarted
  cases hv : r.variantBad with
  | true =>
    obtain ⟨hfault, hcause, -⟩ := startFault_faults 1 0 t
    exact ⟨h.startFault 1 0, hr.startFault 1 0, fun _ => ⟨hfault, hcause⟩, by simp, by simp, by simp⟩
  | false =>
    cases hh : r.hbmBad with
    | true => exact ⟨htested.startFault 6 0, htruns.startFault 6 0, by simp, fun _ _ => startFault_faults 6 0 _, by simp, by simp⟩
    | false =>
      cases hm : r.mediaBad with
      | true => exact ⟨htested.startFault 2 _, htruns.startFault 2 _, by simp, by simp, fun _ _ _ => startFault_faults 2 _ _, by simp⟩
      | false =>
        have hkept := startKept_gessoState (testedState r.failRows t)
        exact ⟨htested.kept hkept, htruns.kept hkept, by simp, by simp, by simp, fun _ _ _ => ⟨rfl, rfl, hkept.power.trans hpower⟩⟩

theorem startUp_clause (r : StartReport) (s : State) (h : mayStart s = true) :
    ∃ t, exec (.startUp r) s = .next t ∧ t.power.d1 = true ∧ t.power.pgIn = true ∧ t.sec.identity = true ∧
      t.frame.counter = s.frame.counter ∧ t.uid = s.uid ∧
      (bootSlot (bootState s) = none → t.host.devState = .fault ∧ t.host.faultCause = 1 ∧ t.power.d2 = false) ∧
      (∀ slot, bootSlot (bootState s) = some slot → t.ef.activeSlot = some slot ∧ t.ef.wdtEnable = true ∧ t.ef.periodMs = 500 ∧
        (r.variantBad = true → t.host.devState = .fault ∧ t.host.faultCause = 1) ∧
        (r.variantBad = false → r.hbmBad = true → t.host.devState = .fault ∧ t.host.faultCause = 6 ∧ t.power.d2 = false) ∧
        (r.variantBad = false → r.hbmBad = false → r.mediaBad = true → t.host.devState = .fault ∧ t.host.faultCause = 2 ∧ t.power.d2 = false) ∧
        (r.variantBad = false → r.hbmBad = false → r.mediaBad = false → t.host.devState = .gesso ∧ t.flash.trained = true ∧ t.power.d2 = true ∧
          t.power.d3 = true ∧ t.power.d4 = true ∧ t.power.pgOut = true ∧
          (∀ d, 5 ≤ d → d < 5 + computeDomains s → mapGet DomState.off t.power.compute d = .on))) := by
  have hexec : exec (.startUp r) s = .next (startWith r s) := congrArg Host.Outcome.next (if_pos h)
  cases hboot : bootSlot (bootState s) with
  | none =>
    obtain ⟨hd1, hpg, hid, hcounter, huid⟩ := (startsFrom_bootState s).startFault 1 0
    exact ⟨_, hexec.trans (congrArg _ (startWith_none hboot r)), hd1, hpg, hid, hcounter, huid, fun _ => startFault_faults 1 0 _,
      fun _ hslot => absurd hslot (by simp)⟩
  | some slot =>
    obtain ⟨hstarts, hruns⟩ := (startsFrom_bootState s).startImage slot
    obtain ⟨⟨hd1, hpg, hid, hcounter, huid⟩, ⟨hslot, hwdt, hperiod⟩, hvariant, hhbm, hmedia, hgood⟩ := imageStarted_ends hstarts hruns r
    refine ⟨_, hexec.trans (congrArg _ (startWith_some hboot r)), hd1, hpg, hid, hcounter, huid, by simp, fun k hk => ?_⟩
    obtain rfl := Option.some.inj hk
    refine ⟨hslot, hwdt, hperiod, hvariant, hhbm, hmedia, fun hv hh hm => ?_⟩
    obtain ⟨hgesso, htrained, hon⟩ := hgood hv hh hm
    rw [hon]
    exact ⟨hgesso, htrained, rfl, rfl, rfl, rfl, fun d hlo hhi => mapGet_allDomains _ hlo ((computeDomains_startImage slot s).symm ▸ hhi)⟩

end Sys2Proof.Machine
end

section
/-! SUPPORT. Proofs of the flash statements (chapter 8): the gesso pass, the map's recovery and the sanitising erase (O20). -/

namespace Sys2Proof.Machine
open Claims

/-! ### GESSO and READY (R458, R472) -/

theorem gessoPass_clause (s : State) (h : s.host.devState = .gesso) : ∃ t n, exec .gessoPassComplete s = .next t ∧ n ≤ 100 ∧
    t = { s with host := { s.host with devState := .rebuilding, progress := n }, nonce := s.nonce + 1, hbmRest := [], idle := [] } :=
  ⟨_, (Config.free64 s.nonce).toNat % 101, congrArg Host.Outcome.next (if_pos h), by omega, rfl⟩

/-- The image's requests write OTP words and a log entry, and are noted as applied (R458). -/
theorem applyRequests_eq (s : State) : ∃ e l n, applyRequests s = { s with ef := e, logs := l, sec := { s.sec with otpSeq := n } } := by
  have hotp {t : State} (h : ArrayWritten s t) : ∃ e l, t = { s with ef := e, logs := l } := ⟨{ s.ef with words := t.ef.words, poisoned := t.ef.poisoned, otp := t.ef.otp, raw := t.ef.raw }, s.logs, h⟩
  have hrevoke (slot : Nat) : ∃ e l, applyRevoke slot s = { s with ef := e, logs := l } := by
    unfold applyRevoke
    dsimp only
    split
    · exact ⟨s.ef, s.logs, rfl⟩
    · split
      · exact ⟨s.ef, _, rfl⟩
      · exact hotp (.foldl (fun s _ => arrayWritten_setOtp _ _ s) _ s)
  have hsvn (slot : Nat) (u : State) : ArrayWritten u (applySvn slot u) := .ite (.foldl (fun s _ => arrayWritten_setOtp _ _ s) _ u) (.refl u)
  unfold applyRequests
  split
  · exact ⟨s.ef, s.logs, s.sec.otpSeq, rfl⟩
  · rename_i slot _
    split
    · exact ⟨s.ef, s.logs, s.sec.otpSeq, rfl⟩
    · obtain ⟨e, l, hrev⟩ := hrevoke slot
      have hboth := hsvn slot (applyRevoke slot s)
      refine ⟨(applySvn slot (applyRevoke slot s)).ef, l, slotSeqNo s slot, ?_⟩
      dsimp only
      rw [hboth, hrev]

/-- READY is reached: of the flash only the SLC target is set anew, and contexts, objects and power stay. -/
structure MadeReady (s t : State) : Prop where
  host : t.host = { s.host with devState := .ready, progress := 0 }
  frame : t.frame = { s.frame with wasReady := true }
  ctxs : t.ctxs = s.ctxs
  objs : t.objs = s.objs
  power : t.power = s.power
  sanitise : t.sec.sanitise = s.sec.sanitise
  flash : t.flash = { s.flash with slcCapacity := t.flash.slcCapacity }

theorem madeReady_reachReady (s : State) : MadeReady s (reachReady s) := by
  obtain ⟨e, l, n, heq⟩ := applyRequests_eq s
  unfold reachReady
  dsimp only
  rw [heq]
  exact ⟨rfl, rfl, rfl, rfl, rfl, rfl, rfl⟩

/-! ### The map (R273, R277) -/

theorem loseWordlines_eq (ls : List (Nat × Nat × Nat × Nat)) (s : State) : ∃ m, loseWordlines ls s = { s with flash := { s.flash with supers := m } } := by
  unfold loseWordlines
  induction ls generalizing s with
  | nil => exact ⟨s.flash.supers, rfl⟩
  | cons l ls ih =>
    rw [List.foldl_cons]
    obtain ⟨m, hm⟩ := ih (updSuper l.1 l.2.1 l.2.2.1 (fun x => { x with vers := x.vers.map (fun (v : Nat × Version) =>
      (v.1, if v.1 = l.2.2.2 then { v.2 with metaBad := [0, 1, 2, 3] } else v.2)) }) s)
    exact ⟨m, hm⟩

/-- The map as the recovery finds it, with the objects it brings, before READY. -/
def recovered (ms : Nat) (u : State) (k : Option Ckpt) : State :=
  { u with
    objs := homeObjs u k
    flash := { u.flash with
      objNos := (homeObjs u k).map (fun (p : Nat × Obj) => p.2.objNo), ckpt := none
      lastStart := if k.isSome then 0 else 1, lastStartMs := ms } }

/-- The state of the media from which the map is taken: the checkpoint's, or that of the full scan. -/
def mapFound (ls : List (Nat × Nat × Nat × Nat)) (s : State) : Option Ckpt → State
  | some k => loadCkpt k s
  | none => rebuildMap (loseWordlines ls s)

theorem execMapRecovery_eq {s : State} (hd : s.host.devState = .rebuilding) (hs : s.sec.sanitise = false) (ms : Nat) (ls : List (Nat × Nat × Nat × Nat)) :
    exec (.mapRecoveryComplete ⟨ms, ls⟩) s = .next (if s.frame.wasReady then reachReady (rebuildMap (loseWordlines ls s))
      else reachReady (recovered ms (mapFound ls s (s.flash.ckpt.filter (ckptHolds s))) (s.flash.ckpt.filter (ckptHolds s)))) :=
  congrArg Host.Outcome.next (if_pos (by simp [hd, hs]))

theorem mapRecovery_clause (ms : Nat) (ls : List (Nat × Nat × Nat × Nat)) (s : State) (hd : s.host.devState = .rebuilding) (hs : s.sec.sanitise = false) :
    ∃ t, exec (.mapRecoveryComplete ⟨ms, ls⟩) s = .next t ∧ t.host = { s.host with devState := .ready, progress := 0 } ∧
      t.frame = { s.frame with wasReady := true } ∧ t.ctxs = s.ctxs ∧ t.power = s.power ∧
      ((s.frame.wasReady = true ∨ s.flash.ckpt.filter (ckptHolds s) = none) →
        t.flash.map = mapVals (fun b => b.2) (scanBases (loseWordlines ls s)) ∧ t.flash.supers = (loseWordlines ls s).flash.supers) ∧
      (s.frame.wasReady = true → t.objs = s.objs) ∧
      (s.frame.wasReady = false → t.flash.ckpt = none ∧
        (s.flash.ckpt.filter (ckptHolds s) = none → t.objs = scanObjs (loseWordlines ls s) ∧ t.flash.lastStart = 1) ∧
        (∀ k, s.flash.ckpt = some k → ckptHolds s k = true → t.flash.map = k.map ∧ t.flash.overlay = k.overlay ∧
          t.objs = (if s.sec.keyHeld = true then k.objs else []) ∧ t.flash.lastStart = 0)) := by
  have hexec := execMapRecovery_eq hd hs ms ls
  obtain ⟨m, hlost⟩ := loseWordlines_eq ls s
  have hhost : (loseWordlines ls s).host = s.host := by rw [hlost]
  have hframe : (loseWordlines ls s).frame = s.frame := by rw [hlost]
  have hctxs : (loseWordlines ls s).ctxs = s.ctxs := by rw [hlost]
  have hpower : (loseWordlines ls s).power = s.power := by rw [hlost]
  have hobjs : (loseWordlines ls s).objs = s.objs := by rw [hlost]
  cases hready : s.frame.wasReady with
  | true =>
    rw [if_pos hready] at hexec
    have h := madeReady_reachReady (rebuildMap (loseWordlines ls s))
    exact ⟨_, hexec, h.host.trans (by rw [← hhost]; rfl), h.frame.trans (by rw [← hframe]; rfl), h.ctxs.trans hctxs, h.power.trans hpower,
      fun _ => ⟨(congrArg Flash.map h.flash :), (congrArg Flash.supers h.flash :)⟩, fun _ => h.objs.trans hobjs, by simp⟩
  | false =>
    rw [if_neg (by simp [hready])] at hexec
    cases hck : s.flash.ckpt.filter (ckptHolds s) with
    | none =>
      rw [hck] at hexec
      have h := madeReady_reachReady (recovered ms (mapFound ls s none) none)
      refine ⟨_, hexec, h.host.trans (by rw [← hhost]; rfl), h.frame.trans (by rw [← hframe]; rfl), h.ctxs.trans hctxs, h.power.trans hpower,
        fun _ => ⟨(congrArg Flash.map h.flash :), (congrArg Flash.supers h.flash :)⟩, by simp,
        fun _ => ⟨(congrArg Flash.ckpt h.flash :), fun _ => ⟨h.objs, (congrArg Flash.lastStart h.flash :)⟩, fun k hk hholds => ?_⟩⟩
      exact absurd hck (by simp [hk, Option.filter, hholds])
    | some k =>
      rw [hck] at hexec
      have h := madeReady_reachReady (recovered ms (mapFound ls s (some k)) (some k))
      refine ⟨_, hexec, h.host, h.frame, h.ctxs, h.power, by simp, by simp, fun _ => ⟨(congrArg Flash.ckpt h.flash :), by simp, fun j hj hholds => ?_⟩⟩
      obtain rfl : j = k := by simpa [hj, Option.filter, hholds] using hck
      exact ⟨(congrArg Flash.map h.flash :), (congrArg Flash.overlay h.flash :), h.objs, (congrArg Flash.lastStart h.flash :)⟩

/-! ### The sanitising erase (R466) -/

/-- The media are empty, and nothing names what they held. -/
def sanitisedState (s : State) : State :=
  bump { s with
    sec := { s.sec with sanitise := false }
    objs := [], ctxs := []
    flash := { s.flash with
      map := [], overlay := [], objNos := [], blockGranules := 0, supers := mapVals sanitised s.flash.supers, ckpt := none
      lastStart := 2, lastStartMs := (Config.free64 s.nonce).toNat % 2 ^ 32 } }

theorem sanitise_clause (s : State) (hd : s.host.devState = .rebuilding) (hs : s.sec.sanitise = true) :
    ∃ t, exec .sanitisingEraseComplete s = .next t ∧ t.host = { s.host with devState := .ready, progress := 0 } ∧ t.sec.sanitise = false ∧
      t.flash.map = [] ∧ t.flash.overlay = [] ∧ t.flash.blockGranules = 0 ∧ t.objs = [] ∧ t.ctxs = [] ∧ t.power = s.power := by
  have hexec : exec .sanitisingEraseComplete s = .next (reachReady (sanitisedState (cfgDrop cfgSanitise s))) :=
    congrArg Host.Outcome.next (if_pos (by simp [hd, hs]))
  have h := madeReady_reachReady (sanitisedState (cfgDrop cfgSanitise s))
  have hdrop := arrayWritten_cfgDrop cfgSanitise s
  have hhost : (cfgDrop cfgSanitise s).host = s.host := by rw [hdrop]
  exact ⟨_, hexec, h.host.trans (by rw [← hhost]; rfl), h.sanitise, (congrArg Flash.map h.flash :), (congrArg Flash.overlay h.flash :),
    (congrArg Flash.blockGranules h.flash :), h.objs, h.ctxs, h.power.trans hdrop.startKept.power⟩

/-- Settles O20, clause by clause: start-up by its steps, the gesso pass, the map's recovery and the sanitising erase. -/
theorem startUpReachesReadyOrFault : Obligations.StartUpReachesReadyOrFault := by
  unfold Obligations.StartUpReachesReadyOrFault
  exact ⟨startUp_clause, gessoPass_clause, mapRecovery_clause, sanitise_clause⟩

end Sys2Proof.Machine
end

section
/-! SUPPORT. Proofs of the scan unit statements (chapter 9): what the next reads of the scan units leave, and the granules they step over (O44). -/

namespace Sys2Proof.Machine
open Claims

/-! ### The next reads of the scan units (R279, R299) -/

/-- A query but for the count of its reads in this frame. -/
def unpaced (q : Query) : Query := { q with paced := [] }

/-- The scan units take their next reads: of the module only free values, the flash, the ring, the note of begun reads and the turns of the slots
change, and every query keeps all but its count of reads. -/
structure ReadsIssued (s t : State) : Prop where
  rest : t = { s with
    nonce := t.nonce, objs := t.objs, flash := t.flash, ring := t.ring, scan := { s.scan with slots := t.scan.slots, turn := t.scan.turn } }
  objs : ∀ id, (objOf t id).map unstarted = (objOf s id).map unstarted
  slots : ∀ k, (mapFind k t.scan.slots).map unpaced = (mapFind k s.scan.slots).map unpaced

theorem ReadsIssued.refl (s : State) : ReadsIssued s s := ⟨rfl, fun _ => rfl, fun _ => rfl⟩

theorem ReadsIssued.trans {s t u : State} (h : ReadsIssued s t) (g : ReadsIssued t u) : ReadsIssued s u where
  rest := by rw [g.rest, h.rest]
  objs id := (g.objs id).trans (h.objs id)
  slots k := (g.slots k).trans (h.slots k)

theorem FlashRuns.readsIssued {s t : State} (h : FlashRuns s t) : ReadsIssued s t where
  rest := by rw [h.rest]
  objs := h.objs
  slots k := by rw [h.rest]

theorem ReadsIssued.host {s t : State} (h : ReadsIssued s t) : t.host = s.host := by rw [h.rest]

theorem ReadsIssued.ctxs {s t : State} (h : ReadsIssued s t) : t.ctxs = s.ctxs := by rw [h.rest]

theorem ReadsIssued.frame {s t : State} (h : ReadsIssued s t) : t.frame = s.frame := by rw [h.rest]

theorem ReadsIssued.slot_none {s t : State} (h : ReadsIssued s t) {k : Nat} (hk : mapFind k s.scan.slots = none) : mapFind k t.scan.slots = none := by
  have hslot := h.slots k
  rw [hk] at hslot
  exact Option.map_eq_none_iff.mp hslot

theorem ReadsIssued.slot_some {s t : State} (h : ReadsIssued s t) {k : Nat} {q : Query} (hk : mapFind k s.scan.slots = some q) :
    ∃ m, mapFind k t.scan.slots = some { q with paced := m } := by
  have hslot := h.slots k
  rw [hk] at hslot
  obtain ⟨p, hp, hpq⟩ := Option.map_eq_some_iff.mp hslot
  have hq : p = { q with paced := p.paced } := (congrArg (fun x : Query => { x with paced := p.paced }) hpq :)
  exact ⟨p.paced, by rw [hp, ← hq]⟩

/-- The queries' objects keep their sizes. -/
theorem ReadsIssued.querySize {s t : State} (h : ReadsIssued s t) (q : Query) : querySize t q = querySize s q := by
  have hsize := congrArg (Option.map Obj.size) (h.objs q.obj)
  rw [Option.map_map, Option.map_map] at hsize
  exact congrArg (·.getD 0) hsize

/-- A unit's next read is queued for one slot, whose query counts it. -/
theorem readsIssued_issueOn (s : State) (ch : Nat) : ReadsIssued s (issueOn s ch) := by
  unfold issueOn
  split
  · exact .refl s
  · dsimp only
    split
    · exact .refl s
    · rename_i slot q g hready
      split
      · exact .refl s
      · obtain ⟨k, -, hk⟩ := List.exists_of_findSome?_eq_some hready
        obtain ⟨p, hp, hgo⟩ := Option.bind_eq_some_iff.mp hk
        have hfound : mapFind slot s.scan.slots = some q := by
          split at hgo
          · obtain ⟨i, -, heq⟩ := Option.map_eq_some_iff.mp hgo
            obtain ⟨rfl, rfl, -⟩ := Prod.mk.injEq .. ▸ heq
            exact hp
          · exact absurd hgo (by simp)
        refine ⟨rfl, fun _ => rfl, fun j => ?_⟩
        change (mapFind j (mapPut slot _ s.scan.slots)).map unpaced = _
        by_cases hj : j = slot
        · rw [hj, mapFind_mapPut_self, hfound]; rfl
        · rw [mapFind_mapPut_ne hj]

theorem readsIssued_issueQueries (s : State) : ReadsIssued s (issueQueries s) := by
  have hfold (l : List Nat) (u : State) : ReadsIssued u (l.foldl issueOn u) := by
    induction l generalizing u with
    | nil => exact .refl u
    | cons ch l ih => exact (readsIssued_issueOn u ch).trans (ih _)
  unfold issueQueries
  split
  · exact .refl s
  · exact (hfold _ s).trans (flashRuns_startReads _).readsIssued

theorem issueQueries_empty {s : State} (h : s.scan.slots = []) : issueQueries s = s := if_pos (by rw [h]; rfl)

/-! ### Unmapped granules are stepped over (R282) -/

/-- Granules of a channel that are done once the unmapped ones have been stepped over. -/
def settledNext (s : State) (q : Query) (ch : Nat) : Nat :=
  match nextOn s q ch with
  | some g => (g - firstOn q.desc ch) / 32
  | none => granulesOn q.desc (querySize s q) ch

/-- Step over the unmapped granules of one channel. -/
def settleOn (s : State) (q : Query) (ch : Nat) : Query := { q with next := mapSet 0 ch (settledNext s q ch) q.next }

/-- Where a channel goes on depends on the query's place on that channel alone. -/
theorem settledNext_congr {s : State} {q : Query} {m : SMap Nat} {ch : Nat} (h : mapGet 0 m ch = mapGet 0 q.next ch) :
    settledNext s { q with next := m } ch = settledNext s q ch := by
  have hnext : nextOn s { q with next := m } ch = nextOn s q ch := by
    unfold nextOn; dsimp only; rw [h]; rfl
  unfold settledNext; rw [hnext]; rfl

theorem foldl_settleOn (s : State) {l : List Nat} (hl : l.Nodup) (q : Query) : ∃ m, l.foldl (settleOn s) q = { q with next := m } ∧
    ∀ ch, mapGet 0 m ch = if ch ∈ l then settledNext s q ch else mapGet 0 q.next ch := by
  induction l generalizing q with
  | nil => exact ⟨q.next, rfl, fun _ => (if_neg List.not_mem_nil).symm⟩
  | cons a l ih =>
    obtain ⟨ha, hl⟩ := List.nodup_cons.mp hl
    obtain ⟨m, heq, hm⟩ := ih hl (settleOn s q a)
    refine ⟨m, heq, fun ch => ?_⟩
    rw [hm]
    by_cases hch : ch = a
    · subst hch
      simp [ha, settleOn]
    · have hkept : mapGet 0 (settleOn s q a).next ch = mapGet 0 q.next ch := mapGet_mapSet_ne 0 hch _ _
      have hsettled : settledNext s (settleOn s q a) ch = settledNext s q ch := settledNext_congr hkept
      simp only [hkept, hsettled, List.mem_cons, hch, false_or]

/-- A query that is settled stands on every channel at its next mapped granule, and is otherwise as it was. -/
theorem settleQuery_settles (s : State) (q : Query) : ∃ m, settleQuery s q = { q with next := m } ∧ ∀ ch, ch < 32 → mapGet 0 m ch = settledNext s q ch := by
  obtain ⟨m, heq, hm⟩ := foldl_settleOn s (List.nodup_range (n := 32)) q
  exact ⟨m, heq, fun ch hch => (hm ch).trans (if_pos (List.mem_range.mpr hch))⟩

/-- The granule a unit reads next is none that its channel has done. -/
theorem nextOn_ge {s : State} {q : Query} {ch g : Nat} (h : nextOn s q ch = some g) : firstOn q.desc ch + 32 * mapGet 0 q.next ch ≤ g := by
  refine foldl_pick (P := (firstOn q.desc ch + 32 * mapGet 0 q.next ch ≤ ·)) (fun b a ha x hx => ?_) none (by simp) g h
  have hle : firstOn q.desc ch + 32 * mapGet 0 q.next ch ≤ a := by
    have hmedia := List.mem_of_mem_filter ha
    unfold mediaFrom at hmedia
    split at hmedia
    · exact absurd hmedia List.not_mem_nil
    · obtain ⟨l, hl, rfl⟩ := List.mem_map.mp hmedia
      have hpick := (List.mem_filter.mp hl).2
      simp only [Bool.and_eq_true, decide_eq_true_eq] at hpick
      exact hpick.2
  cases b with
  | none => exact .inr (Option.some.inj hx ▸ hle)
  | some b =>
    have hmin : min b a = x := Option.some.inj hx
    rcases Nat.le_total b a with hba | hab
    · exact .inl (by rw [← hmin, Nat.min_eq_left hba])
    · exact .inr (by rw [← hmin, Nat.min_eq_right hab]; exact hle)

/-- Settling never takes a channel back. -/
theorem settledNext_ge {s : State} {q : Query} {ch : Nat} (h : mapGet 0 q.next ch ≤ granulesOn q.desc (querySize s q) ch) :
    mapGet 0 q.next ch ≤ settledNext s q ch := by
  unfold settledNext
  split
  · rename_i g hg
    have := nextOn_ge hg
    omega
  · exact h

/-- The object has no mapped granule: it has neither a granule nor an overlay unit on the media. -/
def NoneMapped (s : State) (o : Obj) : Prop := ∀ l ∈ mappedLgas s, ¬(l < 2 ^ 60 ∧ l / 2 ^ 24 = o.objNo)

/-- Where no granule is mapped every channel is done at once. -/
theorem settledNext_noneMapped {s : State} {q : Query} {o : Obj} (ho : objOf s q.obj = some o) (h : NoneMapped s o) (ch : Nat) :
    settledNext s q ch = granulesOn q.desc (querySize s q) ch := by
  have hmedia (g : Nat) : mediaFrom s q ch g = [] := by
    unfold mediaFrom
    rw [ho]
    refine List.map_eq_nil_iff.mpr (List.filter_eq_nil_iff.mpr fun l hl hpick => h l hl ?_)
    simp only [Bool.and_eq_true, decide_eq_true_eq] at hpick
    exact hpick.1.1
  have hnext : nextOn s q ch = none := by
    unfold nextOn; dsimp only; rw [hmedia]; rfl
  unfold settledNext
  rw [hnext]

theorem scanDone_noneMapped {s : State} {q : Query} {o : Obj} (ho : objOf s q.obj = some o) (h : NoneMapped s o) :
    scanDone (settleQuery s q) (querySize s q) = true := by
  obtain ⟨m, heq, hm⟩ := settleQuery_settles s q
  rw [heq]
  refine List.all_eq_true.mpr fun ch hch => decide_eq_true ?_
  change granulesOn q.desc (querySize s q) ch ≤ mapGet 0 m ch
  rw [hm ch (List.mem_range.mp hch), settledNext_noneMapped ho h]

end Sys2Proof.Machine
end

section
/-! SUPPORT. Proofs of the scan unit statements (chapter 9): how a query is stored and how it ends (O44). -/

namespace Sys2Proof.Machine
open Claims

/-! ### A query is stored (R299, R301) -/

theorem embedBatch_of_kind {q : Query} (h : q.kind ≠ .embed) (s : State) : embedBatch s q = none := if_pos (bne_iff_ne.mpr h)

theorem embedBatch_of_batches {q : Query} (h : q.batches = []) (s : State) : embedBatch s q = none := by
  unfold embedBatch
  split
  · rfl
  · rw [h]

theorem embedEmpty_of_kind {q : Query} (h : q.kind ≠ .embed) (s : State) : embedEmpty s q = false := by simp [embedEmpty, h]

/-- A query has its slot. -/
def slotTaken (slot : Nat) (q : Query) (s : State) : State := { s with scan := { s.scan with slots := mapPut slot q s.scan.slots } }

/-- A query without a batch to run takes its slot, and nothing else happens. -/
theorem storeQuery_takesSlot {q : Query} {s : State} (he : embedEmpty s q = false) (hb : ∀ u, embedBatch u q = none) (slot : Nat) (had : Bool) :
    storeQuery slot had q s = slotTaken slot q s := by
  unfold storeQuery
  rw [he, if_neg (by simp)]
  exact if_neg (by simp [hb])

/-! ### A query ends (R294 to R297) -/

/-- The slot of a query is free. -/
def slotFreed (slot : Nat) (s : State) : State := { s with scan := { s.scan with slots := mapDel slot s.scan.slots } }

theorem logWords_eq (m : CodeMemory) (req : Nat) (ws : List Nat) (s : State) : ∃ l, logWords m req ws s = { s with logs := l } := by
  unfold logWords
  induction ws generalizing s with
  | nil => exact ⟨s.logs, rfl⟩
  | cons w ws ih =>
    obtain ⟨l, hl⟩ := ih (logWord m req w s)
    exact ⟨l, hl⟩

/-- The end of a query frees its slot, answers the host and logs what the answer met. -/
theorem finishQuery_frees (slot : Nat) (q : Query) (s : State) : ∃ h l, finishQuery slot q s = { slotFreed slot s with host := h, logs := l } := by
  unfold finishQuery
  dsimp only
  split
  · exact ⟨s.host, s.logs, rfl⟩
  · rename_i c _
    obtain ⟨l, hl⟩ := logWords_eq (.staging c.tag) srcHost (rawBad 5 64 c.home 0 (summaryBytes q ++ resultEntries q).length) (slotFreed slot s)
    change ∃ h l, reply c _ _ _ (logStaging c 0 _ (slotFreed slot s)) = _
    rw [logStaging, hl]
    exact ⟨_, l, reply_onlyHost _ _ _ _ _⟩

/-- Where the staging is sound the whole answer goes to the buffer. -/
theorem finishQuery_replies {q : Query} {c : Cmd} {s : State} (hc : cmdOf s q.tag = some c) (hp : c.home.poison = []) (hr : c.home.raw = []) (slot : Nat) :
    finishQuery slot q s = reply c q.resOff (summaryBytes q ++ resultEntries q) (queryStatus q) (slotFreed slot s) := by
  have hbad (n : Nat) : rawBad 5 64 c.home 0 n = [] := by unfold rawBad; rw [hr]; split <;> rfl
  have hmeet (n : Nat) : (meetStaging c 0 n).poison = [] := by rw [meetStaging, hbad]; exact hp
  have hlog (n : Nat) (u : State) : logStaging c 0 n u = u := by rw [logStaging, hbad]; rfl
  unfold finishQuery
  dsimp only
  split
  · rename_i hnone
    exact absurd (hc.symm.trans hnone) (by simp)
  · rename_i d hd
    obtain rfl : c = d := Option.some.inj (hc.symm.trans hd)
    simp only [hmeet, hlog, List.filter_nil]
    rfl

/-- A merge that may end does so. -/
theorem execQueryMergeComplete_eq {slot : Nat} {q : Query} {s : State} (hslot : slot < 4) (hq : mapFind slot s.scan.slots = some q) (hk : q.kind ≠ .embed)
    (hd : scanDone q (querySize s q) = true) (hr : isResident (ctxOf s q.ctx) = true) :
    exec (.queryMergeComplete slot) s = .next (finishQuery slot q s) := by
  have heq : mergeDone slot s = finishQuery slot q s := by
    unfold mergeDone
    rw [hq]
    exact if_pos (by simp [hk, hd, hr])
  rw [← heq]
  exact unitOp_of (decide_eq_true hslot) _

theorem queryMerge_clause (slot : Nat) (q : Query) (c : Cmd) (s : State) (hslot : slot < 4) (hq : mapFind slot s.scan.slots = some q) (hk : q.kind ≠ .embed)
    (hd : scanDone q (querySize s q) = true) (hr : isResident (ctxOf s q.ctx) = true) (hc : cmdOf s q.tag = some c) (hp : c.home.poison = [])
    (hraw : c.home.raw = []) :
    ∃ t, exec (.queryMergeComplete slot) s = .next t ∧ t = { s with host := t.host, scan := { s.scan with slots := mapDel slot s.scan.slots } } ∧
      RepliesWith c q.resOff (summaryBytes q ++ resultEntries q) (queryStatus q) s t := by
  refine ⟨_, (execQueryMergeComplete_eq hslot hq hk hd hr).trans (congrArg _ (finishQuery_replies hc hp hraw slot)), ?_, ?_⟩
  · exact reply_onlyHost _ _ _ _ _
  · exact RepliesWith_congr (repliesWith_reply _ _ _ _ (slotFreed slot s)) rfl rfl

/-! ### The answer of a query (Tables 9-4, 9-5) -/

theorem summaryBytes_length {q : Query} (h : q.badList = []) : (summaryBytes q).length = 576 := by
  have hpages : (padTo 512 (q.badList.flatMap (fun w => leBytes 8 w.toNat))).length = 512 := padTo_length (by simp [h])
  simp only [summaryBytes, List.length_append, leBytes_length, hpages, zeros, List.length_replicate]

/-- An answer begins with the records scanned and passed. -/
theorem summaryBytes_take {q : Query} (hs : q.scanned = 0) (hp : q.passed = 0) (bs : List Byte) : (summaryBytes q ++ bs).take 16 = zeros 16 := by
  rw [summaryBytes, hs, hp]
  simp only [List.append_assoc]
  rfl

/-- Without candidates every entry of a VSEARCH stands for none. -/
theorem resultEntries_length {q : Query} (hc : q.cands = []) (ho : q.out = []) :
    (resultEntries q).length = if q.kind = .vsearch then q.desc.nq * q.desc.k * (if q.desc.wide then 16 else 8) else 0 := by
  have hentry (wide : Bool) : (candEntry wide none).length = if wide then 16 else 8 := by cases wide <;> rfl
  have hmerge (i : Nat) : mergeCands q i = [] := by
    have hnone : (List.range 32).flatMap (fun ch => mapGet [] q.cands (ch * 16 + i)) = [] := List.flatMap_eq_nil_iff.mpr fun _ _ => by rw [hc]; rfl
    rw [mergeCands, hnone]
    exact List.take_nil
  unfold resultEntries
  cases q.kind with
  | scan => simp [ho]
  | embed => rfl
  | vsearch => simp [hmerge, hentry, Nat.mul_assoc]

/-- Without bad pages and with room for every record a query ends with SUCCESS. -/
theorem queryStatus_clean {q : Query} (hf : q.outFull = false) (hb : q.badPages = 0) :
    queryStatus q = stSuccess (if q.kind = .embed then q.passed else 576 + (resultEntries q).length) 0 0 := by
  simp [queryStatus, hf, hb, stSuccess]

end Sys2Proof.Machine
end

section
/-! SUPPORT. Proofs of the scan unit statements (chapter 9): query commands (O44). -/

namespace Sys2Proof.Machine
open Claims

/-! ### A query command at its unit (R299, R300, R301) -/

/-- The query that a command starts, before its first read. -/
def startedQuery (kind : QueryKind) (c : Cmd) : Query :=
  { tag := c.tag, ctx := pktCtx c.pkt, obj := cmdObj c, kind := kind, desc := scanDescOf (cmdData c), resOff := pktField c.pkt 16 4
    resLen := pktField c.pkt 20 4, arg := BitVec.ofNat 64 (pktField c.pkt 24 8), seed := BitVec.ofNat 64 (pktField c.pkt 40 8) }

/-- The opcode and the instruction of a query's kind. -/
def QueryOpcode (kind : QueryKind) (op tag : Nat) (i : Instr) : Prop :=
  (kind = .scan ∧ op = 0x60 ∧ i = .scan tag) ∨ (kind = .vsearch ∧ op = 0x61 ∧ i = .vsearch tag) ∨ (kind = .embed ∧ op = 0x62 ∧ i = .embed tag)

/-- The lowest free query slot, of four. -/
def LowestFree (s : State) (slot : Nat) : Prop :=
  slot < 4 ∧ mapFind slot s.scan.slots = none ∧ ∀ k, k < slot → (mapFind k s.scan.slots).isSome = true

/-- A query command that nothing refuses and nothing holds back. -/
def QueryStarts (kind : QueryKind) (c : Cmd) (s : State) : Prop :=
  objBlocked s c = false ∧ ctxDefined s (pktCtx c.pkt) = true ∧ queryErr kind s c = none

theorem freeSlot_lowest {s : State} {slot : Nat} (h : LowestFree s slot) : freeSlot s = some slot := by
  obtain ⟨hlt, hfree, hlow⟩ := h
  refine List.find?_range_eq_some.mpr ⟨by rw [hfree]; rfl, List.mem_range.mpr hlt, fun k hk => ?_⟩
  simpa [Option.isNone_eq_false_iff] using hlow k hk

theorem execQuery_eq {kind : QueryKind} {op tag slot : Nat} {i : Instr} {c : Cmd} {s : State} (ho : QueryOpcode kind op tag i) (h : AtUnit s op tag c)
    (hs : QueryStarts kind c s) (hf : LowestFree s slot) :
    exec i s = .next (issueQueries (storeQuery slot false (settleQuery s (startedQuery kind c)) (keepRunning c 0 s))) := by
  have hrun : exec i s = .next (queryCmd kind c s) := by
    rcases ho with ⟨rfl, rfl, rfl⟩ | ⟨rfl, rfl, rfl⟩ | ⟨rfl, rfl, rfl⟩
    · exact congrArg Host.Outcome.next (onCmd_atUnit h rfl (queryCmd .scan))
    · exact congrArg Host.Outcome.next (onCmd_atUnit h rfl (queryCmd .vsearch))
    · exact congrArg Host.Outcome.next (onCmd_atUnit h rfl (queryCmd .embed))
  obtain ⟨hb, hd, he⟩ := hs
  rw [hrun]
  unfold queryCmd
  simp only [hb, hd, he, freeSlot_lowest hf, Bool.not_true, Bool.false_eq_true, if_false]
  rfl

theorem cmdOf_keepRunning {c : Cmd} {s : State} (h : cmdOf s c.tag = some c) (left : Nat) :
    cmdOf (keepRunning c left s) c.tag = some { c with phase := .running, left := left } := cmdOf_updCmd_self h (fun _ => rfl)

/-- A query that has its slot stands there as it was stored, but for its reads, and its command runs. -/
theorem issueQueries_slotTaken {slot : Nat} {q : Query} {c : Cmd} {s : State} (hc : cmdOf s c.tag = some c) :
    ReadsIssued (slotTaken slot q (keepRunning c 0 s)) (issueQueries (slotTaken slot q (keepRunning c 0 s))) ∧
      (∃ m, mapFind slot (issueQueries (slotTaken slot q (keepRunning c 0 s))).scan.slots = some { q with paced := m }) ∧
      cmdOf (issueQueries (slotTaken slot q (keepRunning c 0 s))) c.tag = some { c with phase := .running, left := 0 } := by
  have hissued := readsIssued_issueQueries (slotTaken slot q (keepRunning c 0 s))
  exact ⟨hissued, hissued.slot_some (mapFind_mapPut_self slot q s.scan.slots), (cmdOf_congr hissued.host _).trans (cmdOf_keepRunning hc 0)⟩

theorem queryTakesSlot_clause {kind : QueryKind} {op tag slot : Nat} {i : Instr} {c : Cmd} {s : State} (ho : QueryOpcode kind op tag i)
    (h : AtUnit s op tag c) (hs : QueryStarts kind c s) (hf : LowestFree s slot) :
    ∃ t, exec i s = .next t ∧ t.ctxs = s.ctxs ∧ t.frame = s.frame ∧
      ((kind ≠ .embed ∨ (mapFind slot t.scan.slots).isSome = true) → StandsAs c .running t ∧
        ∃ q, mapFind slot t.scan.slots = some q ∧ q.tag = c.tag ∧ q.kind = kind ∧ q.obj = cmdObj c ∧ q.desc = scanDescOf (cmdData c) ∧ q.cands = []) := by
  obtain ⟨hc, -⟩ := cmdOf_of_atUnit h
  obtain ⟨n, hq, -⟩ := settleQuery_settles s (startedQuery kind c)
  refine ⟨_, execQuery_eq ho h hs hf, ?_⟩
  rw [hq]
  set q : Query := { startedQuery kind c with next := n }
  cases hempty : embedEmpty (keepRunning c 0 s) q with
  | true =>
    have hstored : storeQuery slot false q (keepRunning c 0 s) = finishQuery slot q (keepRunning c 0 s) := if_pos hempty
    obtain ⟨hst, l, hfin⟩ := finishQuery_frees slot q (keepRunning c 0 s)
    rw [hstored, hfin]
    have hissued := readsIssued_issueQueries { slotFreed slot (keepRunning c 0 s) with host := hst, logs := l }
    refine ⟨hissued.ctxs, hissued.frame, ?_⟩
    rintro (hk | hsome)
    · exact absurd hempty (by simp [embedEmpty_of_kind (q := q) hk])
    · have hnone := hissued.slot_none (mapFind_mapDel_self slot s.scan.slots)
      exact absurd hsome (by simp [hnone])
  | false =>
    rw [storeQuery_takesSlot hempty (embedBatch_of_batches (q := q) rfl)]
    obtain ⟨hissued, ⟨m, hslot⟩, hcmd⟩ := issueQueries_slotTaken (slot := slot) (q := q) hc
    exact ⟨hissued.ctxs, hissued.frame, fun _ => ⟨⟨_, hcmd, rfl, rfl⟩, _, hslot, rfl, rfl, rfl, rfl, rfl⟩⟩

/-! ### A query without a mapped granule (log entry 79) -/

section NothingToRead

variable {kind : QueryKind} {op tag slot : Nat} {i : Instr} {c : Cmd} {s : State} {o : Obj} (hop : QueryOpcode kind op tag i) (h : AtUnit s op tag c)
  (hs : QueryStarts kind c s) (hf : LowestFree s slot) (ho : objOf s (cmdObj c) = some o) (hbare : NoneMapped s o) (hp : c.home.poison = [])
  (hr : c.home.raw = [])

include hop h hs hf ho hbare hp hr

/-- An EMBED ends at once. -/
theorem bareEmbed_replies (hk : kind = .embed) :
    ∃ t bs, exec i s = .next t ∧ RepliesWith c (pktField c.pkt 16 4) bs (stSuccess 0 0 0) (keepRunning c 0 s) t ∧ bs.length = 576 ∧
      bs.take 16 = zeros 16 := by
  subst hk
  obtain ⟨hc, -⟩ := cmdOf_of_atUnit h
  have hdone := scanDone_noneMapped (q := startedQuery .embed c) ho hbare
  obtain ⟨n, hq, -⟩ := settleQuery_settles s (startedQuery .embed c)
  have hexec := execQuery_eq hop h hs hf
  rw [hq] at hdone hexec
  set q : Query := { startedQuery .embed c with next := n }
  have hempty : embedEmpty (keepRunning c 0 s) q = true := hdone
  have hstored : storeQuery slot false q (keepRunning c 0 s) = finishQuery slot q (keepRunning c 0 s) := if_pos hempty
  have hreply := repliesWith_reply { c with phase := .running, left := 0 } q.resOff (summaryBytes q ++ resultEntries q) (queryStatus q)
    (slotFreed slot (keepRunning c 0 s))
  rw [← finishQuery_replies (q := q) (cmdOf_keepRunning hc 0) hp hr slot] at hreply
  rw [hstored] at hexec
  refine ⟨_, summaryBytes q ++ resultEntries q, hexec, ?_, ?_, summaryBytes_take rfl rfl _⟩
  · exact RepliesWith_congr hreply rfl (readsIssued_issueQueries _).host
  · rw [List.length_append, summaryBytes_length rfl]; rfl

/-- Any other query merges what it has not found. -/
theorem bareQuery_merges (hk : kind ≠ .embed) (hres : isResident (ctxOf s (pktCtx c.pkt)) = true) :
    ∃ t u bs, exec i s = .next t ∧ exec (.queryMergeComplete slot) t = .next u ∧
      RepliesWith c (pktField c.pkt 16 4) bs (stSuccess bs.length 0 0) t u ∧ bs.take 16 = zeros 16 ∧ mapFind slot u.scan.slots = none ∧
      bs.length = 576 + (if kind = .vsearch then (scanDescOf (cmdData c)).nq * (scanDescOf (cmdData c)).k *
        (if (scanDescOf (cmdData c)).wide then 16 else 8) else 0) := by
  obtain ⟨hc, -⟩ := cmdOf_of_atUnit h
  have hdone := scanDone_noneMapped (q := startedQuery kind c) ho hbare
  obtain ⟨n, hq, -⟩ := settleQuery_settles s (startedQuery kind c)
  have hexec := execQuery_eq hop h hs hf
  rw [hq] at hdone hexec
  rw [storeQuery_takesSlot (embedEmpty_of_kind (q := { startedQuery kind c with next := n }) hk _) (embedBatch_of_kind hk)] at hexec
  obtain ⟨hissued, ⟨m, hslot⟩, hcmd⟩ := issueQueries_slotTaken (slot := slot) (q := { startedQuery kind c with next := n }) hc
  set t := issueQueries (slotTaken slot { startedQuery kind c with next := n } (keepRunning c 0 s))
  set q : Query := { startedQuery kind c with next := n, paced := m }
  have hsize : querySize t q = querySize s (startedQuery kind c) := hissued.querySize q
  have hdone' : scanDone q (querySize t q) = true := by rw [hsize]; exact hdone
  have hres' : isResident (ctxOf t q.ctx) = true := by rw [ctxOf_congr hissued.ctxs]; exact hres
  have hlen : (summaryBytes q ++ resultEntries q).length = 576 + (if kind = .vsearch then (scanDescOf (cmdData c)).nq * (scanDescOf (cmdData c)).k *
      (if (scanDescOf (cmdData c)).wide then 16 else 8) else 0) := by
    rw [List.length_append, summaryBytes_length rfl, resultEntries_length rfl rfl]
    rfl
  have hstatus : queryStatus q = stSuccess (summaryBytes q ++ resultEntries q).length 0 0 := by
    rw [queryStatus_clean rfl rfl, List.length_append, summaryBytes_length rfl]
    exact congrArg (stSuccess · 0 0) (if_neg hk)
  have hfinish := finishQuery_replies (q := q) hcmd hp hr slot
  refine ⟨t, finishQuery slot q t, summaryBytes q ++ resultEntries q, hexec, ?_, ?_, summaryBytes_take rfl rfl _, ?_, hlen⟩
  · exact execQueryMergeComplete_eq hf.1 hslot hk hdone' hres'
  · rw [← hstatus, hfinish]
    exact RepliesWith_congr (repliesWith_reply { c with phase := .running, left := 0 } _ _ _ (slotFreed slot t)) rfl rfl
  · rw [hfinish, reply_onlyHost _ _ _ _ (slotFreed slot t)]
    exact mapFind_mapDel_self slot t.scan.slots

end NothingToRead

end Sys2Proof.Machine
end

section
/-! SUPPORT. Proofs of the scan unit statements (chapter 9): scanned granules, and units taken from service (O44). -/

namespace Sys2Proof.Machine
open Claims

/-! ### A scanned granule (R281 to R297) -/

/-- What the records of a granule leave of a query: its kind, descriptor and object, and its count of bad pages. -/
def queryFrame (q : Query) : QueryKind × ScanDesc × Nat × Nat := (q.kind, q.desc, q.obj, q.badPages)

theorem queryFrame_foldl {α : Type} {f : Query → α → Query} (h : ∀ q a, queryFrame (f q a) = queryFrame q) (l : List α) (q : Query) :
    queryFrame (l.foldl f q) = queryFrame q := by
  induction l generalizing q with
  | nil => rfl
  | cons a l ih => rw [List.foldl_cons, ih, h]

theorem queryFrame_scanRecord (ch recno : Nat) (r : List Byte) (q : Query) : queryFrame (scanRecord ch recno r q) = queryFrame q := by
  unfold scanRecord
  dsimp only
  split
  · split
    · split <;> rfl
    · rfl
    · exact queryFrame_foldl (fun q p => by split <;> rfl) _ _
  · rfl

/-- A granule leaves the query's kind, descriptor and object, and adds its bad pages. -/
theorem queryFrame_scanGranule (ch g size : Nat) (data : Store) (bad : List Nat) (q : Query) :
    queryFrame (scanGranule ch g size data bad q) = (q.kind, q.desc, q.obj, q.badPages + bad.length) := by
  unfold scanGranule
  refine (queryFrame_foldl (fun q i => ?_) _ _).trans rfl
  dsimp only
  split
  · rfl
  · exact queryFrame_scanRecord ..

/-- The state but for the log, the flash, the contexts and the free values. -/
def besideScan (s : State) : State := { s with logs := {}, flash := {}, ctxs := [], nonce := 0 }

theorem besideScan_foldl {α : Type} {f : State → α → State} (h : ∀ s a, besideScan (f s a) = besideScan s) (l : List α) (s : State) :
    besideScan (l.foldl f s) = besideScan s := foldl_keeps h l s

theorem besideScan_updSuper (ch die n : Nat) (f : Super → Super) (s : State) : besideScan (updSuper ch die n f s) = besideScan s := rfl

theorem besideScan_flash (f : Flash) (s : State) : besideScan { s with flash := f } = besideScan s := rfl

theorem besideScan_logEvent (a b c d e f g h : Nat) (s : State) : besideScan (logEvent a b c d e f g h s) = besideScan s := rfl

theorem besideScan_countReads (ls : List Loc) (s : State) : besideScan (countReads ls s) = besideScan s := by
  obtain ⟨m, hm⟩ := countReads_eq ls s
  rw [hm]; exact besideScan_flash _ s

theorem besideScan_markSoft (ch : Nat) (ps : List (Loc × Nat)) (s : State) : besideScan (markSoft ch ps s) = besideScan s := by
  unfold markSoft
  exact (besideScan_flash _ _).trans (besideScan_foldl (fun _ _ => besideScan_updSuper ..) ps s)

theorem besideScan_poisonAt (p : Loc × Nat) (s : State) : besideScan (poisonAt p s) = besideScan s := besideScan_updSuper ..

theorem besideScan_readFound (lga : Nat) (res : ReadResult) (s : State) : besideScan (readFound lga res s) = besideScan s := by
  have hcount := besideScan_countReads (homePlaces s lga) s
  unfold readFound foundAt
  cases res with
  | clean => exact hcount
  | soft us => exact (besideScan_markSoft _ _ _).trans hcount
  | uncorrectable us =>
    refine (besideScan_logEvent ..).trans ((besideScan_flash _ _).trans ?_)
    exact (besideScan_foldl (fun u p => besideScan_poisonAt p u) _ _).trans ((besideScan_markSoft _ _ _).trans hcount)

theorem besideScan_metaLost (lga : Nat) (cw : List Nat) (s : State) : besideScan (metaLost lga cw s) = besideScan s := by
  unfold metaLost
  split
  · rfl
  · dsimp only; split <;> rfl

theorem besideScan_landWindow (q : Query) (bs : List Byte) (s : State) : besideScan (landWindow q bs s) = besideScan s := by
  unfold landWindow; split <;> rfl

/-- The query after granule `g` of a read that held one, its channel a granule further. -/
def granuleDone (ch g : Nat) (q : Query) (o : Obj) (r : ReadOp) (cw soft : List Nat) : Query :=
  let p := scanGranule ch g o.size (readData r (scanResult cw soft)) (badPagesOf (readData r (scanResult cw soft)) cw) q
  { p with next := mapSet 0 ch ((g - firstOn q.desc ch) / 32 + 1) p.next }

theorem granuleDone_next (ch g : Nat) (q : Query) (o : Obj) (r : ReadOp) (cw soft : List Nat) :
    mapGet 0 (granuleDone ch g q o r cw soft).next ch = (g - firstOn q.desc ch) / 32 + 1 := by
  unfold granuleDone; dsimp only; exact mapGet_mapSet_self 0 ch _ _

/-- A granule that has passed its unit is in its query's slot, settled; beside the scan units only flash, log, contexts and free values change. -/
theorem scanPage_stored {slot ch g : Nat} {q : Query} {o : Obj} {r : ReadOp} {cw soft : List Nat} {s : State} (hd : r.dies ≠ []) (hk : q.kind ≠ .embed) :
    ∃ u v, besideScan u = besideScan s ∧ besideScan v = besideScan s ∧
      scanPage slot ch g q o r cw soft s = slotTaken slot (settleQuery u (granuleDone ch g q o r cw soft)) v := by
  set u := metaLost r.lga cw (readFound r.lga (scanResult cw soft)
    { s with flash := { s.flash with readQ := s.flash.readQ.filter (fun x => x.id != r.id) } }) with hu
  have hbeside : besideScan u = besideScan s := (besideScan_metaLost _ _ _).trans (besideScan_readFound _ _ _)
  have hdone : (if r.dies.isEmpty then q
      else scanGranule ch g o.size (readData r (scanResult cw soft)) (badPagesOf (readData r (scanResult cw soft)) cw) q) =
      scanGranule ch g o.size (readData r (scanResult cw soft)) (badPagesOf (readData r (scanResult cw soft)) cw) q := if_neg (by simpa using hd)
  obtain ⟨m, hsettled, -⟩ := settleQuery_settles u (granuleDone ch g q o r cw soft)
  have hkind : (settleQuery u (granuleDone ch g q o r cw soft)).kind ≠ .embed := by
    rw [hsettled]
    exact fun h => hk ((congrArg Prod.fst (queryFrame_scanGranule ch g o.size _ _ q) :).symm.trans h)
  refine ⟨u, landWindow q (landingBytes q (settleQuery u (granuleDone ch g q o r cw soft)) ch
    (granulesOn q.desc o.size ch ≤ mapGet 0 (settleQuery u (granuleDone ch g q o r cw soft)).next ch)) u, hbeside,
    (besideScan_landWindow _ _ _).trans hbeside, ?_⟩
  unfold scanPage
  dsimp only
  rw [hdone, ← hu]
  exact storeQuery_takesSlot (embedEmpty_of_kind hkind _) (embedBatch_of_kind hkind) _ _

theorem pageScanned_clause (slot ch g : Nat) (cw soft : List Nat) (q : Query) (o : Obj) (r : ReadOp) (s : State) (hslot : slot < 4) (hch : ch < 32)
    (hq : mapFind slot s.scan.slots = some q) (ho : objOf s q.obj = some o)
    (hr : s.flash.readQ.find? (fun r => r.started && readChannel r = ch && (queryGranule q.tag r).isSome) = some r) (hw : r.why = .query q.tag g)
    (hd : r.dies ≠ []) (hawake : queryAwake s q = true) (hon : flashOn s = true) (hk : q.kind ≠ .embed)
    (hg : (g - firstOn q.desc ch) / 32 < granulesOn q.desc o.size ch) :
    ∃ t p, exec (.pageScanned slot ch ⟨cw, soft⟩) s = .next t ∧ mapFind slot t.scan.slots = some p ∧ t.host = s.host ∧
      p.scanned = (scanGranule ch g o.size (readData r (scanResult cw soft)) (badPagesOf (readData r (scanResult cw soft)) cw) q).scanned ∧
      p.out = (scanGranule ch g o.size (readData r (scanResult cw soft)) (badPagesOf (readData r (scanResult cw soft)) cw) q).out ∧
      p.cands = (scanGranule ch g o.size (readData r (scanResult cw soft)) (badPagesOf (readData r (scanResult cw soft)) cw) q).cands ∧
      p.badPages = q.badPages + (badPagesOf (readData r (scanResult cw soft)) cw).length ∧ (g - firstOn q.desc ch) / 32 < mapGet 0 p.next ch := by
  have hgranule : queryGranule q.tag r = some g := by simp [queryGranule, hw]
  have heq : pageScan slot ch cw soft s = flashGo ch (issueQueries (scanPage slot ch g q o r cw soft s)) := by
    unfold pageScan
    simp only [hq, ho, hr, hgranule, Option.getD_some]
    exact if_pos (by simp [hawake, hon])
  have hexec : exec (.pageScanned slot ch ⟨cw, soft⟩) s = .next (flashGo ch (issueQueries (scanPage slot ch g q o r cw soft s))) := by
    rw [← heq]
    exact unitOp_of (by simp [hslot, hch, wfCh]) _
  obtain ⟨u, v, hu, hv, hpage⟩ := scanPage_stored (slot := slot) (ch := ch) (g := g) (o := o) (cw := cw) (soft := soft) (s := s) hd hk
  set p := granuleDone ch g q o r cw soft
  have hframe : queryFrame p = (q.kind, q.desc, q.obj, q.badPages + (badPagesOf (readData r (scanResult cw soft)) cw).length) :=
    queryFrame_scanGranule ch g o.size _ _ q
  have hdesc : p.desc = q.desc := (congrArg (·.2.1) hframe :)
  have hobj : p.obj = q.obj := (congrArg (·.2.2.1) hframe :)
  have hsize : querySize u p = o.size := by
    have hobjs : u.objs = s.objs := (congrArg State.objs hu :)
    rw [querySize, hobj, objOf, hobjs, ← objOf, ho]; rfl
  have hnext : mapGet 0 p.next ch = (g - firstOn q.desc ch) / 32 + 1 := granuleDone_next ch g q o r cw soft
  have hsettled : (g - firstOn q.desc ch) / 32 < settledNext u p ch :=
    lt_of_lt_of_le (by rw [hnext]; exact Nat.lt_succ_self _) (settledNext_ge (by rw [hnext, hdesc, hsize]; exact hg))
  obtain ⟨m, hm, hchannels⟩ := settleQuery_settles u p
  have hissued := (readsIssued_issueQueries (slotTaken slot { p with next := m } v)).trans
    (flashRuns_flashGo ch _).readsIssued
  obtain ⟨k, hfound⟩ := hissued.slot_some (mapFind_mapPut_self slot { p with next := m } v.scan.slots)
  rw [hpage, hm] at hexec
  refine ⟨_, _, hexec, hfound, hissued.host.trans (congrArg State.host hv :), rfl, rfl, rfl, (congrArg (·.2.2.2) hframe :), ?_⟩
  rw [← hchannels ch hch] at hsettled
  exact hsettled

/-! ### Units taken from service (R303, Table 11-6) -/

/-- A unit has this state. -/
def unitSet (ch : Nat) (x : UnitState) (s : State) : State := { s with scan := { s.scan with units := mapSet .enabled ch x s.scan.units } }

theorem units_unitSet (ch : Nat) (x : UnitState) (s : State) (k : Nat) :
    mapGet .enabled (unitSet ch x s).scan.units k = if k = ch then x else mapGet .enabled s.scan.units k := by
  unfold unitSet; exact mapGet_mapSet _ _ _ _ _

/-- A unit is out of service, or stopped by a fault that the log enters. -/
def unitOut (ch mode : Nat) (s : State) : State := if mode = 1 then unitSet ch .service s else logEvent 9 2 0 0 ch 0 0 0 (unitSet ch .stopped s)

theorem unitMode_out {ch mode : Nat} (h0 : mode ≠ 0) (s : State) : unitMode ch mode s = flashGo ch (issueQueries (cancelOn ch (unitOut ch mode s))) := by
  unfold unitMode unitOut
  by_cases h1 : mode = 1
  · subst h1; rfl
  · simp only [h0, h1, if_false]; rfl

/-- Beside the units' states only the log changes, and a fault stands in it. -/
theorem unitOut_eq (ch : Nat) {mode : Nat} (h1 : 1 ≤ mode) (h2 : mode ≤ 2) (s : State) :
    ∃ l, unitOut ch mode s = { unitSet ch (if mode = 1 then .service else .stopped) s with logs := l } ∧
      (mode = 2 → EventLogged 9 s (unitOut ch mode s)) := by
  by_cases h : mode = 1
  · subst h; exact ⟨s.logs, rfl, by simp⟩
  · obtain rfl : mode = 2 := by omega
    exact ⟨_, rfl, fun _ => eventLogged_of_logs (eventLogged_logEvent 9 2 0 0 ch 0 0 0 (unitSet ch .stopped s)) rfl rfl⟩

theorem queryWaits_congr {s t : State} (h : t.objs = s.objs) (ch : Nat) (c : Cmd) : queryWaits t ch c = queryWaits s ch c := by
  unfold queryWaits objOf; rw [h]

section Cancel

variable {ch : Nat} {s : State} (hw : ∀ c ∈ s.host.cmds, queryWaits s ch c = false)

include hw

theorem noQueryWaits : s.host.cmds.filter (queryWaits s ch) = [] := List.filter_eq_nil_iff.mpr fun c hc => by simp [hw c hc]

theorem cancelOn_noQuery (h : s.scan.slots = []) : cancelOn ch s = s := by
  unfold cancelOn
  simp only [noQueryWaits hw, List.foldl_nil, h, List.filter_nil]

/-- The one query, which has a granule on the channel and no run, is dropped, and its command is ABORTED. -/
theorem cancelOn_oneQuery {slot : Nat} {q : Query} {c : Cmd} (h : s.scan.slots = [(slot, q)]) (hg : granulesOn q.desc (querySize s q) ch ≠ 0)
    (hc : cmdOf s q.tag = some c) (hop : isQuery (pktOpcode c.pkt) = true) (hph : c.phase = .running) (hrun : runOf s c = false) :
    cancelOn ch s = complete c.tag (stAborted 3 0 0) (dropQueries (fun q => q.tag = c.tag) s) := by
  have hrange : 0x60 ≤ pktOpcode c.pkt := by
    simp only [isQuery, Bool.and_eq_true, decide_eq_true_eq] at hop
    exact hop.1
  have habort : abortStarted c (stAborted 3 0 0) s = complete c.tag (stAborted 3 0 0) (dropQueries (fun q => q.tag = c.tag) s) := by
    unfold abortStarted
    dsimp only
    rw [if_neg (by omega), if_neg (by omega), if_pos (by simp [hop, hph]), endRunOf, hrun, if_neg (by simp)]
  unfold cancelOn
  simp only [noQueryWaits hw, List.foldl_nil, h, List.filter_cons, bne_iff_ne, ne_eq, hg, not_false_eq_true, if_true, List.filter_nil, List.foldl_cons, hc]
  exact habort

end Cancel

/-- A unit that is enabled, while no query is in progress. -/
theorem unitEnabled_clause {ch : Nat} {s : State} (hch : ch < 32) (h : s.scan.slots = []) :
    ∃ t, exec (.scanUnitDisabledForService ch 0) s = .next t ∧ t = { s with scan := { s.scan with units := t.scan.units } } ∧
      (∀ k, mapGet .enabled t.scan.units k = if k = ch then .enabled else mapGet .enabled s.scan.units k) := by
  have heq : unitMode ch 0 s = unitSet ch .enabled s := issueQueries_empty (s := unitSet ch .enabled s) h
  refine ⟨unitSet ch .enabled s, ?_, rfl, units_unitSet ch .enabled s⟩
  rw [← heq]
  exact unitOp_of (by simp [hch, wfCh]) _

section UnitOut

variable {ch mode : Nat} {s : State} (hch : ch < 32) (h1 : 1 ≤ mode) (h2 : mode ≤ 2) (hw : ∀ c ∈ s.host.cmds, queryWaits s ch c = false)

include hch h1 h2 hw

theorem execUnitOut_eq : exec (.scanUnitDisabledForService ch mode) s = .next (flashGo ch (issueQueries (cancelOn ch (unitOut ch mode s)))) ∧
    ∀ c ∈ (unitOut ch mode s).host.cmds, queryWaits (unitOut ch mode s) ch c = false := by
  obtain ⟨l, hout, -⟩ := unitOut_eq ch h1 h2 s
  refine ⟨?_, fun c hc => ?_⟩
  · rw [← unitMode_out (by omega)]
    exact unitOp_of (by simp [hch, wfCh]; omega) _
  · rw [queryWaits_congr (s := s) (by rw [hout]; rfl)]
    rw [hout] at hc
    exact hw c hc

/-- A unit out of service, while no query is in progress. -/
theorem unitOut_noQuery (h : s.scan.slots = []) :
    ∃ t, exec (.scanUnitDisabledForService ch mode) s = .next t ∧ t.host = s.host ∧ t.scan = { s.scan with units := t.scan.units } ∧
      (∀ k, mapGet .enabled t.scan.units k = if k = ch then (if mode = 1 then .service else .stopped) else mapGet .enabled s.scan.units k) ∧
      (mode = 2 → EventLogged 9 s t) := by
  obtain ⟨hexec, hwaits⟩ := execUnitOut_eq hch h1 h2 hw
  obtain ⟨l, hout, hlogged⟩ := unitOut_eq ch h1 h2 s
  have hslots : (unitOut ch mode s).scan.slots = [] := by rw [hout]; exact h
  rw [cancelOn_noQuery hwaits hslots, issueQueries_empty hslots] at hexec
  have hruns := flashRuns_flashGo ch (unitOut ch mode s)
  have hscan : (flashGo ch (unitOut ch mode s)).scan = (unitSet ch (if mode = 1 then .service else .stopped) s).scan := by rw [hruns.rest, hout]
  refine ⟨_, hexec, ?_, ?_, fun k => ?_, fun hm => eventLogged_of_logs (hlogged hm) rfl hruns.logs⟩
  · rw [hruns.host, hout]; rfl
  · rw [hscan]; rfl
  · rw [hscan]; exact units_unitSet ch _ s k

/-- A unit out of service ends the one query, which has a granule on its channel. -/
theorem unitOut_oneQuery {slot : Nat} {q : Query} {c : Cmd} (h : s.scan.slots = [(slot, q)]) (hg : granulesOn q.desc (querySize s q) ch ≠ 0)
    (hc : cmdOf s q.tag = some c) (hop : isQuery (pktOpcode c.pkt) = true) (hph : c.phase = .running) (hrun : runOf s c = false) :
    ∃ t, exec (.scanUnitDisabledForService ch mode) s = .next t ∧ CommandCompletes c (stAborted 3 0 0) s t ∧ t.scan.slots = [] ∧
      mapGet .enabled t.scan.units ch = (if mode = 1 then .service else .stopped) := by
  obtain ⟨hexec, hwaits⟩ := execUnitOut_eq hch h1 h2 hw
  obtain ⟨l, hout, -⟩ := unitOut_eq ch h1 h2 s
  have htag : c.tag = q.tag := tag_of_cmdOf hc
  set u := unitOut ch mode s
  set v := dropQueries (fun q => q.tag = c.tag) u with hv
  have hcancel : cancelOn ch u = complete c.tag (stAborted 3 0 0) v :=
    cancelOn_oneQuery hwaits (by rw [hout]; exact h) (by rw [hout]; exact hg) (by rw [hout]; exact hc) hop hph (by rw [hout]; exact hrun)
  have hscan : v.scan = { (unitSet ch (if mode = 1 then .service else .stopped) s).scan with slots := [] } := by
    have hslots : u.scan.slots.filter (fun p => !decide (p.2.tag = c.tag)) = [] := by
      rw [hout]
      change s.scan.slots.filter (fun p => !decide (p.2.tag = c.tag)) = []
      rw [h]
      simp [htag]
    change { u.scan with slots := u.scan.slots.filter (fun p => !decide (p.2.tag = c.tag)) } = _
    rw [hslots, hout]
  have hended : (complete c.tag (stAborted 3 0 0) v).scan = v.scan := complete_scan _ _ _
  rw [hcancel, issueQueries_empty (by rw [hended, hscan])] at hexec
  have hruns := flashRuns_flashGo ch (complete c.tag (stAborted 3 0 0) v)
  have hfinal : (flashGo ch (complete c.tag (stAborted 3 0 0) v)).scan = v.scan := by rw [hruns.rest]; exact hended
  refine ⟨_, hexec, ?_, ?_, ?_⟩
  · rw [CommandCompletes, hruns.host]
    exact commandCompletes_after (d := c) (by rw [htag]; exact hc) rfl (by rw [hv, hout]; rfl) (by rw [hv, hout]; rfl) _
  · rw [hfinal, hscan]
  · rw [hfinal, hscan]; exact (units_unitSet ch _ s ch).trans (if_pos rfl)

end UnitOut

/-- Settles O44, clause by clause: query commands, scanned granules, merges and units taken from service. -/
theorem queryCommandsAndScans : Obligations.QueryCommandsAndScans := by
  unfold Obligations.QueryCommandsAndScans
  refine ⟨fun kind op tag slot i c s hop h hb hd he hslot hfree hlow => ?_, pageScanned_clause, queryMerge_clause, fun ch s hch => ⟨unitEnabled_clause hch, ?_⟩⟩
  · have hs : QueryStarts kind c s := ⟨hb, hd, he⟩
    have hf : LowestFree s slot := ⟨hslot, hfree, hlow⟩
    exact ⟨queryTakesSlot_clause hop h hs hf, fun o ho hbare hp hr =>
      ⟨bareEmbed_replies hop h hs hf ho hbare hp hr, bareQuery_merges hop h hs hf ho hbare hp hr⟩⟩
  · exact fun mode h1 h2 hw => ⟨unitOut_noQuery hch h1 h2 hw, fun slot q c => unitOut_oneQuery hch h1 h2 hw⟩

end Sys2Proof.Machine
end

section
/-! SUPPORT. Proofs of the data protection statements (chapter 10): host DMA that fails, is poisoned or finishes (O34). -/

namespace Sys2Proof.Machine
open Claims

/-! ### The end of a command whose host DMA fails (R309, R395, R468) -/

/-- A command ends from a state that differs from `s` in PCIe's error bits and the free values used up at most: its record is entered, and of
the rest of the module only a new challenge may follow. -/
theorem endCmd_completes {s w : State} {c : Cmd} {tag : Nat} (h : cmdOf s tag = some c) (hw : w = { s with pcie := w.pcie, nonce := w.nonce })
    (st : Status) : ∃ host challenge n, endCmd c st w = { w with host := host, sec := { s.sec with challenge := challenge }, nonce := n } ∧
      (pktOpcode c.pkt ≠ 0x08 → challenge = s.sec.challenge) ∧ CommandCompletes c st s (endCmd c st w) := by
  have hc : cmdOf s c.tag = some c := by rw [tag_of_cmdOf h]; exact h
  have hdone : CommandCompletes c st s (complete c.tag st w) := commandCompletes_after hc rfl (by rw [hw]) (by rw [hw]) st
  have hrest : complete c.tag st w = { w with host := (complete c.tag st w).host } := complete_onlyHost _ _ _
  have hsec : w.sec = s.sec := by rw [hw]
  unfold endCmd
  split
  · rename_i hop
    refine ⟨(complete c.tag st w).host, (List.range 32).map (Config.random w.nonce), w.nonce + 1, ?_, (absurd hop ·), hdone⟩
    rw [hrest, ← hsec]; rfl
  · refine ⟨(complete c.tag st w).host, s.sec.challenge, w.nonce, ?_, fun _ => rfl, hdone⟩
    rw [← hsec]; exact hrest

theorem hostDmaError_clause (tag off : Nat) (c : Cmd) (s : State) (h : cmdOf s tag = some c) (htr : transfers s c = true) (hoff : off < 2 ^ 32) :
    ∃ t, exec (.hostDmaError tag off) s = .next t ∧
      t = { s with host := t.host, pcie := { s.pcie with aerUncor := t.pcie.aerUncor }, sec := { s.sec with challenge := t.sec.challenge }, nonce := t.nonce } ∧
      (pktOpcode c.pkt ≠ 0x08 → t.sec = s.sec) ∧ CommandCompletes c { cls := 3, code := 4, r0 := off } s t := by
  obtain ⟨host, challenge, n, hended, hkept, hdone⟩ := endCmd_completes (w := bump { s with pcie := { s.pcie with
    aerUncor := s.pcie.aerUncor ||| (if Config.freeBool s.nonce then 0x4000 else 0) } }) h rfl (stHostDma (off % 2 ^ 32))
  rw [stHostDma, Nat.mod_eq_of_lt hoff] at hended hdone
  rw [hended] at hdone
  refine ⟨_, ?_, rfl, fun hop => by rw [hkept hop], hdone⟩
  rw [← hended]
  change unitOp true (match (cmdOf s tag).filter (transfers s) with | some c => _ | none => s) = _
  rw [h, Option.filter_some_pos htr, stHostDma, Nat.mod_eq_of_lt hoff]
  rfl

theorem poisonedTlp_clause (tag : Nat) (c : Cmd) (s : State) (h : cmdOf s tag = some c) (hdma : dmaReady s = true) (hin : needsInput c = true) :
    ∃ t, exec (.poisonedTlpReceived tag) s = .next t ∧
      t = { s with host := t.host, pcie := t.pcie, sec := { s.sec with challenge := t.sec.challenge }, nonce := t.nonce } ∧
      (pktOpcode c.pkt ≠ 0x08 → t.sec = s.sec) ∧
      CommandCompletes c { cls := 3, code := 1 } s t ∧ t.pcie.aerUncor.getLsbD 12 = true ∧ t.pcie.aerCor.getLsbD 13 = true := by
  obtain ⟨host, challenge, n, hended, hkept, hdone⟩ := endCmd_completes (w := { s with pcie := { s.pcie with
    aerUncor := s.pcie.aerUncor ||| 0x1000, aerCor := s.pcie.aerCor ||| 0x2000 } }) h rfl (stMediaError 0 0)
  rw [hended] at hdone
  refine ⟨_, ?_, rfl, fun hop => by rw [hkept hop], hdone, by simp, by simp⟩
  rw [← hended]
  change unitOp true (match (cmdOf s tag).filter (fun c => dmaReady s && needsInput c) with | some c => _ | none => s) = _
  rw [h, Option.filter_some_pos (by rw [hdma, hin]; rfl)]
  rfl

/-! ### A transfer finishes (R306, R423) -/

theorem hostDma_stages {tag : Nat} {c : Cmd} {s : State} (h : cmdOf s tag = some c) (hdma : dmaReady s = true) (hin : needsInput c = true)
    (data : List Byte) : hostDma tag data s =
      updCmd tag (fun d => { d with staged := some (padTo (roundUp (stageLen c) 64) (data.take (stageLen c))) }) s := by
  have hphase : c.phase = .released := by
    simp only [needsInput, Bool.and_eq_true, decide_eq_true_eq] at hin
    exact hin.1.1
  simp [hostDma, h, transfers, hdma, hin, hphase]

theorem hostDma_finishes {tag : Nat} {c : Cmd} {st : Status} {s : State} (h : cmdOf s tag = some c) (hdma : dmaReady s = true)
    (hphase : c.phase = .finishing) (hres : c.result = some st) (data : List Byte) : hostDma tag data s = complete tag st s := by
  simp [hostDma, h, transfers, hdma, hphase, hres]

/-- Settles O34: the two failures by `endCmd_completes`, a finished transfer by the command's phase. -/
theorem hostDmaOutcomes : Obligations.HostDmaOutcomes := by
  unfold Obligations.HostDmaOutcomes
  refine ⟨hostDmaError_clause, fun tag c s h hdma hin => ⟨poisonedTlp_clause tag c s h hdma hin, fun data => ?_⟩,
    fun tag data c st s h hdma hphase hres => ?_⟩
  · exact ⟨_, congrArg Host.Outcome.next (hostDma_stages h hdma hin data), rfl, rfl⟩
  · obtain rfl := tag_of_cmdOf h
    exact ⟨_, congrArg Host.Outcome.next (hostDma_finishes h hdma hphase hres data), complete_onlyHost _ _ _, commandCompletes_complete h rfl st⟩

end Sys2Proof.Machine
end

section
/-! SUPPORT. Proofs of the data protection statements (chapter 10): the scrub engine of the control SRAM (O27). -/

namespace Sys2Proof.Machine
open Claims

/-! ### Groups of engines (R313, R316) -/

theorem mapGet_updGroup (g j : Nat) (f : ScrubGroup → ScrubGroup) (s : State) :
    mapGet {} (updGroup g f s).scrub j = if j = g then f (mapGet {} s.scrub g) else mapGet {} s.scrub j := mapGet_mapSet _ _ _ _ _

@[simp] theorem mapGet_updGroup_self (g : Nat) (f : ScrubGroup → ScrubGroup) (s : State) :
    mapGet {} (updGroup g f s).scrub g = f (mapGet {} s.scrub g) := by simp [mapGet_updGroup]

@[simp] theorem mapGet_updGroup_ne {g j : Nat} (h : j ≠ g) (f : ScrubGroup → ScrubGroup) (s : State) :
    mapGet {} (updGroup g f s).scrub j = mapGet {} s.scrub j := by simp [mapGet_updGroup, h]

/-- An engine that goes on moves itself only; at the end of its pass its group notes the pass's time. -/
theorem group_scrubAdvance (g u ms : Nat) (s : State) : mapGet {} (scrubAdvance g u ms s).scrub g =
    { mapGet {} s.scrub g with
      engines := mapSet (0, 0) u (if engineWords g ≤ (engineOf s g u).1 + 1 then (0, (engineOf s g u).2 + 1)
                                  else ((engineOf s g u).1 + 1, (engineOf s g u).2)) (mapGet {} s.scrub g).engines
      lastMs := if engineWords g ≤ (engineOf s g u).1 + 1 then ms else (mapGet {} s.scrub g).lastMs } := by
  unfold scrubAdvance
  rw [mapGet_updGroup_self]
  split <;> rfl

theorem engineOf_scrubAdvance (g u ms : Nat) (s : State) : engineOf (scrubAdvance g u ms s) g u =
    if engineWords g ≤ (engineOf s g u).1 + 1 then (0, (engineOf s g u).2 + 1) else ((engineOf s g u).1 + 1, (engineOf s g u).2) := by
  conv_lhs => rw [engineOf, group_scrubAdvance, mapGet_mapSet_self]

/-! ### What becomes of the word read (R305, R314) -/

/-- The word at the engine's address, its raw error gone. -/
def wordRewritten (p : Nat) (s : State) : State :=
  updGroup 2 (fun x => { x with corrected := stick32 (x.corrected + 1) }) (updRaw .control (fun r => r.filter (fun q => q.1 != p)) s)

/-- The word at the engine's address, entered in the log and poisoned. -/
def wordPoisoned (p : Nat) (s : State) : State :=
  updGroup 2 (fun x => { x with poisoned := stick32 (x.poisoned + 1) }) (poisonWord .control p (logWord .control 0 p s))

theorem scrubWord_stays {p : Nat} {overtaken : Bool} {s : State} (h : wordFinds s .control p = .good ∨ overtaken = true) :
    scrubWord 2 .control p overtaken s = s := by
  unfold scrubWord
  rcases h with h | rfl
  · rw [h]
  · split <;> rfl

theorem scrubWord_correctable {p : Nat} {s : State} (h : wordFinds s .control p = .correctable) :
    scrubWord 2 .control p false s = wordRewritten p s := by
  rw [scrubWord, h]; rfl

theorem scrubWord_uncorrectable {p : Nat} {s : State} (h : wordFinds s .control p = .uncorrectable) :
    scrubWord 2 .control p false s = wordPoisoned p s := by
  rw [scrubWord, h]; rfl

/-- What an engine does with a word of the control SRAM leaves its bytes, the engines and every other group. -/
structure ScrubsControl (s t : State) : Prop where
  rest : t = { s with ctrl := t.ctrl, scrub := t.scrub, logs := t.logs }
  cells : t.ctrl.cells = s.ctrl.cells
  engines : (mapGet {} t.scrub 2).engines = (mapGet {} s.scrub 2).engines
  lastMs : (mapGet {} t.scrub 2).lastMs = (mapGet {} s.scrub 2).lastMs
  others : ∀ g, g ≠ 2 → mapGet {} t.scrub g = mapGet {} s.scrub g

theorem scrubsControl_wordRewritten (p : Nat) (s : State) : ScrubsControl s (wordRewritten p s) where
  rest := rfl
  cells := rfl
  engines := by rw [wordRewritten, mapGet_updGroup_self]; rfl
  lastMs := by rw [wordRewritten, mapGet_updGroup_self]; rfl
  others g hg := mapGet_updGroup_ne hg _ _

theorem scrubsControl_wordPoisoned (p : Nat) (s : State) : ScrubsControl s (wordPoisoned p s) where
  rest := rfl
  cells := rfl
  engines := by rw [wordPoisoned, mapGet_updGroup_self]; rfl
  lastMs := by rw [wordPoisoned, mapGet_updGroup_self]; rfl
  others g hg := mapGet_updGroup_ne hg _ _

theorem scrubsControl_scrubWord (p : Nat) (overtaken : Bool) (s : State) : ScrubsControl s (scrubWord 2 .control p overtaken s) := by
  cases overtaken with
  | true => rw [scrubWord_stays (.inr rfl)]; exact ⟨rfl, rfl, rfl, rfl, fun _ _ => rfl⟩
  | false =>
    cases h : wordFinds s .control p with
    | good => rw [scrubWord_stays (.inl h)]; exact ⟨rfl, rfl, rfl, rfl, fun _ _ => rfl⟩
    | correctable => rw [scrubWord_correctable h]; exact scrubsControl_wordRewritten p s
    | uncorrectable => rw [scrubWord_uncorrectable h]; exact scrubsControl_wordPoisoned p s

theorem wordFinds_wordRewritten (p : Nat) (s : State) : wordFinds (wordRewritten p s) .control p = .good := by
  have hgone : (s.ctrl.raw.filter (fun q => q.1 != p)).find? (fun q => q.1 = p) = none := by
    simp [List.find?_filter]
  unfold wordFinds
  change (match (s.ctrl.raw.filter (fun q => q.1 != p)).find? (fun q => q.1 = p) with | some q => _ | none => CodeState.good) = _
  rw [hgone]

theorem storeHit_wordPoisoned (p : Nat) (s : State) : storeHit 8 (wordPoisoned p s).ctrl (p * 8) 8 = true :=
  List.any_eq_true.mpr ⟨p, mem_setAdd.mpr (.inl rfl), by simp⟩

theorem eventLogged_wordPoisoned (p : Nat) (s : State) : EventLogged 6 s (wordPoisoned p s) :=
  eventLogged_of_logs (eventLogged_logEvent 6 0 6 0 0 (p * 8) 0 0 s) rfl rfl

/-! ### The access of the control SRAM's engine -/

theorem execScrubControl_eq {lies : Option (CodeMemory × Nat)} {overtaken : Bool} {ms : Nat} {s : State}
    (hon : (mapGet {} s.scrub 2).enable = true) (hd1 : s.power.d1 = true) :
    exec (.scrubAccess 2 0 lies overtaken ms) s =
      .next (scrubAdvance 2 0 ms (scrubWord 2 .control (engineOf s 2 0).1 overtaken s)) := by
  have hruns : ((mapGet {} s.scrub 2).enable && engineRuns s 2 0) = true := by rw [hon]; exact hd1
  exact congrArg Host.Outcome.next (if_pos hruns)

/-- Settles O27: the engine's step after the word it read, good, correctable or uncorrectable. -/
theorem scrubEngineRepairsOrPoisons : Obligations.ScrubEngineRepairsOrPoisons := by
  unfold Obligations.ScrubEngineRepairsOrPoisons
  intro lies overtaken ms p passes s hon hd1 hat
  have hexec := execScrubControl_eq (lies := lies) (overtaken := overtaken) (ms := ms) hon hd1
  rw [hat] at hexec
  obtain ⟨hrest, hcells, hengines, hms, hothers⟩ := scrubsControl_scrubWord p overtaken s
  have hstands : engineOf (scrubWord 2 .control p overtaken s) 2 0 = (p, passes) := by rw [engineOf, hengines]; exact hat
  have hgroup := group_scrubAdvance 2 0 ms (scrubWord 2 .control p overtaken s)
  have hmoved := engineOf_scrubAdvance 2 0 ms (scrubWord 2 .control p overtaken s)
  rw [hstands] at hgroup hmoved
  refine ⟨_, hexec, ?_, hcells, hmoved, ?_, fun g hg => (mapGet_updGroup_ne hg _ _).trans (hothers g hg), fun hstays => ?_, fun hfix hov => ?_,
    fun hbad hov => ?_⟩
  · conv_lhs => rw [scrubAdvance, updGroup, hrest]
    rfl
  · rw [hgroup, hms]; rfl
  · rw [hgroup, scrubWord_stays hstays]; exact ⟨scrubWord_stays hstays ▸ rfl, scrubWord_stays hstays ▸ rfl, rfl, rfl⟩
  · subst hov
    rw [hgroup, scrubWord_correctable hfix]
    exact ⟨rfl, wordFinds_wordRewritten p s, rfl, by rw [wordRewritten, mapGet_updGroup_self]; rfl⟩
  · subst hov
    rw [hgroup, scrubWord_uncorrectable hbad]
    exact ⟨storeHit_wordPoisoned p s, eventLogged_wordPoisoned p s, by rw [wordPoisoned, mapGet_updGroup_self]; rfl⟩

end Sys2Proof.Machine
end

section
/-! SUPPORT. Proofs of the data protection statements (chapter 10): what puts the module into FAULT, and firmware exceptions (O24). -/

namespace Sys2Proof.Machine
open Claims

/-! ### FAULT (R484, Table 14-4) -/

/-- FAULT switches D2 to D29 off and nothing else of the power control. -/
theorem enterFault_power (cause : Nat) (s : State) : (enterFault cause s).power = { s.power with
    d2 := false, d3 := false, d4 := false, pgOut := false, compute := [], domOn := [], domOff := [], waking := false, woken := false } := by
  obtain ⟨hsteady, -⟩ := (SteadyButSource.of_eq (steady_engineLost s)).trans (steadyButSource_closeAllEasels (engineLost s))
  have hpower : (closeAllEasels (engineLost s)).power = s.power := (congrArg Steady.power hsteady :)
  rw [← hpower]; rfl

theorem enterFault_counter (cause : Nat) (s : State) : (enterFault cause s).frame.counter = s.frame.counter := by
  obtain ⟨-, -, -, hcounter, -, -⟩ := enterFault_leaves cause s
  exact hcounter

theorem canFault_of {s : State} (hd1 : s.power.d1 = true) (h : s.host.devState ≠ .fault) : canFault s = true := by simp [canFault, hd1, h]

theorem thermalFault_clause (s : State) (hd1 : s.power.d1 = true) (h : s.host.devState ≠ .fault) :
    ∃ t, exec .thermalFault s = .next t ∧ t.host.devState = .fault ∧ t.host.faultCause = 4 ∧ t.power.d1 = true ∧ t.power.d2 = false ∧
      t.power.d3 = false ∧ t.power.d4 = false ∧ t.power.compute = [] ∧ t.power.thermalFaults = s.power.thermalFaults + 1 ∧
      t.frame.counter = s.frame.counter := by
  refine ⟨_, congrArg Host.Outcome.next (if_pos (canFault_of hd1 h)), rfl, rfl, ?_⟩
  rw [enterFault_power, enterFault_counter]
  exact ⟨hd1, rfl, rfl, rfl, rfl, rfl, rfl⟩

theorem powerFault_clause (s : State) (hd1 : s.power.d1 = true) (h : s.host.devState ≠ .fault) :
    ∃ t, exec .powerFault s = .next t ∧ t.host.devState = .fault ∧ t.host.faultCause = 5 ∧ t.power.d1 = true ∧ t.power.d2 = false ∧
      t.power.d3 = false ∧ t.power.d4 = false ∧ t.power.compute = [] ∧ t.power.thermalFaults = s.power.thermalFaults ∧
      t.frame.counter = s.frame.counter := by
  refine ⟨_, congrArg Host.Outcome.next (if_pos (canFault_of hd1 h)), rfl, rfl, ?_⟩
  rw [enterFault_power, enterFault_counter]
  exact ⟨hd1, rfl, rfl, rfl, rfl, rfl, rfl⟩

/-! ### Firmware exceptions (R310, Table 10-3) -/

theorem eventLogged_logBy (sp source sev code ctx inst addr : Nat) (s : State) :
    EventLogged source s (logBy sp source sev code ctx inst addr s) := by
  refine (hasEvent_logAdd _ _).imp (fun ⟨e, he, hkind⟩ => ⟨e, he, ?_⟩) id
  exact congrArg Prod.fst hkind

/-- The processors run, and the module serves. -/
structure Supervised (sp : Nat) (s : State) : Prop where
  processor : sp < 8
  d1 : s.power.d1 = true
  ready : s.host.devState = .ready

section Exceptions

variable {sp : Nat} {s : State} (h : Supervised sp s)
include h

/-- An exception of a duty that the processor has strikes it. -/
theorem firmwareException_strikes {d : Duty} (hwf : wfDuty d = true) (hduty : hasDuty sp d = true) :
    exec (.firmwareException sp ⟨d, none⟩) s = .next (firmwareStruck sp d s) := by
  obtain ⟨hsp, hd1, hready⟩ := h
  change unitOp (wfSp sp && wfDuty d) (if true && s.power.d1 && s.host.devState != .fault && hasDuty sp d then firmwareStruck sp d s else s) = _
  rw [unitOp_of (by simp [wfSp, hsp, hwf])]
  simp [hd1, hready, hduty]

theorem restartable_clause : ∃ t, exec (.firmwareException sp ⟨.restartable, none⟩) s = .next t ∧ t = { s with logs := t.logs } ∧ EventLogged 13 s t :=
  ⟨_, firmwareException_strikes h rfl rfl, rfl, eventLogged_logBy _ _ _ _ _ _ _ _⟩

theorem flashMap_clause (hlo : 2 ≤ sp) (hhi : sp ≤ 5) : ∃ t n, exec (.firmwareException sp ⟨.flashMap, none⟩) s = .next t ∧ n ≤ 100 ∧
    EventLogged 13 s t ∧ t = { s with host := { s.host with devState := .rebuilding, sleepLevel := 0, progress := n }, logs := t.logs
                                      flash := { s.flash with ckpt := none }, nonce := s.nonce + 1 } := by
  have hserving : (s.host.devState = .booting || s.host.devState = .gesso : Bool) = false := by simp [h.ready]
  have hawake : inS2 s = false := by simp [inS2, h.ready]
  have hstruck : firmwareStruck sp .flashMap s = { logBy sp 13 0 5 0 0 0 s with
      host := { s.host with devState := .rebuilding, sleepLevel := 0, progress := (Config.free64 s.nonce).toNat % 101 }
      flash := { s.flash with ckpt := none }, nonce := s.nonce + 1 } := by
    change (if (s.host.devState = .booting || s.host.devState = .gesso : Bool) then logBy sp 13 0 5 0 0 0 s else
      freeProgress { logBy sp 13 0 5 0 0 0 s with
        host := { s.host with devState := .rebuilding, sleepLevel := 0 }, flash := { s.flash with ckpt := none }
        power := if inS2 s then domainsBack s.power else s.power }) = _
    rw [hserving, hawake]
    rfl
  refine ⟨_, (Config.free64 s.nonce).toNat % 101, firmwareException_strikes h rfl (by simp [hasDuty, hlo, hhi]), by omega, ?_, ?_⟩
  · rw [hstruck]; exact eventLogged_of_logs (eventLogged_logBy sp 13 0 5 0 0 0 s) rfl rfl
  · rw [hstruck]; rfl

theorem module_clause : ∃ t, exec (.firmwareException sp ⟨.module, none⟩) s = .next t ∧ t.host.devState = .fault ∧ t.host.faultCause = 3 ∧
    t.power.d2 = false :=
  ⟨_, firmwareException_strikes h rfl rfl, rfl, rfl, rfl⟩

end Exceptions

/-! ### A fault of a resident context (R340) -/

theorem tornCtx_resident {c : Context} (hres : isResident c = true) (hd : c.state ≠ .destroying) : (tornCtx c).state = .teardown := by
  simp [tornCtx, hd, hres]

/-- Whether a context that is not being destroyed is resident, its state alone says. -/
theorem isResident_congr {c d : Context} (hs : d.state = c.state) (hd : c.state ≠ .destroying) : isResident d = isResident c := by
  unfold isResident
  rw [hs]
  cases h : c.state <;> simp_all

/-- A fault of a resident context tears it down and ends its commands. -/
theorem contextFault_resident {n : Nat} {s : State} (hres : isResident (ctxOf s n) = true) (hd : (ctxOf s n).state ≠ .destroying) (cause r1 : Nat) :
    (ctxOf (contextFault n cause r1 s) n).state = .teardown ∧ (ctxOf (contextFault n cause r1 s) n).run = none ∧
      ∀ c ∈ (contextFault n cause r1 s).host.cmds, faultEnds n c = false := by
  have hused : (ctxOf s n).state ≠ .free := fun hf => by simp [isResident, hf] at hres
  rw [contextFault_eq hused]
  have hends := (workEnds_workStopped n s).trans (workEnds_commandsFaulted n cause r1 _)
  have hgone := faultEnds_commandsFaulted n cause r1 (workStopped n s)
  generalize commandsFaulted n cause r1 (workStopped n s) = u at hends hgone
  have hstate := hends.ctxState n
  rw [ctxOf_contextTorn]
  exact ⟨tornCtx_resident ((isResident_congr hstate hd).trans hres) (hstate ▸ hd), rfl, hgone⟩

theorem context_clause {sp n : Nat} {s : State} (h : Supervised sp s) (hsp : sp = 1) (h1 : 1 ≤ n) (h2 : n ≤ 255)
    (hres : isResident (ctxOf s n) = true) (hd : (ctxOf s n).state ≠ .destroying) :
    ∃ t, exec (.firmwareException sp ⟨.context n, none⟩) s = .next t ∧ (ctxOf t n).state = .teardown ∧ (ctxOf t n).run = none ∧
      (∀ c ∈ t.host.cmds, faultEnds n c = false) :=
  ⟨_, firmwareException_strikes h (by simp [wfDuty, wfCtx, h1, h2]) (by simp [hasDuty, hsp]),
    contextFault_resident (s := logBy sp 13 2 0x22 n 0 0 s) hres hd 0x22 0xFFFFFFFF⟩

/-! ### Stores of a processor to the control SRAM (R306, R428) -/

theorem spRow_control {a : Nat} (hlo : 0x10000000 ≤ a) (hhi : a < 0x12000000) : spRow a = 5 := by
  have h1 : ¬ a < 0x800000 := by omega
  have h2 : ¬ a < 0x801000 := by omega
  have h3 : ¬ a < 0x1000100 := by omega
  have h4 : ¬ a < 0x1001100 := by omega
  simp [spRow, h1, h2, h3, h4, hlo, hhi]

theorem spAllowed_control {a : Nat} (hlo : 0x10000000 ≤ a) (hhi : a < 0x12000000) (bs : List Byte) (s : State) :
    spAllowed s (.store a bs) = decide (a % 8 = 0 ∧ bs.length = 8) := by
  simp [spAllowed, spRow_control hlo hhi, Bool.and_comm]

/-- An access that a processor makes, and the exception that it raises. -/
theorem firmwareAccess_eq {sp : Nat} {s : State} (h : Supervised sp s) (x : SpAccess) :
    exec (.firmwareException sp ⟨.restartable, some x⟩) s = .next
      (if (spAccess sp x s).2 then firmwareStruck sp .restartable (spAccess sp x s).1 else (spAccess sp x s).1) := by
  obtain ⟨hsp, hd1, hready⟩ := h
  change unitOp (wfSp sp && true) _ = _
  rw [unitOp_of (by simp [wfSp, hsp])]
  simp [hd1, hready, hasDuty]

theorem controlStore_written {sp a : Nat} {bs : List Byte} {s : State} (h : Supervised sp s) (hlo : 0x10000000 ≤ a) (hhi : a < 0x12000000)
    (ha : a % 8 = 0) (hlen : bs.length = 8) : ∃ t, exec (.firmwareException sp ⟨.restartable, some (.store a bs)⟩) s = .next t ∧
      t = { s with ctrl := t.ctrl } ∧ BytesWritten s.ctrl t.ctrl (a - 0x10000000) bs := by
  have haccess : spAccess sp (.store a bs) s = ({ s with ctrl := storeWrite 8 s.ctrl (a - 0x10000000) bs }, false) := by
    simp [spAccess, spAllowed_control hlo hhi, spRow_control hlo hhi, ha, hlen]
  refine ⟨_, (firmwareAccess_eq h _).trans (by rw [haccess, if_neg Bool.false_ne_true]), rfl, bytesWritten_storeWrite 8 _ _ _⟩

theorem controlStore_refused {sp a : Nat} {bs : List Byte} {s : State} (h : Supervised sp s) (hlo : 0x10000000 ≤ a) (hhi : a < 0x12000000)
    (hbad : a % 8 ≠ 0 ∨ bs.length ≠ 8) : ∃ t, exec (.firmwareException sp ⟨.restartable, some (.store a bs)⟩) s = .next t ∧
      t = { s with logs := t.logs } ∧ EventLogged 13 s t := by
  have hno : spAllowed s (.store a bs) = false := by rw [spAllowed_control hlo hhi]; simp; tauto
  have haccess : spAccess sp (.store a bs) s = (s, true) := by simp [spAccess, hno]
  refine ⟨_, (firmwareAccess_eq h _).trans (by rw [haccess]; rfl), rfl, eventLogged_logBy _ _ _ _ _ _ _ _⟩

/-- Settles O24, clause by clause: faults of the module, firmware exceptions by the duty they strike, and stores to the control SRAM. -/
theorem faultsStopTheModule : Obligations.FaultsStopTheModule := by
  unfold Obligations.FaultsStopTheModule
  refine ⟨fun s hd1 hs => ⟨thermalFault_clause s hd1 hs, powerFault_clause s hd1 hs⟩, fun sp s hsp hd1 hready => ?_,
    fun sp a bs s hsp hd1 hready hlo hhi => ?_⟩
  · have h : Supervised sp s := ⟨hsp, hd1, hready⟩
    exact ⟨restartable_clause h, flashMap_clause h, module_clause h, fun n => context_clause h⟩
  · have h : Supervised sp s := ⟨hsp, hd1, hready⟩
    exact ⟨controlStore_written h hlo hhi, controlStore_refused h hlo hhi⟩

end Sys2Proof.Machine
end

section
/-! SUPPORT. Proofs of the context statements (chapter 11): a run that has lasted RUN_FRAMES (O47). -/

namespace Sys2Proof.Machine
open Claims

/-- A fault of a context that is in use loses no event of the log, takes its run and its program, and ends its commands (R340). -/
theorem contextFault_endsWork {n : Nat} {s : State} (h : (ctxOf s n).state ≠ .free) (cause r1 : Nat) :
    LogsKeep s.logs (contextFault n cause r1 s).logs ∧ (ctxOf (contextFault n cause r1 s) n).run = none ∧
      (ctxOf (contextFault n cause r1 s) n).prog = none ∧ ∀ c ∈ (contextFault n cause r1 s).host.cmds, faultEnds n c = false := by
  rw [contextFault_eq h]
  have hends : WorkEnds s (commandsFaulted n cause r1 (workStopped n s)) :=
    (workEnds_workStopped n s).trans (workEnds_commandsFaulted n cause r1 _)
  have hgone := faultEnds_commandsFaulted n cause r1 (workStopped n s)
  generalize commandsFaulted n cause r1 (workStopped n s) = u at hends hgone
  refine ⟨hends.logs, ?_⟩
  rw [ctxOf_contextTorn]
  exact ⟨rfl, rfl, hgone⟩

/-- The state after RUN_TIMEOUT of a context has struck: entered in the error log, then the context fault. -/
def runTimedOut (n : Nat) (s : State) : State := contextFault n 0x21 0xFFFFFFFF (logEvent 1 2 0x21 n 0 0 0 0 s)

section Running

variable {n : Nat} {u : Run} {s : State} (hrun : (ctxOf s n).run = some u)
include hrun

theorem runLate_late (hlate : (ctxOf s n).runFrames ≤ u.ticks) : runLate n s = runTimedOut n s := by
  simp [runLate, hrun, hlate, runTimedOut]

theorem runLate_inTime (hearly : u.ticks < (ctxOf s n).runFrames) : runLate n s = s := by
  simp [runLate, hrun, hearly]

end Running

theorem execRunTimeout_eq {n : Nat} (h1 : 1 ≤ n) (h2 : n ≤ 255) (s : State) : exec (.runTimeout n) s = .next (runLate n s) :=
  unitOp_of (by simp [wfCtx, h1, h2]) _

theorem faultLogged_runTimedOut {n : Nat} {s : State} (h : (ctxOf s n).state ≠ .free) : FaultLogged n 0x21 s (runTimedOut n s) := by
  have hentered : HasEvent (1, 0x21, n) s.logs (logEvent 1 2 0x21 n 0 0 0 0 s).logs := hasEvent_logAdd _ _
  obtain ⟨hlogs, -⟩ := contextFault_endsWork (s := logEvent 1 2 0x21 n 0 0 0 0 s) h 0x21 0xFFFFFFFF
  exact faultLogged_of_hasEvent (hentered.keep hlogs)

/-- Settles O47: a late run is a context fault by `runLate_late`, any other run goes on by `runLate_inTime`. -/
theorem lateRunFaultsItsContext : Obligations.LateRunFaultsItsContext := by
  unfold Obligations.LateRunFaultsItsContext
  intro n u s h1 h2 hrun hused
  rw [execRunTimeout_eq h1 h2]
  refine ⟨fun hlate => ?_, fun hearly => by rw [runLate_inTime hrun hearly]⟩
  obtain ⟨-, hnorun, hnoprog, hcmds⟩ := contextFault_endsWork (s := logEvent 1 2 0x21 n 0 0 0 0 s) hused 0x21 0xFFFFFFFF
  refine ⟨runTimedOut n s, by rw [runLate_late hrun hlate], faultLogged_runTimedOut hused, hnorun, hnoprog, hcmds, fun hres hd => ?_⟩
  obtain ⟨htorn, -⟩ := contextFault_resident (s := logEvent 1 2 0x21 n 0 0 0 0 s) hres hd 0x21 0xFFFFFFFF
  exact htorn

end Sys2Proof.Machine
end

section
/-! SUPPORT. Proofs of the ring and link statements (chapter 12): a pair that changes, and enables that wait for it. -/

namespace Sys2Proof.Machine
open Claims

/-! ### A pair that changes -/

theorem portOf_dn (s : State) (p : Nat) : portOf s (2 * p) = (pairOf s p).dn := by
  have hp : 2 * p / 2 = p := by omega
  simp [portOf, hp]

theorem portOf_up (s : State) (p : Nat) : portOf s (2 * p + 1) = (pairOf s p).up := by
  have hp : (2 * p + 1) / 2 = p := by omega
  simp [portOf, hp]

theorem portPair_dn (p : Nat) : portPair (2 * p) = p := by unfold portPair; omega

theorem portPair_up (p : Nat) : portPair (2 * p + 1) = p := by unfold portPair; omega

/-- Nothing outside the ring changes, and of the ring this pair takes the value `x`. -/
def OnlyPairBecomes (p : Nat) (x : Pair) (s t : State) : Prop := t = { s with ring := t.ring } ∧ PairBecomes p x s t

theorem pairBecomes_trans {p : Nat} {x y : Pair} {s t u : State} (h : PairBecomes p x s t) (g : PairBecomes p y t u) : PairBecomes p y s u := by
  obtain ⟨ht, -, hq⟩ := h
  obtain ⟨hu, hy, gq⟩ := g
  exact ⟨by rw [hu, ht], hy, fun q hne => (gq q hne).trans (hq q hne)⟩

/-- What a pair becomes is read off the rings alone. -/
theorem pairBecomes_congr {p : Nat} {x : Pair} {s t u v : State} (h : PairBecomes p x s t) (hs : u.ring = s.ring) (ht : v.ring = t.ring) :
    PairBecomes p x u v := by
  obtain ⟨hring, hx, hq⟩ := h
  refine ⟨by rw [hs, ht, hring], (pairOf_congr ht p).trans hx, fun q hne => ?_⟩
  rw [pairOf_congr ht, pairOf_congr hs, hq q hne]

theorem OnlyPairBecomes.trans {p : Nat} {x y : Pair} {s t u : State} (h : OnlyPairBecomes p x s t) (g : OnlyPairBecomes p y t u) :
    OnlyPairBecomes p y s u := ⟨by rw [g.1, h.1], pairBecomes_trans h.2 g.2⟩

theorem OnlyPairBecomes.onlyPairChanges {p : Nat} {x : Pair} {s t : State} (h : OnlyPairBecomes p x s t) : OnlyPairChanges p s t := by
  obtain ⟨hrest, -, -, hne⟩ := h
  exact ⟨hrest, hne⟩

theorem OnlyPairBecomes.pairOf {p : Nat} {x : Pair} {s t : State} (h : OnlyPairBecomes p x s t) : pairOf t p = x := h.2.2.1

theorem onlyPairBecomes_refl (p : Nat) (s : State) : OnlyPairBecomes p (pairOf s p) s s := ⟨rfl, rfl, rfl, fun _ _ => rfl⟩

theorem onlyPairBecomes_updPair {p : Nat} {f : Pair → Pair} {x : Pair} {s : State} (h : f (pairOf s p) = x) : OnlyPairBecomes p x s (updPair p f s) :=
  ⟨rfl, rfl, (pairOf_updPair_self p f s).trans h, fun _ hq => pairOf_updPair_ne hq f s⟩

/-! ### PORT_CONTROL enables that wait (Table 15-3) -/

/-- The checks or the training of a pair are under way, so that an enable of it waits. -/
def Joining (x : Pair) : Prop := x.state = .identifying ∨ x.state = .training

/-- No enable of the pair waits. -/
def noEnables (x : Pair) : Pair := { x with enabling := [] }

theorem noEnables_eq {x : Pair} (h : x.enabling = []) : noEnables x = x := by rw [noEnables, ← h]

theorem endEnables_joining {p : Nat} {s : State} (h : Joining (pairOf s p)) : endEnables p s = s := by
  unfold endEnables
  dsimp only
  rw [if_pos (by simpa [Joining] using h)]

theorem endEnables_settled {p : Nat} {s : State} (h : ¬ Joining (pairOf s p)) : endEnables p s =
    (pairOf s p).enabling.foldl (fun u t => complete t (stSuccess (pairStateCode (pairOf s p).state) 0 0) u) (updPair p noEnables s) := by
  unfold endEnables
  dsimp only
  rw [if_neg (by simpa [Joining] using h)]
  rfl

/-- Where no enable waits, only the pair's own entry is written again. -/
theorem endEnables_none {p : Nat} {s : State} (h : (pairOf s p).enabling = []) : OnlyPairBecomes p (pairOf s p) s (endEnables p s) := by
  by_cases hj : Joining (pairOf s p)
  · rw [endEnables_joining hj]
    exact onlyPairBecomes_refl p s
  · rw [endEnables_settled hj, h]
    exact onlyPairBecomes_updPair (noEnables_eq h)

theorem onlyHostChanges_completes (st : Status) (l : List Nat) (s : State) : OnlyHostChanges s (l.foldl (fun s t => complete t st s) s) := by
  induction l generalizing s with
  | nil => rfl
  | cons t l ih =>
    have hone : complete t st s = { s with host := (complete t st s).host } := complete_onlyHost t st s
    have hrest := ih (complete t st s)
    unfold OnlyHostChanges at hrest ⊢
    rw [List.foldl_cons, hrest, hone]

/-- Beyond the pair's list of enables, only commands end. -/
theorem endEnables_settles {p : Nat} {s : State} (h : ¬ Joining (pairOf s p)) :
    ∃ host, endEnables p s = { updPair p noEnables s with host := host } ∧ pairOf (endEnables p s) p = noEnables (pairOf s p) := by
  have hends : endEnables p s = { updPair p noEnables s with host := (endEnables p s).host } := by
    rw [endEnables_settled h]
    exact onlyHostChanges_completes _ _ _
  have hring : (endEnables p s).ring = (updPair p noEnables s).ring := by rw [hends]
  exact ⟨_, hends, (pairOf_congr hring p).trans (pairOf_updPair_self p noEnables s)⟩

/-- A pair changes, and no enable waited for it. -/
theorem endEnables_updPair {p : Nat} {f : Pair → Pair} {x : Pair} {s : State} (hx : f (pairOf s p) = x) (h : x.enabling = []) :
    OnlyPairBecomes p x s (endEnables p (updPair p f s)) := by
  have hpair : pairOf (updPair p f s) p = x := (pairOf_updPair_self p f s).trans hx
  have hend := endEnables_none (p := p) (s := updPair p f s) (by rw [hpair, h])
  rw [hpair] at hend
  exact (onlyPairBecomes_updPair hx).trans hend

end Sys2Proof.Machine
end

section
/-! SUPPORT. Proofs of the ring and link statements (chapter 12): PORT_CONTROL and the RING feature (O54). -/

namespace Sys2Proof.Machine
open Claims

/-! ### A pair that is disabled (R365, R349) -/

/-- Without an import the fills that a disabled pair stops are none. -/
theorem stopImports_none {s : State} (h : s.ring.imports = []) (p : Nat) : ∃ l, stopImports p s = { s with inFlight := l } := by
  refine ⟨(stopImports p s).inFlight, ?_⟩
  have hring : ({ s.ring with imports := [] } : Ring) = s.ring := by rw [← h]
  simp [stopImports, h, pruneFlight, hring]

/-- A pair of which no new transfer may make use. -/
def disabled (x : Pair) : Pair := { x with enable := false }

/-- The pair drains for the command of this tag, or for the RING feature as tag 0. -/
def drainingFor (tag : Nat) (x : Pair) : Pair := { x with draining := some tag, drained := false }

/-- A pair whose easel is CLOSED is DOWN at once, but for a FAULT, which stays (R349). -/
def putDown (x : Pair) : Pair :=
  { x with refuse := 0, reading := false, recheck := false, state := if x.state = .fault then .fault else .down }

/-- The import fills that a pair without imports stops are none. -/
theorem stopImports_disabled {s : State} (h : s.ring.imports = []) (p : Nat) : ∃ l, stopImports p (updPair p disabled s) =
    { updPair p disabled s with inFlight := l } ∧ PairBecomes p (disabled (pairOf s p)) s { updPair p disabled s with inFlight := l } := by
  obtain ⟨l, hl⟩ := stopImports_none (s := updPair p disabled s) h p
  exact ⟨l, hl, (onlyPairBecomes_updPair (f := disabled) rfl).2⟩

theorem disablePair_drains {p : Nat} {s : State} (himp : s.ring.imports = []) (he : (pairOf s p).easel ≠ .closed) (tag : Nat) :
    ∃ l r, disablePair p tag s = { s with inFlight := l, ring := r } ∧
      PairBecomes p (drainingFor tag (disabled (pairOf s p))) s (disablePair p tag s) := by
  obtain ⟨l, hl, hoff⟩ := stopImports_disabled himp p
  set u : State := { updPair p disabled s with inFlight := l }
  have heq : disablePair p tag s = updPair p (drainingFor tag) u := by
    rw [← hl]
    exact if_neg he
  rw [heq]
  exact ⟨l, _, rfl, pairBecomes_trans hoff (onlyPairBecomes_updPair (f := drainingFor tag) (by rw [hoff.2.1])).2⟩

theorem disablePair_closed {p tag : Nat} {s : State} (himp : s.ring.imports = []) (he : (pairOf s p).easel = .closed)
    (hn : (pairOf s p).enabling = []) (htag : tag ≠ 0) : ∃ l r, disablePair p tag s = complete tag (stSuccess 0 0 0) { s with inFlight := l, ring := r } ∧
      PairBecomes p (putDown (disabled (pairOf s p))) s { s with inFlight := l, ring := r } := by
  obtain ⟨l, hl, hoff⟩ := stopImports_disabled himp p
  set u : State := { updPair p disabled s with inFlight := l }
  obtain ⟨hrest, hdown⟩ := endEnables_updPair (f := putDown) (s := u) (congrArg putDown hoff.2.1) hn
  have heq : disablePair p tag s = complete tag (stSuccess 0 0 0) (endEnables p (updPair p putDown u)) := by
    rw [← hl]
    exact (if_pos he).trans (if_neg htag)
  refine ⟨l, (endEnables p (updPair p putDown u)).ring, ?_, pairBecomes_congr (pairBecomes_trans hoff hdown) rfl rfl⟩
  rw [heq, hrest]
  rfl

theorem execPortControlDisable_eq {tag : Nat} {c : Cmd} {s : State} (h : AtUnit s 0x0A tag c) (hact : pktField c.pkt 9 1 = 0)
    (hd : (pairOf s (pairOfCmd c)).draining = none) :
    exec (.portControlDisable tag) s = .next (disablePair (pairOfCmd c) c.tag (keepRunning c 0 s)) := by
  have hcmd : portDisableCmd c s = disablePair (pairOfCmd c) c.tag (keepRunning c 0 s) := if_neg (by simp [hd])
  change unitOp true (onCmd 0x0A tag (fun p => pktField p 9 1 = 0) portDisableCmd s) = _
  rw [onCmd_atUnit h (by simpa using hact), hcmd, unitOp_ok]

/-- The completion of a command that its unit kept running meanwhile. -/
theorem commandCompletes_kept {s w : State} {c : Cmd} {left : Nat} (h : cmdOf s c.tag = some c) (hh : w.host = (keepRunning c left s).host)
    (hf : w.frame = s.frame) (st : Status) : CommandCompletes c st s (complete c.tag st w) :=
  commandCompletes_own (f := fun d => { d with phase := .running, left := left }) h (fun _ => rfl) rfl hh hf st

section Disable

variable {tag p : Nat} {c : Cmd} {s : State} (h : AtUnit s 0x0A tag c) (hact : pktField c.pkt 9 1 = 0) (hp : p = pairOfCmd c)
  (hd : (pairOf s p).draining = none) (himp : s.ring.imports = [])
include h hact hp hd himp

theorem portDisable_drains (he : (pairOf s p).easel ≠ .closed) : ∃ t, exec (.portControlDisable tag) s = .next t ∧ StaysRunning c 0 s t ∧
    t = { s with host := t.host, ring := t.ring, inFlight := t.inFlight } ∧ PairBecomes p (drainingFor tag (disabled (pairOf s p))) s t := by
  subst hp
  obtain ⟨-, -, htag⟩ := cmdOf_of_atUnit h
  obtain ⟨l, r, hrest, hpair⟩ := disablePair_drains (s := keepRunning c 0 s) himp he c.tag
  refine ⟨_, execPortControlDisable_eq h hact hd, ?_, ?_, ?_⟩
  · rw [StaysRunning, hrest]
    rfl
  · rw [hrest]
    rfl
  · rw [← htag]
    exact pairBecomes_congr hpair rfl rfl

theorem portDisable_closed (ht : tag ≠ 0) (he : (pairOf s p).easel = .closed) (hn : (pairOf s p).enabling = []) :
    ∃ t, exec (.portControlDisable tag) s = .next t ∧ CommandCompletes c (stSuccess 0 0 0) s t ∧
      t = { s with host := t.host, ring := t.ring, inFlight := t.inFlight } ∧ PairBecomes p (putDown (disabled (pairOf s p))) s t := by
  subst hp
  obtain ⟨hc, -, htag⟩ := cmdOf_of_atUnit h
  obtain ⟨l, r, heq, hpair⟩ := disablePair_closed (tag := c.tag) (s := keepRunning c 0 s) himp he hn (by rw [htag]; exact ht)
  have hrest := complete_onlyHost c.tag (stSuccess 0 0 0) { keepRunning c 0 s with inFlight := l, ring := r }
  refine ⟨_, execPortControlDisable_eq h hact hd, ?_, ?_, ?_⟩
  · rw [heq]
    exact commandCompletes_kept (w := { keepRunning c 0 s with inFlight := l, ring := r }) hc rfl rfl _
  · rw [heq, hrest]
    rfl
  · rw [heq, hrest]
    exact pairBecomes_congr hpair rfl rfl

end Disable

/-! ### A pair that is enabled (R365) -/

/-- An enabled pair: the checks start unless it is in the ring or on its way there; a command of tag 0 does not wait for them. -/
def enabledBy (tag : Nat) (x : Pair) : Pair :=
  { x with
    enable := true
    state := if x.state = .down ∨ x.state = .refused ∨ x.state = .fault then .identifying else x.state
    enabling := if tag = 0 then x.enabling else x.enabling ++ [tag]
    faultMs := if x.state = .fault then [] else x.faultMs }

theorem enablePair_eq (p tag : Nat) (s : State) : enablePair p tag s = endEnables p (updPair p (enabledBy tag) s) := by
  have hf : enabledBy tag = fun x => { x with
      enable := true
      faultMs := if x.state = .fault then [] else x.faultMs
      state := if x.state = .down || x.state = .refused || x.state = .fault then .identifying else x.state
      enabling := if tag = 0 then x.enabling else x.enabling ++ [tag] } := by
    funext x
    simp [enabledBy, or_assoc]
  rw [hf]
  rfl

theorem execPortControlEnable_eq {tag : Nat} {c : Cmd} {s : State} (h : AtUnit s 0x0A tag c) (hact : pktField c.pkt 9 1 = 1)
    (hd : (pairOf s (pairOfCmd c)).draining = none) :
    exec (.portControlEnable tag) s = .next (enablePair (pairOfCmd c) c.tag (keepRunning c 0 s)) := by
  have hcmd : portEnableCmd c s = enablePair (pairOfCmd c) c.tag (keepRunning c 0 s) := if_neg (by simp [hd])
  change unitOp true (onCmd 0x0A tag (fun p => pktField p 9 1 = 1) portEnableCmd s) = _
  rw [onCmd_atUnit h (by simpa using hact), hcmd, unitOp_ok]

section Enable

variable {tag p : Nat} {c : Cmd} {s : State} (h : AtUnit s 0x0A tag c) (ht : tag ≠ 0) (hact : pktField c.pkt 9 1 = 1) (hp : p = pairOfCmd c)
  (hd : (pairOf s p).draining = none)
include h ht hact hp hd

theorem portEnable_checks (hout : (pairOf s p).state = .down ∨ (pairOf s p).state = .refused ∨ (pairOf s p).state = .fault) :
    ∃ t, exec (.portControlEnable tag) s = .next t ∧ StaysRunning c 0 s t ∧ t = { s with host := t.host, ring := t.ring } ∧
      PairBecomes p { pairOf s p with
        enable := true, state := .identifying, enabling := (pairOf s p).enabling ++ [tag]
        faultMs := if (pairOf s p).state = .fault then [] else (pairOf s p).faultMs } s t := by
  subst hp
  obtain ⟨-, -, htag⟩ := cmdOf_of_atUnit h
  have hpair : pairOf (updPair (pairOfCmd c) (enabledBy tag) (keepRunning c 0 s)) (pairOfCmd c) = enabledBy tag (pairOf s (pairOfCmd c)) :=
    pairOf_updPair_self _ _ _
  have hwait : enablePair (pairOfCmd c) c.tag (keepRunning c 0 s) = updPair (pairOfCmd c) (enabledBy tag) (keepRunning c 0 s) := by
    rw [enablePair_eq, htag]
    exact endEnables_joining (.inl (by rw [hpair]; exact if_pos hout))
  refine ⟨updPair (pairOfCmd c) (enabledBy tag) (keepRunning c 0 s), by rw [execPortControlEnable_eq h hact hd, hwait], rfl, rfl, ?_⟩
  refine (onlyPairBecomes_updPair (s := keepRunning c 0 s) ?_).2
  change enabledBy tag (pairOf s (pairOfCmd c)) = _
  rw [enabledBy, if_pos hout, if_neg ht]

theorem portEnable_up (hup : (pairOf s p).state = .up) (hn : (pairOf s p).enabling = []) :
    ∃ t, exec (.portControlEnable tag) s = .next t ∧ CommandCompletes c (stSuccess 3 0 0) s t ∧ t = { s with host := t.host, ring := t.ring } ∧
      PairBecomes p { pairOf s p with enable := true } s t := by
  subst hp
  obtain ⟨hc, -, htag⟩ := cmdOf_of_atUnit h
  have henabled : enabledBy tag (pairOf s (pairOfCmd c)) = { pairOf s (pairOfCmd c) with enable := true, enabling := [tag] } := by
    simp [enabledBy, hup, hn, ht]
  set u := updPair (pairOfCmd c) (enabledBy tag) (keepRunning c 0 s)
  have hpair : pairOf u (pairOfCmd c) = { pairOf s (pairOfCmd c) with enable := true, enabling := [tag] } :=
    (pairOf_updPair_self _ _ _).trans henabled
  set w := updPair (pairOfCmd c) noEnables u
  have hend : enablePair (pairOfCmd c) c.tag (keepRunning c 0 s) = complete c.tag (stSuccess 3 0 0) w := by
    rw [enablePair_eq, htag]
    refine (endEnables_settled (s := u) (by simp [hpair, Joining, hup])).trans ?_
    rw [hpair]
    exact congrArg (fun x => complete tag (stSuccess (pairStateCode x) 0 0) w) hup
  have hw : OnlyPairBecomes (pairOfCmd c) { pairOf s (pairOfCmd c) with enable := true } (keepRunning c 0 s) w :=
    (onlyPairBecomes_updPair (s := keepRunning c 0 s) henabled).trans (onlyPairBecomes_updPair (s := u) (by rw [hpair, noEnables, ← hn]))
  have hrest := complete_onlyHost c.tag (stSuccess 3 0 0) w
  refine ⟨_, by rw [execPortControlEnable_eq h hact hd, hend], commandCompletes_kept (w := w) (left := 0) hc rfl rfl _, ?_, ?_⟩
  · rw [hrest]
    rfl
  · rw [hrest]
    exact pairBecomes_congr hw.2 rfl rfl

end Enable

end Sys2Proof.Machine
end

section
/-! SUPPORT. Proofs of the ring and link statements (chapter 12): an easel that closes. -/

namespace Sys2Proof.Machine
open Claims

/-! ### Ports that are down send nothing (R357) -/

theorem sendRing_down {m : RingMsg} {s : State} (h : (portOf s (sidePort m.pair m.dn)).up = false) : sendRing m s = s := if_neg (by simp [h])

theorem sendDiscover_down {p : Nat} {s : State} (hdn : (pairOf s p).dn.up = false) (hup : (pairOf s p).up.up = false) : sendDiscover p s = s := by
  have hfirst : discoverBy p true s.uid (pairOf s p).masterPri s = s := sendRing_down ((congrArg Port.up (portOf_dn s p)).trans hdn)
  have hsecond : discoverBy p false s.uid (pairOf s p).masterPri s = s := sendRing_down ((congrArg Port.up (portOf_up s p)).trans hup)
  unfold sendDiscover
  rw [hfirst, hsecond]

/-! ### An easel that closes (R349) -/

/-- A pair whose easel has closed is off its ring. -/
def offRing (x : Pair) : Pair :=
  { x with members := [], line := [], position := 0, masterUid := 0, oversize := false, closed := false, memberList := false }

/-- A context whose streams over a ring are broken (R362). -/
def streamsLost (p : Nat) (c : Context) : Context :=
  { c with
    linked := c.linked.filter (fun i => !((c.prog.bind (fun g => g.streams[i]?)).any (fun e => e.ring = p && true)))
    joined := c.joined.filter (fun i => !((c.prog.bind (fun g => g.streams[i]?)).any (fun e => e.ring = p && true))) }

/-- The ring of a pair is a line once one of its links is lost, and its members are to be found again. -/
def leftUp (s : State) (p : Nat) (x : Pair) : Pair :=
  { x with line := if x.closed then cutLine s p (!x.dn.up) else x.line, closed := false, memberList := false }

/-- The state in which the ring of a pair is a line, its streams broken, before the DISCOVER that follows. -/
def lineLeft (p : Nat) (s : State) : State := { updPair p (leftUp s p) s with ctxs := mapVals (streamsLost p) s.ctxs }

theorem lineLeft_eq (p : Nat) (s : State) : lineLeft p s = { s with ring := (lineLeft p s).ring, ctxs := mapVals (streamsLost p) s.ctxs } := rfl

theorem pairBecomes_lineLeft (p : Nat) (s : State) : PairBecomes p (leftUp s p (pairOf s p)) s (lineLeft p s) :=
  (onlyPairBecomes_updPair (f := leftUp s p) rfl).2

theorem pairOf_lineLeft (p : Nat) (s : State) : pairOf (lineLeft p s) p = leftUp s p (pairOf s p) := pairOf_updPair_self p _ s

theorem leaveUp_eq (p : Nat) (s : State) : leaveUp p s = sendDiscover p (lineLeft p s) := rfl

theorem leaveUp_down {p : Nat} {s : State} (hdn : (pairOf s p).dn.up = false) (hup : (pairOf s p).up.up = false) : leaveUp p s = lineLeft p s := by
  rw [leaveUp_eq]
  exact sendDiscover_down (by rw [pairOf_lineLeft]; exact hdn) (by rw [pairOf_lineLeft]; exact hup)

/-- A pair whose ports are down leaves its ring: its streams and the choice of the tick source change with it. -/
theorem leaveRing_down {p : Nat} {s : State} (hdn : (pairOf s p).dn.up = false) (hup : (pairOf s p).up.up = false) (ht : s.red.tags = []) :
    ∃ c f r, leaveRing p s = { s with ctxs := c, frame := f, ring := r } ∧ PairBecomes p (offRing (pairOf s p)) s (leaveRing p s) := by
  set w : State := { s with ring := (lineLeft p s).ring, ctxs := mapVals (streamsLost p) s.ctxs }
  set v : State := updPair p (fun x => { x with members := [], line := [], position := 0, masterUid := 0, oversize := false }) w
  set z : State := { v with frame := { v.frame with masterRings := v.frame.masterRings &&& ~~~((1 : BitVec 16) <<< p) } }
  have hw : PairBecomes p (leftUp s p (pairOf s p)) s w := pairBecomes_lineLeft p s
  have hv : PairBecomes p (offRing (pairOf s p)) s v := pairBecomes_trans hw (onlyPairBecomes_updPair (by rw [hw.2.1]; rfl)).2
  obtain ⟨hsource, -⟩ := chooseSource_onlyFrame z
  have heq : leaveRing p s = chooseSource z := by
    have hlose : leaveRing p s = losePeers p (chooseSource z) := by
      unfold leaveRing
      rw [leaveUp_down hdn hup, lineLeft_eq]
    rw [hlose]
    exact losePeers_noTags (by rw [hsource]; exact ht) p
  rw [heq, hsource]
  exact ⟨_, _, _, rfl, pairBecomes_congr hv rfl rfl⟩

/-- The easel of a pair closes: its ports are down, and it is off its ring. -/
theorem closeEasel_becomes {p : Nat} {s : State} (st : PairState) (ht : s.red.tags = []) :
    ∃ c f r, closeEasel p st s = { s with ctxs := c, frame := f, ring := r } ∧
      PairBecomes p (offRing (closePair st (pairOf s p))) s (closeEasel p st s) := by
  have hclose : PairBecomes p (closePair st (pairOf s p)) s (updPair p (closePair st) s) := (onlyPairBecomes_updPair rfl).2
  have hpair := hclose.2.1
  obtain ⟨c, f, r, heq, hleft⟩ := leaveRing_down (p := p) (s := updPair p (closePair st) s) (by rw [hpair]; rfl) (by rw [hpair]; rfl) ht
  rw [hpair] at hleft
  exact ⟨c, f, r, heq, pairBecomes_trans hclose hleft⟩

end Sys2Proof.Machine
end

section
/-! SUPPORT. Proofs of the ring and link statements (chapter 12): the end of a drain, the RING feature, and O54. -/

namespace Sys2Proof.Machine
open Claims

/-! ### The end of a drain (R365) -/

theorem execPortDrainEnd_eq {p : Nat} (h : p < 16) (s : State) : exec (.portDrainEnd p) s = .next (drainEnd p s) :=
  unitOp_of (by simpa [wfPair] using h) _

theorem portDrainEnd_closes {p tag : Nat} {s : State} (hp : p < 16) (hd : (pairOf s p).draining = some tag) (hno : (pairOf s p).drained = false)
    (ht : s.red.tags = []) :
    ∃ t, exec (.portDrainEnd p) s = .next t ∧ t.host = s.host ∧ t.objs = s.objs ∧ (pairOf t p).drained = true ∧ (pairOf t p).draining = some tag ∧
      (pairOf t p).state = (if (pairOf s p).state = .fault then .fault else .down) ∧ (pairOf t p).dn.up = false ∧ (pairOf t p).up.up = false ∧
      (pairOf t p).easel = (if (pairOf s p).easel = .closed then .closed else .closing) := by
  set st : PairState := if (pairOf s p).state = .fault then .fault else .down
  obtain ⟨c, f, r, heq, -, hpair, -⟩ := closeEasel_becomes (p := p) (s := cancelPair p s) st ht
  have hend : drainEnd p s = updPair p (fun x => { x with drained := true }) (closeEasel p st (cancelPair p s)) := if_pos (by simp [hd, hno])
  refine ⟨_, by rw [execPortDrainEnd_eq hp, hend], ?_⟩
  rw [pairOf_updPair_self, hpair, updPair_host, updPair_objs, heq]
  exact ⟨rfl, rfl, rfl, hd, rfl, rfl, rfl, rfl⟩

/-- A pair whose easel has reached CLOSED is drained, and checked again where its presence has changed meanwhile. -/
def easelClosedOf (x : Pair) : Pair :=
  { x with easel := .closed, state := closedState x, recheck := false, draining := none, drained := false }

theorem execEaselClosed_eq {p : Nat} (h : p < 16) (s : State) : exec (.easelClosed p) s = .next (easelShut p s) :=
  unitOp_of (by simpa [wfPair] using h) _

/-- The tickets of a pair whose drain has not ended are CANCELLED; those of any other pair are let alone. -/
def drainCut (p : Nat) (s : State) : State :=
  if (pairOf s p).draining.isSome && !(pairOf s p).drained then cancelPair p s else s

theorem drainCut_eq (p : Nat) (s : State) : ∃ c, drainCut p s = { s with ctxs := c } := by
  unfold drainCut
  split
  · exact ⟨_, rfl⟩
  · exact ⟨s.ctxs, rfl⟩

/-- The completion of the PORT_CONTROL that has disabled a pair waits for its easel. -/
theorem easelShut_drained {p tag : Nat} {s : State} (he : (pairOf s p).easel = .closing) (hd : (pairOf s p).draining = some tag) (ht : tag ≠ 0) :
    easelShut p s = complete tag (stSuccess (pairStateCode (closedState (pairOf s p))) 0 0) (endEnables p (updPair p easelClosedOf (drainCut p s))) := by
  unfold easelShut
  dsimp only
  rw [if_pos he, hd]
  dsimp only
  rw [if_pos (by simpa using ht)]
  unfold drainCut
  rw [hd]
  rfl

theorem easelShut_alone {p : Nat} {s : State} (he : (pairOf s p).easel = .closing) (hd : (pairOf s p).draining = none) :
    easelShut p s = endEnables p (updPair p easelClosedOf s) := by
  unfold easelShut
  dsimp only
  rw [if_pos he, hd]
  rfl

theorem easelClosed_completes {p tag : Nat} {c : Cmd} {s : State} (hp : p < 16) (he : (pairOf s p).easel = .closing)
    (hd : (pairOf s p).draining = some tag) (hn : (pairOf s p).enabling = []) (ht : tag ≠ 0) (hc : cmdOf s tag = some c) :
    ∃ t, exec (.easelClosed p) s = .next t ∧ CommandCompletes c (stSuccess (pairStateCode (closedState (pairOf s p))) 0 0) s t ∧
      PairBecomes p (easelClosedOf (pairOf s p)) s t ∧ ((pairOf s p).drained = true → t = { s with host := t.host, ring := t.ring }) := by
  have htag := tag_of_cmdOf hc
  obtain ⟨l, hcut⟩ := drainCut_eq p s
  obtain ⟨hw, hpair⟩ := endEnables_updPair (p := p) (f := easelClosedOf) (x := easelClosedOf (pairOf s p)) (s := drainCut p s) (by rw [hcut]; rfl) hn
  set w := endEnables p (updPair p easelClosedOf (drainCut p s))
  set st := stSuccess (pairStateCode (closedState (pairOf s p))) 0 0
  have hrest : complete tag st w = { w with host := (complete tag st w).host } := complete_onlyHost tag st w
  refine ⟨_, by rw [execEaselClosed_eq hp, easelShut_drained he hd ht], ?_, ?_, fun hdone => ?_⟩
  · rw [← htag]
    exact commandCompletes_after (w := w) (htag ▸ hc) rfl (by rw [hw, hcut]) (by rw [hw, hcut]) st
  · exact pairBecomes_congr hpair (by rw [hcut]) (by rw [hrest])
  · have hno : drainCut p s = s := if_neg (by simp [hdone])
    rw [hrest, hw, hno]

/-! ### The RING feature (R366) -/

/-- The feature gives the pair its priority as frame master. -/
def withPriority (pri : Nat) (x : Pair) : Pair := { x with masterPri := pri }

/-- The state in which the RING feature of a command has set MASTER_PRI. -/
def prioritySet (c : Cmd) (s : State) : State := updPair (pktField c.pkt 10 2) (withPriority (bitsOf (featDw c.pkt 0) 5 2)) s

theorem execSetFeatureRing_eq {tag : Nat} {c : Cmd} {s : State} (h : AtUnit s 0x03 tag c) (hf : pktField c.pkt 8 1 = 0x14)
    (hd : (pairOf s (pktField c.pkt 10 2)).draining = none) :
    exec (.setFeatureRing tag) s = .next (complete c.tag (stSuccess 0 0 0)
      (if bitOf (featDw c.pkt 0) 0 then enablePair (pktField c.pkt 10 2) 0 (prioritySet c s) else disablePair (pktField c.pkt 10 2) 0 (prioritySet c s))) := by
  have hcmd : setRingCmd c s = complete c.tag (stSuccess 0 0 0) (if bitOf (featDw c.pkt 0) 0 then enablePair (pktField c.pkt 10 2) 0 (prioritySet c s)
      else disablePair (pktField c.pkt 10 2) 0 (prioritySet c s)) := if_neg (by simp [hd])
  exact (execSetFeature_eq h hf setRingCmd).trans (congrArg Host.Outcome.next hcmd)

section Feature

variable {tag p : Nat} {c : Cmd} {s : State} (h : AtUnit s 0x03 tag c) (hf : pktField c.pkt 8 1 = 0x14) (hp : p = pktField c.pkt 10 2)
  (hd : (pairOf s p).draining = none)
include h hf hp hd

theorem setFeatureRing_enables (hn : (pairOf s p).enabling = []) (hbit : bitOf (featDw c.pkt 0) 0 = true) :
    ∃ t, exec (.setFeatureRing tag) s = .next t ∧ CommandCompletes c (stSuccess 0 0 0) s t ∧ t = { s with host := t.host, ring := t.ring } ∧
      PairBecomes p (enabledBy 0 (withPriority (bitsOf (featDw c.pkt 0) 5 2) (pairOf s p))) s t := by
  subst hp
  obtain ⟨hc, -, -⟩ := cmdOf_of_atUnit h
  set p := pktField c.pkt 10 2
  set pri := bitsOf (featDw c.pkt 0) 5 2
  have hset : OnlyPairBecomes p (withPriority pri (pairOf s p)) s (prioritySet c s) := onlyPairBecomes_updPair rfl
  obtain ⟨hw, hpair⟩ := hset.trans (endEnables_updPair (f := enabledBy 0) (congrArg (enabledBy 0) hset.pairOf) hn)
  rw [← enablePair_eq] at hw hpair
  set w := enablePair p 0 (prioritySet c s)
  have hrest : complete c.tag (stSuccess 0 0 0) w = { w with host := (complete c.tag (stSuccess 0 0 0) w).host } := complete_onlyHost ..
  refine ⟨_, by rw [execSetFeatureRing_eq h hf hd, if_pos hbit], ?_, ?_, ?_⟩
  · exact commandCompletes_after (w := w) hc rfl (by rw [hw]) (by rw [hw]) _
  · rw [hrest, hw]
  · exact pairBecomes_congr hpair rfl (by rw [hrest])

theorem setFeatureRing_disables (hbit : bitOf (featDw c.pkt 0) 0 = false) (himp : s.ring.imports = []) (he : (pairOf s p).easel ≠ .closed) :
    ∃ t, exec (.setFeatureRing tag) s = .next t ∧ CommandCompletes c (stSuccess 0 0 0) s t ∧
      t = { s with host := t.host, ring := t.ring, inFlight := t.inFlight } ∧
      PairBecomes p (drainingFor 0 (disabled (withPriority (bitsOf (featDw c.pkt 0) 5 2) (pairOf s p)))) s t := by
  subst hp
  obtain ⟨hc, -, -⟩ := cmdOf_of_atUnit h
  set p := pktField c.pkt 10 2
  set pri := bitsOf (featDw c.pkt 0) 5 2
  have hset : OnlyPairBecomes p (withPriority pri (pairOf s p)) s (prioritySet c s) := onlyPairBecomes_updPair rfl
  obtain ⟨l, r, hw, hpair⟩ := disablePair_drains (p := p) (s := prioritySet c s) himp (by rw [hset.pairOf]; exact he) 0
  rw [hset.pairOf] at hpair
  set w := disablePair p 0 (prioritySet c s)
  have hrest : complete c.tag (stSuccess 0 0 0) w = { w with host := (complete c.tag (stSuccess 0 0 0) w).host } := complete_onlyHost ..
  refine ⟨_, by rw [execSetFeatureRing_eq h hf hd, if_neg (by simp [hbit])], ?_, ?_, ?_⟩
  · exact commandCompletes_after (w := w) hc rfl (by rw [hw]; rfl) (by rw [hw]; rfl) _
  · rw [hrest, hw]
    rfl
  · exact pairBecomes_congr (pairBecomes_trans hset.2 hpair) rfl (by rw [hrest])

end Feature

/-- Settles O54, clause by clause: PORT_CONTROL disable, the end of its drain, its easel CLOSED, PORT_CONTROL enable and the RING feature. -/
theorem portControl : Obligations.PortControl := by
  unfold Obligations.PortControl
  refine ⟨fun tag p c s h ht hact hp hd himp => ⟨portDisable_drains h hact hp hd himp, portDisable_closed h hact hp hd himp ht⟩,
    fun p tag s hp hd hno ht => portDrainEnd_closes hp hd hno ht, fun p tag c s hp he hd hn ht hc => easelClosed_completes hp he hd hn ht hc,
    fun tag p c s h ht hact hp hd => ⟨portEnable_checks h ht hact hp hd, portEnable_up h ht hact hp hd⟩,
    fun tag p c s h hf hp hd hn => ⟨setFeatureRing_enables h hf hp hd hn, setFeatureRing_disables h hf hp hd⟩⟩

end Sys2Proof.Machine
end

section
/-! SUPPORT. Proofs of the ring and link statements (chapter 12): identity checks and the easel (O51). -/

namespace Sys2Proof.Machine
open Claims

/-! ### A connector whose presence changes (R348) -/

/-- The fitted pairs of a list have their chains read again, each once. -/
theorem foldl_readAgain {l : List Nat} (hl : l.Nodup) {s : State} (h1 : s.power.d1 = true) :
    ∃ t, l.foldl (fun s p => if fitted s p && s.power.d1 then readAgain p s else s) s = t ∧
      t = { s with ring := { s.ring with pairs := t.ring.pairs } } ∧
      ∀ q, pairOf t q = if q ∈ l ∧ q < portPairs s then chainsReadAgain (pairOf s q) else pairOf s q := by
  induction l generalizing s with
  | nil => exact ⟨s, rfl, rfl, by simp⟩
  | cons p l ih =>
    obtain ⟨hp, hl⟩ := List.nodup_cons.mp hl
    set u := if fitted s p && s.power.d1 then readAgain p s else s with hu
    have hrest : u = { s with ring := { s.ring with pairs := u.ring.pairs } } := by
      rw [hu]
      split <;> rfl
    have hpair (q : Nat) : pairOf u q = if q = p ∧ q < portPairs s then chainsReadAgain (pairOf s q) else pairOf s q := by
      by_cases hfit : p < portPairs s
      · have hread : u = updPair p chainsReadAgain s := if_pos (by simp [fitted, hfit, h1])
        by_cases hq : q = p
        · simp [hread, hq, hfit]
        · simp [hread, hq]
      · have hkeep : u = s := if_neg (by simp [fitted, hfit])
        have hno : ¬ (q = p ∧ q < portPairs s) := fun h => hfit (h.1 ▸ h.2)
        rw [hkeep, if_neg hno]
    obtain ⟨t, ht, hrest', hpair'⟩ := ih hl (s := u) (by rw [hrest]; exact h1)
    have hpairs : portPairs u = portPairs s := by rw [hrest]; rfl
    refine ⟨t, ht, by rw [hrest', hrest], fun q => ?_⟩
    rw [hpair', hpair, hpairs]
    by_cases hq : q = p
    · simp [hq, hp]
    · simp [hq]

theorem connectorPairs_nodup (k : Nat) : ((List.range 4).map (fun i => 4 * k + i)).Nodup := by
  refine List.nodup_range.map fun a b h => ?_
  omega

theorem mem_connectorPairs (p k : Nat) : p ∈ (List.range 4).map (fun i => 4 * k + i) ↔ p / 4 = k := by
  rw [List.mem_map]
  constructor
  · rintro ⟨i, hi, rfl⟩
    have hlt : i < 4 := List.mem_range.mp hi
    omega
  · intro h
    exact ⟨p % 4, List.mem_range.mpr (by omega), by omega⟩

theorem connectorPresenceChange_reads {j : Nat} {s : State} (hj : j < 8) (h1 : s.power.d1 = true) :
    ∃ t, exec (.connectorPresenceChange j) s = .next t ∧ t = { s with ring := { s.ring with pairs := t.ring.pairs } } ∧
      ∀ p, pairOf t p = if p / 4 = j / 2 ∧ p < portPairs s then chainsReadAgain (pairOf s p) else pairOf s p := by
  obtain ⟨t, ht, hrest, hpair⟩ := foldl_readAgain (connectorPairs_nodup (j / 2)) h1
  refine ⟨t, (unitOp_of (by simpa using hj) _).trans (congrArg Host.Outcome.next ht), hrest, fun p => ?_⟩
  rw [hpair]
  simp only [mem_connectorPairs]

/-! ### Identity checks and the easel (R347, R348, R351) -/

section Pair

variable {p : Nat} {s : State} (hp : p < 16)
include hp

theorem identityRetry_reads (hstate : (pairOf s p).state = .refused) (he : (pairOf s p).easel = .closed) :
    ∃ t, exec (.identityRetry p) s = .next t ∧ OnlyPairBecomes p { pairOf s p with state := .identifying } s t := by
  have heq : retryPair p s = updPair p (fun x => { x with state := .identifying }) s := if_pos (by simp [hstate, he])
  exact ⟨_, (unitOp_of (by simpa [wfPair] using hp) _).trans (congrArg Host.Outcome.next heq), onlyPairBecomes_updPair rfl⟩

/-- A pair whose easel the checks have released. -/
def checksPassed (x : Pair) : Pair := { x with easel := .opening, state := .training, refuse := 0 }

/-- A pair that its checks refuse, with the cause (Table 12-3). -/
def checksFailed (cause : Nat) (x : Pair) : Pair := { x with state := .refused, refuse := cause }

theorem execIdentityCheckComplete_eq {dn up : List IdRecord} (hfit : p < portPairs s) (hs : starting s = false) (hi : (pairOf s p).state = .identifying) :
    exec (.identityCheckComplete p dn up) s = .next (if checkCause s p dn up = 0 then updPair p checksPassed s
      else endEnables p (updPair p (checksFailed (checkCause s p dn up)) s)) := by
  have hdone : identityDone p dn up s = if checkCause s p dn up = 0 then updPair p checksPassed s
      else endEnables p (updPair p (checksFailed (checkCause s p dn up)) s) := by
    unfold identityDone
    dsimp only
    rw [if_neg (by simp [fitted, hfit, hs]), if_pos hi]
    rfl
  exact (unitOp_of (by simpa [wfPair] using hp) _).trans (congrArg Host.Outcome.next hdone)

theorem identityCheck_passes {dn up : List IdRecord} (hfit : p < portPairs s) (hs : starting s = false) (hi : (pairOf s p).state = .identifying)
    (hc : checkCause s p dn up = 0) :
    ∃ t, exec (.identityCheckComplete p dn up) s = .next t ∧ OnlyPairBecomes p (checksPassed (pairOf s p)) s t :=
  ⟨_, by rw [execIdentityCheckComplete_eq hp hfit hs hi, if_pos hc], onlyPairBecomes_updPair rfl⟩

theorem identityCheck_fails {dn up : List IdRecord} (hfit : p < portPairs s) (hs : starting s = false) (hi : (pairOf s p).state = .identifying)
    (hc : checkCause s p dn up ≠ 0) (hn : (pairOf s p).enabling = []) :
    ∃ t, exec (.identityCheckComplete p dn up) s = .next t ∧ OnlyPairBecomes p (checksFailed (checkCause s p dn up) (pairOf s p)) s t :=
  ⟨_, by rw [execIdentityCheckComplete_eq hp hfit hs hi, if_neg hc], endEnables_updPair rfl hn⟩

theorem easelOpen_opens (he : (pairOf s p).easel = .opening) :
    ∃ t, exec (.easelOpen p) s = .next t ∧ OnlyPairBecomes p { pairOf s p with easel := .opened } s t :=
  ⟨_, (unitOp_of (by simpa [wfPair] using hp) _).trans (congrArg Host.Outcome.next (if_pos he)), onlyPairBecomes_updPair rfl⟩

theorem easelClosed_closes (he : (pairOf s p).easel = .closing) (hd : (pairOf s p).draining = none) (hn : (pairOf s p).enabling = []) :
    ∃ t, exec (.easelClosed p) s = .next t ∧ OnlyPairBecomes p (easelClosedOf (pairOf s p)) s t :=
  ⟨_, by rw [execEaselClosed_eq hp, easelShut_alone he hd], endEnables_updPair rfl hn⟩

end Pair

/-- Where both chains pass, a pair that may not open its easel is refused with NOT_ALLOWED. -/
theorem checkCause_notAllowed {p : Nat} {dn up : List IdRecord} {s : State} (ha : easelAllowed s p = false) (hd : chainCause s true dn = 0)
    (hu : chainCause s false up = 0) : checkCause s p dn up = 6 := by
  simp [checkCause, ha, hd, hu]

theorem closedState_eq (x : Pair) : closedState x = if x.recheck = true ∧ x.state ≠ .fault then .identifying else x.state := by
  simp [closedState]

/-- A pair whose drain no command waits for. -/
theorem easelClosedOf_eq {x : Pair} (hd : x.draining = none) : easelClosedOf x = { x with
    easel := .closed, drained := false, recheck := false, state := if x.recheck = true ∧ x.state ≠ .fault then .identifying else x.state } := by
  rw [easelClosedOf, closedState_eq, ← hd]

end Sys2Proof.Machine
end

section
/-! SUPPORT. Proofs of the ring and link statements (chapter 12): a link that comes up, and DISCOVER on it (O51). -/

namespace Sys2Proof.Machine
open Claims

/-- What is not in the ports of a pair is the same for pairs that differ in their ports at most. -/
theorem eq_of_offPorts {α : Type} (g : Pair → α) (hg : ∀ x, g (offPorts x) = g x) {x y : Pair} (h : offPorts x = offPorts y) : g x = g y := by
  rw [← hg x, h, hg y]

/-! ### A port on which nothing waits (R356) -/

/-- A port that is up, on which nothing waits and nothing is due, with a credit of VC 0 and room in its replay buffer. -/
structure QuietPort (p : Port) : Prop where
  up : p.up = true
  wait : p.wait = []
  open_ : p.open_ = []
  credit : p.credits.getD 0 0 ≠ 0
  room : p.replay.length < 64
  dues : hasDues p = false

theorem hasDues_eq_false {p : Port} : hasDues p = false ↔ p.ackDue = false ∧ p.nakDue = false ∧ ∀ c ∈ p.credDue, c = 0 := by
  simp [hasDues, and_assoc]

theorem credDue_of_noDues {p : Port} (h : hasDues p = false) (v : Nat) : p.credDue.getD v 0 = 0 := by
  obtain ⟨-, -, hcred⟩ := hasDues_eq_false.mp h
  rw [List.getD_eq_getElem?_getD]
  cases hv : p.credDue[v]? with
  | none => rfl
  | some c => exact hcred c (List.mem_of_getElem? hv)

/-- A one-flit message of VC 0 leaves a quiet port at once. -/
theorem flushPort_queueOwn {p : Port} (h : QuietPort p) {f : Flit} (hf : f.vc = 0) : flushPort (queueOwn [f] p) = putFlit f p := by
  have hq : queueOwn [f] p = { p with wait := [(f, false)] } := by simp [queueOwn, h.open_, h.wait]
  have hp : ({ p with wait := [] } : Port) = p := by rw [← h.wait]
  have hmay : maySend f p = true := by simpa [maySend, hf, h.room] using h.credit
  rw [hq]
  simp [flushPort, hp, h.wait, hmay]

/-- What a quiet port sends leaves nothing due. -/
theorem hasDues_putFlit {p : Port} (h : hasDues p = false) (f : Flit) : hasDues (putFlit f p) = false := by
  have hcred (v c : Nat) : ∀ d ∈ p.credDue.set v (p.credDue.getD v 0 - c), d = 0 := by
    intro d hd
    rcases List.mem_or_eq_of_mem_set hd with hd | rfl
    · exact (hasDues_eq_false.mp h).2.2 d hd
    · rw [credDue_of_noDues h, Nat.zero_sub]
  unfold putFlit
  dsimp only
  split <;> exact hasDues_eq_false.mpr ⟨rfl, rfl, hcred _ _⟩

theorem sendDues_noDues {p : Port} (h : hasDues p = false) (n : Nat) : sendDues n p = p := by
  cases n with
  | zero => rfl
  | succ n => exact if_neg (by simp [h])

/-! ### A DISCOVER on quiet ports (R353) -/

theorem farPort_sidePort (p : Nat) (dn : Bool) : farPort (sidePort p dn) = sidePort p (!dn) := by
  unfold farPort sidePort
  cases dn with
  | true => simp
  | false =>
    have hodd : (2 * p + 1) % 2 = 1 := by omega
    simp [hodd]

/-- The only flit of a DISCOVER message. -/
theorem msgFlits_discoverMsg (s : State) (p : Nat) (dn : Bool) (uid : Word64) (pri : Nat) :
    ∃ f, msgFlits (discoverMsg s p dn uid pri) = [f] ∧ f.typ = 3 ∧ f.vc = 0 ∧ f.first = true ∧ f.last = true := by
  have hcount : msgFlitCount (discoverMsg s p dn uid pri) = 1 := by
    have hbody : (discoverMsg s p dn uid pri).body.length = 9 := by simp [discoverMsg, leBytes_length]
    rw [msgFlitCount, hbody]
    rfl
  unfold msgFlits
  dsimp only
  rw [hcount]
  exact ⟨_, rfl, rfl, rfl, rfl, rfl⟩

/-- No credit of a forwarded flit is returned for a message of the module's own. -/
theorem fwdWaiting_queueOwn {p : Port} (h : QuietPort p) (f : Flit) (v : Nat) : fwdWaiting (queueOwn [f] p) v = 0 := by
  simp [fwdWaiting, queueOwn, h.open_, h.wait]

/-- A port that sends only flits of its own lets the other port of the pair, where nothing is due, send nothing. -/
theorem portOf_flushAt_noDues {n : Nat} {s : State} (hown : ∀ v, fwdWaiting (portOf s n) v = 0) (hdue : hasDues (portOf s (farPort n)) = false) :
    ∃ c, portOf (flushAt n s) (farPort n) = { portOf s (farPort n) with credDue := c } ∧ ∀ d ∈ c, d = 0 := by
  unfold flushAt
  dsimp only
  rw [portOf_updPort_self, portOf_updPort_ne (farPort_ne n)]
  obtain ⟨hack, hnak, hcred⟩ := hasDues_eq_false.mp hdue
  split
  · have hzero (v : Nat) : (portOf s (farPort n)).credDue.getD v 0 + (fwdWaiting (portOf s n) v - fwdWaiting (flushPort (portOf s n)) v) = 0 := by
      rw [credDue_of_noDues hdue, hown, Nat.zero_sub]
    have hall : ∀ d ∈ (List.range 4).map (fun _ => 0), d = 0 := by simp
    simp only [hzero]
    exact ⟨_, sendDues_noDues (p := { portOf s (farPort n) with credDue := (List.range 4).map (fun _ => 0) })
      (hasDues_eq_false.mpr ⟨hack, hnak, hall⟩) duesFuel, hall⟩
  · exact ⟨_, rfl, hcred⟩

/-- By a quiet port a DISCOVER goes out as one flit; the other port of the pair, where nothing is due either, sends nothing. -/
theorem discoverBy_quiet {p : Nat} {dn : Bool} {s : State} (hq : QuietPort (portOf s (sidePort p dn))) (hfar : hasDues (portOf s (sidePort p (!dn))) = false)
    (hd : (pairOf s p).draining = none) (uid : Word64) (pri : Nat) :
    ∃ f c, portOf (discoverBy p dn uid pri s) (sidePort p dn) = putFlit f (portOf s (sidePort p dn)) ∧
      portOf (discoverBy p dn uid pri s) (sidePort p (!dn)) = { portOf s (sidePort p (!dn)) with credDue := c } ∧ (∀ d ∈ c, d = 0) ∧
      f.typ = 3 ∧ f.first = true ∧ f.last = true := by
  obtain ⟨f, hflits, htyp, hvc, hfirst, hlast⟩ := msgFlits_discoverMsg s p dn uid pri
  rw [← farPort_sidePort] at hfar ⊢
  set n := sidePort p dn
  set w : State := { s with ring := { s.ring with out := s.ring.out ++ [discoverMsg s p dn uid pri] } }
  have hsent : discoverBy p dn uid pri s = flushAt n (updPort n (queueOwn [f]) w) := by
    rw [← hflits]
    exact if_pos (by simp [hq.up, hd, n])
  have hmine : portOf (updPort n (queueOwn [f]) w) n = queueOwn [f] (portOf s n) := portOf_updPort_self _ _ _
  have hother : portOf (updPort n (queueOwn [f]) w) (farPort n) = portOf s (farPort n) := portOf_updPort_ne (farPort_ne n) _ _
  obtain ⟨c, hc, hzero⟩ := portOf_flushAt_noDues (n := n) (s := updPort n (queueOwn [f]) w)
    (by rw [hmine]; exact fwdWaiting_queueOwn hq f) (by rw [hother]; exact hfar)
  rw [hsent, portOf_flushAt_self, hmine, flushPort_queueOwn hq hvc, hc, hother]
  exact ⟨f, c, rfl, rfl, hzero, htyp, hfirst, hlast⟩

/-- A flit of a CONTROL message goes out as it is, but for its number and what it carries along. -/
theorem out_putFlit_control {f : Flit} (ht : f.typ = 3) (p : Port) : ∃ g : Flit, (putFlit f p).out = p.out ++ [g] ∧ g.typ = 3 ∧ g.first = f.first ∧
    g.last = f.last := by
  obtain ⟨g, hout, htyp, -, -, hfirst, hlast, -⟩ := putFlit_numbered (f := f) (by simp [unnumbered, ht]) p
  exact ⟨g, hout, htyp.trans ht, hfirst, hlast⟩

/-- Both ports of a quiet pair send one DISCOVER flit. -/
theorem portSends_sendDiscover {p : Nat} {s : State} (hdn : QuietPort (portOf s (2 * p))) (hup : QuietPort (portOf s (2 * p + 1)))
    (hd : (pairOf s p).draining = none) :
    ∃ f g : Flit, PortSends (2 * p) [f] s (sendDiscover p s) ∧ PortSends (2 * p + 1) [g] s (sendDiscover p s) ∧ f.typ = 3 ∧ g.typ = 3 ∧
      f.first = true ∧ f.last = true := by
  set u := discoverBy p true s.uid (pairOf s p).masterPri s
  have hsend : sendDiscover p s = discoverBy p false s.uid (pairOf s p).masterPri u := rfl
  obtain ⟨f, c, hmine, hother, hc, hftyp, hffirst, hflast⟩ := discoverBy_quiet (dn := true) hdn hup.dues hd s.uid (pairOf s p).masterPri
  change portOf u (2 * p) = _ at hmine
  change portOf u (2 * p + 1) = { portOf s (2 * p + 1) with credDue := c } at hother
  obtain ⟨hack, hnak, -⟩ := hasDues_eq_false.mp hup.dues
  have hquiet : QuietPort (portOf u (2 * p + 1)) := by
    rw [hother]
    exact { hup with dues := hasDues_eq_false.mpr ⟨hack, hnak, hc⟩ }
  have hdues : hasDues (portOf u (2 * p)) = false := by
    rw [hmine]
    exact hasDues_putFlit hdn.dues f
  obtain ⟨g, b, hsecond, hback, -, hgtyp, -⟩ := discoverBy_quiet (dn := false) (s := u) hquiet hdues
    ((eq_of_offPorts Pair.draining (fun _ => rfl) (offPorts_sendRing _ p s)).trans hd) s.uid (pairOf s p).masterPri
  rw [← hsend] at hsecond hback
  change portOf (sendDiscover p s) (2 * p + 1) = _ at hsecond
  change portOf (sendDiscover p s) (2 * p) = { portOf u (2 * p) with credDue := b } at hback
  obtain ⟨f', hfout, hf'typ, hf'first, hf'last⟩ := out_putFlit_control hftyp (portOf s (2 * p))
  obtain ⟨g', hgout, hg'typ, -⟩ := out_putFlit_control hgtyp (portOf u (2 * p + 1))
  refine ⟨f', g', ?_, ?_, hf'typ, hg'typ, hf'first.trans hffirst, hf'last.trans hflast⟩
  · rw [PortSends, hback]
    exact (congrArg Port.out hmine).trans hfout
  · rw [PortSends, hsecond]
    refine hgout.trans ?_
    rw [hother]

/-! ### What DISCOVER both ways changes (R353) -/

theorem onlyPairChanges_sendDiscover (p : Nat) (s : State) : OnlyPairChanges p s (sendDiscover p s) :=
  onlyPairChanges_trans (onlyPairChanges_sendRing (discoverMsg s p true s.uid (pairOf s p).masterPri) s) (onlyPairChanges_sendRing _ _)

theorem offPorts_sendDiscover (p q : Nat) (s : State) : offPorts (pairOf (sendDiscover p s) q) = offPorts (pairOf s q) :=
  (offPorts_sendRing _ q _).trans (offPorts_sendRing _ q s)

theorem up_sendDiscover (p n : Nat) (s : State) : (portOf (sendDiscover p s) n).up = (portOf s n).up := (up_sendRing _ n _).trans (up_sendRing _ n s)

/-- The two messages by which a pair that can send both ways announces this module. -/
theorem out_sendDiscover {p : Nat} {s : State} (h : BothWays p s) : (sendDiscover p s).ring.out = s.ring.out ++
    [discoverMsg s p true s.uid (pairOf s p).masterPri, discoverMsg s p false s.uid (pairOf s p).masterPri] := by
  set u := discoverBy p true s.uid (pairOf s p).masterPri s
  have hplace : discoverMsg u p false s.uid (pairOf s p).masterPri = discoverMsg s p false s.uid (pairOf s p).masterPri := by
    have hpos : (pairOf u p).position = (pairOf s p).position :=
      eq_of_offPorts Pair.position (fun _ => rfl) (offPorts_sendRing _ p s)
    rw [discoverMsg, hpos]
    rfl
  have hsend : sendDiscover p s = discoverBy p false s.uid (pairOf s p).masterPri u := rfl
  rw [hsend, (h.discoverBy true s.uid _).out_discoverBy, h.out_discoverBy, List.append_assoc, hplace]
  rfl

/-! ### A link that is measured (R351) -/

/-- A pair whose two ports are trained and measured. -/
def linkedUp (hopDn hopUp : Nat) (x : Pair) : Pair :=
  { x with state := .up, hopDn := hopDn, hopUp := hopUp, memberList := false, dn := trainPort x.dn, up := trainPort x.up }

theorem up_trainPort (p : Port) : (trainPort p).up = true := by
  unfold trainPort
  split
  · assumption
  · rfl

theorem out_trainPort (p : Port) : (trainPort p).out = p.out := by
  unfold trainPort
  split <;> rfl

/-- A port that was down comes up with nothing left over. -/
theorem quietPort_trainPort {p : Port} (h : p.up = false) : QuietPort (trainPort p) := by
  have heq : trainPort p = { out := p.out, up := true } := if_neg (by simp [h])
  rw [heq]
  exact ⟨rfl, rfl, rfl, Nat.succ_ne_zero 31, Nat.zero_lt_succ 63, rfl⟩

section LinkUp

variable {p hopDn hopUp : Nat} {s : State} (hstate : (pairOf s p).state = .training) (he : (pairOf s p).easel = .opened)
  (hdn : (pairOf s p).dn.dark = false) (hup : (pairOf s p).up.dark = false) (hn : (pairOf s p).enabling = [])
include hstate he hdn hup hn

theorem linkUpAt_eq : ∃ u, linkUpAt p hopDn hopUp s = sendDiscover p u ∧ OnlyPairBecomes p (linkedUp hopDn hopUp (pairOf s p)) s u :=
  ⟨endEnables p (updPair p (linkedUp hopDn hopUp) s), if_pos (by simp [hstate, he, hdn, hup]), endEnables_updPair rfl hn⟩

/-- The pair is UP, and a discovery opens on it with DISCOVER both ways; ports that were down send it as their first flit. -/
theorem linkUp_discovers (hp : p < 16) (hd : (pairOf s p).draining = none) :
    ∃ (t : State) (a b : RingMsg), exec (.linkUp p hopDn hopUp) s = .next t ∧ OnlyPairChanges p s t ∧
      (pairOf t p).state = .up ∧ (pairOf t p).hopDn = hopDn ∧ (pairOf t p).hopUp = hopUp ∧ (pairOf t p).memberList = false ∧
      (pairOf t p).dn.up = true ∧ (pairOf t p).up.up = true ∧ (pairOf t p).easel = .opened ∧ t.ring.out = s.ring.out ++ [a, b] ∧
      (∀ m ∈ [a, b], m.pair = p ∧ m.typ = 3 ∧ m.kind = 5 ∧ m.body = leBytes 8 s.uid.toNat ++ leBytes 1 (pairOf s p).masterPri) ∧
      a.dn = true ∧ b.dn = false ∧
      ((pairOf s p).dn.up = false → (pairOf s p).up.up = false → ∃ f g : Flit, PortSends (2 * p) [f] s t ∧ PortSends (2 * p + 1) [g] s t ∧
        f.typ = 3 ∧ g.typ = 3 ∧ f.first = true ∧ f.last = true) := by
  obtain ⟨u, hu, hlinked⟩ := linkUpAt_eq (hopDn := hopDn) (hopUp := hopUp) hstate he hdn hup hn
  have hpair := hlinked.pairOf
  have hpdn : portOf u (2 * p) = trainPort (pairOf s p).dn := by rw [portOf_dn, hpair]; rfl
  have hpup : portOf u (2 * p + 1) = trainPort (pairOf s p).up := by rw [portOf_up, hpair]; rfl
  have hopen : (pairOf u p).draining = none := by rw [hpair]; exact hd
  have hways : BothWays p u := by
    refine ⟨fun dn => ?_, hopen⟩
    cases dn with
    | true => exact (congrArg Port.up hpdn).trans (up_trainPort _)
    | false => exact (congrArg Port.up hpup).trans (up_trainPort _)
  have hoff : offPorts (pairOf (sendDiscover p u) p) = offPorts (linkedUp hopDn hopUp (pairOf s p)) := by rw [offPorts_sendDiscover, hpair]
  have hring : u.ring.out = s.ring.out := by rw [hlinked.2.1]
  have hmsg : (pairOf u p).masterPri = (pairOf s p).masterPri := by rw [hpair]; rfl
  have huid : u.uid = s.uid := by rw [hlinked.1]
  have hports := out_sendDiscover hways
  rw [hring, hmsg, huid] at hports
  have hexec : exec (.linkUp p hopDn hopUp) s = .next (sendDiscover p u) :=
    (unitOp_of (by simpa [wfPair] using hp) _).trans (congrArg Host.Outcome.next hu)
  refine ⟨sendDiscover p u, _, _, hexec, onlyPairChanges_trans hlinked.onlyPairChanges (onlyPairChanges_sendDiscover p u),
    eq_of_offPorts Pair.state (fun _ => rfl) hoff, eq_of_offPorts Pair.hopDn (fun _ => rfl) hoff, eq_of_offPorts Pair.hopUp (fun _ => rfl) hoff,
    eq_of_offPorts Pair.memberList (fun _ => rfl) hoff, ?_, ?_, (eq_of_offPorts Pair.easel (fun _ => rfl) hoff).trans he, hports, ?_, rfl, rfl,
    fun hnd hnu => ?_⟩
  · rw [← portOf_dn, up_sendDiscover]
    exact hways.up true
  · rw [← portOf_up, up_sendDiscover]
    exact hways.up false
  · exact List.forall_mem_cons.mpr ⟨⟨rfl, rfl, rfl, rfl⟩, List.forall_mem_singleton.mpr ⟨rfl, rfl, rfl, rfl⟩⟩
  · have hsent := portSends_sendDiscover (by rw [hpdn]; exact quietPort_trainPort hnd) (by rw [hpup]; exact quietPort_trainPort hnu) hopen
    have hbefore : (portOf u (2 * p)).out = (portOf s (2 * p)).out := by rw [hpdn, out_trainPort, portOf_dn]
    have hbefore' : (portOf u (2 * p + 1)).out = (portOf s (2 * p + 1)).out := by rw [hpup, out_trainPort, portOf_up]
    unfold PortSends at hsent ⊢
    rwa [hbefore, hbefore'] at hsent

end LinkUp

end Sys2Proof.Machine
end

section
/-! SUPPORT. Proofs of the ring and link statements (chapter 12): links that are lost, link faults, and O51. -/

namespace Sys2Proof.Machine
open Claims

/-! ### A port that is down stays as it is (R357, R517) -/

theorem portOf_flushAt_keepsDown {k n : Nat} {s : State} (hne : n ≠ k) (h : (portOf s n).up = false) : portOf (flushAt k s) n = portOf s n := by
  unfold flushAt
  dsimp only
  by_cases hfar : n = farPort k
  · subst hfar
    rw [portOf_updPort_self, portOf_updPort_ne hne, if_neg (by simp [h])]
  · rw [portOf_updPort_ne hfar, portOf_updPort_ne hne]

theorem portOf_sendRing_keepsDown {n : Nat} {s : State} (h : (portOf s n).up = false) (m : RingMsg) : portOf (sendRing m s) n = portOf s n := by
  by_cases hsends : ((portOf s (sidePort m.pair m.dn)).up && (pairOf s m.pair).draining.isNone) = true
  · have hne : n ≠ sidePort m.pair m.dn := by
      rintro rfl
      simp [h] at hsends
    set w : State := { s with ring := { s.ring with out := s.ring.out ++ [m] } }
    have hsent : sendRing m s = flushAt (sidePort m.pair m.dn) (updPort (sidePort m.pair m.dn) (queueOwn (msgFlits m)) w) := if_pos hsends
    have hqueued : portOf (updPort (sidePort m.pair m.dn) (queueOwn (msgFlits m)) w) n = portOf s n := portOf_updPort_ne hne _ _
    rw [hsent, portOf_flushAt_keepsDown hne (by rw [hqueued]; exact h), hqueued]
  · rw [show sendRing m s = s from if_neg hsends]

theorem portOf_sendDiscover_keepsDown {p n : Nat} {s : State} (h : (portOf s n).up = false) : portOf (sendDiscover p s) n = portOf s n := by
  have hfirst : portOf (discoverBy p true s.uid (pairOf s p).masterPri s) n = portOf s n := portOf_sendRing_keepsDown h _
  exact (portOf_sendRing_keepsDown (by rw [hfirst]; exact h) _).trans hfirst

/-! ### A port that leaves UP (R352, R517) -/

/-- The pair trains, and the chain of its dark port is read. -/
def retrained (x : Pair) : Pair := { x with state := .training, reading := true }

/-- A pair of which a port has left UP: it trains, and its ring is a line to be discovered again. -/
def trainsAgain (line : List Word64) (x : Pair) : Pair := retrained { x with closed := false, memberList := false, line := line }

/-- What a port that leaves UP changes: it is dark, its pair trains, and the streams of its ring are broken. -/
structure LeavesUp (n : Nat) (s t : State) : Prop where
  rest : t = { s with ring := t.ring, ctxs := mapVals (streamsLost (portPair n)) s.ctxs }
  others : ∀ q, q ≠ portPair n → pairOf t q = pairOf s q
  pair : ∃ line, offPorts (pairOf t (portPair n)) = offPorts (trainsAgain line (pairOf s (portPair n)))
  port : portOf t n = { downPort (portOf s n) with dark := true }

/-- The state in which the other port of the pair has dropped what came in by the lost one. -/
def linkLost (n : Nat) (s : State) : State := flushAt (farPort n) (updPort (farPort n) dropOpen (loseLink n s))

theorem onlyPairChanges_linkLost (n : Nat) (s : State) : OnlyPairChanges (portPair n) s (linkLost n s) := by
  have hfar (t : State) : OnlyPairChanges (portPair n) t (flushAt (farPort n) (updPort (farPort n) dropOpen t)) := by
    rw [← portPair_farPort]
    exact onlyPairChanges_trans (onlyPairChanges_updPort _ _ t) (onlyPairChanges_flushAt _ _)
  exact onlyPairChanges_trans (onlyPairChanges_updPort n _ s) (hfar _)

theorem offPorts_linkLost (n : Nat) (s : State) (q : Nat) : offPorts (pairOf (linkLost n s) q) = offPorts (pairOf s q) :=
  (offPorts_flushAt _ _ q).trans ((offPorts_updPort _ _ _ q).trans (offPorts_updPort n _ s q))

theorem portOf_linkLost (n : Nat) (s : State) : portOf (linkLost n s) n = { downPort (portOf s n) with dark := true } := by
  have hlost : portOf (updPort (farPort n) dropOpen (loseLink n s)) n = { downPort (portOf s n) with dark := true } :=
    (portOf_updPort_ne (farPort_ne n).symm _ _).trans (portOf_updPort_self n _ s)
  exact (portOf_flushAt_keepsDown (farPort_ne n).symm (by rw [hlost]; rfl)).trans hlost

theorem leaveUp_rest (p : Nat) (s : State) :
    leaveUp p s = { s with ring := (leaveUp p s).ring, ctxs := mapVals (streamsLost p) s.ctxs } := by
  obtain ⟨hsent, -⟩ := onlyPairChanges_sendDiscover p (lineLeft p s)
  rw [lineLeft_eq] at hsent
  exact hsent

theorem pairOf_leaveUp_ne {p q : Nat} (h : q ≠ p) (s : State) : pairOf (leaveUp p s) q = pairOf s q := by
  rw [leaveUp_eq, (onlyPairChanges_sendDiscover p (lineLeft p s)).2 q h]
  exact pairOf_updPair_ne h _ s

theorem offPorts_leaveUp (p : Nat) (s : State) : offPorts (pairOf (leaveUp p s) p) = offPorts (leftUp s p (pairOf s p)) := by
  rw [leaveUp_eq, offPorts_sendDiscover, pairOf_lineLeft]

theorem portOf_leaveUp_keepsDown {p n : Nat} {s : State} (h : (portOf s n).up = false) : portOf (leaveUp p s) n = portOf s n := by
  have hport : portOf (lineLeft p s) n = portOf s n := portOf_updPair (f := leftUp s p) (fun _ => rfl) (fun _ => rfl) p n s
  rw [leaveUp_eq, portOf_sendDiscover_keepsDown (by rw [hport]; exact h), hport]

theorem portLeaves_eq {n : Nat} {s : State} (hup : (portOf s n).up = true) :
    portLeaves n s = updPair (portPair n) retrained (leaveUp (portPair n) (linkLost n s)) := if_pos hup

theorem portLeaves_down {n : Nat} {s : State} (hup : ¬ (portOf s n).up = true) : portLeaves n s = s := if_neg hup

theorem portLeaves_leavesUp {n : Nat} {s : State} (hup : (portOf s n).up = true) : LeavesUp n s (portLeaves n s) := by
  have hport := portOf_linkLost n s
  have hoff := offPorts_linkLost n s (portPair n)
  obtain ⟨hv, hvne⟩ := onlyPairChanges_linkLost n s
  rw [portLeaves_eq hup]
  generalize linkLost n s = v at hport hoff hv hvne
  set p := portPair n
  have hrest : leaveUp p v = { s with ring := (leaveUp p v).ring, ctxs := mapVals (streamsLost p) s.ctxs } :=
    (leaveUp_rest p v).trans (by rw [hv])
  refine ⟨?_, fun q hq => ?_, ⟨(leftUp v p (pairOf v p)).line, ?_⟩, ?_⟩
  · rw [hrest]
    rfl
  · rw [pairOf_updPair_ne hq, pairOf_leaveUp_ne hq, hvne q hq]
  · calc offPorts (pairOf (updPair p retrained (leaveUp p v)) p)
      _ = retrained (offPorts (pairOf (leaveUp p v) p)) := by rw [pairOf_updPair_self]; rfl
      _ = trainsAgain (leftUp v p (pairOf v p)).line (offPorts (pairOf v p)) := by rw [offPorts_leaveUp]; rfl
      _ = trainsAgain (leftUp v p (pairOf v p)).line (offPorts (pairOf s p)) := by rw [hoff]
  · rw [portOf_updPair (f := retrained) (fun _ => rfl) (fun _ => rfl), portOf_leaveUp_keepsDown (by rw [hport]; rfl), hport]

/-! ### Streams of a ring whose link is lost (R362) -/

/-- The streams that a broken ring leaves are those of other rings. -/
theorem mem_unbroken {p : Nat} {c : Context} {l : List Nat} (i : Nat) :
    i ∈ l.filter (fun i => !((c.prog.bind (fun g => g.streams[i]?)).any (fun e => e.ring = p && true))) ↔
      i ∈ l ∧ ∀ e, c.prog.bind (fun g => g.streams[i]?) = some e → e.ring ≠ p := by
  rw [List.mem_filter]
  cases c.prog.bind (fun g => g.streams[i]?) with
  | none => simp
  | some e => simp

theorem ctxOf_streamsLost {p : Nat} {s t : State} (h : t.ctxs = mapVals (streamsLost p) s.ctxs) (c : Nat) : ctxOf t c = streamsLost p (ctxOf s c) := by
  rw [ctxOf, h]
  exact mapGet_mapVals rfl _ _

/-- A context keeps the connections of its streams on other rings. -/
theorem streamsLost_keeps {p : Nat} {s t : State} (h : t.ctxs = mapVals (streamsLost p) s.ctxs) (c : Nat) :
    ctxOf t c = { ctxOf s c with linked := (ctxOf t c).linked, joined := (ctxOf t c).joined } ∧
    ∀ i, (i ∈ (ctxOf t c).linked ↔ i ∈ (ctxOf s c).linked ∧ ∀ e, streamEntryAt s c i = some e → e.ring ≠ p) ∧
      (i ∈ (ctxOf t c).joined ↔ i ∈ (ctxOf s c).joined ∧ ∀ e, streamEntryAt s c i = some e → e.ring ≠ p) := by
  rw [ctxOf_streamsLost h]
  exact ⟨rfl, fun i => ⟨mem_unbroken i, mem_unbroken i⟩⟩

theorem linkLeavesUp_breaks {n : Nat} {s : State} (hn : n < 32) (hup : (portOf s n).up = true) :
    ∃ t, exec (.linkLeavesUp n) s = .next t ∧ t = { s with ring := t.ring, ctxs := t.ctxs } ∧ (∀ q, q ≠ portPair n → pairOf t q = pairOf s q) ∧
      (portOf t n).up = false ∧ (portOf t n).dark = true ∧ (pairOf t (portPair n)).state = .training ∧ (pairOf t (portPair n)).reading = true ∧
      (pairOf t (portPair n)).closed = false ∧ (pairOf t (portPair n)).memberList = false ∧ (pairOf t (portPair n)).easel = (pairOf s (portPair n)).easel ∧
      (pairOf t (portPair n)).members = (pairOf s (portPair n)).members ∧
      (∀ c, ctxOf t c = { ctxOf s c with linked := (ctxOf t c).linked, joined := (ctxOf t c).joined } ∧
        (∀ i, (i ∈ (ctxOf t c).linked ↔ i ∈ (ctxOf s c).linked ∧ ∀ e, streamEntryAt s c i = some e → e.ring ≠ portPair n) ∧
          (i ∈ (ctxOf t c).joined ↔ i ∈ (ctxOf s c).joined ∧ ∀ e, streamEntryAt s c i = some e → e.ring ≠ portPair n))) := by
  obtain ⟨hrest, hothers, ⟨line, hpair⟩, hport⟩ := portLeaves_leavesUp hup
  have hctxs : (portLeaves n s).ctxs = mapVals (streamsLost (portPair n)) s.ctxs := by rw [hrest]
  refine ⟨portLeaves n s, unitOp_of (by simpa [wfPort] using hn) _, by rw [hrest], hothers, by rw [hport]; rfl, by rw [hport],
    eq_of_offPorts Pair.state (fun _ => rfl) hpair, eq_of_offPorts Pair.reading (fun _ => rfl) hpair, eq_of_offPorts Pair.closed (fun _ => rfl) hpair,
    eq_of_offPorts Pair.memberList (fun _ => rfl) hpair, (eq_of_offPorts Pair.easel (fun _ => rfl) hpair :),
    (eq_of_offPorts Pair.members (fun _ => rfl) hpair :), streamsLost_keeps hctxs⟩

/-! ### Link faults (R349, R357) -/

/-- What the loss of links changes outside the pair: the streams of contexts. -/
def OnlyLinksLost (p : Nat) (s t : State) : Prop := t = { s with ring := t.ring, ctxs := t.ctxs } ∧ ∀ q, q ≠ p → pairOf t q = pairOf s q

theorem onlyLinksLost_portLeaves {n p : Nat} (h : portPair n = p) (s : State) : OnlyLinksLost p s (portLeaves n s) := by
  subst h
  by_cases hup : (portOf s n).up = true
  · obtain ⟨hrest, hothers, -, -⟩ := portLeaves_leavesUp hup
    exact ⟨by rw [hrest], hothers⟩
  · rw [portLeaves_down hup]
    exact ⟨rfl, fun _ _ => rfl⟩

theorem OnlyLinksLost.trans {p : Nat} {s t u : State} (h : OnlyLinksLost p s t) (g : OnlyLinksLost p t u) : OnlyLinksLost p s u := by
  obtain ⟨ht, hq⟩ := h
  obtain ⟨hu, gq⟩ := g
  exact ⟨by rw [hu, ht], fun q hne => (gq q hne).trans (hq q hne)⟩

theorem state_portLeaves {n p : Nat} (h : portPair n = p) (s : State) :
    (pairOf (portLeaves n s) p).state = if (portOf s n).up then .training else (pairOf s p).state := by
  subst h
  split
  next hup =>
    obtain ⟨-, -, ⟨line, hpair⟩, -⟩ := portLeaves_leavesUp hup
    exact eq_of_offPorts Pair.state (fun _ => rfl) hpair
  next hup => rw [portLeaves_down hup]

theorem easel_portLeaves {n p : Nat} (h : portPair n = p) (s : State) : (pairOf (portLeaves n s) p).easel = (pairOf s p).easel := by
  subst h
  by_cases hup : (portOf s n).up = true
  · obtain ⟨-, -, ⟨line, hpair⟩, -⟩ := portLeaves_leavesUp hup
    exact (eq_of_offPorts Pair.easel (fun _ => rfl) hpair :)
  · rw [portLeaves_down hup]

theorem up_portLeaves_ne {m n : Nat} (h : m ≠ n) (s : State) : (portOf (portLeaves n s) m).up = (portOf s m).up := by
  by_cases hup : (portOf s n).up = true
  · rw [(linksKept_portLeaves hup).up, loseLink, portOf_updPort_ne h]
  · rw [portLeaves_down hup]

/-- Both ports of a pair, of which one was up at least, leave UP. -/
theorem bothLeave {p : Nat} {s : State} (hup : (pairOf s p).dn.up = true ∨ (pairOf s p).up.up = true) :
    ∃ t, portLeaves (2 * p) (portLeaves (2 * p + 1) s) = t ∧ OnlyLinksLost p s t ∧ LinksLost s t ∧ (pairOf t p).state = .training ∧
      (pairOf t p).dn.up = false ∧ (pairOf t p).up.up = false ∧ (pairOf t p).easel = (pairOf s p).easel := by
  set u := portLeaves (2 * p + 1) s
  obtain ⟨hlost, hdown⟩ := linksLost_portLeaves (2 * p + 1) s
  obtain ⟨hlost', hdown'⟩ := linksLost_portLeaves (2 * p) u
  refine ⟨_, rfl, (onlyLinksLost_portLeaves (portPair_up p) s).trans (onlyLinksLost_portLeaves (portPair_dn p) u), hlost.trans hlost', ?_, ?_, ?_, ?_⟩
  · rw [state_portLeaves (portPair_dn p), state_portLeaves (portPair_up p), up_portLeaves_ne (by omega), portOf_dn, portOf_up]
    rcases hup with h | h <;> simp [h]
  · rw [← portOf_dn]
    exact hdown'
  · rw [← portOf_up]
    exact hlost'.2.1 _ hdown
  · rw [easel_portLeaves (portPair_dn p), easel_portLeaves (portPair_up p)]

/-- A link fault of a pair that is counted and entered in the error log. -/
def faultEntered (p ms : Nat) (s : State) : State := logEvent 10 0 0 0 p 0 0 0 (countFault p ms s)

theorem eventLogged_faultEntered (p ms : Nat) (s : State) : EventLogged 10 s (faultEntered p ms s) :=
  eventLogged_of_logs (eventLogged_logEvent 10 0 0 0 p 0 0 0 (countFault p ms s)) rfl rfl

/-- A pair whose link fault is counted. -/
def faultCounted (ms : Nat) (x : Pair) : Pair := { x with linkFaults := stick32 (x.linkFaults + 1), faultMs := recentFaults x ms }

theorem pairOf_faultEntered (p ms : Nat) (s : State) : pairOf (faultEntered p ms s) p = faultCounted ms (pairOf s p) := by
  change pairOf (countFault p ms s) p = _
  rw [countFault, pairOf_updPair_self]
  rfl

theorem pairOf_faultEntered_ne {p q : Nat} (h : q ≠ p) (ms : Nat) (s : State) : pairOf (faultEntered p ms s) q = pairOf s q := by
  change pairOf (countFault p ms s) q = _
  exact pairOf_updPair_ne h _ _

theorem execLinkFault_eq {p ms : Nat} {s : State} (hp : p < 16) (hup : (pairOf s p).dn.up = true ∨ (pairOf s p).up.up = true) :
    exec (.linkFault p ms) s = .next (if 3 ≤ (recentFaults (pairOf s p) ms).length then endEnables p (closeEasel p .fault (faultEntered p ms s))
      else portLeaves (2 * p) (portLeaves (2 * p + 1) (faultEntered p ms s))) := by
  have hfault : faultLink p ms s = if 3 ≤ (recentFaults (pairOf s p) ms).length then endEnables p (closeEasel p .fault (faultEntered p ms s))
      else portLeaves (2 * p) (portLeaves (2 * p + 1) (faultEntered p ms s)) := if_pos (by simpa using hup)
  exact (unitOp_of (by simpa [wfPair] using hp) _).trans (congrArg Host.Outcome.next hfault)

section LinkFault

variable {p ms : Nat} {s : State} (hp : p < 16) (hup : (pairOf s p).dn.up = true ∨ (pairOf s p).up.up = true)
include hp hup

theorem linkFault_retrains (hfew : (recentFaults (pairOf s p) ms).length < 3) : ∃ t, exec (.linkFault p ms) s = .next t ∧
    t = { s with ring := t.ring, ctxs := t.ctxs, logs := t.logs } ∧ (∀ q, q ≠ p → pairOf t q = pairOf s q) ∧
    (pairOf t p).linkFaults = stick32 ((pairOf s p).linkFaults + 1) ∧ (pairOf t p).state = .training ∧ (pairOf t p).dn.up = false ∧
    (pairOf t p).up.up = false ∧ (pairOf t p).easel = (pairOf s p).easel ∧ EventLogged 10 s t := by
  set u := faultEntered p ms s with hu
  have hpair : pairOf u p = faultCounted ms (pairOf s p) := pairOf_faultEntered p ms s
  obtain ⟨t, ht, ⟨hrest, hothers⟩, ⟨hfaults, -, hlogs⟩, hstate, hdn, hup', heasel⟩ := bothLeave (p := p) (s := u) (by rw [hpair]; exact hup)
  refine ⟨t, by rw [execLinkFault_eq hp hup, if_neg (by omega), ht], ?_, fun q hq => ?_, ?_, hstate, hdn, hup', ?_,
    eventLogged_of_logsGrow (eventLogged_faultEntered p ms s) hlogs⟩
  · rw [hrest]
    rfl
  · exact (hothers q hq).trans (pairOf_faultEntered_ne hq ms s)
  · rw [hfaults, hpair]
    rfl
  · rw [heasel, hpair]
    rfl

theorem linkFault_stops (hmany : 3 ≤ (recentFaults (pairOf s p) ms).length) (ht : s.red.tags = []) : ∃ t, exec (.linkFault p ms) s = .next t ∧
    (pairOf t p).state = .fault ∧ (pairOf t p).easel ≠ .opened ∧ (pairOf t p).easel ≠ .opening ∧ (pairOf t p).dn.up = false ∧
    (pairOf t p).up.up = false ∧ (pairOf t p).members = [] ∧ EventLogged 10 s t := by
  set u := faultEntered p ms s
  obtain ⟨c, f, r, hclosed, -, hpair, -⟩ := closeEasel_becomes (p := p) (s := u) .fault ht
  set v := closeEasel p .fault u
  obtain ⟨host, hend, hended⟩ := endEnables_settles (p := p) (s := v) (by rw [hpair]; simp [Joining, offRing, closePair])
  rw [hpair] at hended
  have heasel : (pairOf (endEnables p v) p).easel = if (pairOf u p).easel = .closed then .closed else .closing := by rw [hended]; rfl
  refine ⟨endEnables p v, by rw [execLinkFault_eq hp hup, if_pos hmany], ?_, ?_, ?_, ?_, ?_, ?_, ?_⟩
  · rw [hended]; rfl
  · rw [heasel]; split <;> simp
  · rw [heasel]; split <;> simp
  · rw [hended]; rfl
  · rw [hended]; rfl
  · rw [hended]; rfl
  · exact eventLogged_of_logs (eventLogged_faultEntered p ms s) rfl (by rw [hend, hclosed]; rfl)

end LinkFault

/-- Settles O51, clause by clause: presence changes, identity checks, easels, links that come up, link faults and ports that leave UP. -/
theorem pairsComeUpAndGoDown : Obligations.PairsComeUpAndGoDown := by
  unfold Obligations.PairsComeUpAndGoDown
  refine ⟨fun j s hj h1 => connectorPresenceChange_reads hj h1, fun p s hp => ⟨fun hstate he => identityRetry_reads hp hstate he,
    fun dn up hfit hs hi => ⟨fun hc => identityCheck_passes hp hfit hs hi hc, fun hc hn => identityCheck_fails hp hfit hs hi hc hn,
      fun ha hd hu => checkCause_notAllowed ha hd hu⟩,
    fun he => easelOpen_opens hp he, fun he hd hn => ?_,
    fun hopDn hopUp hstate he hdn hup hn hd => linkUp_discovers hstate he hdn hup hn hp hd,
    fun ms hup => ⟨fun hfew => linkFault_retrains hp hup hfew, fun hmany ht => linkFault_stops hp hup hmany ht⟩⟩,
    fun n s hn hup => linkLeavesUp_breaks hn hup⟩
  rw [← easelClosedOf_eq hd]
  exact easelClosed_closes hp he hd hn

end Sys2Proof.Machine
end
